-- ==== Sys2Proof/Word.lean ====
section
/-!
DEFINITION. The word types of the PV4852: a byte, a half-word, a register word and a double word.
-/

namespace Sys2Proof

/-- One byte of a memory. -/
abbrev Byte := BitVec 8

/-- One register, record or instruction word (R7: little-endian wherever it lies in memory). -/
abbrev Word := BitVec 32

/-- A 64-bit quantity held in a LO and a HI register. -/
abbrev Dword := BitVec 64

end Sys2Proof
end

