-- ==== Sys2Proof/Syntax.lean ====
section
/-!
DEFINITION. The commands of the PV4852: one constructor of `Instr` per row of the opcode table, and the types of their operands.  A
command comes from outside (a register access, a debug scan, a pin or a link) or names the point in time at which an engine of the part
takes its next step; the State holds the rest of what it needs.
-/

namespace Sys2Proof.Machine

/-- A block instance with a CTRL register. -/
inductive Block where
  | tick | tg (n : Nat) | obj | tp | sl (s : Nat) | mx (n : Nat) | dm (n : Nat) | hop | fl (n : Nat) | ring | aud
  | kc (c : Nat) | intc (c : Nat) | tmr | dma | blt | gp | pio | mem | sys | upd | sec | av | dbg
deriving DecidableEq, Repr

end Sys2Proof.Machine

namespace Sys2Proof

/-- A ring frame (Tables 10-1, 10-2) without its kind, which the command names: header fields, whether the frame is one that R301 does not
discard (false: its CRC is bad, or its KIND is not listed, and it comes as a frame of any kind), and D1, D2 and so on before the CRC
block. -/
structure RFrame where
  origin : Nat := 0
  hops : Nat := 0
  seq : Nat := 0
  crcOk : Bool := true
  ds : List (BitVec 64) := []
deriving DecidableEq, Repr, Inhabited

/-- Who sends a register or memory command: the host over PCI Express, a Krytesh core, the debug bus master, or the device itself
(a hopper record, a DMA channel or a blitter acting for its owner). -/
inductive Agent where
  | host
  | core (c : Nat)
  | dbg
  | device
deriving DecidableEq, Repr, Inhabited

/-- Is it an agent of this part? -/
def Agent.ok : Agent → Bool
  | .core c => decide (c < 4)
  | _ => true

/-- The word that a read finds in error (R468, R475, R554): by address, or by its place in a structure of the composition path or of
Tailrace. -/
inductive UeAt where
  /-- an SRAM byte address: palettes, tile maps, the audio sample area, bank 86 onward -/
  | sram (a : Nat)
  /-- an LPDDR5X byte address -/
  | lp (a : Nat)
  /-- a TCM address of a core -/
  | tcm (c a : Nat)
  /-- a word of a Damsel or PIO program memory, by BAR0 offset -/
  | window (off : Nat)
  /-- word `w` of slot A or B of an object record -/
  | obj (n : Nat) (slotB : Bool) (w : Nat)
  /-- slot A or B of a group entry -/
  | grp (n : Nat) (slotB : Bool)
  /-- entry `i` of an output's bin in the index of epoch `e` -/
  | entry (e out bin i : Nat)
  /-- the header of an output's bin -/
  | bin (e out bin : Nat)
  /-- a line of the pattern and tile-map cache -/
  | cache (line : Nat)
  /-- the line-buffer or scaled-line pixel at `x` of a line of a slice -/
  | pixel (slice line x : Nat)
  /-- the pond record of an order number -/
  | pond (order : Nat)
  /-- a signal of the audio signal memory -/
  | signal (i : Nat)
deriving DecidableEq, Repr

/-- Who made the read. -/
inductive Reader where
  | hw
  | core (c : Nat)
  | dma (ch : Nat)
  | blt (e : Nat)
  | dbg
deriving DecidableEq, Repr

/-- Every command of the opcode table: one constructor per row, in the order of the table. -/
inductive Instr where
  /-- REGISTER_WRITE (R8): A write to a register field that has no row of its own acts by its access code and its chapter's update rule. -/
  | registerWrite (ag : Agent) (off : Nat) (data : List Byte)
  /-- RC_READ (R8): A read of an RC field returns its value and then clears it, keeping any coincident event for the next read. -/
  | rcRead (ag : Agent) (off n : Nat)
  /-- SHADOW_LO_READ (R59): A read of a LO half (flip timestamp, tick number, epoch, ring time and similar) copies the matching HI and
  companion values into shadows for the following reads. -/
  | shadowLoRead (ag : Agent) (off : Nat)
  /-- LEVEL_TO_EXPERT (R13): A CTRL write that changes LEVEL from 0 to 1 applies the written or held PROFILE, copies the derived values
  into the expert registers and makes them live. -/
  | levelToExpert (ag : Agent) (b : Machine.Block) (p : Nat)
  /-- LEVEL_TO_BASIC (R14): A CTRL write that changes LEVEL from 1 to 0 discards the expert values and schedules the PROFILE-derived
  values for the update point. -/
  | levelToBasic (ag : Agent) (b : Machine.Block) (p : Nat)
  /-- PROFILE_WRITE (R15): A CTRL write at the basic level that changes PROFILE schedules the derived setting for the block's update
  point, or ignores a reserved PROFILE and sets IGNWR. -/
  | profileWrite (ag : Agent) (b : Machine.Block) (p : Nat)
  /-- PROFILE_STORE_EXPERT (R617): A CTRL write that keeps LEVEL at 1 with another PROFILE only stores that PROFILE. -/
  | profileStoreExpert (ag : Agent) (b : Machine.Block) (p : Nat)
  /-- EXPERT_REGISTER_WRITE (R616): A write to an expert register at the expert level reads back at once and takes effect at its update
  point; at the basic level it is ignored and sets IGNWR. -/
  | expertRegisterWrite (ag : Agent) (off : Nat) (v : Word)
  /-- POR_N_ASSERT (R18): POR_N low resets both the always-on and the core domain. -/
  | porAssert
  /-- POR_N_RELEASE (R509): At the release of POR_N the straps latch, the timebase starts, the TBCLK PLL locks and the node runs
  standalone. -/
  | porRelease (node : Nat)
  /-- CORE_RST_N_ASSERT (R18): CORE_RST_N low resets the core domain while the always-on domain runs on and the pads hold. -/
  | coreRstAssert
  /-- CORE_RST_N_RELEASE (R510): At the release of CORE_RST_N the boot sequencer starts its phases on the safe clock. -/
  | coreRstRelease
  /-- LPDDR5X_TRAINED (R510): LPDDR5X initialisation and training ends, LP_READY sets and boot phase 8 may begin. -/
  | lpTrained
  /-- HOST_SET (R512): A write of SYS_BOOT_CMD.HOST_SET while NO_IMAGE is 1 resumes boot at phase 4 on the host-placed set. -/
  | hostSet (ag : Agent) (v : Word)
  /-- SYS_CORE_START (R513): A write of SYS_CORE_START by KC0 starts the named cores from area A in ascending order, KC3 first. -/
  | sysCoreStart (ag : Agent) (v : Word)
  /-- SOFT_RESET (R507): A write of the key to SYS_RST_CMD by the host or KC0 resets the core domain as CORE_RST_N would. -/
  | softReset (ag : Agent) (v : Word)
  /-- CORE_POWER_OFF (R595): The core rails fall after CORE_RST_N while the always-on group keeps the tick, ring and pads running. -/
  | corePowerOff
  /-- VDD_SRAM_LOSS (R596): VDD_SRAM falling below 0.60 V with banks retained clears RET of every bank and loses their contents and
  spare-row assignments. -/
  | vddSramLoss
  /-- VDD_AON_LOSS (R597): VDD_AON below 0.62 V for 1 µs acts as POR_N low until the rail and POR_N return. -/
  | vddAonLoss
  /-- TICK_ISSUE (R38): The flywheel issues a mill tick on the last TBCLK edge at or before its fixed time, raising the tick number by
  1. -/
  | tickIssue
  /-- TICK_IN_EDGE (R40): An active TICK_IN edge, time-stamped and compensated, is judged valid or not against the tick window and
  corrects the flywheel.  IN_POL says whether it is the rising or the falling edge (R44). -/
  | tickInEdge
  /-- TICK_WINDOW_CLOSE (R40): A tick's reference window closes without a valid edge and adds 1 to TG_TICK_MISS_CNT. -/
  | tickWindowClose
  /-- TICK_SRC_SELECT (R39): A write of TG_TICK_CTRL.SRC selects internal, TICK_IN or ring; 0 clears HOLDOVER and SLEWING, 1 or 2 starts
  re-acquisition, 3 sets RATE_ERR. -/
  | tickSrcSelect (ag : Agent) (src : Nat)
  /-- TICK_RATE_SUBMIT (R46): A write of TG_TICK_RATE_DEN submits the rate with the staged numerator, which is checked and scheduled or
  refused with RATE_ERR. -/
  | tickRateSubmit (ag : Agent) (den : Word)
  /-- TICK_PROFILE_WRITE (R49): A write that applies a tick PROFILE at the basic level submits the profile's rate and settings for the
  tick R48 names. -/
  | tickProfileWrite (ag : Agent) (p : Nat)
  /-- TG_ENABLE (R53): Enabling a timing generator with a non-zero profile takes it from OFF into ACQUIRING and clears its frame count. -/
  | tgEnable (ag : Agent) (n p : Nat)
  /-- TG_DISABLE (R53): Clearing ENABLE or selecting PROFILE 0 puts the generator in OFF. -/
  | tgDisable (ag : Agent) (n : Nat)
  /-- TG_TIMING_WRITE (R52): A new timing is checked by R47 and R51 and takes effect at the next frame start after the next tick, or is
  refused with RATE_ERR. -/
  | tgTimingWrite (ag : Agent) (n ix : Nat) (v : Word)
  /-- PCLK_PLL_LOCK (R53): The pixel PLL locks within 100 µs of ACQUIRING and the generator fixes its start point and lead-in. -/
  | pclkPllLock (n : Nat)
  /-- TG_LINE_BEGIN (R54): The beam begins a line: the trim is set anew and the line's LINE_START packet is formed 20 PCLK later. -/
  | tgLineBegin (n line : Nat)
  /-- GLIDE_LOCK (R62): The PLL reports lock at the new frequency; the generator fixes its start point and later returns to LOCKED and
  counts the glide. -/
  | glideLock (n : Nat)
  /-- FRAME_START (R59): An output's frame start counts the frame, latches the flip timestamp and epoch for a newly taken-up epoch and
  raises source 8 + n. -/
  | frameStart (n : Nat)
  /-- COMMIT_DECISION (R31): 2 CCLK after a tick, or when the previous flip ends, the device decides to hold or proceed with the commit
  and starts it, raising source 3. -/
  | commitDecision
  /-- FLIP_END (R27): The commit's selector flip ends, making the epoch current, and the Bolter build starts or the index is reused. -/
  | flipEnd
  /-- BOLTER_BUILD_COMPLETE (R93): The pass writes its last entry and the indexes of all outputs become complete, with per-output counts
  and drop status. -/
  | bolterBuildComplete
  /-- TAKE_UP_EDGE (R29): At 2 CCLK after the take-up point the output's slice takes up the newest complete index and page maps for the
  frame and live values reload. -/
  | takeUpEdge (n : Nat)
  /-- LINE_BUILD_START (R150): At a line's build start the slice latches index, live registers, plane order and SL_CFG and starts its
  tile fetcher. -/
  | lineBuildStart (sl line : Nat)
  /-- OBJECT_BUILD_BEGIN (R152): Once the build start has passed and the previous line's build has ended, the object build reads the
  bin, sets up and rasterizes, or abandons a late start. -/
  | objectBuildBegin (sl : Nat)
  /-- OBJECT_BUILD_END (R155): The object build of a line ends and its line set awaits the due point. -/
  | objectBuildEnd (sl : Nat)
  /-- LINE_DUE_POINT (R152): At the due point the line set is handed to the mixer, or an unfinished line is abandoned and repeated. -/
  | lineDuePoint (sl line : Nat)
  /-- CACHE_FILL (R133): A 128-byte line fill arrives from LPDDR5X into the pattern and tile-map cache and releases stalled fetches. -/
  | cacheFill (line : Nat)
  /-- VIDEO_ROW_ARRIVAL (R185): A video-plane source row arrives in the fetch FIFO and line memory for scaling. -/
  | videoRowArrival (sl p : Nat)
  /-- MIX_GROUP (R167): A 4-pixel group enters the mixer, samples the sluice values, mixes the planes and passes the pipeline to the
  framer. -/
  | mixGroup (n x : Nat) (miss : Bool)
  /-- OBJ_PEEK (R88): A write of OBJ_PEEK_SEL copies the eight words of the chosen object slot into OBJ_PEEK_W0–W7 in one CCLK. -/
  | objPeek (ag : Agent) (v : Word)
  /-- OBJ_GPEEK (R88): A write of OBJ_GPEEK_SEL copies the chosen group slot into OBJ_GPEEK_W0–W2. -/
  | objGpeek (ag : Agent) (v : Word)
  /-- FRAME_VALUE_WRITE (R118): A host, core or REG_NOW write to a register with frame values sets the live value and the frame values
  of every epoch still to be taken up. -/
  | frameValueWrite (ag : Agent) (off : Nat) (v : Word)
  /-- CACHE_INVALIDATE (R139): A write of 1 to TP_INV_CMD.GO starts invalidating the range and sets BUSY, unless busy or LEN is 0. -/
  | cacheInvalidate (ag : Agent)
  /-- INVALIDATE_DONE (R139): The invalidation scan and refetch of locked lines end and BUSY clears. -/
  | invalidateDone
  /-- STAGED_WRITE (R170): A write to a sluice staged alias changes only the staged copy. -/
  | stagedWrite (ag : Agent) (n ix : Nat) (v : Word)
  /-- SL_LCOMMIT (R170): A write of SL_LCOMMIT copies the staged registers of objects FIRST to LAST into the live registers in one CCLK. -/
  | slLcommit (ag : Agent) (n : Nat) (v : Word)
  /-- SL_LEN_SET (R169): A write to SL_LEN_SET sets the EN bits of the named sluice objects. -/
  | slLenSet (ag : Agent) (n : Nat) (hi : Bool) (v : Word)
  /-- SL_LEN_CLR (R169): A write to SL_LEN_CLR clears the EN bits of the named sluice objects. -/
  | slLenClr (ag : Agent) (n : Nat) (hi : Bool) (v : Word)
  /-- SL_LROUTE_WRITE (R172): A write of a pin route sets it up; a route made valid in mode 1 or 2 sets EN at once, and an unmuxed pin
  sets ROUTE_ERR. -/
  | slLrouteWrite (ag : Agent) (n ix : Nat) (v : Word)
  /-- TABLE_WINDOW_WRITE (R194): A write to the table window writes the free bank, or is ignored with TBL_BUSY while a copy or bank
  change is pending. -/
  | tableWindowWrite (ag : Agent) (n off : Nat) (v : Word)
  /-- TABLE_COPY (R194): A write of MX_TBL_CMD.COPY starts copying the bank in use into the free bank and sets BUSY. -/
  | tableCopy (ag : Agent) (n : Nat)
  /-- TABLE_COPY_DONE (R194): The table copy ends after 848 CCLK and BUSY clears. -/
  | tableCopyDone (n : Nat)
  /-- MX_FMT_WRITE (R197): A write of MX_FMT schedules the format for the next frame start after the next tick, or is refused with
  FMT_ERR for a reserved code. -/
  | mxFmtWrite (ag : Agent) (n : Nat) (v : Word)
  /-- STOP (R219): The Damsel engine stops until the next restart. -/
  | dmStop (n : Nat)
  /-- WAIT (R221): The Damsel engine sets its target line and begins waiting for a beam point by MODE. -/
  | dmWait (n : Nat)
  /-- WAIT_POINT_REACHED (R220): The synchronised beam reaches the awaited point and the engine continues with the next instruction. -/
  | dmPointReached (n : Nat)
  /-- WAITEV (R222): The Damsel engine begins waiting for an event input or a timeout line. -/
  | dmWaitEv (n : Nat)
  /-- WAITEV_COMPLETE (R222): An event is consumed or the timeout line is reached, setting or clearing TIMEOUT, and the engine
  continues. -/
  | dmWaitEvComplete (n : Nat)
  /-- WRITE (R216): The Damsel engine writes one register of its space from an immediate, data register or table word. -/
  | dmWrite (n : Nat)
  /-- WRITEM (R223): The Damsel engine writes N consecutive indices, all issuing in one CCLK. -/
  | dmWriteM (n : Nat)
  /-- SKIPIF (R224): The Damsel engine skips the next instruction when its condition holds. -/
  | dmSkipIf (n : Nat)
  /-- JUMP (R219): The Damsel engine sets PC to TARGET. -/
  | dmJump (n : Nat)
  /-- LOOP (R219): The Damsel engine decrements a non-zero loop counter and branches, or continues. -/
  | dmLoop (n : Nat)
  /-- DM_EV_TRIG (R226): A write of DM_EV_TRIG adds one event to each named input. -/
  | dmEvTrig (ag : Agent) (n : Nat) (v : Word)
  /-- DM_EV_SEL_WRITE (R226): A write of DM_EV_SEL selects an input's source and sets its count to 0. -/
  | dmEvSelWrite (ag : Agent) (n ix : Nat) (v : Word)
  /-- DM_PM_WRITE (R231): A host or core write to Damsel program memory is accepted only while RUN in force is 0, else PM_DENIED. -/
  | dmPmWrite (ag : Agent) (n a : Nat) (v : Word)
  /-- TAIL_WRITE (R236): A write of a ring's TAIL publishes records, or stops the ring with TAIL_ERR when beyond its size. -/
  | tailWrite (ag : Agent) (r : Nat) (v : Word)
  /-- RING_ENABLE (R236): A descriptor write setting ENABLE to 1 tests HEAD and TAIL and resumes a stopped ring or keeps it stopped. -/
  | ringEnable (ag : Agent) (r : Nat) (v : Word)
  /-- RING_DISABLE (R239): A write of ENABLE 0 stops fetching after the service in progress, keeping HEAD and accepted records. -/
  | ringDisable (ag : Agent) (r : Nat)
  /-- DESCRIPTOR_WRITE (R235): A write to a ring descriptor by a non-owner or changing base, location or size while enabled is ignored
  and flagged. -/
  | descriptorWrite (ag : Agent) (r ix : Nat) (v : Word)
  /-- RING_SERVICE (R237): The hopper serves the next eligible ring by class and round robin, fetching up to 64 published records. -/
  | ringService (data : List Word)
  /-- NOP (R241): A NOP record is passed over and HEAD advances. -/
  | hopNop (r : Nat)
  /-- OBJ_WRITE (R86): An OBJ_WRITE pair is checked, stamped and staged, and at its commit replaces the object's non-current slot. -/
  | hopObjWrite (r : Nat)
  /-- OBJ_PATCH (R243): An OBJ_PATCH is checked, stamped and staged, and at its commit merges masked words into the non-current slot. -/
  | hopObjPatch (r : Nat)
  /-- GROUP_SET (R243): A GROUP_SET is staged and at its commit writes the masked group fields into the non-current group slot. -/
  | hopGroupSet (r : Nat)
  /-- TILE_RUN (R128): A TILE_RUN is staged and at its commit writes up to 5 logical map entries through page copy. -/
  | hopTileRun (r : Nat)
  /-- PAL_WRITE (R128): A PAL_WRITE is staged and at its commit writes up to 5 palette entries through page copy. -/
  | hopPalWrite (r : Nat)
  /-- PLANE_FLIP (R260): A PLANE_FLIP is staged and at its commit becomes the plane's pending flip. -/
  | hopPlaneFlip (r : Nat)
  /-- REG_AT_TICK (R256): A REG_AT_TICK is staged and at its commit writes the register's frame value for that epoch. -/
  | hopRegAtTick (r : Nat)
  /-- REG_NOW (R259): A REG_NOW is applied when met in its ring as a host write and never staged. -/
  | hopRegNow (r : Nat)
  /-- FENCE (R257): A FENCE stops fetching from its ring and sets FENCED until its condition holds. -/
  | hopFence (r : Nat)
  /-- FENCE_RELEASE (R257): The fence's condition comes to hold and its ring is served again. -/
  | fenceRelease (r : Nat)
  /-- MARKER (R258): A MARKER is staged for its tick or, immediate, queued for write-back in ring order. -/
  | hopMarker (r : Nat)
  /-- MARKER_WRITE (R258): A queued marker's 16 bytes are written once its flip has ended or, in MODE 1, every running output has
  latched the epoch. -/
  | markerWrite (r : Nat)
  /-- AUD_CMD (R357): An AUD_CMD record is staged for its tick or, immediate, handed to Tailrace for the next run. -/
  | hopAudCmd (r : Nat)
  /-- TRACKER_CUT_LATCH (R261): At each cut each tracker latches HOP_TRK_DONE into HOP_TRK_CUT. -/
  | trackerCutLatch
  /-- HOP_TRK_DONE_WRITE (R261): A host write of HOP_TRK_DONE takes effect only after every earlier BAR2 write has reached LPDDR5X. -/
  | hopTrkDoneWrite (ag : Agent) (t : Nat) (v : Word)
  /-- FL_RETRAIN (R276): A write of 1 to FL_CMD.RETRAIN starts a training sequence at once. -/
  | flRetrain (ag : Agent) (n : Nat)
  /-- FL_CFG_WRITE (R287): A write of FL_CFG or FL_CTRL is checked for fit against the timing in force and scheduled, or ignored with
  CFG_ERR. -/
  | flCfgWrite (ag : Agent) (n : Nat) (isCtrl : Bool) (v : Word)
  /-- TRAINING_COMPLETE (R276): A training sequence ends with its ALIGN group and the lanes enter ACTIVE. -/
  | trainingComplete (n : Nat)
  /-- ALIGN_GROUP (R275): Every 16,384 slot groups in ACTIVE an ALIGN group is sent with the next marker count. -/
  | alignGroup (n : Nat)
  /-- PACKET_SEND (R286): A formed packet leaves at the first slot-group boundary after its framer latency and the end of earlier
  packets. -/
  | packetSend (n : Nat)
  /-- IDLE_STATUS_TIMER (R284): While the output runs no frames and the port is ACTIVE, a STATUS packet is formed every 1,000 µs. -/
  | idleStatusTimer (n : Nat)
  /-- AUX_ARM (R285): An armed AUX slot is sent in each frame's blanking queue and disarms in MODE 0. -/
  | auxArm (ag : Agent) (n k : Nat) (v : Word)
  /-- FL_PLL_LOSS (R293): The Flume PHY PLL loses lock, the port enters OFF and PLL_LOST is set. -/
  | flPllLoss (n : Nat)
  /-- FL_PLL_RELOCK (R293): The Flume PHY PLL relocks and a training sequence starts. -/
  | flPllRelock (n : Nat)
  /-- LANE_FAULT (R293): The PHY reports a driver fault on a lane and LANE_FAULT is set without changing what is sent. -/
  | laneFault (n lane : Nat)
  /-- RING_LINK_TRAINED (R299): A ring link completes training and its input is checked against the wiring. -/
  | ringLinkTrained (leat : Bool) (node : Nat) (linkBit : Bool)
  /-- RECORD (R302): A RECORD frame is taken once, forwarded and, when tapping, handed to the hopper for keep filtering and staging. -/
  | ringRecord (leat : Bool) (f : RFrame)
  /-- RECORD_PAIR (R302): A RECORD_PAIR frame carrying an OBJ_WRITE is taken, forwarded and tapped like RECORD. -/
  | ringRecordPair (leat : Bool) (f : RFrame)
  /-- TICK_FRAME (R316): A TICK frame is forwarded with corrected CORR and gives its taker the source's tick instant, ring time, horizon
  and cut. -/
  | ringTick (leat : Bool) (f : RFrame) (sub : Nat)
  /-- STATE (R312): A STATE frame is taken and forwarded, updating membership, lag, segment and departure knowledge. -/
  | ringState (leat : Bool) (f : RFrame)
  /-- PROBE (R318): A PROBE frame is forwarded like TICK, or on return to its origin gives RING_LOOP and its residual. -/
  | ringProbe (leat : Bool) (f : RFrame) (sub : Nat)
  /-- EVENT (R326): An EVENT frame is taken and delivered as a mailbox message or alarm notice, or forwarded. -/
  | ringEvent (leat : Bool) (f : RFrame)
  /-- RING_INPUT_DEAD (R307): The primary input goes dead and the node switches to its leat input, replaying the leat buffer. -/
  | ringInputDead (leat : Bool)
  /-- RING_INPUT_RETURN (R308): The primary input has been alive 100 µs with a JOINED neighbour and is selected again. -/
  | ringInputReturn
  /-- FRAME_INJECT (R305): An originated frame leaves in a free slot group in its priority order. -/
  | frameInject
  /-- DEPART (R309): A write of RING_CMD.DEPART stops tapping, sends a DEPART STATE frame and enters DEPARTED. -/
  | depart (ag : Agent)
  /-- PROBE_CMD (R318): A write of RING_CMD.PROBE sends a PROBE frame. -/
  | probeCmd (ag : Agent)
  /-- PROBE_TIMEOUT (R318): A probe not returned after 1,000 µs is abandoned. -/
  | probeTimeout
  /-- SEGMENT_TIMEOUT (R310): When the node's own STATE frames fail to return within 2 tick periods it enters segment mode, and leaves
  it when they return. -/
  | segmentTimeout
  /-- SOURCE_TIMEOUT (R319): A node with TICK_SRC_EN that has taken no TICK frame for its timeout becomes the tick source. -/
  | sourceTimeout
  /-- HORIZON_REQUEST (R321): A write of RING_HZ_AT on the source submits a horizon change or sets HZ_ERR. -/
  | horizonRequest (ag : Agent) (v : Word)
  /-- MBX_SEND (R327): A write of RING_MBX_TX_CTRL with GO injects a CODE 0 EVENT frame and holds BUSY until it leaves. -/
  | mbxSend (ag : Agent) (v : Word)
  /-- MBX_POP (R327): A write of RING_MBX_RX_INFO.POP removes the oldest received message. -/
  | mbxPop (ag : Agent)
  /-- SAMPLE_TICK (R332): An audio sample tick starts a run 2 CCLK later, applying due commands, safe loads and direct writes and
  running the voice phase. -/
  | sampleTick (ins : List (Nat × Nat)) (late : List Nat)
  /-- GRAPH_PHASE (R341): After the input ports complete, the graph executes operations in order and the sinks latch 4 CCLK after its
  end. -/
  | graphPhase (ops wait : Nat) (late : List Nat)
  /-- KEYON (R339): A KEYON write restarts the voice from position 0 with gains ramping, at the next run start. -/
  | keyon (ag : Agent) (v : Nat)
  /-- KEYOFF (R339): A KEYOFF write puts a playing voice in RELEASE at the next run start. -/
  | keyoff (ag : Agent) (v : Nat)
  /-- AUD_CMD_PARAM (R356): An AUD_CMD PARAM writes one or two parameter words at its run start. -/
  | audCmdParam (body : List Word)
  /-- AUD_CMD_KEYON (R359): An AUD_CMD KEYON wakes its zones at handover and keys on up to four voices at its run. -/
  | audCmdKeyon (body : List Word)
  /-- AUD_CMD_KEYOFF (R356): An AUD_CMD KEYOFF releases up to four voices at its run. -/
  | audCmdKeyoff (body : List Word)
  /-- AUD_CMD_VOICE (R356): An AUD_CMD VOICE writes one or two voice register words at its run. -/
  | audCmdVoice (body : List Word)
  /-- PARAM_WRITE (R354): A direct write to the parameter memory or voice registers takes effect at the next run start, unless a group
  parameter or unassigned. -/
  | paramWrite (ag : Agent) (off : Nat) (v : Word)
  /-- SAFE_LOAD (R355): A write of AUD_SAFE_CTRL with GO arms a safe load for the run that AT selects and sets BUSY. -/
  | safeLoad (ag : Agent) (v : Word)
  /-- TDM_PORT_CFG_WRITE (R348): A TDM port setting is checked and takes effect at the port's next frame start, or is ignored with
  CFG_ERR. -/
  | tdmPortCfgWrite (ag : Agent) (input : Bool) (port : Nat) (v : Word)
  /-- ADD (R380): RD := x + y. -/
  | kAdd (c : Nat)
  /-- SUB (R380): RD := x − y. -/
  | kSub (c : Nat)
  /-- AND (R380): RD := x and y. -/
  | kAnd (c : Nat)
  /-- OR (R380): RD := x or y. -/
  | kOr (c : Nat)
  /-- XOR (R380): RD := x xor y. -/
  | kXor (c : Nat)
  /-- NOR (R380): RD := not (x or y). -/
  | kNor (c : Nat)
  /-- SLT (R380): RD := 1 if x < y signed, else 0. -/
  | kSlt (c : Nat)
  /-- SLTU (R380): RD := 1 if x < y unsigned, else 0. -/
  | kSltu (c : Nat)
  /-- SLL (R380): RD := x shifted left by y[4:0]. -/
  | kSll (c : Nat)
  /-- SRL (R380): RD := x shifted right logically by y[4:0]. -/
  | kSrl (c : Nat)
  /-- SRA (R380): RD := x shifted right arithmetically by y[4:0]. -/
  | kSra (c : Nat)
  /-- SLLI (R380): RD := x shifted left by the RS2 field. -/
  | kSlli (c : Nat)
  /-- SRLI (R380): RD := x shifted right logically by the RS2 field. -/
  | kSrli (c : Nat)
  /-- SRAI (R380): RD := x shifted right arithmetically by the RS2 field. -/
  | kSrai (c : Nat)
  /-- MIN (R380): RD := signed minimum of x and y. -/
  | kMin (c : Nat)
  /-- MAX (R380): RD := signed maximum of x and y. -/
  | kMax (c : Nat)
  /-- MINU (R380): RD := unsigned minimum of x and y. -/
  | kMinu (c : Nat)
  /-- MAXU (R380): RD := unsigned maximum of x and y. -/
  | kMaxu (c : Nat)
  /-- ADDI (R380): RD := x + sign-extended immediate. -/
  | kAddi (c : Nat)
  /-- ANDI (R380): RD := x and zero-extended immediate. -/
  | kAndi (c : Nat)
  /-- ORI (R380): RD := x or zero-extended immediate. -/
  | kOri (c : Nat)
  /-- XORI (R380): RD := x xor zero-extended immediate. -/
  | kXori (c : Nat)
  /-- SLTI (R380): RD := 1 if x < immediate signed. -/
  | kSlti (c : Nat)
  /-- SLTIU (R380): RD := 1 if x < immediate unsigned. -/
  | kSltiu (c : Nat)
  /-- LUI (R380): RD := IMM << 16. -/
  | kLui (c : Nat)
  /-- LW (R377): Loads a word into RD with a load-delay slot. -/
  | kLw (c : Nat)
  /-- LH (R377): Loads a sign-extended half-word with a load-delay slot. -/
  | kLh (c : Nat)
  /-- LHU (R377): Loads a zero-extended half-word with a load-delay slot. -/
  | kLhu (c : Nat)
  /-- LB (R377): Loads a sign-extended byte with a load-delay slot. -/
  | kLb (c : Nat)
  /-- LBU (R377): Loads a zero-extended byte with a load-delay slot. -/
  | kLbu (c : Nat)
  /-- SW (R374): Stores a word, directly to TCM or through the posted buffer or private port. -/
  | kSw (c : Nat)
  /-- SH (R374): Stores a half-word. -/
  | kSh (c : Nat)
  /-- SB (R374): Stores a byte. -/
  | kSb (c : Nat)
  /-- BEQ (R380): Branches when x = y. -/
  | kBeq (c : Nat)
  /-- BNE (R380): Branches when x ≠ y. -/
  | kBne (c : Nat)
  /-- BLT (R380): Branches when x < y signed. -/
  | kBlt (c : Nat)
  /-- BGE (R380): Branches when x ≥ y signed. -/
  | kBge (c : Nat)
  /-- BLTU (R380): Branches when x < y unsigned. -/
  | kBltu (c : Nat)
  /-- BGEU (R380): Branches when x ≥ y unsigned. -/
  | kBgeu (c : Nat)
  /-- J (R380): PC := PC + 4 × OFF. -/
  | kJ (c : Nat)
  /-- CALL (R382): Pushes PC + 4 and jumps by OFF. -/
  | kCall (c : Nat)
  /-- JR (R381): PC := x, or ALIGN when x is not a multiple of 4. -/
  | kJr (c : Nat)
  /-- CALLR (R382): Pushes PC + 4 and sets PC := x. -/
  | kCallr (c : Nat)
  /-- RET (R382): Pops the return address into PC. -/
  | kRet (c : Nat)
  /-- BLD (R384): BA := bit. -/
  | kBld (c : Nat)
  /-- BLDN (R384): BA := not bit. -/
  | kBldn (c : Nat)
  /-- BST (R384): bit := BA. -/
  | kBst (c : Nat)
  /-- BSTN (R384): bit := not BA. -/
  | kBstn (c : Nat)
  /-- BSET (R384): bit := 1. -/
  | kBset (c : Nat)
  /-- BCLR (R384): bit := 0. -/
  | kBclr (c : Nat)
  /-- BTGL (R384): bit := not bit. -/
  | kBtgl (c : Nat)
  /-- BAND (R384): BA := BA and bit. -/
  | kBand (c : Nat)
  /-- BANDN (R384): BA := BA and not bit. -/
  | kBandn (c : Nat)
  /-- BOR (R384): BA := BA or bit. -/
  | kBor (c : Nat)
  /-- BORN (R384): BA := BA or not bit. -/
  | kBorn (c : Nat)
  /-- BXOR (R384): BA := BA xor bit. -/
  | kBxor (c : Nat)
  /-- BTS (R384): Indivisibly BA := bit and bit := 1. -/
  | kBts (c : Nat)
  /-- BTC (R384): Indivisibly BA := bit and bit := 0. -/
  | kBtc (c : Nat)
  /-- BBS (R380): Branches when the named bit is 1. -/
  | kBbs (c : Nat)
  /-- BBC (R380): Branches when the named bit is 0. -/
  | kBbc (c : Nat)
  /-- BBA (R380): Branches when BA xor NEG is 1. -/
  | kBba (c : Nat)
  /-- TLI (R383): Reads two table entries and interpolates them into RD, with a load-delay slot. -/
  | kTli (c : Nat)
  /-- MUL (R380): RD := low 32 bits of x × y. -/
  | kMul (c : Nat)
  /-- MULH (R380): RD := high 32 bits of the signed product. -/
  | kMulh (c : Nat)
  /-- MULHU (R380): RD := high 32 bits of the unsigned product. -/
  | kMulhu (c : Nat)
  /-- DIV (R381): RD := signed quotient toward 0, with defined results for zero and overflow. -/
  | kDiv (c : Nat)
  /-- DIVU (R381): RD := unsigned quotient. -/
  | kDivu (c : Nat)
  /-- REM (R381): RD := signed remainder with the sign of x. -/
  | kRem (c : Nat)
  /-- REMU (R381): RD := unsigned remainder. -/
  | kRemu (c : Nat)
  /-- CSRR (R386): RD := the named core status register, or ILLEGAL. -/
  | kCsrr (c : Nat)
  /-- CSRW (R386): Writes the named core status register; setting IEN enables interrupts after the next instruction. -/
  | kCsrw (c : Nat)
  /-- SYSCALL (R387): Raises the SYSCALL exception with its code. -/
  | kSyscall (c : Nat)
  /-- BREAK (R387): Raises the BREAK exception, or halts the core when a debugger has armed BRK_HALT. -/
  | kBreak (c : Nat)
  /-- RETX (R386): Pops the return address and saved status word, restoring IEN, HND and the slot state. -/
  | kRetx (c : Nat)
  /-- WFI (R390): Completes at once with the request line high, else puts the core in IDLE. -/
  | kWfi (c : Nat)
  /-- KC_FENCE (R374): The FENCE instruction waits until every posted store has taken effect. -/
  | kFence (c : Nat)
  /-- LOAD_DATA_RETURN (R373): The data of a waiting non-TCM load arrives and the core resumes. -/
  | loadDataReturn (c : Nat)
  /-- LOAD_TIMEOUT (R373): A load not completed after 4,096 KCLK ends as a LOAD exception. -/
  | loadTimeout (c : Nat)
  /-- POSTED_STORE_COMPLETE (R374): A posted store takes effect and frees its buffer entry, releasing a stalled store or fence. -/
  | postedStoreComplete (c : Nat)
  /-- INTERRUPT_TAKE (R388): At an instruction boundary with the request line high, IEN 1 and HND 0, the core enters the INTERRUPT
  handler. -/
  | interruptTake (c : Nat)
  /-- IDLE_WAKE (R390): The request line rises while the core is IDLE and it continues 2 KCLK later. -/
  | idleWake (c : Nat)
  /-- WDT_KICK (R391): A write of 0x0000_C0DE to KC_WDT_KICK reloads the watchdog, any other value sets WDT_BADKEY. -/
  | wdtKick (ag : Agent) (c : Nat) (v : Word)
  /-- WDT_EXPIRY (R391): The watchdog expires: first it warns with source 0, at the second it restarts the core. -/
  | wdtExpiry (c : Nat)
  /-- CORE_RESTART (R392): A permitted KC_RESTART request puts the core in LOADING, drains its stores and copies its image. -/
  | coreRestart (ag : Agent) (c : Nat) (v : Word)
  /-- CORE_RESTART_COMPLETE (R392): The restart copy ends and the core starts at address 0 in RUNNING. -/
  | coreRestartComplete (c : Nat)
  /-- INTC_CLAIM (R399): A read of INTC_CLAIM by the owning core claims the lowest eligible source and makes it active. -/
  | intcClaim (ag : Agent) (c : Nat)
  /-- INTC_COMPLETE (R400): A write of INTC_COMPLETE ends the active source or sets CMPL_ERR. -/
  | intcComplete (ag : Agent) (c : Nat) (v : Word)
  /-- INTC_PEND_CLEAR (R397): A write of 1 to an INTC_PEND bit sets the source's count to 0. -/
  | intcPendClear (ag : Agent) (c j : Nat) (v : Word)
  /-- MODERATION_RELEASE (R402): A held moderation group is released when MOD_US elapses or MOD_CNT events arrive. -/
  | moderationRelease (c g : Nat)
  /-- MSIX_SEND (R404): A pending, unmasked MSI-X vector is sent as one message after earlier device writes. -/
  | msixSend (v : Nat)
  /-- INT_SW_RAISE (R406): A write of INT_SW_RAISE raises one event of a software source, or sets SW_ERR. -/
  | intSwRaise (ag : Agent) (v : Word)
  /-- CMP_ARM (R408): A write of TMR_CMP_HI arms the compare with the 64-bit value. -/
  | cmpArm (ag : Agent) (c : Nat) (v : Word)
  /-- CMP_FIRE (R408): An armed compare fires when its clock reaches the value, counts, raises its source and reloads if periodic. -/
  | cmpFire (c : Nat)
  /-- TMR_CAP_LO_READ (R412): A read of TMR_CAP_LO removes the oldest capture and shadows its high half. -/
  | tmrCapLoRead (ag : Agent) (c : Nat)
  /-- DMA_START (R414): A write of START checks the transfer and begins it or refuses it with a cause. -/
  | dmaStart (ag : Agent) (ch : Nat)
  /-- DMA_ABORT (R419): A write of ABORT stops a busy channel after the beat in progress. -/
  | dmaAbort (ag : Agent) (ch : Nat) (data : List Byte)
  /-- DMA_COMPLETE (R418): The last write takes effect, DONE sets, the tracker is written and the source raised. -/
  | dmaComplete (ch : Nat) (data : List Byte)
  /-- BLT_START (R433): A write of START checks the blit, chooses its direction and begins it or refuses it. -/
  | bltStart (ag : Agent) (e : Nat)
  /-- BLT_ABORT (R437): A write of ABORT stops a busy blitter after the beat in progress. -/
  | bltAbort (ag : Agent) (e : Nat)
  /-- BLT_WATERMARK (R438): The rows up to WM.LINE become complete, WM sets and the timebase latches. -/
  | bltWatermark (e : Nat)
  /-- BLT_COMPLETE (R437): Every write of the blit takes effect, DONE sets, the tracker is written and the source raised. -/
  | bltComplete (e : Nat)
  /-- UNCORRECTABLE_READ (R468): A read meets an uncorrectable error, delivers it to its requester and raises source 1. -/
  | uncorrectableRead (place : UeAt) (addr : Nat) (who : Reader)
  /-- CORRECTABLE_READ (R549): A read meets a correctable SRAM error, returns corrected data, counts and writes the word back. -/
  | correctableRead (place : UeAt) (addr : Nat)
  /-- PIN_CHANGE (R447): A pad value change becomes valid as raw input for cores, PIO, routes, Damsel and captures. -/
  | pinChange (p : Nat) (v : Bool)
  /-- GLITCH_FILTER_SETTLE (R448): A raw level held for GLITCH CCLK becomes the glitch-filtered value. -/
  | glitchFilterSettle (g : Nat)
  /-- DEBOUNCE_SETTLE (R448): A glitch-filtered level held DEB_MS ms becomes the filtered value. -/
  | debounceSettle (g : Nat)
  /-- GP_OUT_WRITE (R446): A write of GP_OUT, GP_OUT_SET or GP_OUT_CLR changes the latch bits of owned pins. -/
  | gpOutWrite (ag : Agent) (j op : Nat) (v : Word)
  /-- PIN_CFG_WRITE (R445): The owner's write of GP_PIN_CFG changes the pin's sources, or is refused for a reserved function. -/
  | pinCfgWrite (ag : Agent) (p : Nat) (v : Word)
  /-- PIN_OWNER_WRITE (R443): The owner hands the pin to another agent unless LOCK is set. -/
  | pinOwnerWrite (ag : Agent) (p : Nat) (v : Word)
  /-- GRP_CFG_WRITE (R449): A write of a pattern group's settings restarts debounce or re-evaluates the match without an event. -/
  | grpCfgWrite (ag : Agent) (g : Nat) (isMatch : Bool) (v : Word)
  /-- PIO_TICK (R452): An engine tick gives the slot's context its step, in which it executes one instruction or an idle HOLD step. -/
  | pioTick (e : Nat)
  /-- GO (R454): The PIO context jumps to TARGET when its condition holds. -/
  | pioGo (e : Nat)
  /-- AWAIT (R454): The PIO context stays until its pin, flag or event condition holds. -/
  | pioAwait (e : Nat)
  /-- SHIN (R455): The PIO context shifts N bits into SR. -/
  | pioShin (e : Nat)
  /-- SHOUT (R455): The PIO context shifts N bits out of SR. -/
  | pioShout (e : Nat)
  /-- DRIVE (R454): The PIO context sets the levels or directions of its drive-window pins. -/
  | pioDrive (e : Nat)
  /-- LOAD (R454): The PIO context takes the oldest TX word into SR or A, or waits or clears F when empty. -/
  | pioLoad (e : Nat)
  /-- STORE (R454): The PIO context pushes SR or A into the RX FIFO, or waits or discards when full. -/
  | pioStore (e : Nat)
  /-- LDI (R454): The PIO context loads an immediate into A, A's high half, L0 or L1. -/
  | pioLdi (e : Nat)
  /-- XFER (R454): The PIO context copies a transformed source into a destination. -/
  | pioXfer (e : Nat)
  /-- SIGNAL (R454): The PIO context sets or clears an engine flag or raises source 356 + e. -/
  | pioSignal (e : Nat)
  /-- PIO_START (R460): PIO_SYNC START sets EN and restarts the clocks of the owned engines. -/
  | pioStart (ag : Agent) (m : Nat)
  /-- PIO_STOP (R460): PIO_SYNC STOP clears EN and freezes every context. -/
  | pioStop (ag : Agent) (m : Nat)
  /-- PIO_CLKRST (R460): PIO_SYNC CLKRST restarts the engine clocks without other change. -/
  | pioClkrst (ag : Agent) (m : Nat)
  /-- CONTEXT_ENABLE (R459): A write of PIO_E_CTXEN starts a context at its entry or stops it after the instruction in progress. -/
  | contextEnable (ag : Agent) (e : Nat) (v : Word)
  /-- PIO_TXF_WRITE (R456): A write of PIO_C_TXF enters the TX FIFO or sets TX_OVF. -/
  | pioTxfWrite (ag : Agent) (e c : Nat) (v : Word)
  /-- PIO_RXF_READ (R456): A read of PIO_C_RXF removes the oldest word or sets RX_UNF. -/
  | pioRxfRead (ag : Agent) (e c : Nat)
  /-- PIO_IM_WRITE (R461): A write to PIO instruction memory is taken only while EN is 0, else IM_DENIED. -/
  | pioImWrite (ag : Agent) (e a : Nat) (v : Word)
  /-- BANK_RETAIN (R470): A write of 1 to MEM_BANK_CTRL.RET places an eligible bank in retention. -/
  | bankRetain (ag : Agent) (b : Nat)
  /-- BANK_WAKE (R471): An access to a retained bank or a write of RET 0 wakes it. -/
  | bankWake (ag : Agent) (b : Nat)
  /-- BANK_WAKE_DONE (R471): The bank becomes usable 2 µs after the wake, RET clears and source 369 is raised. -/
  | bankWakeDone (b : Nat)
  /-- PAGED_WINDOW_ACCESS (R480): A host access to the BAR0 paged window reaches SRAM through port B, with denials and size checks. -/
  | pagedWindowAccess (write : Bool) (off : Nat) (data : List Byte) (n : Nat)
  /-- BAR2_WRITE (R481): A posted BAR2 write reaches LPDDR5X in class 4, or is discarded beyond the installed size. -/
  | bar2Write (off : Nat) (data : List Byte)
  /-- BAR2_READ (R481): A BAR2 read completes after earlier BAR2 writes. -/
  | bar2Read (off n : Nat)
  /-- BAR2_FLUSH (R482): A read of MEM_BAR2_FLUSH completes after every earlier BAR2 write has taken effect. -/
  | bar2Flush
  /-- PCIE_REQUEST_FAIL (R484): A device request to host memory fails and its hopper, DMA, marker or message effect follows. -/
  | pcieRequestFail (kind ident status : Nat)
  /-- LINK_DOWN (R485): Link down, hot reset or PCIE_PERST_N resets configuration space and fails outstanding requests. -/
  | linkDown
  /-- FUNCTION_LEVEL_RESET (R485): An FLR resets configuration space and disables or aborts every host-owned ring, channel and blitter. -/
  | functionLevelReset
  /-- LINK_UP (R485): The link comes up, possibly at reduced width or speed, and raises source 373. -/
  | linkUp (speed width : Nat)
  /-- MR4_REPORT (R478): An LPDDR5X device reports a hot temperature or refresh change and refresh is raised. -/
  | mr4Report (ch code : Nat)
  /-- CHANNEL_FENCE (R566): An LPDDR5X channel is fenced for errors, a timeout or a missed refresh, and its requests complete at once. -/
  | channelFence (ch : Nat) (refresh : Bool)
  /-- AV_FENCE_CMD (R566): A write of AV_FENCE_CMD by the host or KC0 fences the named channel. -/
  | avFenceCmd (ag : Agent) (v : Word)
  /-- LOP_START (R500): The START command checks and starts a long operation, queued or refused by the conflict matrix. -/
  | lopStart (ag : Agent) (sl op : Nat) (int : Bool)
  /-- LOP_SUSPEND (R500): The SUSPEND command suspends a queued operation or one running at its next suspend point. -/
  | lopSuspend (ag : Agent) (sl : Nat)
  /-- LOP_RESUME (R500): The RESUME command resumes a suspended operation or withdraws a suspension. -/
  | lopResume (ag : Agent) (sl : Nat)
  /-- LOP_CANCEL (R500): The CANCEL command cancels an operation at once or at its next suspend point. -/
  | lopCancel (ag : Agent) (sl : Nat)
  /-- LOP_STATUS (R500): The STATUS command snapshots a slot's status and progress together. -/
  | lopStatus (sl : Nat)
  /-- LOP_SUSPEND_POINT (R500): A running operation reaches a suspend point and becomes SUSPENDED or CANCELLED as requested. -/
  | lopSuspendPoint (sl n : Nat)
  /-- LOP_COMPLETE (R505): A long operation ends in DONE with its result, starting queued ones and raising source 380. -/
  | lopComplete (sl : Nat) (fail : Option Nat)
  /-- STRUCT_CHECK_DONE (R493): A structure image's checks end, refusing it with a cause or passing it to apply. -/
  | structCheckDone (sl : Nat)
  /-- FULL_LOAD_APPLY (R494): A checked full image stops and rebuilds the composition and audio path and publishes empty indexes. -/
  | fullLoadApply (sl : Nat)
  /-- CLK_POINT_REQUEST (R506): A write of SYS_CLK_CTRL.POINT starts a CCLK change or is refused. -/
  | clkPointRequest (ag : Agent) (v : Word)
  /-- CLK_RELOCK_DONE (R25): The core PLL relocks and the fabric leaves the safe clock for the new point. -/
  | clkRelockDone
  /-- MBX_TC_WRITE (R508): The host writes word 3 of a to-core mailbox, marking it full and raising source 382. -/
  | mbxTcWrite (ag : Agent) (c : Nat) (v : Word)
  /-- MBX_TC_READ (R508): Core c reads word 3 of its to-core mailbox and empties it. -/
  | mbxTcRead (ag : Agent) (c : Nat)
  /-- MBX_TH_WRITE (R508): Core c writes word 3 of its to-host mailbox, marking it full and raising source 383. -/
  | mbxThWrite (ag : Agent) (c : Nat) (v : Word)
  /-- MBX_TH_READ (R508): The host reads word 3 of a to-host mailbox and empties it. -/
  | mbxThRead (ag : Agent) (c : Nat)
  /-- ARM (R530): The ARM command checks ACTIVATE, copies core parts and writes a TRIAL control record for the target tick. -/
  | arm (ag : Agent)
  /-- ARMING_DONE (R530): Arming ends with the control record written and the state ARMED, or returns to READY with ARM_FAIL. -/
  | armingDone
  /-- DISARM (R530): The DISARM command writes a STABLE record with LAST DISARMED. -/
  | disarm (ag : Agent)
  /-- COLD (R534): The COLD command writes a COLD_TRIAL record and resets the core domain to boot the trial set once. -/
  | cold (ag : Agent)
  /-- CONFIRM_TOKEN (R532): A write of UPD_CONFIRM_HI submits the health token, which confirms the trial or sets BAD_TOKEN. -/
  | confirmToken (ag : Agent) (hi : Word)
  /-- TRIAL_WINDOW_END (R533): With no token by the window's end the device falls back to the old set and restarts the cores. -/
  | trialWindowEnd
  /-- CONTROL_RECORD_WRITTEN (R528): The update sequencer's control-record program completes and the update state moves on. -/
  | controlRecordWritten
  /-- LIFECYCLE_CHANGE (R539): A valid SEC_LC_CMD programs PENDING, wipes bank 95 and programs COMMITTED. -/
  | lifecycleChange (ag : Agent) (v : Word)
  /-- KEY_PROGRAM (R539): SEC_KEY_CMD OP 1 programs a key slot's hash from bank 95. -/
  | keyProgram (ag : Agent) (slot : Nat)
  /-- KEY_SET_DEV (R539): SEC_KEY_CMD OP 2 sets a key slot's DEV flag. -/
  | keySetDev (ag : Agent) (slot : Nat)
  /-- KEY_REVOKE (R539): SEC_KEY_CMD OP 3 revokes a key slot unless it is the last production slot. -/
  | keyRevoke (ag : Agent) (slot : Nat)
  /-- IMAGE_KEY_PROGRAM (R539): A write of SEC_IKEY_CMD programs the image key from bank 95. -/
  | imageKeyProgram (ag : Agent) (v : Word)
  /-- WIPE (R540): A wipe of bank 95 starts or restarts at a SEC_WIPE_CMD, tamper event or lifecycle change. -/
  | wipe (ag : Agent) (v : Word)
  /-- WIPE_DONE (R540): The wipe of bank 95 ends and WIPING clears. -/
  | wipeDone
  /-- TAMPER_EVENT (R542): A tamper monitor fires, latches its bit, counts, wipes bank 95 and raises source 2. -/
  | tamperEvent (mon : Nat) (on : Bool)
  /-- TAMPER_LOCK (R541): A write of SEC_TAMPER_CFG.LOCK freezes the tamper configuration until POR_N. -/
  | tamperLock (ag : Agent)
  /-- VERIFY_GO (R525): A write of SEC_VFY_CMD.GO queues an ECDSA verification on bank 95 data. -/
  | verifyGo (ag : Agent) (v : Word)
  /-- VERIFY_DONE (R525): A verification ends after 2,100 µs with its outcome readable. -/
  | verifyDone
  /-- RNG_REQUEST (R544): A write of SEC_RNG_REQ queues a TRNG request or sets RNG_FULL. -/
  | rngRequest (ag : Agent) (v : Word)
  /-- RNG_BLOCK (R543): A TRNG output block is formed and written, setting DONE when the request ends. -/
  | rngBlock
  /-- RNG_HEALTH_FAIL (R544): A health test fails, failing all queued requests and closing the source. -/
  | rngHealthFail (apt : Bool)
  /-- RNG_RESTART (R544): A write of SEC_RNG_CMD.RESTART runs the start-up test. -/
  | rngRestart (ag : Agent) (v : Word)
  /-- RNG_STARTUP_DONE (R543): The start-up test ends, opening the source or setting RESTART_FAIL. -/
  | rngStartupDone (fail : Option Bool)
  /-- PATROL_SCRUB_READ (R550): Patrol scrub reads its next word at its even spacing. -/
  | patrolScrubRead
  /-- ROW_REPAIR (R552): A repair of a row by AV_REP_CMD or automatic repair starts copying it to a spare row. -/
  | rowRepair (ag : Agent) (v : Word)
  /-- ROW_SWITCH (R552): The copy ends and the row's addresses switch to the spare row in a free cycle. -/
  | rowSwitch (b r : Nat)
  /-- SELF_TEST_DONE (R561): A quarantined slice's self-test ends and its verdict takes effect at the next tick. -/
  | selfTestDone (sl : Nat) (fail : Option Nat)
  /-- FT_CHECK (R556): AV_FT_CMD.CHECK requests a Fantail check of the named slice. -/
  | ftCheck (ag : Agent) (sl : Nat)
  /-- FT_REMAP_CMD (R558): AV_FT_CMD.REMAP confirms a mismatch of the named live slice at once. -/
  | ftRemapCmd (ag : Agent) (sl : Nat)
  /-- FT_RETURN (R561): AV_FT_CMD.RETURN makes a retired slice quarantined for a new test. -/
  | ftReturn (ag : Agent) (sl : Nat)
  /-- AV_OUT_RESUME (R563): AV_OUT_CMD.RESUME restores a shed output or ends its fallback. -/
  | avOutResume (ag : Agent) (n : Nat)
  /-- AV_OUT_SHED (R563): AV_OUT_CMD.SHED sheds an output at the next tick. -/
  | avOutShed (ag : Agent) (n : Nat)
  /-- LOG_POP (R569): A write of AV_LOG_CMD.POP removes the oldest log entry. -/
  | logPop (ag : Agent)
  /-- TAP_RESET (R574): TRST_N or five TMS-high clocks put the TAP in Test-Logic-Reset and end attachment. -/
  | tapReset
  /-- EXTEST (R588): The EXTEST instruction drives chain pins from their cells. -/
  | extest (cells : List (Nat × Bool × Bool))
  /-- SAMPLE_PRELOAD (R575): The SAMPLE/PRELOAD instruction samples pins and loads cells. -/
  | samplePreload (cells : List (Nat × Bool × Bool))
  /-- IDCODE (R575): The IDCODE instruction selects the identification register. -/
  | idcode
  /-- CLAMP (R575): The CLAMP instruction holds pins from the cells and selects bypass. -/
  | clamp
  /-- HIGHZ (R575): The HIGHZ instruction puts chain outputs at high impedance. -/
  | highz
  /-- BYPASS (R575): The BYPASS instruction selects the 1-bit register. -/
  | bypass
  /-- DBGACC (R576): An Update-DR of the DBGACC register with GO starts a read or write of a DBG register. -/
  | dbgAcc (go write : Bool) (ix : Nat) (v : Word)
  /-- DBG_MEM_ACCESS (R578): An access of DBG_MEM_DATA reads or writes the addressed space and advances the address with INC. -/
  | dbgMemAccess
  /-- DBG_ACCESS_TIMEOUT (R578): A debug access not completed within TIMEOUT × 1,024 CCLK is abandoned with ERR. -/
  | dbgAccessTimeout
  /-- DBG_ATTACH_WRITE (R585): A write of DBG_ATTACH attaches or detaches the debugger, resuming halted cores by DETACH_RUN. -/
  | dbgAttachWrite (v : Word)
  /-- HALT (R581): The HALT command stops the selected core at its next instruction boundary. -/
  | rcHalt
  /-- RUN (R581): The RUN command resumes the core at DBG_RC_PC. -/
  | rcRun
  /-- STEP (R581): The STEP command executes one instruction, or one interrupt entry, and halts. -/
  | rcStep
  /-- BREAKPOINT_HIT (R582): An enabled breakpoint halts the core before its instruction executes. -/
  | breakpointHit (c : Nat)
  /-- DBG_RC_GDATA_WRITE (R583): A write of DBG_RC_PC or DBG_RC_GDATA changes a halted core's PC, register or CSR. -/
  | rcGdataWrite (isPc : Bool) (v : Word)
  /-- VT_TX_WRITE (R587): A core write of DBG_VT_TX enters its TX FIFO or sets TX_OVF. -/
  | vtTxWrite (c : Nat) (v : Word)
  /-- VT_TX_READ (R587): A debugger read of DBG_VT_TX removes the oldest word. -/
  | vtTxRead (c : Nat)
  /-- VT_RX_WRITE (R587): A debugger write of DBG_VT_RX enters the RX FIFO or sets RX_OVF. -/
  | vtRxWrite (c : Nat) (v : Word)
  /-- VT_RX_READ (R587): A core read of DBG_VT_RX removes the oldest word. -/
  | vtRxRead (c : Nat)
  /-- ILLEGAL (R387): A Krytesh core executes a word with a reserved OP or FN and raises the ILLEGAL exception. -/
  | kIllegal (c : Nat)
  /-- RESERVED_OPERATION (R228): A Damsel engine fetches an instruction word whose operation is 0x8 to 0xF and faults, halting for the
  program frame. -/
  | dmReserved (n : Nat)
  /-- RING_PLL_LOCK (R299): The PLL of a ring link locks or relocks, taking the node out of OFF and starting a training sequence on its
  outputs. -/
  | ringPllLock
  /-- BUS_MASTER_ENABLE (R483): The host sets Bus Master Enable in configuration space, and waiting device requests and pending MSI-X
  messages may proceed. -/
  | busMasterEnable (msix : Bool)
  /-- AER_ERROR (R485): The endpoint logs a correctable or uncorrectable error by Advanced Error Reporting and raises source 374 or 375. -/
  | aerError (uncorrectable : Bool)
deriving DecidableEq, Repr

end Sys2Proof
end

