-- ==== Sys2Proof/Decode.lean ====
section
/-!
DEFINITION. The command that a word of the opcode table spells.  The table gives no row of this part any bits: its commands are register
accesses, events and operations, and no word of the table spells one.  (The words that Krytesh cores, Damsel and PIO engines fetch are
decoded by the meanings of their commands, in `Machine/CoreExec.lean`, `Machine/Damsel.lean` and `Machine/Pio.lean`.)
-/

namespace Sys2Proof

/-- The command spelt by `w` over `nbits` bits: none, since no row gives bits. -/
def decodeTableWord (_nbits _w : Nat) : Option Instr := none

end Sys2Proof
end

