-- ==== Sys2Proof/Machine/Crypto.lean ====
section
/-!
DEFINITION. The three algorithms that the spec takes from standards it cites: SHA-384 (FIPS 180-4) and ECDSA verification on P-384
(FIPS 186-5) for R525, and AES-256-GCM decryption (SP 800-38D) for R526.  Their constants are the standards', those of SHA-384 computed from their definition (log entry 40).
-/

namespace Sys2Proof.Machine

/-- The big-endian number of a byte list. -/
def beNat (l : List Byte) : Nat := l.foldl (fun n b => n * 256 + b.toNat) 0

/-- The `n` low bytes of a number, highest first. -/
def beBytesOf (n v : Nat) : List Byte := ((List.range n).map (fun i => BitVec.ofNat 8 (v / 256 ^ i))).reverse

/-- Lists of `n` elements, in order; `fuel` bounds their number. -/
def chunks {α : Type} (n : Nat) : Nat → List α → List (List α)
  | 0, _ => []
  | _ + 1, [] => []
  | f + 1, l => l.take n :: chunks n f (l.drop n)

/-! ### SHA-384 -/

/-- The primes below `n`. -/
def primesBelow (n : Nat) : List Nat :=
  (List.range n).filter (fun p => decide (2 ≤ p) && !(List.range p).any (fun q => decide (2 ≤ q) && p % q == 0))

/-- The whole part of the `k`-th root of `x`: bits are added to `r` from bit `n - 1` downward. -/
def rootBits (k x : Nat) : Nat → Nat → Nat
  | 0, r => r
  | n + 1, r => rootBits k x n (if (r + 2 ^ n) ^ k ≤ x then r + 2 ^ n else r)

/-- The first 64 bits of the fractional part of the `k`-th root of `x`, for a root below 8. -/
def rootFraction (k x : Nat) : Dword := BitVec.ofNat 64 (rootBits k (x * 2 ^ (64 * k)) 67 0)

/-- The 80 round constants: the fractions of the cube roots of the first 80 primes, the last of which is 409. -/
def shaConst : List Dword := (primesBelow 410).map (rootFraction 3)

/-- The initial hash value of SHA-384: the fractions of the square roots of the 9th to the 16th prime, 23 to 53. -/
def shaInit : List Dword := ((primesBelow 54).drop 8).map (rootFraction 2)

/-- Rotation right of 64 bits. -/
def ror64 (x : Dword) (n : Nat) : Dword := (x >>> n) ||| (x <<< (64 - n))

/-- The message schedule, newest word first, extended by `n` words. -/
def shaSchedule : Nat → List Dword → List Dword
  | 0, w => w
  | n + 1, w =>
    let g := fun i => w.getD (i - 1) 0
    let s0 := ror64 (g 15) 1 ^^^ ror64 (g 15) 8 ^^^ (g 15 >>> 7)
    let s1 := ror64 (g 2) 19 ^^^ ror64 (g 2) 61 ^^^ (g 2 >>> 6)
    shaSchedule n ((s1 + g 7 + s0 + g 16) :: w)

/-- One round on the working variables a to h. -/
def shaRound (v : List Dword) (kw : Dword) : List Dword :=
  match v with
  | [a, b, c, d, e, f, g, h] =>
    let t1 := h + (ror64 e 14 ^^^ ror64 e 18 ^^^ ror64 e 41) + ((e &&& f) ^^^ (~~~e &&& g)) + kw
    let t2 := (ror64 a 28 ^^^ ror64 a 34 ^^^ ror64 a 39) + ((a &&& b) ^^^ (a &&& c) ^^^ (b &&& c))
    [t1 + t2, a, b, c, d + t1, e, f, g]
  | _ => v

/-- One block of 128 bytes. -/
def shaBlock (h : List Dword) (blk : List Byte) : List Dword :=
  let w0 := (chunks 8 16 blk).map (fun l => BitVec.ofNat 64 (beNat l))
  let w := (shaSchedule 64 w0.reverse).reverse
  let v := ((w.zip shaConst).map (fun (p : Dword × Dword) => p.1 + p.2)).foldl shaRound h
  (h.zip v).map (fun (p : Dword × Dword) => p.1 + p.2)

/-- SHA-384 of a message: 48 bytes. -/
def sha384 (m : List Byte) : List Byte :=
  let pad := (128 - (m.length + 17) % 128) % 128
  let l := m ++ 0x80 :: List.replicate pad 0 ++ beBytesOf 16 (8 * m.length)
  let h := (chunks 128 (l.length / 128) l).foldl shaBlock shaInit
  ((h.take 6).map (fun (x : Dword) => beBytesOf 8 x.toNat)).flatten

/-! ### ECDSA on P-384 -/

/-- The field prime. -/
def p384P : Nat := 2 ^ 384 - 2 ^ 128 - 2 ^ 96 + 2 ^ 32 - 1

/-- The coefficient b; a is −3. -/
def p384B : Nat := 0xb3312fa7e23ee7e4988e056be3f82d19181d9c6efe8141120314088f5013875ac656398d8a2ed19d2a85c8edd3ec2aef

/-- The order of the base point. -/
def p384N : Nat := 0xffffffffffffffffffffffffffffffffffffffffffffffffc7634d81f4372ddf581a0db248b0a77aecec196accc52973

/-- The base point. -/
def p384G : Nat × Nat :=
  (0xaa87ca22be8b05378eb1c71ef320ad746e1d3b628ba79b9859f741e082542a385502f25dbf55296c3a545e3872760ab7,
   0x3617de4a96262c6f5d9e98bf9292dc29f8f41dbd289a147ce9da3113b5f0b8c00a60b1ce1d7e819d7a431d7c90ea0e5f)

/-- `b ^ e mod m`, over `fuel` bits of the exponent. -/
def powMod (m : Nat) : Nat → Nat → Nat → Nat
  | 0, _, _ => 1 % m
  | fuel + 1, b, e =>
    let r := powMod m fuel (b * b % m) (e / 2)
    if e % 2 = 1 then r * b % m else r

/-- Inverse modulo a prime. -/
def invMod (m a : Nat) : Nat := powMod m 384 (a % m) (m - 2)

/-- A point: `none` is the point at infinity. -/
abbrev EcPoint := Option (Nat × Nat)

/-- Sum of two points. -/
def ecAdd (a b : EcPoint) : EcPoint :=
  let p := p384P
  let line := fun (x1 y1 x2 l : Nat) =>
    let x3 := (l * l + 2 * p - x1 - x2) % p
    some (x3, (l * (x1 + p - x3) + p - y1) % p)
  match a, b with
  | none, q => q
  | q, none => q
  | some (x1, y1), some (x2, y2) =>
    if x1 = x2 then
      if (y1 + y2) % p = 0 then none
      else line x1 y1 x2 ((3 * x1 * x1 + p - 3) * invMod p (2 * y1) % p)
    else line x1 y1 x2 ((y2 + p - y1) * invMod p (x2 + p - x1) % p)

/-- Multiple of a point, over `fuel` bits. -/
def ecMul : Nat → Nat → EcPoint → EcPoint
  | 0, _, _ => none
  | fuel + 1, k, q =>
    let r := ecMul fuel (k / 2) (ecAdd q q)
    if k % 2 = 1 then ecAdd q r else r

/-- Outcomes of a verification, by the codes of SEC_VFY_RES (R525). -/
inductive VfyOutcome where
  | valid | badKey | sigRange | mismatch
deriving DecidableEq, Repr

/-- Their codes. -/
def VfyOutcome.code : VfyOutcome → Nat
  | .valid => 1
  | .badKey => 2
  | .sigRange => 3
  | .mismatch => 4

/-- ECDSA verification of a 48-byte digest under a 97-byte key and a 96-byte signature (R525). -/
def ecdsaVerify (key digest sig : List Byte) : VfyOutcome :=
  let p := p384P
  let n := p384N
  let x := beNat ((key.drop 1).take 48)
  let y := beNat ((key.drop 49).take 48)
  let r := beNat (sig.take 48)
  let s := beNat ((sig.drop 48).take 48)
  if key.headD 0 ≠ 4 ∨ p ≤ x ∨ p ≤ y ∨ (y * y) % p ≠ (x * x * x + (p - 3) * x + p384B) % p then .badKey
  else if r = 0 ∨ n ≤ r ∨ s = 0 ∨ n ≤ s then .sigRange
  else
    let w := invMod n s
    let e := beNat digest
    match ecAdd (ecMul 384 (e * w % n) (some p384G)) (ecMul 384 (r * w % n) (some (x, y))) with
    | none => .mismatch
    | some (v, _) => if v % n = r then .valid else .mismatch

/-! ### AES-256-GCM -/

/-- Multiplication by x in the AES field. -/
def gfX (a : Nat) : Nat := if a < 128 then 2 * a else (2 * a) % 256 ^^^ 0x1B

/-- Multiplication in the AES field, over `fuel` bits. -/
def gfMul : Nat → Nat → Nat → Nat
  | 0, _, _ => 0
  | f + 1, a, b => (if b % 2 = 1 then a else 0) ^^^ gfMul f (gfX a) (b / 2)

/-- `a ^ e` in the AES field, over `fuel` bits. -/
def gfPow : Nat → Nat → Nat → Nat
  | 0, _, _ => 1
  | f + 1, a, e =>
    let r := gfPow f (gfMul 8 a a) (e / 2)
    if e % 2 = 1 then gfMul 8 r a else r

/-- The S-box: the field inverse and the affine map of the standard. -/
def aesSbox (a : Nat) : Nat :=
  let i := gfPow 8 a 254
  let rot := fun k => (i * 2 ^ k) % 256 + i / 2 ^ (8 - k)
  i ^^^ rot 1 ^^^ rot 2 ^^^ rot 3 ^^^ rot 4 ^^^ 0x63

/-- The next words of the key schedule, newest first: word `i` of AES-256 from the eight before it. -/
def aesExpand : Nat → Nat → List (List Nat) → List (List Nat)
  | 0, _, w => w
  | n + 1, i, w =>
    let t := w.headD []
    let t := if i % 8 = 0 then
        match (t.drop 1 ++ t.take 1).map aesSbox with
        | a :: l => (a ^^^ gfPow 8 2 (i / 8 - 1)) :: l
        | [] => []
      else if i % 8 = 4 then t.map aesSbox else t
    aesExpand n (i + 1) (((w.getD 7 []).zip t).map (fun (p : Nat × Nat) => p.1 ^^^ p.2) :: w)

/-- The 15 round keys of a 32-byte key. -/
def aesKeys (key : List Byte) : List (List Nat) :=
  let w0 := chunks 4 8 (key.map (·.toNat))
  (chunks 4 15 (aesExpand 52 8 w0.reverse).reverse).map List.flatten

/-- XOR of two byte lists. -/
def xorNats (a b : List Nat) : List Nat := (a.zip b).map (fun (p : Nat × Nat) => p.1 ^^^ p.2)

/-- Row shift of the state in column order. -/
def aesShift (s : List Nat) : List Nat := (List.range 16).map (fun i => s.getD ((i + 4 * (i % 4)) % 16) 0)

/-- Column mix. -/
def aesMix (s : List Nat) : List Nat :=
  ((chunks 4 4 s).map (fun c =>
    (List.range 4).map (fun i =>
      let g := fun k => c.getD ((i + k) % 4) 0
      gfMul 8 (g 0) 2 ^^^ gfMul 8 (g 1) 3 ^^^ g 2 ^^^ g 3))).flatten

/-- AES-256 of a block. -/
def aesBlock (keys : List (List Nat)) (blk : List Nat) : List Nat :=
  let s := xorNats blk (keys.headD [])
  let s := ((keys.drop 1).take 13).foldl (fun s k => xorNats (aesMix (aesShift (s.map aesSbox))) k) s
  xorNats (aesShift (s.map aesSbox)) (keys.getD 14 [])

/-- Multiplication in the GCM field: blocks as big-endian numbers, bit 0 the highest. -/
def ghashMul : Nat → Nat → Nat → Nat
  | 0, _, _ => 0
  | f + 1, v, y =>
    -- the bits of y from the highest of the `f + 1` low ones
    let z := if y / 2 ^ f % 2 = 1 then v else 0
    z ^^^ ghashMul f (if v % 2 = 1 then v / 2 ^^^ 0xE1 * 2 ^ 120 else v / 2) y

/-- GHASH of whole blocks. -/
def ghash (h : Nat) (blocks : List (List Byte)) : Nat := blocks.foldl (fun x b => ghashMul 128 h (x ^^^ beNat b)) 0

/-- A byte list cut into blocks of 16, the last one filled with zeros. -/
def gcmBlocks (l : List Byte) : List (List Byte) :=
  (chunks 16 (l.length / 16 + 1) l).map (fun b => b ++ List.replicate (16 - b.length) 0)

/-- AES-256-GCM decryption with a 12-byte IV: the plaintext, or `none` when the tag fails (R526). -/
def gcmDecrypt (key iv aad cipher tag : List Byte) : Option (List Byte) :=
  let keys := aesKeys key
  let enc := fun (b : List Byte) => (aesBlock keys (b.map (·.toNat))).map (BitVec.ofNat 8)
  let h := beNat (enc (List.replicate 16 0))
  let s := ghash h (gcmBlocks aad ++ gcmBlocks cipher ++ [beBytesOf 8 (8 * aad.length) ++ beBytesOf 8 (8 * cipher.length)])
  let j0 := enc (iv ++ [0, 0, 0, 1])
  let want := ((beBytesOf 16 s).zip j0).map (fun (p : Byte × Byte) => p.1 ^^^ p.2)
  if want ≠ tag then none else
  let key := (List.range (cipher.length / 16 + 1)).map (fun i => enc (iv ++ beBytesOf 4 (i + 2)))
  some ((cipher.zip key.flatten).map (fun (p : Byte × Byte) => p.1 ^^^ p.2))

end Sys2Proof.Machine
end

