-- ==== Sys2Proof/Config.lean ====
section
/-!
DEFINITION. What one implementation fixes and the spec leaves open: constants with no body, so that nothing can be proved of their
values.  Each is named in a row of the assumption log.
-/

namespace Sys2Proof

/-- What the bytes of one section of a structure image say (Table 17-3).  The spec names the contents of each section and gives no byte
layout, so the decoding below is a constant with no body (log entry 41). -/
structure SectionData where
  /-- Register settings: BAR0 offset and word. -/
  regs : List (Nat × BitVec 32) := []
  /-- Words of program, parameter and pattern memories: BAR0 offset and word. -/
  words : List (Nat × BitVec 32) := []
  /-- Bytes of the audio sample area: SRAM address and byte. -/
  sram : List (Nat × BitVec 8) := []
  /-- LEVELS: blocks fixed at the basic level, by the offset of their CTRL register (R16). -/
  fixed : List Nat := []
  /-- DEGRADED: channel, register writes (offset, word, byte enables) and outputs to shed (R567). -/
  plans : List (Nat × List (Nat × BitVec 32 × Nat) × List Nat) := []
  /-- PARTITION: line-buffer share of each slice in pixels (R151), locked ranges as first 128-byte line and lines (R134). -/
  shares : List (Nat × Nat) := []
  locked : List (Nat × Nat) := []
  /-- AUDIO: samples of each delay line's allocation, bytes of the sample area (R335, R344). -/
  delays : List (Nat × Nat) := []
  sampleBytes : Nat := 0
  /-- PROOF: the figures of Table 1-6: objects on one line of one output, object pixels per CCLK and slice, LPDDR5X scan-out in MB/s, hopper
  records per second; commit, flip and Bolter time in CCLK and the CCLK from a tick to the first take-up point after it; audio run in CCLK;
  ring load in slot groups per µs. -/
  proofObjects : Nat := 0
  proofPixels : Nat := 0
  proofScan : Nat := 0
  proofHopper : Nat := 0
  proofCommit : Nat := 0
  proofTakeUp : Nat := 0
  proofAudio : Nat := 0
  proofRing : Nat := 0
deriving DecidableEq, Repr, Inhabited

/-- The decoding of a section: TYPE, SCOPE and the section's bytes (log entry 41). -/
opaque Config.sectionData : Nat → Nat → List (BitVec 8) → SectionData

/-- A structure as the sections that make it up: TYPE, SCOPE and contents of each. -/
abbrev StructSecs := List (Nat × Nat × SectionData)

/-- In the structure that results from an image, the section of this TYPE and SCOPE holds a value outside a limit of its chapter that the
model does not check itself (R493, cause 5; log entry 42). -/
opaque Config.contentBad : StructSecs → Nat → Nat → Bool

/-- A budget recomputed from the structure that results from an image, at the header's POINT and FS, exceeds the PROOF figure (R493, cause 6;
log entry 42). -/
opaque Config.proofBad : StructSecs → Nat → Nat → Bool

/-- The byte that a read of host memory (or any other bus agent's memory) returns: free, since another agent owns that memory and
may rewrite it at any time (log entry 3).  First the state's free-value index, then the address. -/
opaque Config.hostByte : Nat → Nat → BitVec 8

/-- What a number held in an SRAM partition whose byte layout the spec does not give becomes when a port B write falls in the partition, and
what a byte of such a partition reads as (log entry 37): free-value index, place, present value. -/
opaque Config.scribble : Nat → List Nat → Nat → Nat

/-- A free word for a value the spec leaves undefined; the argument is the state's free-value index (log entry 2). -/
opaque Config.freeWord : Nat → BitVec 32

/-- The derived tone-mapping register and table words of MX PROFILE 1 to 7 (R195 bounds them by an error and gives no codes):
profile, then offset within the table window (log entry 10). -/
opaque Config.toneTable : Nat → Nat → BitVec 32

/-- What Table 6-4 does not state of PROFILE 3 to 5 (log entry 10): the light of SDR white under PROFILE 3 in cd/m², the level to which the
linear part of the knee maps 203 cd/m² in thousandths of full scale, and the knee between 203 and 1,000 cd/m², both with 48 fraction bits. -/
opaque Config.sdrWhite : Nat
opaque Config.kneeLevel : Nat
opaque Config.kneeCurve : Nat → Nat

/-- Does a quotient that the spec leaves unrounded go to the larger neighbour: numerator and denominator (log entry 15)? -/
opaque Config.roundUp : Int → Nat → Bool

/-- The compressor and limiter gain of R345, stated to within 0.05 dB, in units of 2^-48: mode, T, e, RATIO (log entry 16). -/
opaque Config.dynGain : Nat → Nat → Nat → Nat → Nat

/-- The variation of a frame's residence in a ring node, in ps: R304 bounds it to ±2.1 ns about 112 ns (log entry 17). -/
opaque Config.residenceVar : Nat → Nat

end Sys2Proof
end

