-- ==== Sys2Proof/Machine/RegTable.lean ====
section
/-!
DEFINITION. The access codes, reset values and reset domains of every register (R8, R20 and the register table of each chapter).
A row gives the address set of a register (first address, two strides with their counts), the masks of its RW, W1C, W1S and RC
fields, its reset word, whether CORE_RST_N leaves it (a POR_N register), whether it is an expert register, and the CTRL register
of its block.
-/

namespace Sys2Proof.Machine

/-- One register's row: `base + i * s1 + j * s2` for `i < n1` and `j < n2`. -/
structure RegDesc where
  base : Nat
  s1 : Nat
  n1 : Nat
  s2 : Nat
  n2 : Nat
  rw : Nat
  w1c : Nat
  w1s : Nat
  rc : Nat
  ro : Nat
  reset : Nat
  por : Bool
  expert : Bool
  ctrl : Nat
  ctrlStride : Nat
deriving DecidableEq, Repr

/-- Rows of the SYS block, part 0. -/
def RegTable.rowsSys0 : List RegDesc := [
  -- SYS_ID
  ⟨0x0, 0x4000000, 1, 0x0, 1, 0x0, 0x0, 0x0, 0x0, 0xffffffff, 0x485210a0, false, false, 0x0, 0x0⟩,
  -- SYS_CTRL
  ⟨0x4, 0x4000000, 1, 0x0, 1, 0xf1, 0x0, 0x0, 0x0, 0x0, 0x0, false, false, 0x0, 0x0⟩,
  -- SYS_STAT
  ⟨0x8, 0x4000000, 1, 0x0, 1, 0x0, 0x7f, 0x0, 0x0, 0x0, 0x0, false, false, 0x0, 0x0⟩,
  -- SYS_RST_CAUSE
  ⟨0xc, 0x4000000, 1, 0x0, 1, 0x0, 0x7, 0x0, 0x0, 0x0, 0x1, true, false, 0x0, 0x0⟩,
  -- SYS_RST_CMD
  ⟨0x10, 0x4000000, 1, 0x0, 1, 0x0, 0x0, 0x0, 0x0, 0x0, 0x0, false, false, 0x0, 0x0⟩,
  -- SYS_CLK_CTRL
  ⟨0x14, 0x4000000, 1, 0x0, 1, 0x3, 0x0, 0x0, 0x0, 0x0, 0x3, false, false, 0x0, 0x0⟩,
  -- SYS_CLK_STAT
  ⟨0x18, 0x4000000, 1, 0x0, 1, 0x0, 0x0, 0x0, 0x0, 0x7, 0x3, false, false, 0x0, 0x0⟩,
  -- SYS_CORE_START
  ⟨0x1c, 0x4000000, 1, 0x0, 1, 0x0, 0x0, 0x0, 0x0, 0x0, 0x0, false, false, 0x0, 0x0⟩,
  -- SYS_BOOT_STAT
  ⟨0x20, 0x4000000, 1, 0x0, 1, 0x0, 0x0, 0x0, 0x0, 0xf3f, 0x1, false, false, 0x0, 0x0⟩,
  -- SYS_BOOT_CMD
  ⟨0x24, 0x4000000, 1, 0x0, 1, 0x0, 0x0, 0x0, 0x0, 0x0, 0x0, false, false, 0x0, 0x0⟩,
  -- SYS_BOOT_ADDR
  ⟨0x28, 0x4000000, 1, 0x0, 1, 0xffffffff, 0x0, 0x0, 0x0, 0x0, 0x0, false, false, 0x0, 0x0⟩,
  -- SYS_STR_ID_LO
  ⟨0x30, 0x4000000, 1, 0x0, 1, 0x0, 0x0, 0x0, 0x0, 0xffffffff, 0x0, false, false, 0x0, 0x0⟩]

/-- Rows of the SYS block, part 1. -/
def RegTable.rowsSys1 : List RegDesc := [
  -- SYS_STR_ID_HI
  ⟨0x34, 0x4000000, 1, 0x0, 1, 0x0, 0x0, 0x0, 0x0, 0xffffffff, 0x0, false, false, 0x0, 0x0⟩,
  -- SYS_STR_INFO
  ⟨0x38, 0x4000000, 1, 0x0, 1, 0x0, 0x0, 0x0, 0x0, 0x7, 0x3, false, false, 0x0, 0x0⟩,
  -- SYS_STR_TICK
  ⟨0x3c, 0x4000000, 1, 0x0, 1, 0x0, 0x0, 0x0, 0x0, 0xffffffff, 0x0, false, false, 0x0, 0x0⟩,
  -- SYS_STR_LAST
  ⟨0x40, 0x4000000, 1, 0x0, 1, 0x0, 0x0, 0x0, 0x0, 0xff0f, 0x0, false, false, 0x0, 0x0⟩,
  -- SYS_LOP_CMD
  ⟨0x48, 0x4000000, 1, 0x0, 1, 0x0, 0x0, 0x0, 0x0, 0x0, 0x0, false, false, 0x0, 0x0⟩,
  -- SYS_LOP_CFG
  ⟨0x4c, 0x4000000, 1, 0x0, 1, 0xffffff, 0x0, 0x0, 0x0, 0x0, 0x3e804, false, true, 0x4, 0x0⟩,
  -- SYS_LOP_BUSY_LO
  ⟨0x50, 0x4000000, 1, 0x0, 1, 0x0, 0x0, 0x0, 0x0, 0xffffffff, 0x0, false, false, 0x0, 0x0⟩,
  -- SYS_LOP_BUSY_HI
  ⟨0x54, 0x4000000, 1, 0x0, 1, 0x0, 0x0, 0x0, 0x0, 0xffffffff, 0x0, false, false, 0x0, 0x0⟩,
  -- SYS_LOP_DONE_LO
  ⟨0x58, 0x4000000, 1, 0x0, 1, 0x0, 0xffffffff, 0x0, 0x0, 0x0, 0x0, false, false, 0x0, 0x0⟩,
  -- SYS_LOP_DONE_HI
  ⟨0x5c, 0x4000000, 1, 0x0, 1, 0x0, 0xffffffff, 0x0, 0x0, 0x0, 0x0, false, false, 0x0, 0x0⟩,
  -- SYS_MBX_TC
  ⟨0x100, 0x40, 4, 0x4, 4, 0xffffffff, 0x0, 0x0, 0x0, 0x0, 0x0, false, false, 0x0, 0x0⟩,
  -- SYS_MBX_TH
  ⟨0x110, 0x40, 4, 0x4, 4, 0xffffffff, 0x0, 0x0, 0x0, 0x0, 0x0, false, false, 0x0, 0x0⟩]

/-- Rows of the SYS block, part 2. -/
def RegTable.rowsSys2 : List RegDesc := [
  -- SYS_MBX_STAT
  ⟨0x120, 0x40, 4, 0x0, 1, 0x0, 0x0, 0x0, 0x0, 0x3, 0x0, false, false, 0x0, 0x0⟩,
  -- SYS_LOP_STAT
  ⟨0x1000, 0x20, 64, 0x0, 1, 0x0, 0x0, 0x0, 0x0, 0xfff77, 0x0, false, false, 0x0, 0x0⟩,
  -- SYS_LOP_PROG
  ⟨0x1004, 0x20, 64, 0x0, 1, 0x0, 0x0, 0x0, 0x0, 0xffffffff, 0x0, false, false, 0x0, 0x0⟩,
  -- SYS_LOP_P
  ⟨0x1008, 0x20, 64, 0x4, 4, 0xffffffff, 0x0, 0x0, 0x0, 0x0, 0x0, false, false, 0x0, 0x0⟩,
  -- SYS_LOP_SNAP_STAT
  ⟨0x1018, 0x20, 64, 0x0, 1, 0x0, 0x0, 0x0, 0x0, 0xffffffff, 0x0, false, false, 0x0, 0x0⟩,
  -- SYS_LOP_SNAP_PROG
  ⟨0x101c, 0x20, 64, 0x0, 1, 0x0, 0x0, 0x0, 0x0, 0xffffffff, 0x0, false, false, 0x0, 0x0⟩]

/-- Rows of the SYS block. -/
def RegTable.rowsSys : List RegDesc :=
  RegTable.rowsSys0 ++ RegTable.rowsSys1 ++ RegTable.rowsSys2

/-- Rows of the TG block, part 0. -/
def RegTable.rowsTg0 : List RegDesc := [
  -- TG_TICK_CTRL
  ⟨0x10c000, 0x4000000, 1, 0x0, 1, 0x3ff1, 0x0, 0x0, 0x0, 0x0, 0x0, true, false, 0x0, 0x0⟩,
  -- TG_TICK_STAT
  ⟨0x10c004, 0x4000000, 1, 0x0, 1, 0x0, 0x73, 0x0, 0x0, 0x18c, 0x0, true, false, 0x0, 0x0⟩,
  -- TG_TICK_RATE_NUM
  ⟨0x10c008, 0x4000000, 1, 0x0, 1, 0xffffffff, 0x0, 0x0, 0x0, 0x0, 0x3c, true, true, 0x10c000, 0x0⟩,
  -- TG_TICK_RATE_DEN
  ⟨0x10c00c, 0x4000000, 1, 0x0, 1, 0xfffff, 0x0, 0x0, 0x0, 0x0, 0x1, true, true, 0x10c000, 0x0⟩,
  -- TG_TICK_NUM_LO
  ⟨0x10c010, 0x4000000, 1, 0x0, 1, 0x0, 0x0, 0x0, 0x0, 0xffffffff, 0x0, true, false, 0x0, 0x0⟩,
  -- TG_TICK_NUM_HI
  ⟨0x10c014, 0x4000000, 1, 0x0, 1, 0x0, 0x0, 0x0, 0x0, 0xffffffff, 0x0, true, false, 0x0, 0x0⟩,
  -- TG_TICK_TS_LO
  ⟨0x10c018, 0x4000000, 1, 0x0, 1, 0x0, 0x0, 0x0, 0x0, 0xffffffff, 0x0, true, false, 0x0, 0x0⟩,
  -- TG_TICK_TS_HI
  ⟨0x10c01c, 0x4000000, 1, 0x0, 1, 0x0, 0x0, 0x0, 0x0, 0xffffffff, 0x0, true, false, 0x0, 0x0⟩,
  -- TG_TICK_OUT_CFG
  ⟨0x10c020, 0x4000000, 1, 0x0, 1, 0xffff, 0x0, 0x0, 0x0, 0x0, 0x7d, true, true, 0x10c000, 0x0⟩,
  -- TG_TICK_SLEW
  ⟨0x10c024, 0x4000000, 1, 0x0, 1, 0xffff00ff, 0x0, 0x0, 0x0, 0x0, 0x64003c, true, true, 0x10c000, 0x0⟩,
  -- TG_TICK_HELD_CNT
  ⟨0x10c028, 0x4000000, 1, 0x0, 1, 0x0, 0x0, 0x0, 0x0, 0xffffffff, 0x0, true, false, 0x0, 0x0⟩,
  -- TG_TICK_OVR_CNT
  ⟨0x10c02c, 0x4000000, 1, 0x0, 1, 0x0, 0x0, 0x0, 0x0, 0xffffffff, 0x0, true, false, 0x0, 0x0⟩]

/-- Rows of the TG block, part 1. -/
def RegTable.rowsTg1 : List RegDesc := [
  -- TG_TICK_GLITCH_CNT
  ⟨0x10c030, 0x4000000, 1, 0x0, 1, 0x0, 0x0, 0x0, 0x0, 0xffffffff, 0x0, true, false, 0x0, 0x0⟩,
  -- TG_TICK_MISS_CNT
  ⟨0x10c034, 0x4000000, 1, 0x0, 1, 0x0, 0x0, 0x0, 0x0, 0xffffffff, 0x0, true, false, 0x0, 0x0⟩,
  -- TG_AUD_CFG
  ⟨0x10c038, 0x4000000, 1, 0x0, 1, 0x1, 0x0, 0x0, 0x0, 0x0, 0x0, true, false, 0x0, 0x0⟩,
  -- TG_AUD_CADENCE
  ⟨0x10c03c, 0x4000000, 1, 0x0, 1, 0x0, 0x0, 0x0, 0x0, 0xfffff1f, 0x32001, true, false, 0x0, 0x0⟩,
  -- TG_CTRL
  ⟨0x100000, 0x400, 48, 0x0, 1, 0xff3, 0x0, 0x0, 0x0, 0x0, 0x0, false, false, 0x0, 0x0⟩,
  -- TG_STAT
  ⟨0x100004, 0x400, 48, 0x0, 1, 0x0, 0x33, 0x0, 0x0, 0xf0c, 0x0, false, false, 0x0, 0x0⟩,
  -- TG_HTIMING
  ⟨0x100008, 0x400, 48, 0x0, 1, 0xffffffff, 0x0, 0x0, 0x0, 0x0, 0x0, false, true, 0x100000, 0x400⟩,
  -- TG_VTIMING
  ⟨0x10000c, 0x400, 48, 0x0, 1, 0xffffffff, 0x0, 0x0, 0x0, 0x0, 0x0, false, true, 0x100000, 0x400⟩,
  -- TG_HSYNC
  ⟨0x100010, 0x400, 48, 0x0, 1, 0xffffffff, 0x0, 0x0, 0x0, 0x0, 0x0, false, true, 0x100000, 0x400⟩,
  -- TG_VSYNC
  ⟨0x100014, 0x400, 48, 0x0, 1, 0xffffffff, 0x0, 0x0, 0x0, 0x0, 0x0, false, true, 0x100000, 0x400⟩,
  -- TG_PCLK_NUM
  ⟨0x100018, 0x400, 48, 0x0, 1, 0xffffff, 0x0, 0x0, 0x0, 0x0, 0x0, false, true, 0x100000, 0x400⟩,
  -- TG_PCLK_DEN
  ⟨0x10001c, 0x400, 48, 0x0, 1, 0xffffff, 0x0, 0x0, 0x0, 0x0, 0x1, false, true, 0x100000, 0x400⟩]

/-- Rows of the TG block, part 2. -/
def RegTable.rowsTg2 : List RegDesc := [
  -- TG_FMT
  ⟨0x100020, 0x400, 48, 0x0, 1, 0x1, 0x0, 0x0, 0x0, 0x0, 0x0, false, true, 0x100000, 0x400⟩,
  -- TG_PHASE
  ⟨0x100024, 0x400, 48, 0x0, 1, 0xffffffff, 0x0, 0x0, 0x0, 0x0, 0x493e0, false, true, 0x100000, 0x400⟩,
  -- TG_FRAME_CNT
  ⟨0x100028, 0x400, 48, 0x0, 1, 0x0, 0x0, 0x0, 0x0, 0xffffffff, 0x0, false, false, 0x0, 0x0⟩,
  -- TG_FRAME_LATCH
  ⟨0x10002c, 0x400, 48, 0x0, 1, 0x0, 0x0, 0x0, 0x0, 0xffffffff, 0x0, false, false, 0x0, 0x0⟩,
  -- TG_FLIP_TS_LO
  ⟨0x100030, 0x400, 48, 0x0, 1, 0x0, 0x0, 0x0, 0x0, 0xffffffff, 0x0, false, false, 0x0, 0x0⟩,
  -- TG_FLIP_TS_HI
  ⟨0x100034, 0x400, 48, 0x0, 1, 0x0, 0x0, 0x0, 0x0, 0xffffffff, 0x0, false, false, 0x0, 0x0⟩,
  -- TG_FLIP_EPOCH
  ⟨0x100038, 0x400, 48, 0x0, 1, 0x0, 0x0, 0x0, 0x0, 0xffffffff, 0x0, false, false, 0x0, 0x0⟩,
  -- TG_LATE_CNT
  ⟨0x10003c, 0x400, 48, 0x0, 1, 0x0, 0x0, 0x0, 0x0, 0xffffffff, 0x0, false, false, 0x0, 0x0⟩,
  -- TG_PHASE_ERR
  ⟨0x100040, 0x400, 48, 0x0, 1, 0x0, 0x0, 0x0, 0x0, 0xffffffff, 0x0, false, false, 0x0, 0x0⟩,
  -- TG_TRIM
  ⟨0x100044, 0x400, 48, 0x0, 1, 0x0, 0x0, 0x0, 0x0, 0xffffffff, 0x0, false, false, 0x0, 0x0⟩,
  -- TG_INT_CFG
  ⟨0x100048, 0x400, 48, 0x0, 1, 0x3, 0x0, 0x0, 0x0, 0x0, 0x0, false, false, 0x0, 0x0⟩,
  -- TG_GLIDE_CNT
  ⟨0x10004c, 0x400, 48, 0x0, 1, 0x0, 0x0, 0x0, 0x0, 0xffffffff, 0x0, false, false, 0x0, 0x0⟩]

/-- Rows of the TG block, part 3. -/
def RegTable.rowsTg3 : List RegDesc := [
  -- TG_BEAM
  ⟨0x100050, 0x400, 48, 0x0, 1, 0x0, 0x0, 0x0, 0x0, 0xffffffff, 0x0, false, false, 0x0, 0x0⟩]

/-- Rows of the TG block. -/
def RegTable.rowsTg : List RegDesc :=
  RegTable.rowsTg0 ++ RegTable.rowsTg1 ++ RegTable.rowsTg2 ++ RegTable.rowsTg3

/-- Rows of the OBJ block, part 0. -/
def RegTable.rowsObj0 : List RegDesc := [
  -- OBJ_CTRL
  ⟨0x200000, 0x4000000, 1, 0x0, 1, 0xf1, 0x0, 0x0, 0x0, 0x0, 0x0, false, false, 0x0, 0x0⟩,
  -- OBJ_STAT
  ⟨0x200004, 0x4000000, 1, 0x0, 1, 0x0, 0xff, 0x0, 0x0, 0x0, 0x0, false, false, 0x0, 0x0⟩,
  -- OBJ_BOL_CFG
  ⟨0x200008, 0x4000000, 1, 0x0, 1, 0x1fff1, 0x0, 0x0, 0x0, 0x0, 0x10001, false, true, 0x200000, 0x0⟩,
  -- OBJ_CEIL
  ⟨0x20000c, 0x4000000, 1, 0x0, 1, 0x0, 0x0, 0x0, 0x0, 0x1fffff, 0x0, false, false, 0x0, 0x0⟩,
  -- OBJ_POOL_BASE
  ⟨0x200010, 0x4000000, 1, 0x0, 1, 0x0, 0x0, 0x0, 0x0, 0xfffff, 0x0, false, false, 0x0, 0x0⟩,
  -- OBJ_POOL_SIZE
  ⟨0x200014, 0x4000000, 1, 0x0, 1, 0x0, 0x0, 0x0, 0x0, 0x1fffff, 0x0, false, false, 0x0, 0x0⟩,
  -- OBJ_EPOCH_LO
  ⟨0x200018, 0x4000000, 1, 0x0, 1, 0x0, 0x0, 0x0, 0x0, 0xffffffff, 0x0, false, false, 0x0, 0x0⟩,
  -- OBJ_EPOCH_HI
  ⟨0x20001c, 0x4000000, 1, 0x0, 1, 0x0, 0x0, 0x0, 0x0, 0xffffffff, 0x0, false, false, 0x0, 0x0⟩,
  -- OBJ_BOL_EPOCH
  ⟨0x200020, 0x4000000, 1, 0x0, 1, 0x0, 0x0, 0x0, 0x0, 0xffffffff, 0x0, false, false, 0x0, 0x0⟩,
  -- OBJ_BOL_STATE
  ⟨0x200024, 0x4000000, 1, 0x0, 1, 0x0, 0x0, 0x0, 0x0, 0x3, 0x0, false, false, 0x0, 0x0⟩,
  -- OBJ_BOL_LAST
  ⟨0x200028, 0x4000000, 1, 0x0, 1, 0x0, 0x0, 0x0, 0x0, 0xffffffff, 0x0, false, false, 0x0, 0x0⟩,
  -- OBJ_BOL_MAX
  ⟨0x20002c, 0x4000000, 1, 0x0, 1, 0x0, 0x0, 0x0, 0xffffffff, 0x0, 0x0, false, false, 0x0, 0x0⟩]

/-- Rows of the OBJ block, part 1. -/
def RegTable.rowsObj1 : List RegDesc := [
  -- OBJ_BOL_REUSE_CNT
  ⟨0x200030, 0x4000000, 1, 0x0, 1, 0x0, 0x0, 0x0, 0x0, 0xffffffff, 0x0, false, false, 0x0, 0x0⟩,
  -- OBJ_BOL_ABORT_CNT
  ⟨0x200034, 0x4000000, 1, 0x0, 1, 0x0, 0x0, 0x0, 0x0, 0xffffffff, 0x0, false, false, 0x0, 0x0⟩,
  -- OBJ_REF_ERR_CNT
  ⟨0x200038, 0x4000000, 1, 0x0, 1, 0x0, 0x0, 0x0, 0x0, 0xffffffff, 0x0, false, false, 0x0, 0x0⟩,
  -- OBJ_SHR_USED
  ⟨0x20003c, 0x4000000, 1, 0x0, 1, 0x0, 0x0, 0x0, 0x0, 0x1fffff, 0x0, false, false, 0x0, 0x0⟩,
  -- OBJ_SHR_DROP_CNT
  ⟨0x200040, 0x4000000, 1, 0x0, 1, 0x0, 0x0, 0x0, 0x0, 0xffffffff, 0x0, false, false, 0x0, 0x0⟩,
  -- OBJ_PEEK_SEL
  ⟨0x200044, 0x4000000, 1, 0x0, 1, 0x3fffff, 0x0, 0x0, 0x0, 0x0, 0x0, false, false, 0x0, 0x0⟩,
  -- OBJ_PEEK_STAT
  ⟨0x200048, 0x4000000, 1, 0x0, 1, 0x0, 0x0, 0x0, 0x0, 0x3, 0x0, false, false, 0x0, 0x0⟩,
  -- OBJ_PEEK_W
  ⟨0x200060, 0x4, 8, 0x0, 1, 0x0, 0x0, 0x0, 0x0, 0xffffffff, 0x0, false, false, 0x0, 0x0⟩,
  -- OBJ_GPEEK_SEL
  ⟨0x200080, 0x4000000, 1, 0x0, 1, 0x3fff, 0x0, 0x0, 0x0, 0x0, 0x0, false, false, 0x0, 0x0⟩,
  -- OBJ_GPEEK_W
  ⟨0x200084, 0x4, 3, 0x0, 1, 0x0, 0x0, 0x0, 0x0, 0xffffffff, 0x0, false, false, 0x0, 0x0⟩,
  -- OBJ_CANVAS_SIZE
  ⟨0x201000, 0x8, 256, 0x0, 1, 0xffffffff, 0x0, 0x0, 0x0, 0x0, 0xffffffff, false, false, 0x0, 0x0⟩,
  -- OBJ_CANVAS_CFG
  ⟨0x201004, 0x8, 256, 0x0, 1, 0x0, 0x0, 0x0, 0x0, 0xffff0001, 0x0, false, false, 0x0, 0x0⟩]

/-- Rows of the OBJ block, part 2. -/
def RegTable.rowsObj2 : List RegDesc := [
  -- OBJ_VP_CFG
  ⟨0x204000, 0x40, 48, 0x0, 1, 0x1ff, 0x0, 0x0, 0x0, 0x0, 0x0, false, false, 0x0, 0x0⟩,
  -- OBJ_VP_ORG
  ⟨0x204004, 0x40, 48, 0x0, 1, 0xffffffff, 0x0, 0x0, 0x0, 0x0, 0x0, false, false, 0x0, 0x0⟩,
  -- OBJ_OUT_STAT
  ⟨0x204008, 0x40, 48, 0x0, 1, 0x0, 0x7, 0x0, 0x0, 0x1ff00, 0x1ff00, false, false, 0x0, 0x0⟩,
  -- OBJ_OUT_DROP_CNT
  ⟨0x20400c, 0x40, 48, 0x0, 1, 0x0, 0x0, 0x0, 0x0, 0xffffffff, 0x0, false, false, 0x0, 0x0⟩,
  -- OBJ_OUT_QDROP_CNT
  ⟨0x204010, 0x40, 48, 0x0, 1, 0x0, 0x0, 0x0, 0x0, 0xffffffff, 0x0, false, false, 0x0, 0x0⟩,
  -- OBJ_IDX_QUOTA
  ⟨0x204014, 0x40, 48, 0x0, 1, 0x0, 0x0, 0x0, 0x0, 0x7fff, 0x0, false, false, 0x0, 0x0⟩,
  -- OBJ_OUT_ENTRIES
  ⟨0x204018, 0x40, 48, 0x0, 1, 0x0, 0x0, 0x0, 0x0, 0x3fffff, 0x0, false, false, 0x0, 0x0⟩,
  -- OBJ_OUT_MAXBIN
  ⟨0x20401c, 0x40, 48, 0x0, 1, 0x0, 0x0, 0x0, 0x0, 0xffff, 0x0, false, false, 0x0, 0x0⟩,
  -- OBJ_OUT_INT_EN
  ⟨0x204020, 0x40, 48, 0x0, 1, 0x7, 0x0, 0x0, 0x0, 0x0, 0x0, false, false, 0x0, 0x0⟩]

/-- Rows of the OBJ block. -/
def RegTable.rowsObj : List RegDesc :=
  RegTable.rowsObj0 ++ RegTable.rowsObj1 ++ RegTable.rowsObj2

/-- Rows of the TP block, part 0. -/
def RegTable.rowsTp0 : List RegDesc := [
  -- TP_CTRL
  ⟨0x300000, 0x4000000, 1, 0x0, 1, 0xf1, 0x0, 0x0, 0x0, 0x0, 0x0, false, false, 0x0, 0x0⟩,
  -- TP_STAT
  ⟨0x300004, 0x4000000, 1, 0x0, 1, 0x0, 0x1f, 0x0, 0x0, 0x0, 0x0, false, false, 0x0, 0x0⟩,
  -- TP_MISS_CFG
  ⟨0x300008, 0x4000000, 1, 0x0, 1, 0xf1, 0x0, 0x0, 0x0, 0x0, 0x0, false, true, 0x300000, 0x0⟩,
  -- TP_PAL_SPACE
  ⟨0x30000c, 0x4000000, 1, 0x0, 1, 0x0, 0x0, 0x0, 0x0, 0x1fff1fff, 0x0, false, false, 0x0, 0x0⟩,
  -- TP_MAP_SPACE
  ⟨0x300010, 0x4000000, 1, 0x0, 1, 0x0, 0x0, 0x0, 0x0, 0x7fff, 0x0, false, false, 0x0, 0x0⟩,
  -- TP_PAL_FREE
  ⟨0x300014, 0x4000000, 1, 0x0, 1, 0x0, 0x0, 0x0, 0x0, 0x1fff, 0x0, false, false, 0x0, 0x0⟩,
  -- TP_MAP_FREE
  ⟨0x300018, 0x4000000, 1, 0x0, 1, 0x0, 0x0, 0x0, 0x0, 0x7fff, 0x0, false, false, 0x0, 0x0⟩,
  -- TP_PAGE_DROP_CNT
  ⟨0x30001c, 0x4000000, 1, 0x0, 1, 0x0, 0x0, 0x0, 0x0, 0xffffffff, 0x0, false, false, 0x0, 0x0⟩,
  -- TP_CACHE_KIB
  ⟨0x300020, 0x4000000, 1, 0x0, 1, 0x0, 0x0, 0x0, 0x0, 0x1ffff, 0x0, false, false, 0x0, 0x0⟩,
  -- TP_CACHE_LOCKED
  ⟨0x300024, 0x4000000, 1, 0x0, 1, 0x0, 0x0, 0x0, 0x0, 0x1ffff, 0x0, false, false, 0x0, 0x0⟩,
  -- TP_INV_BASE
  ⟨0x300028, 0x4000000, 1, 0x0, 1, 0xffffffff, 0x0, 0x0, 0x0, 0x0, 0x0, false, false, 0x0, 0x0⟩,
  -- TP_INV_LEN
  ⟨0x30002c, 0x4000000, 1, 0x0, 1, 0xffffffff, 0x0, 0x0, 0x0, 0x0, 0x0, false, false, 0x0, 0x0⟩]

/-- Rows of the TP block, part 1. -/
def RegTable.rowsTp1 : List RegDesc := [
  -- TP_INV_CMD
  ⟨0x300030, 0x4000000, 1, 0x0, 1, 0x0, 0x0, 0x0, 0x0, 0x2, 0x0, false, false, 0x0, 0x0⟩,
  -- TP_PMAP_SEL
  ⟨0x300034, 0x4000000, 1, 0x0, 1, 0x1ffff, 0x0, 0x0, 0x0, 0x0, 0x0, false, false, 0x0, 0x0⟩,
  -- TP_PMAP_RD
  ⟨0x300038, 0x4000000, 1, 0x0, 1, 0x0, 0x0, 0x0, 0x0, 0x80007fff, 0x0, false, false, 0x0, 0x0⟩,
  -- TP_KEY_VAL
  ⟨0x300800, 0x8, 256, 0x0, 1, 0xffffffff, 0x0, 0x0, 0x0, 0x0, 0x0, false, false, 0x0, 0x0⟩,
  -- TP_KEY_MASK
  ⟨0x300804, 0x8, 256, 0x0, 1, 0xffffffff, 0x0, 0x0, 0x0, 0x0, 0xffffffff, false, false, 0x0, 0x0⟩,
  -- TP_PL_CFG
  ⟨0x304000, 0x100, 48, 0x40, 4, 0xffff7, 0x0, 0x0, 0x0, 0x0, 0x0, false, false, 0x0, 0x0⟩,
  -- TP_PL_SCROLL
  ⟨0x304004, 0x100, 48, 0x40, 4, 0xffffffff, 0x0, 0x0, 0x0, 0x0, 0x0, false, false, 0x0, 0x0⟩,
  -- TP_PL_MAP
  ⟨0x304008, 0x100, 48, 0x40, 4, 0xffffffff, 0x0, 0x0, 0x0, 0x0, 0x0, false, false, 0x0, 0x0⟩,
  -- TP_PL_TILE
  ⟨0x30400c, 0x100, 48, 0x40, 4, 0xffffffff, 0x0, 0x0, 0x0, 0x0, 0x0, false, false, 0x0, 0x0⟩,
  -- TP_PL_PAL
  ⟨0x304010, 0x100, 48, 0x40, 4, 0xffff0fff, 0x0, 0x0, 0x0, 0x0, 0x0, false, false, 0x0, 0x0⟩,
  -- TP_PL_STAT
  ⟨0x304014, 0x100, 48, 0x40, 4, 0x0, 0x7, 0x0, 0x0, 0x0, 0x0, false, false, 0x0, 0x0⟩,
  -- TP_OUT_FILL_CNT
  ⟨0x308000, 0x20, 48, 0x0, 1, 0x0, 0x0, 0x0, 0x0, 0xffffffff, 0x0, false, false, 0x0, 0x0⟩]

/-- Rows of the TP block, part 2. -/
def RegTable.rowsTp2 : List RegDesc := [
  -- TP_OUT_ACCESS_CNT
  ⟨0x308004, 0x20, 48, 0x0, 1, 0x0, 0x0, 0x0, 0x0, 0xffffffff, 0x0, false, false, 0x0, 0x0⟩,
  -- TP_OUT_LATE_CNT
  ⟨0x308008, 0x20, 48, 0x0, 1, 0x0, 0x0, 0x0, 0x0, 0xffffffff, 0x0, false, false, 0x0, 0x0⟩,
  -- TP_OUT_LATE_LINES
  ⟨0x30800c, 0x20, 48, 0x0, 1, 0x0, 0x0, 0x0, 0x0, 0xffffffff, 0x0, false, false, 0x0, 0x0⟩,
  -- TP_OUT_LAST_LATE
  ⟨0x308010, 0x20, 48, 0x0, 1, 0x0, 0x0, 0x0, 0x0, 0x31fff, 0x0, false, false, 0x0, 0x0⟩,
  -- TP_OUT_INT_EN
  ⟨0x308014, 0x20, 48, 0x0, 1, 0x1, 0x0, 0x0, 0x0, 0x0, 0x0, false, false, 0x0, 0x0⟩]

/-- Rows of the TP block. -/
def RegTable.rowsTp : List RegDesc :=
  RegTable.rowsTp0 ++ RegTable.rowsTp1 ++ RegTable.rowsTp2

/-- Rows of the SL block, part 0. -/
def RegTable.rowsSl0 : List RegDesc := [
  -- SL_CTRL
  ⟨0x400000, 0x1000, 52, 0x0, 1, 0xf1, 0x0, 0x0, 0x0, 0x0, 0x0, false, false, 0x0, 0x0⟩,
  -- SL_STAT
  ⟨0x400004, 0x1000, 52, 0x0, 1, 0x0, 0x3, 0x0, 0x0, 0x0, 0x0, false, false, 0x0, 0x0⟩,
  -- SL_CFG
  ⟨0x400008, 0x1000, 52, 0x0, 1, 0x3, 0x0, 0x0, 0x0, 0x0, 0x1, false, true, 0x400000, 0x1000⟩,
  -- SL_LEAD
  ⟨0x40000c, 0x1000, 52, 0x0, 1, 0x0, 0x0, 0x0, 0x0, 0x7, 0x0, false, false, 0x0, 0x0⟩,
  -- SL_BIND
  ⟨0x400010, 0x1000, 52, 0x0, 1, 0x0, 0x0, 0x0, 0x0, 0x3ff, 0x0, false, false, 0x0, 0x0⟩,
  -- SL_REPEAT_CNT
  ⟨0x400014, 0x1000, 52, 0x0, 1, 0x0, 0x0, 0x0, 0x0, 0xffffffff, 0x0, false, false, 0x0, 0x0⟩,
  -- SL_LAST_SLOW
  ⟨0x400018, 0x1000, 52, 0x0, 1, 0x0, 0x0, 0x0, 0x0, 0x31fff, 0x0, false, false, 0x0, 0x0⟩,
  -- SL_BUILD_LAST
  ⟨0x40001c, 0x1000, 52, 0x0, 1, 0x0, 0x0, 0x0, 0x0, 0xffff, 0x0, false, false, 0x0, 0x0⟩,
  -- SL_BUILD_MAX
  ⟨0x400020, 0x1000, 52, 0x0, 1, 0x0, 0x0, 0x0, 0xffff, 0x0, 0x0, false, false, 0x0, 0x0⟩,
  -- SL_STALL_CNT
  ⟨0x400024, 0x1000, 52, 0x0, 1, 0x0, 0x0, 0x0, 0x0, 0xffffffff, 0x0, false, false, 0x0, 0x0⟩,
  -- SL_SKIP_CNT
  ⟨0x400028, 0x1000, 52, 0x0, 1, 0x0, 0x0, 0x0, 0x0, 0xffffffff, 0x0, false, false, 0x0, 0x0⟩,
  -- SL_INT_EN
  ⟨0x40002c, 0x1000, 52, 0x0, 1, 0x1, 0x0, 0x0, 0x0, 0x0, 0x0, false, false, 0x0, 0x0⟩]

/-- Rows of the SL block, part 1. -/
def RegTable.rowsSl1 : List RegDesc := [
  -- SL_LINE_OBJ
  ⟨0x400030, 0x1000, 52, 0x0, 1, 0x0, 0x0, 0x0, 0x0, 0x1fff1fff, 0x0, false, false, 0x0, 0x0⟩,
  -- SL_OUT_BIND
  ⟨0x440000, 0x4, 48, 0x0, 1, 0x0, 0x0, 0x0, 0x0, 0x1ff3f, 0x0, false, false, 0x0, 0x0⟩,
  -- SL_LO_POS
  ⟨0x500000, 0x1000, 48, 0x10, 64, 0xffffffff, 0x0, 0x0, 0x0, 0x0, 0x0, false, false, 0x0, 0x0⟩,
  -- SL_LO_CTRL
  ⟨0x500004, 0x1000, 48, 0x10, 64, 0xfffff7f, 0x0, 0x0, 0x0, 0x0, 0x0, false, false, 0x0, 0x0⟩,
  -- SL_LO_PAT
  ⟨0x500008, 0x1000, 48, 0x10, 64, 0xffffffff, 0x0, 0x0, 0x0, 0x0, 0x0, false, false, 0x0, 0x0⟩,
  -- SL_LO_KEY
  ⟨0x50000c, 0x1000, 48, 0x10, 64, 0xff, 0x0, 0x0, 0x0, 0x0, 0x0, false, false, 0x0, 0x0⟩,
  -- SL_STAGED
  ⟨0x500400, 0x1000, 48, 0x4, 256, 0xffffffff, 0x0, 0x0, 0x0, 0x0, 0x0, false, false, 0x0, 0x0⟩,
  -- SL_LCOMMIT
  ⟨0x500800, 0x1000, 48, 0x0, 1, 0x0, 0x0, 0x0, 0x0, 0x0, 0x0, false, false, 0x0, 0x0⟩,
  -- SL_LEN_LO
  ⟨0x500804, 0x1000, 48, 0x0, 1, 0x0, 0x0, 0x0, 0x0, 0xffffffff, 0x0, false, false, 0x0, 0x0⟩,
  -- SL_LEN_HI
  ⟨0x500808, 0x1000, 48, 0x0, 1, 0x0, 0x0, 0x0, 0x0, 0xffffffff, 0x0, false, false, 0x0, 0x0⟩,
  -- SL_LEN_SET_LO
  ⟨0x50080c, 0x1000, 48, 0x0, 1, 0x0, 0x0, 0xffffffff, 0x0, 0x0, 0x0, false, false, 0x0, 0x0⟩,
  -- SL_LEN_SET_HI
  ⟨0x500810, 0x1000, 48, 0x0, 1, 0x0, 0x0, 0xffffffff, 0x0, 0x0, 0x0, false, false, 0x0, 0x0⟩]

/-- Rows of the SL block, part 2. -/
def RegTable.rowsSl2 : List RegDesc := [
  -- SL_LEN_CLR_LO
  ⟨0x500814, 0x1000, 48, 0x0, 1, 0x0, 0xffffffff, 0x0, 0x0, 0x0, 0x0, false, false, 0x0, 0x0⟩,
  -- SL_LEN_CLR_HI
  ⟨0x500818, 0x1000, 48, 0x0, 1, 0x0, 0xffffffff, 0x0, 0x0, 0x0, 0x0, false, false, 0x0, 0x0⟩,
  -- SL_LSTAT
  ⟨0x50081c, 0x1000, 48, 0x0, 1, 0x0, 0x3, 0x0, 0x0, 0x0, 0x0, false, false, 0x0, 0x0⟩,
  -- SL_LROUTE
  ⟨0x500820, 0x1000, 48, 0x4, 8, 0x80073f7f, 0x0, 0x0, 0x0, 0x0, 0x0, false, false, 0x0, 0x0⟩]

/-- Rows of the SL block. -/
def RegTable.rowsSl : List RegDesc :=
  RegTable.rowsSl0 ++ RegTable.rowsSl1 ++ RegTable.rowsSl2

/-- Rows of the MX block, part 0. -/
def RegTable.rowsMx0 : List RegDesc := [
  -- MX_CTRL
  ⟨0x800000, 0x800, 48, 0x0, 1, 0xf1, 0x0, 0x0, 0x0, 0x0, 0x0, false, false, 0x0, 0x0⟩,
  -- MX_STAT
  ⟨0x800004, 0x800, 48, 0x0, 1, 0x0, 0x1f, 0x0, 0x0, 0x0, 0x0, false, false, 0x0, 0x0⟩,
  -- MX_CFG
  ⟨0x800008, 0x800, 48, 0x0, 1, 0x1, 0x0, 0x0, 0x0, 0x0, 0x1, false, false, 0x0, 0x0⟩,
  -- MX_ORDER
  ⟨0x80000c, 0x800, 48, 0x0, 1, 0xffffff, 0x0, 0x0, 0x0, 0x0, 0x75423e, false, false, 0x0, 0x0⟩,
  -- MX_BG0
  ⟨0x800010, 0x800, 48, 0x0, 1, 0xfff0fff, 0x0, 0x0, 0x0, 0x0, 0x0, false, false, 0x0, 0x0⟩,
  -- MX_BG1
  ⟨0x800014, 0x800, 48, 0x0, 1, 0xfff, 0x0, 0x0, 0x0, 0x0, 0x0, false, false, 0x0, 0x0⟩,
  -- MX_SALPHA
  ⟨0x800018, 0x800, 48, 0x0, 1, 0xffff, 0x0, 0x0, 0x0, 0x0, 0xffff, false, false, 0x0, 0x0⟩,
  -- MX_FMT
  ⟨0x80001c, 0x800, 48, 0x0, 1, 0x7f, 0x0, 0x0, 0x0, 0x0, 0x0, false, false, 0x0, 0x0⟩,
  -- MX_TBL_CFG
  ⟨0x800020, 0x800, 48, 0x0, 1, 0x1, 0x0, 0x0, 0x0, 0x0, 0x0, false, false, 0x0, 0x0⟩,
  -- MX_TBL_CMD
  ⟨0x800024, 0x800, 48, 0x0, 1, 0x0, 0x0, 0x0, 0x0, 0x2, 0x0, false, false, 0x0, 0x0⟩,
  -- MX_TM_EN
  ⟨0x800028, 0x800, 48, 0x0, 1, 0xf, 0x0, 0x0, 0x0, 0x0, 0x0, false, true, 0x800000, 0x800⟩,
  -- MX_TM_CW0
  ⟨0x80002c, 0x800, 48, 0x0, 1, 0xffffffff, 0x0, 0x0, 0x0, 0x0, 0x0, false, true, 0x800000, 0x800⟩]

/-- Rows of the MX block, part 1. -/
def RegTable.rowsMx1 : List RegDesc := [
  -- MX_TM_CW1
  ⟨0x800030, 0x800, 48, 0x0, 1, 0x1ffff, 0x0, 0x0, 0x0, 0x0, 0x0, false, true, 0x800000, 0x800⟩,
  -- MX_TM_M
  ⟨0x800040, 0x800, 48, 0x4, 9, 0xffff, 0x0, 0x0, 0x0, 0x0, 0x0, false, true, 0x800000, 0x800⟩,
  -- MX_FRZ_CFG
  ⟨0x800080, 0x800, 48, 0x0, 1, 0xff37, 0x0, 0x0, 0x0, 0x0, 0x0, false, false, 0x0, 0x0⟩,
  -- MX_FRZ_SIG
  ⟨0x800084, 0x800, 48, 0x0, 1, 0x0, 0x0, 0x0, 0x0, 0xffffffff, 0x0, false, false, 0x0, 0x0⟩,
  -- MX_FRZ_RUN
  ⟨0x800088, 0x800, 48, 0x0, 1, 0x0, 0x0, 0x0, 0x0, 0xffff, 0x0, false, false, 0x0, 0x0⟩,
  -- MX_ALM_STAT
  ⟨0x800090, 0x800, 48, 0x0, 1, 0x0, 0x3, 0x0, 0x0, 0x0, 0x0, false, false, 0x0, 0x0⟩,
  -- MX_ALM_EN
  ⟨0x800094, 0x800, 48, 0x0, 1, 0x3, 0x0, 0x0, 0x0, 0x0, 0x0, false, false, 0x0, 0x0⟩,
  -- MX_RG_ALM_LO
  ⟨0x800098, 0x800, 48, 0x0, 1, 0x0, 0xffffffff, 0x0, 0x0, 0x0, 0x0, false, false, 0x0, 0x0⟩,
  -- MX_RG_ALM_HI
  ⟨0x80009c, 0x800, 48, 0x0, 1, 0x0, 0xffffffff, 0x0, 0x0, 0x0, 0x0, false, false, 0x0, 0x0⟩,
  -- MX_VP_CFG
  ⟨0x800100, 0x800, 48, 0x40, 2, 0x3ff1, 0x0, 0x0, 0x0, 0x0, 0x0, false, false, 0x0, 0x0⟩,
  -- MX_VP_BUF
  ⟨0x800104, 0x800, 48, 0x40, 2, 0xffffffff, 0x0, 0x0, 0x0, 0x0, 0x0, false, false, 0x0, 0x0⟩,
  -- MX_VP_STRIDE
  ⟨0x800108, 0x800, 48, 0x40, 2, 0xffff, 0x0, 0x0, 0x0, 0x0, 0x0, false, false, 0x0, 0x0⟩]

/-- Rows of the MX block, part 2. -/
def RegTable.rowsMx2 : List RegDesc := [
  -- MX_VP_SRC_ORG
  ⟨0x80010c, 0x800, 48, 0x40, 2, 0x1fff1fff, 0x0, 0x0, 0x0, 0x0, 0x0, false, false, 0x0, 0x0⟩,
  -- MX_VP_SRC_SIZE
  ⟨0x800110, 0x800, 48, 0x40, 2, 0x1fff1fff, 0x0, 0x0, 0x0, 0x0, 0x0, false, false, 0x0, 0x0⟩,
  -- MX_VP_DST_ORG
  ⟨0x800114, 0x800, 48, 0x40, 2, 0xffffffff, 0x0, 0x0, 0x0, 0x0, 0x0, false, false, 0x0, 0x0⟩,
  -- MX_VP_DST_SIZE
  ⟨0x800118, 0x800, 48, 0x40, 2, 0x1fff1fff, 0x0, 0x0, 0x0, 0x0, 0x0, false, false, 0x0, 0x0⟩,
  -- MX_VP_ALPHA
  ⟨0x80011c, 0x800, 48, 0x40, 2, 0xffff, 0x0, 0x0, 0x0, 0x0, 0x0, false, false, 0x0, 0x0⟩,
  -- MX_VP_URG
  ⟨0x800120, 0x800, 48, 0x40, 2, 0xfff, 0x0, 0x0, 0x0, 0xfff0000, 0x0, false, false, 0x0, 0x0⟩,
  -- MX_VP_STAT
  ⟨0x800124, 0x800, 48, 0x40, 2, 0x0, 0x7, 0x0, 0x0, 0x0, 0x0, false, false, 0x0, 0x0⟩,
  -- MX_VP_DRY_CNT
  ⟨0x800128, 0x800, 48, 0x40, 2, 0x0, 0x0, 0x0, 0x0, 0xffffffff, 0x0, false, false, 0x0, 0x0⟩,
  -- MX_VP_URG_CNT
  ⟨0x80012c, 0x800, 48, 0x40, 2, 0x0, 0x0, 0x0, 0x0, 0xffffffff, 0x0, false, false, 0x0, 0x0⟩,
  -- MX_VP_LAST_DRY
  ⟨0x800130, 0x800, 48, 0x40, 2, 0x0, 0x0, 0x0, 0x0, 0x1fff, 0x0, false, false, 0x0, 0x0⟩,
  -- MX_VP_INT_EN
  ⟨0x800134, 0x800, 48, 0x40, 2, 0x1, 0x0, 0x0, 0x0, 0x0, 0x0, false, false, 0x0, 0x0⟩,
  -- MX_RG_X
  ⟨0x9a0000, 0x800, 48, 0x20, 64, 0x1fff1fff, 0x0, 0x0, 0x0, 0x0, 0x0, false, false, 0x0, 0x0⟩]

/-- Rows of the MX block, part 3. -/
def RegTable.rowsMx3 : List RegDesc := [
  -- MX_RG_Y
  ⟨0x9a0004, 0x800, 48, 0x20, 64, 0x1fff1fff, 0x0, 0x0, 0x0, 0x0, 0x0, false, false, 0x0, 0x0⟩,
  -- MX_RG_CFG
  ⟨0x9a0008, 0x800, 48, 0x20, 64, 0xf37, 0x0, 0x0, 0x0, 0x0, 0x0, false, false, 0x0, 0x0⟩,
  -- MX_RG_EXP_A
  ⟨0x9a000c, 0x800, 48, 0x20, 64, 0xffffffff, 0x0, 0x0, 0x0, 0x0, 0x0, false, false, 0x0, 0x0⟩,
  -- MX_RG_EXP_B
  ⟨0x9a0010, 0x800, 48, 0x20, 64, 0xffffffff, 0x0, 0x0, 0x0, 0x0, 0x0, false, false, 0x0, 0x0⟩,
  -- MX_RG_MEAS
  ⟨0x9a0014, 0x800, 48, 0x20, 64, 0x0, 0x0, 0x0, 0x0, 0xffffffff, 0x0, false, false, 0x0, 0x0⟩,
  -- MX_RG_CNT
  ⟨0x9a0018, 0x800, 48, 0x20, 64, 0x0, 0x0, 0x0, 0x0, 0xffffffff, 0x0, false, false, 0x0, 0x0⟩,
  -- MX_RG_RUN
  ⟨0x9a001c, 0x800, 48, 0x20, 64, 0x0, 0x0, 0x0, 0x0, 0xff, 0x0, false, false, 0x0, 0x0⟩]

/-- Rows of the MX block. -/
def RegTable.rowsMx : List RegDesc :=
  RegTable.rowsMx0 ++ RegTable.rowsMx1 ++ RegTable.rowsMx2 ++ RegTable.rowsMx3

/-- Rows of the DM block, part 0. -/
def RegTable.rowsDm0 : List RegDesc := [
  -- DM_CTRL
  ⟨0xa00000, 0x100, 48, 0x0, 1, 0xf1, 0x0, 0x0, 0x0, 0x0, 0x0, false, false, 0x0, 0x0⟩,
  -- DM_STAT
  ⟨0xa00004, 0x100, 48, 0x0, 1, 0x0, 0x7f, 0x0, 0x0, 0x300, 0x0, false, false, 0x0, 0x0⟩,
  -- DM_CFG
  ⟨0xa00008, 0x100, 48, 0x0, 1, 0x3, 0x0, 0x0, 0x0, 0x0, 0x1, false, true, 0xa00000, 0x100⟩,
  -- DM_INT_EN
  ⟨0xa0000c, 0x100, 48, 0x0, 1, 0xf, 0x0, 0x0, 0x0, 0x0, 0x0, false, false, 0x0, 0x0⟩,
  -- DM_ENTRY
  ⟨0xa00010, 0x100, 48, 0x0, 1, 0xfff, 0x0, 0x0, 0x0, 0x0, 0x0, false, false, 0x0, 0x0⟩,
  -- DM_PC
  ⟨0xa00014, 0x100, 48, 0x0, 1, 0x0, 0x0, 0x0, 0x0, 0xfff, 0x0, false, false, 0x0, 0x0⟩,
  -- DM_FAULT
  ⟨0xa00018, 0x100, 48, 0x0, 1, 0x0, 0x0, 0x0, 0x0, 0x30fff, 0x0, false, false, 0x0, 0x0⟩,
  -- DM_FAULT_CNT
  ⟨0xa0001c, 0x100, 48, 0x0, 1, 0x0, 0x0, 0x0, 0x0, 0xffffffff, 0x0, false, false, 0x0, 0x0⟩,
  -- DM_OVR_CNT
  ⟨0xa00020, 0x100, 48, 0x0, 1, 0x0, 0x0, 0x0, 0x0, 0xffffffff, 0x0, false, false, 0x0, 0x0⟩,
  -- DM_LATE_CNT
  ⟨0xa00024, 0x100, 48, 0x0, 1, 0x0, 0x0, 0x0, 0x0, 0xffffffff, 0x0, false, false, 0x0, 0x0⟩,
  -- DM_LAST_LATE
  ⟨0xa00028, 0x100, 48, 0x0, 1, 0x0, 0x0, 0x0, 0x0, 0xfff1fff, 0x0, false, false, 0x0, 0x0⟩,
  -- DM_SIG_CODE
  ⟨0xa0002c, 0x100, 48, 0x0, 1, 0x0, 0x0, 0x0, 0x0, 0xff, 0x0, false, false, 0x0, 0x0⟩]

/-- Rows of the DM block, part 1. -/
def RegTable.rowsDm1 : List RegDesc := [
  -- DM_FLAGS
  ⟨0xa00030, 0x100, 48, 0x0, 1, 0x0, 0x0, 0x0, 0x0, 0xffff, 0x0, false, false, 0x0, 0x0⟩,
  -- DM_FLAGS_SET
  ⟨0xa00034, 0x100, 48, 0x0, 1, 0x0, 0x0, 0xffff, 0x0, 0x0, 0x0, false, false, 0x0, 0x0⟩,
  -- DM_FLAGS_CLR
  ⟨0xa00038, 0x100, 48, 0x0, 1, 0x0, 0xffff, 0x0, 0x0, 0x0, 0x0, false, false, 0x0, 0x0⟩,
  -- DM_EV_TRIG
  ⟨0xa0003c, 0x100, 48, 0x0, 1, 0x0, 0x0, 0x0, 0x0, 0x0, 0x0, false, false, 0x0, 0x0⟩,
  -- DM_EV_CNT
  ⟨0xa00040, 0x100, 48, 0x0, 1, 0x0, 0x0, 0x0, 0x0, 0xffffffff, 0x0, false, false, 0x0, 0x0⟩,
  -- DM_EV_OVF
  ⟨0xa00044, 0x100, 48, 0x0, 1, 0x0, 0xff, 0x0, 0x0, 0x0, 0x0, false, false, 0x0, 0x0⟩,
  -- DM_EV_SEL
  ⟨0xa00048, 0x100, 48, 0x4, 8, 0x7f7, 0x0, 0x0, 0x0, 0x0, 0x0, false, false, 0x0, 0x0⟩,
  -- DM_DATA
  ⟨0xa00080, 0x100, 48, 0x4, 16, 0xffffffff, 0x0, 0x0, 0x0, 0x0, 0x0, false, false, 0x0, 0x0⟩]

/-- Rows of the DM block. -/
def RegTable.rowsDm : List RegDesc :=
  RegTable.rowsDm0 ++ RegTable.rowsDm1

/-- Rows of the HOP block, part 0. -/
def RegTable.rowsHop0 : List RegDesc := [
  -- HOP_RD_BASE_LO
  ⟨0xc00000, 0x20, 16384, 0x0, 1, 0xffffffc0, 0x0, 0x0, 0x0, 0x0, 0x0, false, false, 0x0, 0x0⟩,
  -- HOP_RD_BASE_HI
  ⟨0xc00004, 0x20, 16384, 0x0, 1, 0xffffffff, 0x0, 0x0, 0x0, 0x0, 0x0, false, false, 0x0, 0x0⟩,
  -- HOP_RD_CFG
  ⟨0xc00008, 0x20, 16384, 0x0, 1, 0x3fff, 0x0, 0x0, 0x0, 0x38000, 0x10, false, false, 0x0, 0x0⟩,
  -- HOP_RD_HEAD
  ⟨0xc0000c, 0x20, 16384, 0x0, 1, 0x0, 0x0, 0x0, 0x0, 0xffffffff, 0x0, false, false, 0x0, 0x0⟩,
  -- HOP_RD_TAIL
  ⟨0xc00010, 0x20, 16384, 0x0, 1, 0xffffffff, 0x0, 0x0, 0x0, 0x0, 0x0, false, false, 0x0, 0x0⟩,
  -- HOP_RD_WB_LO
  ⟨0xc00014, 0x20, 16384, 0x0, 1, 0xfffffff8, 0x0, 0x0, 0x0, 0x0, 0x0, false, false, 0x0, 0x0⟩,
  -- HOP_RD_WB_HI
  ⟨0xc00018, 0x20, 16384, 0x0, 1, 0xffffffff, 0x0, 0x0, 0x0, 0x0, 0x0, false, false, 0x0, 0x0⟩,
  -- HOP_RD_STAT
  ⟨0xc0001c, 0x20, 16384, 0x0, 1, 0x0, 0x6, 0x0, 0x0, 0xf19, 0x0, false, false, 0x0, 0x0⟩,
  -- HOP_CTRL
  ⟨0xc80000, 0x4000000, 1, 0x0, 1, 0xf1, 0x0, 0x0, 0x0, 0x0, 0x0, false, false, 0x0, 0x0⟩,
  -- HOP_STAT
  ⟨0xc80004, 0x4000000, 1, 0x0, 1, 0x0, 0x3fd, 0x0, 0x0, 0x2, 0x0, false, false, 0x0, 0x0⟩,
  -- HOP_CFG
  ⟨0xc80008, 0x4000000, 1, 0x0, 1, 0x7ffffff, 0x0, 0x0, 0x0, 0x0, 0x4bfff40, false, true, 0xc80000, 0x0⟩,
  -- HOP_POND_CAP
  ⟨0xc8000c, 0x4000000, 1, 0x0, 1, 0x0, 0x0, 0x0, 0x0, 0x1ffff, 0x0, false, false, 0x0, 0x0⟩]

/-- Rows of the HOP block, part 1. -/
def RegTable.rowsHop1 : List RegDesc := [
  -- HOP_POND_RES
  ⟨0xc80010, 0x4000000, 1, 0x0, 1, 0x0, 0x0, 0x0, 0x0, 0x1ffff, 0x0, false, false, 0x0, 0x0⟩,
  -- HOP_POND_USED
  ⟨0xc80014, 0x4000000, 1, 0x0, 1, 0x0, 0x0, 0x0, 0x0, 0x1ffff, 0x0, false, false, 0x0, 0x0⟩,
  -- HOP_HORIZON
  ⟨0xc80018, 0x4000000, 1, 0x0, 1, 0x0, 0x0, 0x0, 0x0, 0xffffffff, 0xc350, true, false, 0x0, 0x0⟩,
  -- HOP_TICK_RT_LO
  ⟨0xc8001c, 0x4000000, 1, 0x0, 1, 0x0, 0x0, 0x0, 0x0, 0xffffffff, 0x0, false, false, 0x0, 0x0⟩,
  -- HOP_TICK_RT_HI
  ⟨0xc80020, 0x4000000, 1, 0x0, 1, 0x0, 0x0, 0x0, 0x0, 0xffffffff, 0x0, false, false, 0x0, 0x0⟩,
  -- HOP_INGEST_CNT
  ⟨0xc80024, 0x4000000, 1, 0x0, 1, 0x0, 0x0, 0x0, 0x0, 0xffffffff, 0x0, false, false, 0x0, 0x0⟩,
  -- HOP_RING_IN_CNT
  ⟨0xc80028, 0x4000000, 1, 0x0, 1, 0x0, 0x0, 0x0, 0x0, 0xffffffff, 0x0, false, false, 0x0, 0x0⟩,
  -- HOP_COMMIT_CNT
  ⟨0xc8002c, 0x4000000, 1, 0x0, 1, 0x0, 0x0, 0x0, 0x0, 0xffffffff, 0x0, false, false, 0x0, 0x0⟩,
  -- HOP_LATE_CNT
  ⟨0xc80030, 0x4000000, 1, 0x0, 1, 0x0, 0x0, 0x0, 0x0, 0xffffffff, 0x0, false, false, 0x0, 0x0⟩,
  -- HOP_LATE_ARR_CNT
  ⟨0xc80034, 0x4000000, 1, 0x0, 1, 0x0, 0x0, 0x0, 0x0, 0xffffffff, 0x0, false, false, 0x0, 0x0⟩,
  -- HOP_REFUSE_CNT
  ⟨0xc80038, 0x4000000, 1, 0x0, 1, 0x0, 0x0, 0x0, 0x0, 0xffffffff, 0x0, false, false, 0x0, 0x0⟩,
  -- HOP_LAST_REFUSE
  ⟨0xc8003c, 0x4000000, 1, 0x0, 1, 0x0, 0x0, 0x0, 0x0, 0xf1f7fff, 0x0, false, false, 0x0, 0x0⟩]

/-- Rows of the HOP block, part 2. -/
def RegTable.rowsHop2 : List RegDesc := [
  -- HOP_BP_CNT
  ⟨0xc80040, 0x4000000, 1, 0x0, 1, 0x0, 0x0, 0x0, 0x0, 0xffffffff, 0x0, false, false, 0x0, 0x0⟩,
  -- HOP_RING_DROP_CNT
  ⟨0xc80044, 0x4000000, 1, 0x0, 1, 0x0, 0x0, 0x0, 0x0, 0xffffffff, 0x0, false, false, 0x0, 0x0⟩,
  -- HOP_COMMIT_LAST
  ⟨0xc80048, 0x4000000, 1, 0x0, 1, 0x0, 0x0, 0x0, 0x0, 0x1ffff, 0x0, false, false, 0x0, 0x0⟩,
  -- HOP_COMMIT_MAX
  ⟨0xc8004c, 0x4000000, 1, 0x0, 1, 0x0, 0x0, 0x0, 0x1ffff, 0x0, 0x0, false, false, 0x0, 0x0⟩,
  -- HOP_INT_EN
  ⟨0xc80050, 0x4000000, 1, 0x0, 1, 0xff, 0x0, 0x0, 0x0, 0x0, 0x0, false, false, 0x0, 0x0⟩,
  -- HOP_GRP_STAT
  ⟨0xc80054, 0x4000000, 1, 0x0, 1, 0x0, 0xff, 0x0, 0x0, 0x0, 0x0, false, false, 0x0, 0x0⟩,
  -- HOP_VP_PEND_BUF
  ⟨0xc81000, 0x20, 48, 0x10, 2, 0x0, 0x0, 0x0, 0x0, 0xffffffff, 0x0, false, false, 0x0, 0x0⟩,
  -- HOP_VP_PEND
  ⟨0xc81004, 0x20, 48, 0x10, 2, 0x0, 0x0, 0x0, 0x0, 0x807fffff, 0x0, false, false, 0x0, 0x0⟩,
  -- HOP_VP_FIF_CNT
  ⟨0xc81008, 0x20, 48, 0x10, 2, 0x0, 0x0, 0x0, 0x0, 0xffffffff, 0x0, false, false, 0x0, 0x0⟩,
  -- HOP_VP_SUPER_CNT
  ⟨0xc8100c, 0x20, 48, 0x10, 2, 0x0, 0x0, 0x0, 0x0, 0xffffffff, 0x0, false, false, 0x0, 0x0⟩,
  -- HOP_TRK_DONE
  ⟨0xc82000, 0x8, 64, 0x0, 1, 0xffff, 0x0, 0x0, 0x0, 0x0, 0x0, false, false, 0x0, 0x0⟩,
  -- HOP_TRK_CUT
  ⟨0xc82004, 0x8, 64, 0x0, 1, 0x0, 0x0, 0x0, 0x0, 0xffff, 0x0, false, false, 0x0, 0x0⟩]

/-- Rows of the HOP block. -/
def RegTable.rowsHop : List RegDesc :=
  RegTable.rowsHop0 ++ RegTable.rowsHop1 ++ RegTable.rowsHop2

/-- Rows of the FL block, part 0. -/
def RegTable.rowsFl0 : List RegDesc := [
  -- FL_CTRL
  ⟨0x1000000, 0x400, 48, 0x0, 1, 0xf3, 0x0, 0x0, 0x0, 0x0, 0x0, false, false, 0x0, 0x0⟩,
  -- FL_STAT
  ⟨0x1000004, 0x400, 48, 0x0, 1, 0x0, 0x1ff, 0x0, 0x0, 0x3000, 0x0, false, false, 0x0, 0x0⟩,
  -- FL_CFG
  ⟨0x1000008, 0x400, 48, 0x0, 1, 0x377, 0x0, 0x0, 0x0, 0x0, 0x65, false, true, 0x1000000, 0x400⟩,
  -- FL_TX_EQ
  ⟨0x100000c, 0x400, 48, 0x0, 1, 0xfff, 0x0, 0x0, 0x0, 0x0, 0x708, false, true, 0x1000000, 0x400⟩,
  -- FL_BOARD
  ⟨0x1000010, 0x400, 48, 0x0, 1, 0xf1, 0x0, 0x0, 0x0, 0x0, 0x0, false, false, 0x0, 0x0⟩,
  -- FL_CMD
  ⟨0x1000014, 0x400, 48, 0x0, 1, 0x0, 0x0, 0x0, 0x0, 0x0, 0x0, false, false, 0x0, 0x0⟩,
  -- FL_PKT_CNT
  ⟨0x1000018, 0x400, 48, 0x0, 1, 0x0, 0x0, 0x0, 0x0, 0xffffffff, 0x0, false, false, 0x0, 0x0⟩,
  -- FL_LINE_CNT
  ⟨0x100001c, 0x400, 48, 0x0, 1, 0x0, 0x0, 0x0, 0x0, 0xffffffff, 0x0, false, false, 0x0, 0x0⟩,
  -- FL_DROP_CNT
  ⟨0x1000020, 0x400, 48, 0x0, 1, 0x0, 0x0, 0x0, 0x0, 0xffffffff, 0x0, false, false, 0x0, 0x0⟩,
  -- FL_UNSENT_CNT
  ⟨0x1000024, 0x400, 48, 0x0, 1, 0x0, 0x0, 0x0, 0x0, 0xffffffff, 0x0, false, false, 0x0, 0x0⟩,
  -- FL_RETRAIN_CNT
  ⟨0x1000028, 0x400, 48, 0x0, 1, 0x0, 0x0, 0x0, 0x0, 0xffffffff, 0x0, false, false, 0x0, 0x0⟩,
  -- FL_LAT
  ⟨0x100002c, 0x400, 48, 0x0, 1, 0x0, 0x0, 0x0, 0x0, 0xff, 0x1e, false, false, 0x0, 0x0⟩]

/-- Rows of the FL block, part 1. -/
def RegTable.rowsFl1 : List RegDesc := [
  -- FL_DEMAND
  ⟨0x1000030, 0x400, 48, 0x0, 1, 0x0, 0x0, 0x0, 0xffff, 0xffff0000, 0x0, false, false, 0x0, 0x0⟩,
  -- FL_INT_EN
  ⟨0x1000034, 0x400, 48, 0x0, 1, 0x7, 0x0, 0x0, 0x0, 0x0, 0x0, false, false, 0x0, 0x0⟩,
  -- FL_AUX_CTRL
  ⟨0x1000040, 0x400, 48, 0x4, 2, 0x3ff1f, 0x0, 0x0, 0x0, 0xff000000, 0x0, false, false, 0x0, 0x0⟩]

/-- Rows of the FL block. -/
def RegTable.rowsFl : List RegDesc :=
  RegTable.rowsFl0 ++ RegTable.rowsFl1

/-- Rows of the RING block, part 0. -/
def RegTable.rowsRing0 : List RegDesc := [
  -- RING_CTRL
  ⟨0x1100000, 0x4000000, 1, 0x0, 1, 0x1f1, 0x0, 0x0, 0x0, 0x0, 0x100, true, false, 0x0, 0x0⟩,
  -- RING_STAT
  ⟨0x1100004, 0x4000000, 1, 0x0, 1, 0x0, 0x39801, 0x0, 0x0, 0x67fe, 0x0, true, false, 0x0, 0x0⟩,
  -- RING_CFG
  ⟨0x1100008, 0x4000000, 1, 0x0, 1, 0x0, 0x0, 0x0, 0x0, 0x37f, 0x0, true, false, 0x0, 0x0⟩,
  -- RING_NODE
  ⟨0x110000c, 0x4000000, 1, 0x0, 1, 0x0, 0x0, 0x0, 0x0, 0x3f, 0x0, true, false, 0x0, 0x0⟩,
  -- RING_POLICY
  ⟨0x1100010, 0x4000000, 1, 0x0, 1, 0xff03, 0x0, 0x0, 0x0, 0x0, 0x202, true, true, 0x1100000, 0x0⟩,
  -- RING_HORIZON
  ⟨0x1100014, 0x4000000, 1, 0x0, 1, 0x0, 0x0, 0x0, 0x0, 0x7ffff, 0xc350, true, false, 0x0, 0x0⟩,
  -- RING_HZ_NS
  ⟨0x1100018, 0x4000000, 1, 0x0, 1, 0x7ffff, 0x0, 0x0, 0x0, 0x0, 0x0, true, false, 0x0, 0x0⟩,
  -- RING_HZ_AT
  ⟨0x110001c, 0x4000000, 1, 0x0, 1, 0xffffffff, 0x0, 0x0, 0x0, 0x0, 0x0, true, false, 0x0, 0x0⟩,
  -- RING_RT_LO
  ⟨0x1100020, 0x4000000, 1, 0x0, 1, 0x0, 0x0, 0x0, 0x0, 0xffffffff, 0x0, true, false, 0x0, 0x0⟩,
  -- RING_RT_HI
  ⟨0x1100024, 0x4000000, 1, 0x0, 1, 0x0, 0x0, 0x0, 0x0, 0xffffffff, 0x0, true, false, 0x0, 0x0⟩,
  -- RING_TICK_ERR
  ⟨0x1100028, 0x4000000, 1, 0x0, 1, 0x0, 0x0, 0x0, 0x0, 0xffffffff, 0x0, true, false, 0x0, 0x0⟩,
  -- RING_LOOP
  ⟨0x110002c, 0x4000000, 1, 0x0, 1, 0x0, 0x0, 0x0, 0x0, 0xffffffff, 0x0, true, false, 0x0, 0x0⟩]

/-- Rows of the RING block, part 1. -/
def RegTable.rowsRing1 : List RegDesc := [
  -- RING_LOOP_RES
  ⟨0x1100030, 0x4000000, 1, 0x0, 1, 0x0, 0x0, 0x0, 0x0, 0xffffffff, 0x0, true, false, 0x0, 0x0⟩,
  -- RING_BOARD_PRI
  ⟨0x1100034, 0x4000000, 1, 0x0, 1, 0x0, 0x0, 0x0, 0x0, 0xffff, 0x0, true, false, 0x0, 0x0⟩,
  -- RING_BOARD_LEAT
  ⟨0x1100038, 0x4000000, 1, 0x0, 1, 0x0, 0x0, 0x0, 0x0, 0xffff, 0x0, true, false, 0x0, 0x0⟩,
  -- RING_INJ_RATE
  ⟨0x110003c, 0x4000000, 1, 0x0, 1, 0x0, 0x0, 0x0, 0x0, 0xff, 0x0, true, false, 0x0, 0x0⟩,
  -- RING_INJ_WAIT_MAX
  ⟨0x1100040, 0x4000000, 1, 0x0, 1, 0x0, 0x0, 0x0, 0xffffffff, 0x0, 0x0, true, false, 0x0, 0x0⟩,
  -- RING_SWITCH_CNT
  ⟨0x1100044, 0x4000000, 1, 0x0, 1, 0x0, 0x0, 0x0, 0x0, 0xffffffff, 0x0, true, false, 0x0, 0x0⟩,
  -- RING_BACK_CNT
  ⟨0x1100048, 0x4000000, 1, 0x0, 1, 0x0, 0x0, 0x0, 0x0, 0xffffffff, 0x0, true, false, 0x0, 0x0⟩,
  -- RING_CRC_CNT
  ⟨0x110004c, 0x4000000, 1, 0x0, 1, 0x0, 0x0, 0x0, 0x0, 0xffffffff, 0x0, true, false, 0x0, 0x0⟩,
  -- RING_GAP_CNT
  ⟨0x1100050, 0x4000000, 1, 0x0, 1, 0x0, 0x0, 0x0, 0x0, 0xffffffff, 0x0, true, false, 0x0, 0x0⟩,
  -- RING_FWD_CNT
  ⟨0x1100054, 0x4000000, 1, 0x0, 1, 0x0, 0x0, 0x0, 0x0, 0xffffffff, 0x0, true, false, 0x0, 0x0⟩,
  -- RING_INJ_CNT
  ⟨0x1100058, 0x4000000, 1, 0x0, 1, 0x0, 0x0, 0x0, 0x0, 0xffffffff, 0x0, true, false, 0x0, 0x0⟩,
  -- RING_SEG_CNT
  ⟨0x110005c, 0x4000000, 1, 0x0, 1, 0x0, 0x0, 0x0, 0x0, 0xffffffff, 0x0, true, false, 0x0, 0x0⟩]

/-- Rows of the RING block, part 2. -/
def RegTable.rowsRing2 : List RegDesc := [
  -- RING_SEG_DROP_CNT
  ⟨0x1100060, 0x4000000, 1, 0x0, 1, 0x0, 0x0, 0x0, 0x0, 0xffffffff, 0x0, true, false, 0x0, 0x0⟩,
  -- RING_MEMBERS_LO
  ⟨0x1100064, 0x4000000, 1, 0x0, 1, 0x0, 0x0, 0x0, 0x0, 0xffffffff, 0x0, true, false, 0x0, 0x0⟩,
  -- RING_MEMBERS_HI
  ⟨0x1100068, 0x4000000, 1, 0x0, 1, 0x0, 0x0, 0x0, 0x0, 0xffffffff, 0x0, true, false, 0x0, 0x0⟩,
  -- RING_LAG_LO
  ⟨0x110006c, 0x4000000, 1, 0x0, 1, 0x0, 0x0, 0x0, 0x0, 0xffffffff, 0x0, true, false, 0x0, 0x0⟩,
  -- RING_LAG_HI
  ⟨0x1100070, 0x4000000, 1, 0x0, 1, 0x0, 0x0, 0x0, 0x0, 0xffffffff, 0x0, true, false, 0x0, 0x0⟩,
  -- RING_INT_EN
  ⟨0x1100074, 0x4000000, 1, 0x0, 1, 0x7ff, 0x0, 0x0, 0x0, 0x0, 0x0, true, false, 0x0, 0x0⟩,
  -- RING_CMD
  ⟨0x1100078, 0x4000000, 1, 0x0, 1, 0x0, 0x0, 0x0, 0x0, 0x0, 0x0, true, false, 0x0, 0x0⟩,
  -- RING_LINK
  ⟨0x110007c, 0x4000000, 1, 0x0, 1, 0x1f1f1f1f, 0x0, 0x0, 0x0, 0x0, 0x0, true, false, 0x0, 0x0⟩,
  -- RING_TX_EQ
  ⟨0x11000f0, 0x4000000, 1, 0x0, 1, 0xfff, 0x0, 0x0, 0x0, 0x0, 0x708, true, true, 0x1100000, 0x0⟩,
  -- RING_MBX_TX
  ⟨0x1100080, 0x4, 8, 0x0, 1, 0xffffffff, 0x0, 0x0, 0x0, 0x0, 0x0, false, false, 0x0, 0x0⟩,
  -- RING_MBX_TX_CTRL
  ⟨0x11000a0, 0x4000000, 1, 0x0, 1, 0x7f, 0x600, 0x0, 0x0, 0x100, 0x0, false, false, 0x0, 0x0⟩,
  -- RING_MBX_RX
  ⟨0x11000c0, 0x4, 8, 0x0, 1, 0x0, 0x0, 0x0, 0x0, 0xffffffff, 0x0, false, false, 0x0, 0x0⟩]

/-- Rows of the RING block, part 3. -/
def RegTable.rowsRing3 : List RegDesc := [
  -- RING_MBX_RX_INFO
  ⟨0x11000e0, 0x4000000, 1, 0x0, 1, 0x0, 0x0, 0x0, 0x0, 0x1f013f, 0x0, false, false, 0x0, 0x0⟩,
  -- RING_MBX_RX_TS_LO
  ⟨0x11000e4, 0x4000000, 1, 0x0, 1, 0x0, 0x0, 0x0, 0x0, 0xffffffff, 0x0, false, false, 0x0, 0x0⟩,
  -- RING_MBX_RX_TS_HI
  ⟨0x11000e8, 0x4000000, 1, 0x0, 1, 0x0, 0x0, 0x0, 0x0, 0xffffffff, 0x0, false, false, 0x0, 0x0⟩]

/-- Rows of the RING block. -/
def RegTable.rowsRing : List RegDesc :=
  RegTable.rowsRing0 ++ RegTable.rowsRing1 ++ RegTable.rowsRing2 ++ RegTable.rowsRing3

/-- Rows of the AUD block, part 0. -/
def RegTable.rowsAud0 : List RegDesc := [
  -- AUD_CTRL
  ⟨0x1200000, 0x4000000, 1, 0x0, 1, 0xf1, 0x0, 0x0, 0x0, 0x0, 0x0, false, false, 0x0, 0x0⟩,
  -- AUD_STAT
  ⟨0x1200004, 0x4000000, 1, 0x0, 1, 0x0, 0x7f, 0x0, 0x0, 0x0, 0x0, false, false, 0x0, 0x0⟩,
  -- AUD_CFG
  ⟨0x1200008, 0x4000000, 1, 0x0, 1, 0xffffffff, 0x0, 0x0, 0x0, 0x0, 0x400018, false, true, 0x1200000, 0x0⟩,
  -- AUD_SIL_CFG
  ⟨0x120000c, 0x4000000, 1, 0x0, 1, 0xffffff, 0x0, 0x0, 0x0, 0x0, 0x109, false, true, 0x1200000, 0x0⟩,
  -- AUD_SIL_HOLD
  ⟨0x1200010, 0x4000000, 1, 0x0, 1, 0xffffff, 0x0, 0x0, 0x0, 0x0, 0xbb80, false, true, 0x1200000, 0x0⟩,
  -- AUD_BUDGET
  ⟨0x1200014, 0x4000000, 1, 0x0, 1, 0x0, 0x0, 0x0, 0x0, 0xffff, 0x0, false, false, 0x0, 0x0⟩,
  -- AUD_RUN_LAST
  ⟨0x1200018, 0x4000000, 1, 0x0, 1, 0x0, 0x0, 0x0, 0x0, 0xffff, 0x0, false, false, 0x0, 0x0⟩,
  -- AUD_RUN_MAX
  ⟨0x120001c, 0x4000000, 1, 0x0, 1, 0x0, 0x0, 0x0, 0xffff, 0x0, 0x0, false, false, 0x0, 0x0⟩,
  -- AUD_OVR_CNT
  ⟨0x1200020, 0x4000000, 1, 0x0, 1, 0x0, 0x0, 0x0, 0x0, 0xffffffff, 0x0, false, false, 0x0, 0x0⟩,
  -- AUD_FETCH_LATE_CNT
  ⟨0x1200024, 0x4000000, 1, 0x0, 1, 0x0, 0x0, 0x0, 0x0, 0xffffffff, 0x0, false, false, 0x0, 0x0⟩,
  -- AUD_CMD_LATE_CNT
  ⟨0x1200028, 0x4000000, 1, 0x0, 1, 0x0, 0x0, 0x0, 0x0, 0xffffffff, 0x0, false, false, 0x0, 0x0⟩,
  -- AUD_CMD_ERR_CNT
  ⟨0x120002c, 0x4000000, 1, 0x0, 1, 0x0, 0x0, 0x0, 0x0, 0xffffffff, 0x0, false, false, 0x0, 0x0⟩]

/-- Rows of the AUD block, part 1. -/
def RegTable.rowsAud1 : List RegDesc := [
  -- AUD_SAFE_CTRL
  ⟨0x1200030, 0x4000000, 1, 0x0, 1, 0x37f, 0x0, 0x0, 0x0, 0x800, 0x0, false, false, 0x0, 0x0⟩,
  -- AUD_INT_EN
  ⟨0x1200034, 0x4000000, 1, 0x0, 1, 0xffffff, 0x0, 0x0, 0x0, 0x0, 0x0, false, false, 0x0, 0x0⟩,
  -- AUD_ZONE_STAT
  ⟨0x1200038, 0x4000000, 1, 0x0, 1, 0x0, 0x0, 0x0, 0x0, 0xffffffff, 0x0, false, false, 0x0, 0x0⟩,
  -- AUD_ZONE_FORCE
  ⟨0x120003c, 0x4000000, 1, 0x0, 1, 0xffffffff, 0x0, 0x0, 0x0, 0x0, 0x0, false, false, 0x0, 0x0⟩,
  -- AUD_ZONE_POL
  ⟨0x1200040, 0x4000000, 1, 0x0, 1, 0xffffffff, 0x0, 0x0, 0x0, 0x0, 0x0, false, false, 0x0, 0x0⟩,
  -- AUD_VEND
  ⟨0x1200100, 0x4, 32, 0x0, 1, 0x0, 0xffffffff, 0x0, 0x0, 0x0, 0x0, false, false, 0x0, 0x0⟩,
  -- AUD_TO_CFG
  ⟨0x1201000, 0x10, 24, 0x0, 1, 0x7f, 0x0, 0x0, 0x0, 0x0, 0x0, false, false, 0x0, 0x0⟩,
  -- AUD_TI_CFG
  ⟨0x1201200, 0x10, 8, 0x0, 1, 0x7f, 0x0, 0x0, 0x0, 0x0, 0x0, false, false, 0x0, 0x0⟩,
  -- AUD_TO_SIL
  ⟨0x1201004, 0x10, 24, 0x0, 1, 0x0, 0x0, 0x0, 0x0, 0xffff, 0x0, false, false, 0x0, 0x0⟩,
  -- AUD_LL_MAP
  ⟨0x1201300, 0x8, 32, 0x0, 1, 0x800f1ff7, 0x0, 0x0, 0x0, 0x0, 0x0, false, false, 0x0, 0x0⟩,
  -- AUD_LL_GAIN
  ⟨0x1201304, 0x8, 32, 0x0, 1, 0xffff, 0x0, 0x0, 0x0, 0x0, 0x4000, false, false, 0x0, 0x0⟩,
  -- AUD_SINK
  ⟨0x1202000, 0x4, 384, 0x0, 1, 0x3ffff, 0x0, 0x0, 0x0, 0x0, 0x0, false, false, 0x0, 0x0⟩]

/-- Rows of the AUD block, part 2. -/
def RegTable.rowsAud2 : List RegDesc := [
  -- AUD_SAFE_IDX
  ⟨0x1203000, 0x8, 64, 0x0, 1, 0x3fff, 0x0, 0x0, 0x0, 0x0, 0x0, false, false, 0x0, 0x0⟩,
  -- AUD_SAFE_VAL
  ⟨0x1203004, 0x8, 64, 0x0, 1, 0xffffffff, 0x0, 0x0, 0x0, 0x0, 0x0, false, false, 0x0, 0x0⟩,
  -- AUD_V_ADDR
  ⟨0x1208000, 0x20, 1024, 0x0, 1, 0xffffffff, 0x0, 0x0, 0x0, 0x0, 0x0, false, false, 0x0, 0x0⟩,
  -- AUD_V_LEN
  ⟨0x1208004, 0x20, 1024, 0x0, 1, 0xfffffff, 0x0, 0x0, 0x0, 0x0, 0x0, false, false, 0x0, 0x0⟩,
  -- AUD_V_LOOP
  ⟨0x1208008, 0x20, 1024, 0x0, 1, 0xffffff, 0x0, 0x0, 0x0, 0x0, 0x0, false, false, 0x0, 0x0⟩,
  -- AUD_V_PITCH
  ⟨0x120800c, 0x20, 1024, 0x0, 1, 0xfffff, 0x0, 0x0, 0x0, 0x0, 0x10000, false, false, 0x0, 0x0⟩,
  -- AUD_V_GAIN
  ⟨0x1208010, 0x20, 1024, 0x0, 1, 0xffffffff, 0x0, 0x0, 0x0, 0x0, 0x0, false, false, 0x0, 0x0⟩,
  -- AUD_V_ROUTE
  ⟨0x1208014, 0x20, 1024, 0x0, 1, 0xffff7f7f, 0x0, 0x0, 0x0, 0x0, 0x0, false, false, 0x0, 0x0⟩,
  -- AUD_V_CTRL
  ⟨0x1208018, 0x20, 1024, 0x0, 1, 0x0, 0x0, 0x0, 0x0, 0xc, 0x0, false, false, 0x0, 0x0⟩,
  -- AUD_V_POS
  ⟨0x120801c, 0x20, 1024, 0x0, 1, 0x0, 0x0, 0x0, 0x0, 0xffffff, 0x0, false, false, 0x0, 0x0⟩,
  -- AUD_G_W0
  ⟨0x1220000, 0x8, 4096, 0x0, 1, 0x0, 0x0, 0x0, 0x0, 0xffffffff, 0x0, false, false, 0x0, 0x0⟩,
  -- AUD_G_W1
  ⟨0x1220004, 0x8, 4096, 0x0, 1, 0x0, 0x0, 0x0, 0x0, 0xffffffff, 0x0, false, false, 0x0, 0x0⟩]

/-- Rows of the AUD block. -/
def RegTable.rowsAud : List RegDesc :=
  RegTable.rowsAud0 ++ RegTable.rowsAud1 ++ RegTable.rowsAud2

/-- Rows of the KC block, part 0. -/
def RegTable.rowsKc0 : List RegDesc := [
  -- KC_CTRL
  ⟨0x1300000, 0x1000, 4, 0x0, 1, 0xf1, 0x0, 0x0, 0x0, 0x0, 0x0, false, false, 0x0, 0x0⟩,
  -- KC_STAT
  ⟨0x1300004, 0x1000, 4, 0x0, 1, 0x0, 0x3f1, 0x0, 0x0, 0x40e, 0x0, false, false, 0x0, 0x0⟩,
  -- KC_RESTART
  ⟨0x1300008, 0x1000, 4, 0x0, 1, 0x0, 0x0, 0x0, 0x0, 0x0, 0x0, false, false, 0x0, 0x0⟩,
  -- KC_IMG_A
  ⟨0x130000c, 0x1000, 4, 0x0, 1, 0x0, 0x0, 0x0, 0x0, 0xffffffff, 0x0, false, false, 0x0, 0x0⟩,
  -- KC_IMG_B
  ⟨0x1300010, 0x1000, 4, 0x0, 1, 0x0, 0x0, 0x0, 0x0, 0xffffffff, 0x0, false, false, 0x0, 0x0⟩,
  -- KC_IMG_LEN
  ⟨0x1300014, 0x1000, 4, 0x0, 1, 0x0, 0x0, 0x0, 0x0, 0xffffffff, 0x0, false, false, 0x0, 0x0⟩,
  -- KC_WDT_CFG
  ⟨0x1300018, 0x1000, 4, 0x0, 1, 0x80ffffff, 0x0, 0x0, 0x0, 0x0, 0x800186a0, false, true, 0x1300000, 0x1000⟩,
  -- KC_WDT_KICK
  ⟨0x130001c, 0x1000, 4, 0x0, 1, 0x0, 0x0, 0x0, 0x0, 0x0, 0x0, false, false, 0x0, 0x0⟩,
  -- KC_RESTART_CNT
  ⟨0x1300020, 0x1000, 4, 0x0, 1, 0x0, 0x0, 0x0, 0x0, 0xffffffff, 0x0, false, false, 0x0, 0x0⟩,
  -- KC_WDT_CNT
  ⟨0x1300024, 0x1000, 4, 0x0, 1, 0x0, 0x0, 0x0, 0x0, 0xffffffff, 0x0, false, false, 0x0, 0x0⟩,
  -- KC_LAST_FAULT
  ⟨0x1300028, 0x1000, 4, 0x0, 1, 0x0, 0x0, 0x0, 0x0, 0xf, 0x0, false, false, 0x0, 0x0⟩,
  -- KC_PC
  ⟨0x130002c, 0x1000, 4, 0x0, 1, 0x0, 0x0, 0x0, 0x0, 0xffffffff, 0x0, false, false, 0x0, 0x0⟩]

/-- Rows of the KC block, part 1. -/
def RegTable.rowsKc1 : List RegDesc := [
  -- KC_LPWIN
  ⟨0x1300030, 0x1000, 4, 0x0, 1, 0xfc, 0x0, 0x0, 0x0, 0x0, 0x0, false, false, 0x0, 0x0⟩,
  -- INTC_CTRL
  ⟨0x1300800, 0x1000, 4, 0x0, 1, 0xf1, 0x0, 0x0, 0x0, 0x0, 0x0, false, false, 0x0, 0x0⟩,
  -- INTC_STAT
  ⟨0x1300804, 0x1000, 4, 0x0, 1, 0x0, 0x7, 0x0, 0x0, 0x0, 0x0, false, false, 0x0, 0x0⟩,
  -- INTC_CLAIM
  ⟨0x1300808, 0x1000, 4, 0x0, 1, 0x0, 0x0, 0x0, 0x0, 0x8000f3ff, 0x0, false, false, 0x0, 0x0⟩,
  -- INTC_COMPLETE
  ⟨0x130080c, 0x1000, 4, 0x0, 1, 0x0, 0x0, 0x0, 0x0, 0x0, 0x0, false, false, 0x0, 0x0⟩,
  -- INTC_ACTIVE
  ⟨0x1300810, 0x1000, 4, 0x0, 1, 0x0, 0x0, 0x0, 0x0, 0x800003ff, 0x0, false, false, 0x0, 0x0⟩,
  -- INTC_LAST_OVF
  ⟨0x1300814, 0x1000, 4, 0x0, 1, 0x0, 0x0, 0x0, 0x0, 0x3ff, 0x0, false, false, 0x0, 0x0⟩,
  -- INTC_OVF_CNT
  ⟨0x1300818, 0x1000, 4, 0x0, 1, 0x0, 0x0, 0x0, 0x0, 0xffffffff, 0x0, false, false, 0x0, 0x0⟩,
  -- INTC_EN
  ⟨0x1300840, 0x1000, 4, 0x4, 16, 0xffffffff, 0x0, 0x0, 0x0, 0x0, 0x0, false, false, 0x0, 0x0⟩,
  -- INTC_PEND
  ⟨0x1300880, 0x1000, 4, 0x4, 16, 0x0, 0xffffffff, 0x0, 0x0, 0x0, 0x0, false, false, 0x0, 0x0⟩,
  -- INTC_MOD
  ⟨0x1300900, 0x1000, 4, 0x4, 32, 0xfffff, 0x0, 0x0, 0x0, 0x80000000, 0x0, false, true, 0x1300800, 0x1000⟩,
  -- INT_ROUTE
  ⟨0x1308000, 0x4, 512, 0x0, 1, 0x1ff1f, 0x0, 0x0, 0x0, 0x0, 0x0, false, false, 0x0, 0x0⟩]

/-- Rows of the KC block, part 2. -/
def RegTable.rowsKc2 : List RegDesc := [
  -- INT_GSTAT
  ⟨0x1309000, 0x4000000, 1, 0x0, 1, 0x0, 0x1, 0x0, 0x0, 0x0, 0x0, false, false, 0x0, 0x0⟩,
  -- INT_SW_RAISE
  ⟨0x1309004, 0x4000000, 1, 0x0, 1, 0x0, 0x0, 0x0, 0x0, 0x0, 0x0, false, false, 0x0, 0x0⟩,
  -- INT_HOST_PEND
  ⟨0x1309040, 0x4, 16, 0x0, 1, 0x0, 0xffffffff, 0x0, 0x0, 0x0, 0x0, false, false, 0x0, 0x0⟩]

/-- Rows of the KC block. -/
def RegTable.rowsKc : List RegDesc :=
  RegTable.rowsKc0 ++ RegTable.rowsKc1 ++ RegTable.rowsKc2

/-- Rows of the TMR block, part 0. -/
def RegTable.rowsTmr0 : List RegDesc := [
  -- TMR_CTRL
  ⟨0x1400000, 0x4000000, 1, 0x0, 1, 0xf1, 0x0, 0x0, 0x0, 0x0, 0x0, false, false, 0x0, 0x0⟩,
  -- TMR_STAT
  ⟨0x1400004, 0x4000000, 1, 0x0, 1, 0x0, 0x1, 0x0, 0x0, 0x0, 0x0, false, false, 0x0, 0x0⟩,
  -- TMR_CFG
  ⟨0x1400008, 0x4000000, 1, 0x0, 1, 0x1, 0x0, 0x0, 0x0, 0x0, 0x0, false, true, 0x1400000, 0x0⟩,
  -- TMR_TB_LO
  ⟨0x1400010, 0x4000000, 1, 0x0, 1, 0x0, 0x0, 0x0, 0x0, 0xffffffff, 0x0, false, false, 0x0, 0x0⟩,
  -- TMR_TB_HI
  ⟨0x1400014, 0x4000000, 1, 0x0, 1, 0x0, 0x0, 0x0, 0x0, 0xffffffff, 0x0, false, false, 0x0, 0x0⟩,
  -- TMR_CH_CTRL
  ⟨0x1400100, 0x40, 16, 0x0, 1, 0x7ffe, 0x0, 0x0, 0x0, 0x1, 0x0, false, false, 0x0, 0x0⟩,
  -- TMR_CH_STAT
  ⟨0x1400104, 0x40, 16, 0x0, 1, 0x0, 0x3, 0x0, 0x0, 0x1c, 0x0, false, false, 0x0, 0x0⟩,
  -- TMR_CMP_LO
  ⟨0x1400108, 0x40, 16, 0x0, 1, 0xffffffff, 0x0, 0x0, 0x0, 0x0, 0x0, false, false, 0x0, 0x0⟩,
  -- TMR_CMP_HI
  ⟨0x140010c, 0x40, 16, 0x0, 1, 0xffffffff, 0x0, 0x0, 0x0, 0x0, 0x0, false, false, 0x0, 0x0⟩,
  -- TMR_PERIOD
  ⟨0x1400110, 0x40, 16, 0x0, 1, 0xffffffff, 0x0, 0x0, 0x0, 0x0, 0x0, false, false, 0x0, 0x0⟩,
  -- TMR_SKIP_CNT
  ⟨0x1400114, 0x40, 16, 0x0, 1, 0x0, 0x0, 0x0, 0x0, 0xffffffff, 0x0, false, false, 0x0, 0x0⟩,
  -- TMR_CAP_LO
  ⟨0x1400118, 0x40, 16, 0x0, 1, 0x0, 0x0, 0x0, 0x0, 0xffffffff, 0x0, false, false, 0x0, 0x0⟩]

/-- Rows of the TMR block, part 1. -/
def RegTable.rowsTmr1 : List RegDesc := [
  -- TMR_CAP_HI
  ⟨0x140011c, 0x40, 16, 0x0, 1, 0x0, 0x0, 0x0, 0x0, 0xffffffff, 0x0, false, false, 0x0, 0x0⟩,
  -- TMR_FIRE_CNT
  ⟨0x1400120, 0x40, 16, 0x0, 1, 0x0, 0x0, 0x0, 0x0, 0xffffffff, 0x0, false, false, 0x0, 0x0⟩,
  -- DMA_CTRL
  ⟨0x1410000, 0x4000000, 1, 0x0, 1, 0xf1, 0x0, 0x0, 0x0, 0x0, 0x0, false, false, 0x0, 0x0⟩,
  -- DMA_STAT
  ⟨0x1410004, 0x4000000, 1, 0x0, 1, 0x0, 0x7, 0x0, 0x0, 0x0, 0x0, false, false, 0x0, 0x0⟩,
  -- DMA_CFG
  ⟨0x1410008, 0x4000000, 1, 0x0, 1, 0x7, 0x0, 0x0, 0x0, 0x0, 0x2, false, true, 0x1410000, 0x0⟩,
  -- DMA_BUSY
  ⟨0x141000c, 0x4000000, 1, 0x0, 1, 0x0, 0x0, 0x0, 0x0, 0xffffffff, 0x0, false, false, 0x0, 0x0⟩,
  -- DMA_DONE
  ⟨0x1410010, 0x4000000, 1, 0x0, 1, 0x0, 0xffffffff, 0x0, 0x0, 0x0, 0x0, false, false, 0x0, 0x0⟩,
  -- DMA_SRC_LO
  ⟨0x1410100, 0x40, 32, 0x0, 1, 0xffffffff, 0x0, 0x0, 0x0, 0x0, 0x0, false, false, 0x0, 0x0⟩,
  -- DMA_SRC_HI
  ⟨0x1410104, 0x40, 32, 0x0, 1, 0xffffffff, 0x0, 0x0, 0x0, 0x0, 0x0, false, false, 0x0, 0x0⟩,
  -- DMA_DST_LO
  ⟨0x1410108, 0x40, 32, 0x0, 1, 0xffffffff, 0x0, 0x0, 0x0, 0x0, 0x0, false, false, 0x0, 0x0⟩,
  -- DMA_DST_HI
  ⟨0x141010c, 0x40, 32, 0x0, 1, 0xffffffff, 0x0, 0x0, 0x0, 0x0, 0x0, false, false, 0x0, 0x0⟩,
  -- DMA_COUNT
  ⟨0x1410110, 0x40, 32, 0x0, 1, 0xffffffff, 0x0, 0x0, 0x0, 0x0, 0x0, false, false, 0x0, 0x0⟩]

/-- Rows of the TMR block, part 2. -/
def RegTable.rowsTmr2 : List RegDesc := [
  -- DMA_CH_CFG
  ⟨0x1410114, 0x40, 32, 0x0, 1, 0xffff3fff, 0x0, 0x0, 0x0, 0x0, 0x0, false, false, 0x0, 0x0⟩,
  -- DMA_CH_CMD
  ⟨0x1410118, 0x40, 32, 0x0, 1, 0x0, 0x0, 0x0, 0x0, 0x0, 0x0, false, false, 0x0, 0x0⟩,
  -- DMA_CH_STAT
  ⟨0x141011c, 0x40, 32, 0x0, 1, 0x0, 0xe, 0x0, 0x0, 0x771, 0x0, false, false, 0x0, 0x0⟩,
  -- DMA_REMAIN
  ⟨0x1410120, 0x40, 32, 0x0, 1, 0x0, 0x0, 0x0, 0x0, 0xffffffff, 0x0, false, false, 0x0, 0x0⟩,
  -- BLT_CTRL
  ⟨0x1420000, 0x4000000, 1, 0x0, 1, 0xf1, 0x0, 0x0, 0x0, 0x0, 0x0, false, false, 0x0, 0x0⟩,
  -- BLT_STAT
  ⟨0x1420004, 0x4000000, 1, 0x0, 1, 0x0, 0x7, 0x0, 0x0, 0x0, 0x0, false, false, 0x0, 0x0⟩,
  -- BLT_CFG
  ⟨0x1420008, 0x4000000, 1, 0x0, 1, 0x7, 0x0, 0x0, 0x0, 0x0, 0x2, false, true, 0x1420000, 0x0⟩,
  -- BLT_BUSY
  ⟨0x142000c, 0x4000000, 1, 0x0, 1, 0x0, 0xf0, 0x0, 0x0, 0xf, 0x0, false, false, 0x0, 0x0⟩,
  -- BLT_OP
  ⟨0x1420100, 0x80, 4, 0x0, 1, 0x7ffff73, 0x0, 0x0, 0x0, 0x0, 0xffcc00, false, false, 0x0, 0x0⟩,
  -- BLT_SRC_BASE
  ⟨0x1420104, 0x80, 4, 0x0, 1, 0xffffffff, 0x0, 0x0, 0x0, 0x0, 0x0, false, false, 0x0, 0x0⟩,
  -- BLT_SRC_CFG
  ⟨0x1420108, 0x80, 4, 0x0, 1, 0xffff0f1f, 0x0, 0x0, 0x0, 0x0, 0x0, false, false, 0x0, 0x0⟩,
  -- BLT_DST_BASE
  ⟨0x142010c, 0x80, 4, 0x0, 1, 0xffffffff, 0x0, 0x0, 0x0, 0x0, 0x0, false, false, 0x0, 0x0⟩]

/-- Rows of the TMR block, part 3. -/
def RegTable.rowsTmr3 : List RegDesc := [
  -- BLT_DST_CFG
  ⟨0x1420110, 0x80, 4, 0x0, 1, 0xffff0f1f, 0x0, 0x0, 0x0, 0x0, 0x0, false, false, 0x0, 0x0⟩,
  -- BLT_SIZE
  ⟨0x1420114, 0x80, 4, 0x0, 1, 0x1fff1fff, 0x0, 0x0, 0x0, 0x0, 0x0, false, false, 0x0, 0x0⟩,
  -- BLT_COLOR
  ⟨0x1420118, 0x80, 4, 0x0, 1, 0xffffffff, 0x0, 0x0, 0x0, 0x0, 0x0, false, false, 0x0, 0x0⟩,
  -- BLT_BGCOLOR
  ⟨0x142011c, 0x80, 4, 0x0, 1, 0xffffffff, 0x0, 0x0, 0x0, 0x0, 0x0, false, false, 0x0, 0x0⟩,
  -- BLT_PAT_LO
  ⟨0x1420120, 0x80, 4, 0x0, 1, 0xffffffff, 0x0, 0x0, 0x0, 0x0, 0x0, false, false, 0x0, 0x0⟩,
  -- BLT_PAT_HI
  ⟨0x1420124, 0x80, 4, 0x0, 1, 0xffffffff, 0x0, 0x0, 0x0, 0x0, 0x0, false, false, 0x0, 0x0⟩,
  -- BLT_PAT_ORG
  ⟨0x1420128, 0x80, 4, 0x0, 1, 0x707, 0x0, 0x0, 0x0, 0x0, 0x0, false, false, 0x0, 0x0⟩,
  -- BLT_WM
  ⟨0x142012c, 0x80, 4, 0x0, 1, 0x3fff, 0x0, 0x0, 0x0, 0x0, 0x3fff, false, false, 0x0, 0x0⟩,
  -- BLT_TRK
  ⟨0x1420130, 0x80, 4, 0x0, 1, 0xffff003f, 0x0, 0x0, 0x0, 0x0, 0x0, false, false, 0x0, 0x0⟩,
  -- BLT_CMD
  ⟨0x1420134, 0x80, 4, 0x0, 1, 0x0, 0x0, 0x0, 0x0, 0x0, 0x0, false, false, 0x0, 0x0⟩,
  -- BLT_ESTAT
  ⟨0x1420138, 0x80, 4, 0x0, 1, 0x0, 0x1e, 0x0, 0x0, 0xfe1, 0x0, false, false, 0x0, 0x0⟩,
  -- BLT_ROWS
  ⟨0x142013c, 0x80, 4, 0x0, 1, 0x0, 0x0, 0x0, 0x0, 0x3fff, 0x0, false, false, 0x0, 0x0⟩]

/-- Rows of the TMR block, part 4. -/
def RegTable.rowsTmr4 : List RegDesc := [
  -- BLT_WM_TS_LO
  ⟨0x1420140, 0x80, 4, 0x0, 1, 0x0, 0x0, 0x0, 0x0, 0xffffffff, 0x0, false, false, 0x0, 0x0⟩,
  -- BLT_WM_TS_HI
  ⟨0x1420144, 0x80, 4, 0x0, 1, 0x0, 0x0, 0x0, 0x0, 0xffffffff, 0x0, false, false, 0x0, 0x0⟩]

/-- Rows of the TMR block. -/
def RegTable.rowsTmr : List RegDesc :=
  RegTable.rowsTmr0 ++ RegTable.rowsTmr1 ++ RegTable.rowsTmr2 ++ RegTable.rowsTmr3 ++ RegTable.rowsTmr4

/-- Rows of the GP block, part 0. -/
def RegTable.rowsGp0 : List RegDesc := [
  -- GP_CTRL
  ⟨0x1500000, 0x4000000, 1, 0x0, 1, 0xf1, 0x0, 0x0, 0x0, 0x0, 0x0, false, false, 0x0, 0x0⟩,
  -- GP_STAT
  ⟨0x1500004, 0x4000000, 1, 0x0, 1, 0x0, 0x7, 0x0, 0x0, 0x0, 0x0, false, false, 0x0, 0x0⟩,
  -- GP_FILT
  ⟨0x1500008, 0x4000000, 1, 0x0, 1, 0xfff, 0x0, 0x0, 0x0, 0x0, 0x10, false, true, 0x1500000, 0x0⟩,
  -- GP_IN
  ⟨0x1500010, 0x4, 4, 0x0, 1, 0x0, 0x0, 0x0, 0x0, 0xffffffff, 0x0, false, false, 0x0, 0x0⟩,
  -- GP_FILT_IN
  ⟨0x1500020, 0x4, 4, 0x0, 1, 0x0, 0x0, 0x0, 0x0, 0xffffffff, 0x0, false, false, 0x0, 0x0⟩,
  -- GP_OUT
  ⟨0x1500030, 0x4, 4, 0x0, 1, 0xffffffff, 0x0, 0x0, 0x0, 0x0, 0x0, false, false, 0x0, 0x0⟩,
  -- GP_OUT_SET
  ⟨0x1500040, 0x4, 4, 0x0, 1, 0x0, 0x0, 0xffffffff, 0x0, 0x0, 0x0, false, false, 0x0, 0x0⟩,
  -- GP_OUT_CLR
  ⟨0x1500050, 0x4, 4, 0x0, 1, 0x0, 0xffffffff, 0x0, 0x0, 0x0, 0x0, false, false, 0x0, 0x0⟩,
  -- GP_PIN_CFG
  ⟨0x1500400, 0x8, 128, 0x0, 1, 0x3fffff, 0x0, 0x0, 0x0, 0x0, 0xa0000, false, false, 0x0, 0x0⟩,
  -- GP_PIN_OWN
  ⟨0x1500404, 0x8, 128, 0x0, 1, 0x7, 0x0, 0x0, 0x0, 0x8, 0x0, false, false, 0x0, 0x0⟩,
  -- GP_GRP_CFG
  ⟨0x1500800, 0x10, 16, 0x0, 1, 0x7ff, 0x0, 0x0, 0x0, 0x7000, 0x0, false, false, 0x0, 0x0⟩,
  -- GP_GRP_MATCH
  ⟨0x1500804, 0x10, 16, 0x0, 1, 0xffff, 0x0, 0x0, 0x0, 0x0, 0x0, false, false, 0x0, 0x0⟩]

/-- Rows of the GP block, part 1. -/
def RegTable.rowsGp1 : List RegDesc := [
  -- GP_GRP_STAT
  ⟨0x1500808, 0x10, 16, 0x0, 1, 0x0, 0x0, 0x0, 0x0, 0x1ff, 0x0, false, false, 0x0, 0x0⟩,
  -- GP_GRP_EV_CNT
  ⟨0x150080c, 0x10, 16, 0x0, 1, 0x0, 0x0, 0x0, 0x0, 0xffffffff, 0x0, false, false, 0x0, 0x0⟩,
  -- PIO_CTRL
  ⟨0x1510000, 0x4000000, 1, 0x0, 1, 0xf1, 0x0, 0x0, 0x0, 0x0, 0x0, false, false, 0x0, 0x0⟩,
  -- PIO_STAT
  ⟨0x1510004, 0x4000000, 1, 0x0, 1, 0x0, 0xf, 0x0, 0x0, 0x0, 0x0, false, false, 0x0, 0x0⟩,
  -- PIO_GCFG
  ⟨0x1510008, 0x4000000, 1, 0x0, 1, 0x1, 0x0, 0x0, 0x0, 0x0, 0x0, false, true, 0x1510000, 0x0⟩,
  -- PIO_SYNC
  ⟨0x151000c, 0x4000000, 1, 0x0, 1, 0x0, 0x0, 0x0, 0x0, 0x0, 0x0, false, false, 0x0, 0x0⟩,
  -- PIO_E_CFG
  ⟨0x1510100, 0x40, 8, 0x0, 1, 0xf, 0x0, 0x0, 0x0, 0x70, 0x8, false, false, 0x0, 0x0⟩,
  -- PIO_E_DIV
  ⟨0x1510104, 0x40, 8, 0x0, 1, 0xffffff, 0x0, 0x0, 0x0, 0x0, 0x100, false, false, 0x0, 0x0⟩,
  -- PIO_E_CTXEN
  ⟨0x1510108, 0x40, 8, 0x0, 1, 0xffff, 0x0, 0x0, 0x0, 0x0, 0x0, false, false, 0x0, 0x0⟩,
  -- PIO_E_FAULT
  ⟨0x151010c, 0x40, 8, 0x0, 1, 0x0, 0xffff, 0x0, 0x0, 0x0, 0x0, false, false, 0x0, 0x0⟩,
  -- PIO_E_LAST_FAULT
  ⟨0x1510110, 0x40, 8, 0x0, 1, 0x0, 0x0, 0x0, 0x0, 0xf3ff, 0x0, false, false, 0x0, 0x0⟩,
  -- PIO_E_FLAGS
  ⟨0x1510114, 0x40, 8, 0x0, 1, 0x0, 0x0, 0x0, 0x0, 0xffff, 0x0, false, false, 0x0, 0x0⟩]

/-- Rows of the GP block, part 2. -/
def RegTable.rowsGp2 : List RegDesc := [
  -- PIO_E_FLAGS_SET
  ⟨0x1510118, 0x40, 8, 0x0, 1, 0x0, 0x0, 0xffff, 0x0, 0x0, 0x0, false, false, 0x0, 0x0⟩,
  -- PIO_E_FLAGS_CLR
  ⟨0x151011c, 0x40, 8, 0x0, 1, 0x0, 0xffff, 0x0, 0x0, 0x0, 0x0, false, false, 0x0, 0x0⟩,
  -- PIO_E_EV_SEL
  ⟨0x1510120, 0x40, 8, 0x4, 4, 0x7f7, 0x0, 0x0, 0x0, 0x0, 0x0, false, false, 0x0, 0x0⟩,
  -- PIO_E_EV_CNT
  ⟨0x1510130, 0x40, 8, 0x0, 1, 0x0, 0xf0000, 0x0, 0x0, 0xffff, 0x0, false, false, 0x0, 0x0⟩,
  -- PIO_E_INT_EN
  ⟨0x1510134, 0x40, 8, 0x0, 1, 0x3, 0x0, 0x0, 0x0, 0x0, 0x0, false, false, 0x0, 0x0⟩,
  -- PIO_C_ENTRY
  ⟨0x1511000, 0x400, 8, 0x40, 16, 0x3ff, 0x0, 0x0, 0x0, 0x0, 0x0, false, false, 0x0, 0x0⟩,
  -- PIO_C_PINS0
  ⟨0x1511004, 0x400, 8, 0x40, 16, 0xf7f1f7f, 0x0, 0x0, 0x0, 0x0, 0x0, false, false, 0x0, 0x0⟩,
  -- PIO_C_PINS1
  ⟨0x1511008, 0x400, 8, 0x40, 16, 0x17f, 0x0, 0x0, 0x0, 0x0, 0x0, false, false, 0x0, 0x0⟩,
  -- PIO_C_TXF
  ⟨0x151100c, 0x400, 8, 0x40, 16, 0x0, 0x0, 0x0, 0x0, 0x0, 0x0, false, false, 0x0, 0x0⟩,
  -- PIO_C_RXF
  ⟨0x1511010, 0x400, 8, 0x40, 16, 0x0, 0x0, 0x0, 0x0, 0xffffffff, 0x0, false, false, 0x0, 0x0⟩,
  -- PIO_C_FSTAT
  ⟨0x1511014, 0x400, 8, 0x40, 16, 0x0, 0x700, 0x0, 0x0, 0x77, 0x0, false, false, 0x0, 0x0⟩,
  -- PIO_C_STATE
  ⟨0x1511018, 0x400, 8, 0x40, 16, 0x0, 0x0, 0x0, 0x0, 0x7ffff, 0x0, false, false, 0x0, 0x0⟩]

/-- Rows of the GP block. -/
def RegTable.rowsGp : List RegDesc :=
  RegTable.rowsGp0 ++ RegTable.rowsGp1 ++ RegTable.rowsGp2

/-- Rows of the MEM block, part 0. -/
def RegTable.rowsMem0 : List RegDesc := [
  -- MEM_CTRL
  ⟨0x1600000, 0x4000000, 1, 0x0, 1, 0xf1, 0x0, 0x0, 0x0, 0x0, 0x0, false, false, 0x0, 0x0⟩,
  -- MEM_STAT
  ⟨0x1600004, 0x4000000, 1, 0x0, 1, 0x0, 0x1f, 0x0, 0x0, 0x20, 0x0, false, false, 0x0, 0x0⟩,
  -- MEM_ARB_CFG
  ⟨0x1600008, 0x4000000, 1, 0x0, 1, 0x7f, 0x0, 0x0, 0x0, 0x0, 0x14, false, true, 0x1600000, 0x0⟩,
  -- MEM_WIN_PAGE
  ⟨0x160000c, 0x4000000, 1, 0x0, 1, 0x7, 0x0, 0x0, 0x0, 0x0, 0x0, false, false, 0x0, 0x0⟩,
  -- MEM_LP_CFG
  ⟨0x1600010, 0x4000000, 1, 0x0, 1, 0x0, 0x0, 0x0, 0x0, 0x77, 0x0, false, false, 0x0, 0x0⟩,
  -- MEM_LP_SIZE
  ⟨0x1600014, 0x4000000, 1, 0x0, 1, 0x0, 0x0, 0x0, 0x0, 0x1ffff, 0x0, false, false, 0x0, 0x0⟩,
  -- MEM_BAR2_BASE
  ⟨0x1600018, 0x4000000, 1, 0x0, 1, 0xf, 0x0, 0x0, 0x0, 0x0, 0x0, false, false, 0x0, 0x0⟩,
  -- MEM_LP_CE_CNT
  ⟨0x160001c, 0x4000000, 1, 0x0, 1, 0x0, 0x0, 0x0, 0x0, 0xffffffff, 0x0, false, false, 0x0, 0x0⟩,
  -- MEM_LP_UE_CNT
  ⟨0x1600020, 0x4000000, 1, 0x0, 1, 0x0, 0x0, 0x0, 0x0, 0xffffffff, 0x0, false, false, 0x0, 0x0⟩,
  -- MEM_LP_LINK_CNT
  ⟨0x1600024, 0x4000000, 1, 0x0, 1, 0x0, 0x0, 0x0, 0x0, 0xffffffff, 0x0, false, false, 0x0, 0x0⟩,
  -- MEM_LP_ERR_ADDR_LO
  ⟨0x1600028, 0x4000000, 1, 0x0, 1, 0x0, 0x0, 0x0, 0x0, 0xffffffff, 0x0, false, false, 0x0, 0x0⟩,
  -- MEM_LP_ERR_ADDR_HI
  ⟨0x160002c, 0x4000000, 1, 0x0, 1, 0x0, 0x0, 0x0, 0x0, 0xffffffff, 0x0, false, false, 0x0, 0x0⟩]

/-- Rows of the MEM block, part 1. -/
def RegTable.rowsMem1 : List RegDesc := [
  -- MEM_URG_CNT
  ⟨0x1600030, 0x4000000, 1, 0x0, 1, 0x0, 0x0, 0x0, 0x0, 0xffffffff, 0x0, false, false, 0x0, 0x0⟩,
  -- MEM_WAKE_CNT
  ⟨0x1600034, 0x4000000, 1, 0x0, 1, 0x0, 0x0, 0x0, 0x0, 0xffffffff, 0x0, false, false, 0x0, 0x0⟩,
  -- MEM_INT_EN
  ⟨0x1600038, 0x4000000, 1, 0x0, 1, 0xffff, 0x0, 0x0, 0x0, 0x0, 0x0, false, false, 0x0, 0x0⟩,
  -- MEM_BAR2_FLUSH
  ⟨0x160003c, 0x4000000, 1, 0x0, 1, 0x0, 0x0, 0x0, 0x0, 0xffffffff, 0x0, false, false, 0x0, 0x0⟩,
  -- MEM_ECC_REG
  ⟨0x1600040, 0x8, 8, 0x0, 1, 0x0, 0x0, 0x0, 0x0, 0xffffffff, 0x0, false, false, 0x0, 0x0⟩,
  -- MEM_BANK_CTRL
  ⟨0x1600100, 0x4, 96, 0x0, 1, 0x1, 0x0, 0x0, 0x0, 0xf06, 0x0, false, false, 0x0, 0x0⟩,
  -- MEM_CH_STAT
  ⟨0x1600400, 0x10, 8, 0x0, 1, 0x0, 0x0, 0x0, 0x0, 0xf, 0x0, false, false, 0x0, 0x0⟩,
  -- MEM_PCIE_STAT
  ⟨0x1601000, 0x4000000, 1, 0x0, 1, 0x0, 0xc00, 0x0, 0x0, 0x3ff, 0x0, false, false, 0x0, 0x0⟩,
  -- MEM_PCIE_ERR
  ⟨0x1601004, 0x4000000, 1, 0x0, 1, 0x0, 0x0, 0x0, 0x0, 0x73fff7, 0x0, false, false, 0x0, 0x0⟩,
  -- MEM_PCIE_FAIL_CNT
  ⟨0x1601008, 0x4000000, 1, 0x0, 1, 0x0, 0x0, 0x0, 0x0, 0xffffffff, 0x0, false, false, 0x0, 0x0⟩,
  -- MEM_PCIE_DROP_CNT
  ⟨0x160100c, 0x4000000, 1, 0x0, 1, 0x0, 0x0, 0x0, 0x0, 0xffffffff, 0x0, false, false, 0x0, 0x0⟩]

/-- Rows of the MEM block. -/
def RegTable.rowsMem : List RegDesc :=
  RegTable.rowsMem0 ++ RegTable.rowsMem1

/-- Rows of the UPD block, part 0. -/
def RegTable.rowsUpd0 : List RegDesc := [
  -- UPD_CTRL
  ⟨0x1700000, 0x4000000, 1, 0x0, 1, 0xf1, 0x0, 0x0, 0x0, 0x0, 0x0, false, false, 0x0, 0x0⟩,
  -- UPD_STAT
  ⟨0x1700004, 0x4000000, 1, 0x0, 1, 0x0, 0x7f, 0x0, 0x0, 0x0, 0x0, false, false, 0x0, 0x0⟩,
  -- UPD_CFG
  ⟨0x1700008, 0x4000000, 1, 0x0, 1, 0xffffff, 0x0, 0x0, 0x0, 0x0, 0xe10, false, true, 0x1700000, 0x0⟩,
  -- UPD_STATE
  ⟨0x170000c, 0x4000000, 1, 0x0, 1, 0x0, 0x0, 0x0, 0x0, 0x777, 0x0, false, false, 0x0, 0x0⟩,
  -- UPD_CMD
  ⟨0x1700010, 0x4000000, 1, 0x0, 1, 0x0, 0x0, 0x0, 0x0, 0x0, 0x0, false, false, 0x0, 0x0⟩,
  -- UPD_VSET
  ⟨0x1700014, 0x4000000, 1, 0x0, 1, 0x1, 0x0, 0x0, 0x0, 0x0, 0x0, false, false, 0x0, 0x0⟩,
  -- UPD_ACT_TICK
  ⟨0x1700018, 0x4000000, 1, 0x0, 1, 0xffffffff, 0x0, 0x0, 0x0, 0x0, 0x0, false, false, 0x0, 0x0⟩,
  -- UPD_TRIAL_LEFT
  ⟨0x170001c, 0x4000000, 1, 0x0, 1, 0x0, 0x0, 0x0, 0x0, 0xffffff, 0x0, false, false, 0x0, 0x0⟩,
  -- UPD_CONFIRM_LO
  ⟨0x1700020, 0x4000000, 1, 0x0, 1, 0x0, 0x0, 0x0, 0x0, 0x0, 0x0, false, false, 0x0, 0x0⟩,
  -- UPD_CONFIRM_HI
  ⟨0x1700024, 0x4000000, 1, 0x0, 1, 0x0, 0x0, 0x0, 0x0, 0x0, 0x0, false, false, 0x0, 0x0⟩,
  -- UPD_VER_RES
  ⟨0x1700028, 0x4000000, 1, 0x0, 1, 0x0, 0x0, 0x0, 0x0, 0x11ff3, 0x0, false, false, 0x0, 0x0⟩,
  -- UPD_STAGE_BASE
  ⟨0x170002c, 0x4000000, 1, 0x0, 1, 0x0, 0x0, 0x0, 0x0, 0xffffffff, 0x0, false, false, 0x0, 0x0⟩]

/-- Rows of the UPD block, part 1. -/
def RegTable.rowsUpd1 : List RegDesc := [
  -- UPD_STAGE_SIZE
  ⟨0x1700030, 0x4000000, 1, 0x0, 1, 0x0, 0x0, 0x0, 0x0, 0xffffffff, 0x0, false, false, 0x0, 0x0⟩,
  -- UPD_VER_ID_LO
  ⟨0x1700034, 0x4000000, 1, 0x0, 1, 0x0, 0x0, 0x0, 0x0, 0xffffffff, 0x0, false, false, 0x0, 0x0⟩,
  -- UPD_VER_ID_HI
  ⟨0x1700038, 0x4000000, 1, 0x0, 1, 0x0, 0x0, 0x0, 0x0, 0xffffffff, 0x0, false, false, 0x0, 0x0⟩,
  -- UPD_RUN_ID_LO
  ⟨0x170003c, 0x4000000, 1, 0x0, 1, 0x0, 0x0, 0x0, 0x0, 0xffffffff, 0x0, false, false, 0x0, 0x0⟩,
  -- UPD_RUN_ID_HI
  ⟨0x1700040, 0x4000000, 1, 0x0, 1, 0x0, 0x0, 0x0, 0x0, 0xffffffff, 0x0, false, false, 0x0, 0x0⟩,
  -- UPD_INFO
  ⟨0x1700044, 0x4000000, 1, 0x0, 1, 0x0, 0x0, 0x0, 0x0, 0x7f0f, 0x0, false, false, 0x0, 0x0⟩,
  -- SEC_CTRL
  ⟨0x1701000, 0x4000000, 1, 0x0, 1, 0xf1, 0x0, 0x0, 0x0, 0x0, 0x0, false, false, 0x0, 0x0⟩,
  -- SEC_STAT
  ⟨0x1701004, 0x4000000, 1, 0x0, 1, 0x0, 0x3d, 0x0, 0x0, 0x2, 0x0, false, false, 0x0, 0x0⟩,
  -- SEC_LC_STATE
  ⟨0x1701008, 0x4000000, 1, 0x0, 1, 0x0, 0x0, 0x0, 0x0, 0xf, 0x0, false, false, 0x0, 0x0⟩,
  -- SEC_LC_CMD
  ⟨0x170100c, 0x4000000, 1, 0x0, 1, 0x0, 0x0, 0x0, 0x0, 0x0, 0x0, false, false, 0x0, 0x0⟩,
  -- SEC_WIPE_CMD
  ⟨0x1701010, 0x4000000, 1, 0x0, 1, 0x0, 0x0, 0x0, 0x0, 0x0, 0x0, false, false, 0x0, 0x0⟩,
  -- SEC_WIPE_CNT
  ⟨0x1701014, 0x4000000, 1, 0x0, 1, 0x0, 0x0, 0x0, 0x0, 0xffffffff, 0x0, false, false, 0x0, 0x0⟩]

/-- Rows of the UPD block, part 2. -/
def RegTable.rowsUpd2 : List RegDesc := [
  -- SEC_KEY_CMD
  ⟨0x1701018, 0x4000000, 1, 0x0, 1, 0x0, 0x0, 0x0, 0x0, 0x0, 0x0, false, false, 0x0, 0x0⟩,
  -- SEC_KEY_ADDR
  ⟨0x170101c, 0x4000000, 1, 0x0, 1, 0x1fffff, 0x0, 0x0, 0x0, 0x0, 0x0, false, false, 0x0, 0x0⟩,
  -- SEC_KEY_STAT
  ⟨0x1701020, 0x4000000, 1, 0x0, 1, 0x0, 0x0, 0x0, 0x0, 0xfff, 0x0, false, false, 0x0, 0x0⟩,
  -- SEC_IKEY_CMD
  ⟨0x1701024, 0x4000000, 1, 0x0, 1, 0x0, 0x0, 0x0, 0x0, 0x0, 0x0, false, false, 0x0, 0x0⟩,
  -- SEC_TAMPER_CFG
  ⟨0x1701028, 0x4000000, 1, 0x0, 1, 0xff, 0x0, 0x100, 0x0, 0x0, 0x3f, true, false, 0x0, 0x0⟩,
  -- SEC_TAMPER_STAT
  ⟨0x170102c, 0x4000000, 1, 0x0, 1, 0x0, 0x3f, 0x0, 0x0, 0x0, 0x0, true, false, 0x0, 0x0⟩,
  -- SEC_TAMPER_CNT
  ⟨0x1701030, 0x4000000, 1, 0x0, 1, 0x0, 0x0, 0x0, 0x0, 0xffffffff, 0x0, true, false, 0x0, 0x0⟩,
  -- SEC_VFY_KEY
  ⟨0x1701040, 0x4000000, 1, 0x0, 1, 0x1fffff, 0x0, 0x0, 0x0, 0x0, 0x0, false, false, 0x0, 0x0⟩,
  -- SEC_VFY_HASH
  ⟨0x1701044, 0x4000000, 1, 0x0, 1, 0x1fffff, 0x0, 0x0, 0x0, 0x0, 0x0, false, false, 0x0, 0x0⟩,
  -- SEC_VFY_SIG
  ⟨0x1701048, 0x4000000, 1, 0x0, 1, 0x1fffff, 0x0, 0x0, 0x0, 0x0, 0x0, false, false, 0x0, 0x0⟩,
  -- SEC_VFY_CMD
  ⟨0x170104c, 0x4000000, 1, 0x0, 1, 0x0, 0x0, 0x0, 0x0, 0x0, 0x0, false, false, 0x0, 0x0⟩,
  -- SEC_VFY_RES
  ⟨0x1701050, 0x4000000, 1, 0x0, 1, 0x0, 0x0, 0x0, 0x0, 0xf, 0x0, false, false, 0x0, 0x0⟩]

/-- Rows of the UPD block, part 3. -/
def RegTable.rowsUpd3 : List RegDesc := [
  -- SEC_RNG_CFG
  ⟨0x1701060, 0x4000000, 1, 0x0, 1, 0x1fff, 0x0, 0x0, 0x0, 0x0, 0x400, false, true, 0x1701000, 0x0⟩,
  -- SEC_RNG_REQ
  ⟨0x1701064, 0x4000000, 1, 0x0, 1, 0x0, 0x0, 0x0, 0x0, 0x0, 0x0, false, false, 0x0, 0x0⟩,
  -- SEC_RNG_RES
  ⟨0x1701068, 0x4000000, 1, 0x0, 1, 0x0, 0xffff, 0x0, 0x0, 0x7f0000, 0x0, false, false, 0x0, 0x0⟩,
  -- SEC_RNG_STAT
  ⟨0x170106c, 0x4000000, 1, 0x0, 1, 0x0, 0x1c, 0x0, 0x0, 0x3, 0x1, false, false, 0x0, 0x0⟩,
  -- SEC_RNG_CMD
  ⟨0x1701070, 0x4000000, 1, 0x0, 1, 0x0, 0x0, 0x0, 0x0, 0x0, 0x0, false, false, 0x0, 0x0⟩,
  -- SEC_RNG_FAIL_CNT
  ⟨0x1701074, 0x4000000, 1, 0x0, 1, 0x0, 0x0, 0x0, 0x0, 0xffffffff, 0x0, false, false, 0x0, 0x0⟩]

/-- Rows of the UPD block. -/
def RegTable.rowsUpd : List RegDesc :=
  RegTable.rowsUpd0 ++ RegTable.rowsUpd1 ++ RegTable.rowsUpd2 ++ RegTable.rowsUpd3

/-- Rows of the AV block, part 0. -/
def RegTable.rowsAv0 : List RegDesc := [
  -- AV_CTRL
  ⟨0x1800000, 0x4000000, 1, 0x0, 1, 0xf1, 0x0, 0x0, 0x0, 0x0, 0x0, false, false, 0x0, 0x0⟩,
  -- AV_STAT
  ⟨0x1800004, 0x4000000, 1, 0x0, 1, 0x0, 0x13, 0x0, 0x0, 0x2c, 0x0, false, false, 0x0, 0x0⟩,
  -- AV_CFG
  ⟨0x1800008, 0x4000000, 1, 0x0, 1, 0x7ffffff, 0x0, 0x0, 0x0, 0x0, 0x702300a, false, true, 0x1800000, 0x0⟩,
  -- AV_FENCE_CFG
  ⟨0x180000c, 0x4000000, 1, 0x0, 1, 0xff, 0x0, 0x0, 0x0, 0x0, 0x10, false, false, 0x0, 0x0⟩,
  -- AV_FT_STAT
  ⟨0x1800010, 0x4000000, 1, 0x0, 1, 0x0, 0x0, 0x0, 0x0, 0x33f3f, 0x0, false, false, 0x0, 0x0⟩,
  -- AV_FT_CMD
  ⟨0x1800014, 0x4000000, 1, 0x0, 1, 0x0, 0x0, 0x0, 0x0, 0x0, 0x0, false, false, 0x0, 0x0⟩,
  -- AV_FT_MISMATCH_CNT
  ⟨0x1800018, 0x4000000, 1, 0x0, 1, 0x0, 0x0, 0x0, 0x0, 0xffffffff, 0x0, false, false, 0x0, 0x0⟩,
  -- AV_FT_TRANSIENT_CNT
  ⟨0x180001c, 0x4000000, 1, 0x0, 1, 0x0, 0x0, 0x0, 0x0, 0xffffffff, 0x0, false, false, 0x0, 0x0⟩,
  -- AV_FT_REMAP_CNT
  ⟨0x1800020, 0x4000000, 1, 0x0, 1, 0x0, 0x0, 0x0, 0x0, 0xffffffff, 0x0, false, false, 0x0, 0x0⟩,
  -- AV_FT_SKIP_CNT
  ⟨0x1800024, 0x4000000, 1, 0x0, 1, 0x0, 0x0, 0x0, 0x0, 0xffffffff, 0x0, false, false, 0x0, 0x0⟩,
  -- AV_FT_LINES_CNT
  ⟨0x1800028, 0x4000000, 1, 0x0, 1, 0x0, 0x0, 0x0, 0x0, 0xffffffff, 0x0, false, false, 0x0, 0x0⟩,
  -- AV_FT_INCOMP_CNT
  ⟨0x180002c, 0x4000000, 1, 0x0, 1, 0x0, 0x0, 0x0, 0x0, 0xffffffff, 0x0, false, false, 0x0, 0x0⟩]

/-- Rows of the AV block, part 1. -/
def RegTable.rowsAv1 : List RegDesc := [
  -- AV_SCRUB_STAT
  ⟨0x1800030, 0x4000000, 1, 0x0, 1, 0x0, 0x0, 0x0, 0x0, 0x7f, 0x0, false, false, 0x0, 0x0⟩,
  -- AV_SCRUB_PASS_CNT
  ⟨0x1800034, 0x4000000, 1, 0x0, 1, 0x0, 0x0, 0x0, 0x0, 0xffffffff, 0x0, false, false, 0x0, 0x0⟩,
  -- AV_SRAM_CE_CNT
  ⟨0x1800038, 0x4000000, 1, 0x0, 1, 0x0, 0x0, 0x0, 0x0, 0xffffffff, 0x0, false, false, 0x0, 0x0⟩,
  -- AV_SRAM_UE_CNT
  ⟨0x180003c, 0x4000000, 1, 0x0, 1, 0x0, 0x0, 0x0, 0x0, 0xffffffff, 0x0, false, false, 0x0, 0x0⟩,
  -- AV_REP_CNT
  ⟨0x1800040, 0x4000000, 1, 0x0, 1, 0x0, 0x0, 0x0, 0x0, 0xffffffff, 0x0, false, false, 0x0, 0x0⟩,
  -- AV_REP_CMD
  ⟨0x1800044, 0x4000000, 1, 0x0, 1, 0x7ff7f, 0x0, 0x0, 0x0, 0x200000, 0x0, false, false, 0x0, 0x0⟩,
  -- AV_INT_EN
  ⟨0x1800048, 0x4000000, 1, 0x0, 1, 0xf, 0x0, 0x0, 0x0, 0x0, 0x0, false, false, 0x0, 0x0⟩,
  -- AV_FENCE_CMD
  ⟨0x180004c, 0x4000000, 1, 0x0, 1, 0x0, 0x0, 0x0, 0x0, 0x0, 0x0, false, false, 0x0, 0x0⟩,
  -- AV_LOG_STAT
  ⟨0x1800050, 0x4000000, 1, 0x0, 1, 0x0, 0x0, 0x0, 0x0, 0x7f, 0x0, false, false, 0x0, 0x0⟩,
  -- AV_LOG_CMD
  ⟨0x1800054, 0x4000000, 1, 0x0, 1, 0x0, 0x0, 0x0, 0x0, 0x0, 0x0, false, false, 0x0, 0x0⟩,
  -- AV_LOG_W
  ⟨0x1800060, 0x4, 4, 0x0, 1, 0x0, 0x0, 0x0, 0x0, 0xffffffff, 0x0, false, false, 0x0, 0x0⟩,
  -- AV_SLICE
  ⟨0x1800100, 0x4, 52, 0x0, 1, 0x0, 0x0, 0x0, 0x0, 0xffff0f1f, 0x0, false, false, 0x0, 0x0⟩]

/-- Rows of the AV block, part 2. -/
def RegTable.rowsAv2 : List RegDesc := [
  -- AV_BANK
  ⟨0x1800200, 0x4, 96, 0x0, 1, 0x0, 0x0, 0x0, 0x0, 0x1ff1f, 0x0, false, false, 0x0, 0x0⟩,
  -- AV_OUT_CFG
  ⟨0x1800400, 0x20, 48, 0x0, 1, 0xffff0003, 0x0, 0x0, 0x0, 0xff00, 0x0, false, false, 0x0, 0x0⟩,
  -- AV_OUT_STAT
  ⟨0x1800404, 0x20, 48, 0x0, 1, 0x0, 0x0, 0x0, 0x0, 0xf, 0x0, false, false, 0x0, 0x0⟩,
  -- AV_FB_COLOR
  ⟨0x1800408, 0x20, 48, 0x0, 1, 0x3fffffff, 0x0, 0x0, 0x0, 0x0, 0x0, false, false, 0x0, 0x0⟩,
  -- AV_OUT_CMD
  ⟨0x180040c, 0x20, 48, 0x0, 1, 0x0, 0x0, 0x0, 0x0, 0x0, 0x0, false, false, 0x0, 0x0⟩,
  -- AV_FB_BASE
  ⟨0x1800410, 0x20, 48, 0x0, 1, 0xffffffff, 0x0, 0x0, 0x0, 0x0, 0x0, false, false, 0x0, 0x0⟩,
  -- AV_CAP_BASE
  ⟨0x1800414, 0x20, 48, 0x0, 1, 0xffffffff, 0x0, 0x0, 0x0, 0x0, 0x0, false, false, 0x0, 0x0⟩]

/-- Rows of the AV block. -/
def RegTable.rowsAv : List RegDesc :=
  RegTable.rowsAv0 ++ RegTable.rowsAv1 ++ RegTable.rowsAv2

/-- Rows of the DBG block, part 0. -/
def RegTable.rowsDbg0 : List RegDesc := [
  -- DBG_CTRL
  ⟨0x1900000, 0x4000000, 1, 0x0, 1, 0xf1, 0x0, 0x0, 0x0, 0x0, 0x0, false, false, 0x0, 0x0⟩,
  -- DBG_STAT
  ⟨0x1900004, 0x4000000, 1, 0x0, 1, 0x0, 0x3, 0x0, 0x0, 0xc, 0x4, false, false, 0x0, 0x0⟩,
  -- DBG_CFG
  ⟨0x1900008, 0x4000000, 1, 0x0, 1, 0x1ffff, 0x0, 0x0, 0x0, 0x0, 0x10040, false, true, 0x1900000, 0x0⟩,
  -- DBG_ATTACH
  ⟨0x190000c, 0x4000000, 1, 0x0, 1, 0x3, 0x0, 0x0, 0x0, 0x0, 0x0, false, false, 0x0, 0x0⟩,
  -- DBG_ADDR_LO
  ⟨0x1900010, 0x4000000, 1, 0x0, 1, 0xffffffff, 0x0, 0x0, 0x0, 0x0, 0x0, false, false, 0x0, 0x0⟩,
  -- DBG_ADDR_HI
  ⟨0x1900014, 0x4000000, 1, 0x0, 1, 0xf, 0x0, 0x0, 0x0, 0x0, 0x0, false, false, 0x0, 0x0⟩,
  -- DBG_MEM_CFG
  ⟨0x1900018, 0x4000000, 1, 0x0, 1, 0x7f, 0x0, 0x0, 0x0, 0x0, 0x20, false, false, 0x0, 0x0⟩,
  -- DBG_MEM_DATA
  ⟨0x190001c, 0x4000000, 1, 0x0, 1, 0xffffffff, 0x0, 0x0, 0x0, 0x0, 0x0, false, false, 0x0, 0x0⟩,
  -- DBG_MEM_STAT
  ⟨0x1900020, 0x4000000, 1, 0x0, 1, 0x0, 0x0, 0x0, 0x0, 0xf, 0x0, false, false, 0x0, 0x0⟩,
  -- DBG_RC_SEL
  ⟨0x1900040, 0x4000000, 1, 0x0, 1, 0x3, 0x0, 0x0, 0x0, 0x0, 0x0, false, false, 0x0, 0x0⟩,
  -- DBG_RC_CFG
  ⟨0x1900044, 0x4000000, 1, 0x0, 1, 0x3, 0x0, 0x0, 0x0, 0x0, 0x0, false, false, 0x0, 0x0⟩,
  -- DBG_RC_CMD
  ⟨0x1900048, 0x4000000, 1, 0x0, 1, 0x0, 0x0, 0x0, 0x0, 0x0, 0x0, false, false, 0x0, 0x0⟩]

/-- Rows of the DBG block, part 1. -/
def RegTable.rowsDbg1 : List RegDesc := [
  -- DBG_RC_STAT
  ⟨0x190004c, 0x4000000, 1, 0x0, 1, 0x0, 0x0, 0x0, 0x0, 0xff, 0x0, false, false, 0x0, 0x0⟩,
  -- DBG_RC_PC
  ⟨0x1900050, 0x4000000, 1, 0x0, 1, 0xffffffff, 0x0, 0x0, 0x0, 0x0, 0x0, false, false, 0x0, 0x0⟩,
  -- DBG_RC_GSEL
  ⟨0x1900054, 0x4000000, 1, 0x0, 1, 0x3f, 0x0, 0x0, 0x0, 0x0, 0x0, false, false, 0x0, 0x0⟩,
  -- DBG_RC_GDATA
  ⟨0x1900058, 0x4000000, 1, 0x0, 1, 0xffffffff, 0x0, 0x0, 0x0, 0x0, 0x0, false, false, 0x0, 0x0⟩,
  -- DBG_BP
  ⟨0x1900060, 0x4, 4, 0x0, 1, 0xfffffffd, 0x0, 0x0, 0x0, 0x0, 0x0, false, false, 0x0, 0x0⟩,
  -- DBG_VT_TX
  ⟨0x1900100, 0x10, 4, 0x0, 1, 0xffffffff, 0x0, 0x0, 0x0, 0x0, 0x0, false, false, 0x0, 0x0⟩,
  -- DBG_VT_RX
  ⟨0x1900104, 0x10, 4, 0x0, 1, 0xffffffff, 0x0, 0x0, 0x0, 0x0, 0x0, false, false, 0x0, 0x0⟩,
  -- DBG_VT_STAT
  ⟨0x1900108, 0x10, 4, 0x0, 1, 0x0, 0x30000, 0x0, 0x0, 0x1f1f, 0x0, false, false, 0x0, 0x0⟩]

/-- Rows of the DBG block. -/
def RegTable.rowsDbg : List RegDesc :=
  RegTable.rowsDbg0 ++ RegTable.rowsDbg1

/-- The rows whose registers can lie at BAR0 offset `a` (Table 16-8). -/
def RegTable.rowsAt (a : Nat) : List RegDesc :=
  match a / 0x100000 with
  | 0 => RegTable.rowsSys
  | 1 => RegTable.rowsTg
  | 2 => RegTable.rowsObj
  | 3 => RegTable.rowsTp
  | 4 => RegTable.rowsSl
  | 5 => RegTable.rowsSl
  | 8 => RegTable.rowsMx
  | 9 => RegTable.rowsMx
  | 10 => RegTable.rowsDm
  | 12 => RegTable.rowsHop
  | 16 => RegTable.rowsFl
  | 17 => RegTable.rowsRing
  | 18 => RegTable.rowsAud
  | 19 => RegTable.rowsKc
  | 20 => RegTable.rowsTmr
  | 21 => RegTable.rowsGp
  | 22 => RegTable.rowsMem
  | 23 => RegTable.rowsUpd
  | 24 => RegTable.rowsAv
  | 25 => RegTable.rowsDbg
  | _ => []

/-- The partition of SRAM bank `b`, in the row order of Table 16-1 (R465). -/
def bankPartition (b : Nat) : Nat :=
  if b < 32 then 0 else if b < 40 then 1 else if b < 72 then 2 else if b < 80 then 3 else if b < 82 then 4
  else if b < 86 then 5 else if b < 90 then 6 else if b < 94 then 7 else if b < 95 then 8 else 9

/-- Does the row name the register at `a`? -/
def RegDesc.covers (r : RegDesc) (a : Nat) : Bool :=
  let d := a - r.base
  let i := d / r.s1
  let e := d % r.s1
  decide (r.base ≤ a) && decide (i < r.n1) &&
    (if r.s2 = 0 then e == 0 else decide (e % r.s2 = 0) && decide (e / r.s2 < r.n2))

/-- The row of the register at `a`, if a register lies there (R9). -/
def RegTable.find (a : Nat) : Option RegDesc :=
  (RegTable.rowsAt a).find? (fun r => r.covers a)

/-- The reset word of the register at `a`: its row's, or the index-dependent value its table states. -/
def Reg.resetWord (a : Nat) : Word :=
  match RegTable.find a with
  | none => 0
  | some r =>
    -- INT_ROUTE: VECTOR is the source's number, and CORES of sources 2 and 3 is fixed (R396, R423)
    if r.base = 0x1308000 then
      let s := (a - r.base) / 4
      BitVec.ofNat 32 (s * 0x100 + if s = 2 then 8 else if s = 3 then 7 else 0)
    else if r.base = 0x800040 then (if (a - r.base) % 0x800 / 4 % 4 = 0 then 16384 else 0)
    else if r.base = 0x1600100 then BitVec.ofNat 32 (bankPartition ((a - r.base) / 4) * 0x100)
    else BitVec.ofNat 32 r.reset

end Sys2Proof.Machine
end

