-- ==== Sys2Proof/Machine/Regs.lean ====
section
/-!
DEFINITION. The register map: one name per register of BAR0, each a function of the indices its table gives it.
Every name and offset is the one the cited table of the spec states.
-/

namespace Sys2Proof.Machine.Reg

/-- TG_TICK_CTRL: Table 2-5, R69. -/
def TG_TICK_CTRL : Nat := 0x10c000
/-- TG_TICK_STAT: Table 2-5, R69. -/
def TG_TICK_STAT : Nat := 0x10c004
/-- TG_TICK_RATE_NUM: Table 2-5, R69. -/
def TG_TICK_RATE_NUM : Nat := 0x10c008
/-- TG_TICK_RATE_DEN: Table 2-5, R69. -/
def TG_TICK_RATE_DEN : Nat := 0x10c00c
/-- TG_TICK_NUM_LO: Table 2-5, R69. -/
def TG_TICK_NUM_LO : Nat := 0x10c010
/-- TG_TICK_NUM_HI: Table 2-5, R69. -/
def TG_TICK_NUM_HI : Nat := 0x10c014
/-- TG_TICK_TS_LO: Table 2-5, R69. -/
def TG_TICK_TS_LO : Nat := 0x10c018
/-- TG_TICK_TS_HI: Table 2-5, R69. -/
def TG_TICK_TS_HI : Nat := 0x10c01c
/-- TG_TICK_OUT_CFG: Table 2-5, R69. -/
def TG_TICK_OUT_CFG : Nat := 0x10c020
/-- TG_TICK_SLEW: Table 2-5, R69. -/
def TG_TICK_SLEW : Nat := 0x10c024
/-- TG_TICK_HELD_CNT: Table 2-5, R69. -/
def TG_TICK_HELD_CNT : Nat := 0x10c028
/-- TG_TICK_OVR_CNT: Table 2-5, R69. -/
def TG_TICK_OVR_CNT : Nat := 0x10c02c
/-- TG_TICK_GLITCH_CNT: Table 2-5, R69. -/
def TG_TICK_GLITCH_CNT : Nat := 0x10c030
/-- TG_TICK_MISS_CNT: Table 2-5, R69. -/
def TG_TICK_MISS_CNT : Nat := 0x10c034
/-- TG_AUD_CFG: Table 2-5, R69. -/
def TG_AUD_CFG : Nat := 0x10c038
/-- TG_AUD_CADENCE: Table 2-5, R69. -/
def TG_AUD_CADENCE : Nat := 0x10c03c
/-- TG_CTRL: Table 2-6, R70. -/
def TG_CTRL (n : Nat) : Nat := 0x100000 + n * 0x400
/-- TG_STAT: Table 2-6, R70. -/
def TG_STAT (n : Nat) : Nat := 0x100004 + n * 0x400
/-- TG_HTIMING: Table 2-6, R70. -/
def TG_HTIMING (n : Nat) : Nat := 0x100008 + n * 0x400
/-- TG_VTIMING: Table 2-6, R70. -/
def TG_VTIMING (n : Nat) : Nat := 0x10000c + n * 0x400
/-- TG_HSYNC: Table 2-6, R70. -/
def TG_HSYNC (n : Nat) : Nat := 0x100010 + n * 0x400
/-- TG_VSYNC: Table 2-6, R70. -/
def TG_VSYNC (n : Nat) : Nat := 0x100014 + n * 0x400
/-- TG_PCLK_NUM: Table 2-6, R70. -/
def TG_PCLK_NUM (n : Nat) : Nat := 0x100018 + n * 0x400
/-- TG_PCLK_DEN: Table 2-6, R70. -/
def TG_PCLK_DEN (n : Nat) : Nat := 0x10001c + n * 0x400
/-- TG_FMT: Table 2-6, R70. -/
def TG_FMT (n : Nat) : Nat := 0x100020 + n * 0x400
/-- TG_PHASE: Table 2-6, R70. -/
def TG_PHASE (n : Nat) : Nat := 0x100024 + n * 0x400
/-- TG_FRAME_CNT: Table 2-6, R70. -/
def TG_FRAME_CNT (n : Nat) : Nat := 0x100028 + n * 0x400
/-- TG_FRAME_LATCH: Table 2-6, R70. -/
def TG_FRAME_LATCH (n : Nat) : Nat := 0x10002c + n * 0x400
/-- TG_FLIP_TS_LO: Table 2-6, R70. -/
def TG_FLIP_TS_LO (n : Nat) : Nat := 0x100030 + n * 0x400
/-- TG_FLIP_TS_HI: Table 2-6, R70. -/
def TG_FLIP_TS_HI (n : Nat) : Nat := 0x100034 + n * 0x400
/-- TG_FLIP_EPOCH: Table 2-6, R70. -/
def TG_FLIP_EPOCH (n : Nat) : Nat := 0x100038 + n * 0x400
/-- TG_LATE_CNT: Table 2-6, R70. -/
def TG_LATE_CNT (n : Nat) : Nat := 0x10003c + n * 0x400
/-- TG_PHASE_ERR: Table 2-6, R70. -/
def TG_PHASE_ERR (n : Nat) : Nat := 0x100040 + n * 0x400
/-- TG_TRIM: Table 2-6, R70. -/
def TG_TRIM (n : Nat) : Nat := 0x100044 + n * 0x400
/-- TG_INT_CFG: Table 2-6, R70. -/
def TG_INT_CFG (n : Nat) : Nat := 0x100048 + n * 0x400
/-- TG_GLIDE_CNT: Table 2-6, R70. -/
def TG_GLIDE_CNT (n : Nat) : Nat := 0x10004c + n * 0x400
/-- TG_BEAM: Table 2-6, R70. -/
def TG_BEAM (n : Nat) : Nat := 0x100050 + n * 0x400
/-- OBJ_CTRL: Table 3-6, R109. -/
def OBJ_CTRL : Nat := 0x200000
/-- OBJ_STAT: Table 3-6, R109. -/
def OBJ_STAT : Nat := 0x200004
/-- OBJ_BOL_CFG: Table 3-6, R109. -/
def OBJ_BOL_CFG : Nat := 0x200008
/-- OBJ_CEIL: Table 3-6, R109. -/
def OBJ_CEIL : Nat := 0x20000c
/-- OBJ_POOL_BASE: Table 3-6, R109. -/
def OBJ_POOL_BASE : Nat := 0x200010
/-- OBJ_POOL_SIZE: Table 3-6, R109. -/
def OBJ_POOL_SIZE : Nat := 0x200014
/-- OBJ_EPOCH_LO: Table 3-6, R109. -/
def OBJ_EPOCH_LO : Nat := 0x200018
/-- OBJ_EPOCH_HI: Table 3-6, R109. -/
def OBJ_EPOCH_HI : Nat := 0x20001c
/-- OBJ_BOL_EPOCH: Table 3-6, R109. -/
def OBJ_BOL_EPOCH : Nat := 0x200020
/-- OBJ_BOL_STATE: Table 3-6, R109. -/
def OBJ_BOL_STATE : Nat := 0x200024
/-- OBJ_BOL_LAST: Table 3-6, R109. -/
def OBJ_BOL_LAST : Nat := 0x200028
/-- OBJ_BOL_MAX: Table 3-6, R109. -/
def OBJ_BOL_MAX : Nat := 0x20002c
/-- OBJ_BOL_REUSE_CNT: Table 3-6, R109. -/
def OBJ_BOL_REUSE_CNT : Nat := 0x200030
/-- OBJ_BOL_ABORT_CNT: Table 3-6, R109. -/
def OBJ_BOL_ABORT_CNT : Nat := 0x200034
/-- OBJ_REF_ERR_CNT: Table 3-6, R109. -/
def OBJ_REF_ERR_CNT : Nat := 0x200038
/-- OBJ_SHR_USED: Table 3-6, R109. -/
def OBJ_SHR_USED : Nat := 0x20003c
/-- OBJ_SHR_DROP_CNT: Table 3-6, R109. -/
def OBJ_SHR_DROP_CNT : Nat := 0x200040
/-- OBJ_PEEK_SEL: Table 3-6, R109. -/
def OBJ_PEEK_SEL : Nat := 0x200044
/-- OBJ_PEEK_STAT: Table 3-6, R109. -/
def OBJ_PEEK_STAT : Nat := 0x200048
/-- OBJ_PEEK_W: Table 3-6, R109. -/
def OBJ_PEEK_W (i : Nat) : Nat := 0x200060 + i * 0x4
/-- OBJ_GPEEK_SEL: Table 3-6, R109. -/
def OBJ_GPEEK_SEL : Nat := 0x200080
/-- OBJ_GPEEK_W: Table 3-6, R109. -/
def OBJ_GPEEK_W (i : Nat) : Nat := 0x200084 + i * 0x4
/-- OBJ_CANVAS_SIZE: Table 3-7, R110. -/
def OBJ_CANVAS_SIZE (c : Nat) : Nat := 0x201000 + c * 0x8
/-- OBJ_CANVAS_CFG: Table 3-7, R110. -/
def OBJ_CANVAS_CFG (c : Nat) : Nat := 0x201004 + c * 0x8
/-- OBJ_VP_CFG: Table 3-8, R111. -/
def OBJ_VP_CFG (n : Nat) : Nat := 0x204000 + n * 0x40
/-- OBJ_VP_ORG: Table 3-8, R111. -/
def OBJ_VP_ORG (n : Nat) : Nat := 0x204004 + n * 0x40
/-- OBJ_OUT_STAT: Table 3-8, R111. -/
def OBJ_OUT_STAT (n : Nat) : Nat := 0x204008 + n * 0x40
/-- OBJ_OUT_DROP_CNT: Table 3-8, R111. -/
def OBJ_OUT_DROP_CNT (n : Nat) : Nat := 0x20400c + n * 0x40
/-- OBJ_OUT_QDROP_CNT: Table 3-8, R111. -/
def OBJ_OUT_QDROP_CNT (n : Nat) : Nat := 0x204010 + n * 0x40
/-- OBJ_IDX_QUOTA: Table 3-8, R111. -/
def OBJ_IDX_QUOTA (n : Nat) : Nat := 0x204014 + n * 0x40
/-- OBJ_OUT_ENTRIES: Table 3-8, R111. -/
def OBJ_OUT_ENTRIES (n : Nat) : Nat := 0x204018 + n * 0x40
/-- OBJ_OUT_MAXBIN: Table 3-8, R111. -/
def OBJ_OUT_MAXBIN (n : Nat) : Nat := 0x20401c + n * 0x40
/-- OBJ_OUT_INT_EN: Table 3-8, R111. -/
def OBJ_OUT_INT_EN (n : Nat) : Nat := 0x204020 + n * 0x40
/-- TP_CTRL: Table 4-6, R141. -/
def TP_CTRL : Nat := 0x300000
/-- TP_STAT: Table 4-6, R141. -/
def TP_STAT : Nat := 0x300004
/-- TP_MISS_CFG: Table 4-6, R141. -/
def TP_MISS_CFG : Nat := 0x300008
/-- TP_PAL_SPACE: Table 4-6, R141. -/
def TP_PAL_SPACE : Nat := 0x30000c
/-- TP_MAP_SPACE: Table 4-6, R141. -/
def TP_MAP_SPACE : Nat := 0x300010
/-- TP_PAL_FREE: Table 4-6, R141. -/
def TP_PAL_FREE : Nat := 0x300014
/-- TP_MAP_FREE: Table 4-6, R141. -/
def TP_MAP_FREE : Nat := 0x300018
/-- TP_PAGE_DROP_CNT: Table 4-6, R141. -/
def TP_PAGE_DROP_CNT : Nat := 0x30001c
/-- TP_CACHE_KIB: Table 4-6, R141. -/
def TP_CACHE_KIB : Nat := 0x300020
/-- TP_CACHE_LOCKED: Table 4-6, R141. -/
def TP_CACHE_LOCKED : Nat := 0x300024
/-- TP_INV_BASE: Table 4-6, R141. -/
def TP_INV_BASE : Nat := 0x300028
/-- TP_INV_LEN: Table 4-6, R141. -/
def TP_INV_LEN : Nat := 0x30002c
/-- TP_INV_CMD: Table 4-6, R141. -/
def TP_INV_CMD : Nat := 0x300030
/-- TP_PMAP_SEL: Table 4-6, R141. -/
def TP_PMAP_SEL : Nat := 0x300034
/-- TP_PMAP_RD: Table 4-6, R141. -/
def TP_PMAP_RD : Nat := 0x300038
/-- TP_KEY_VAL: Table 4-7, R142. -/
def TP_KEY_VAL (k : Nat) : Nat := 0x300800 + k * 0x8
/-- TP_KEY_MASK: Table 4-7, R142. -/
def TP_KEY_MASK (k : Nat) : Nat := 0x300804 + k * 0x8
/-- TP_PL_CFG: Table 4-8, R143. -/
def TP_PL_CFG (n : Nat) (p : Nat) : Nat := 0x304000 + n * 0x100 + p * 0x40
/-- TP_PL_SCROLL: Table 4-8, R143. -/
def TP_PL_SCROLL (n : Nat) (p : Nat) : Nat := 0x304004 + n * 0x100 + p * 0x40
/-- TP_PL_MAP: Table 4-8, R143. -/
def TP_PL_MAP (n : Nat) (p : Nat) : Nat := 0x304008 + n * 0x100 + p * 0x40
/-- TP_PL_TILE: Table 4-8, R143. -/
def TP_PL_TILE (n : Nat) (p : Nat) : Nat := 0x30400c + n * 0x100 + p * 0x40
/-- TP_PL_PAL: Table 4-8, R143. -/
def TP_PL_PAL (n : Nat) (p : Nat) : Nat := 0x304010 + n * 0x100 + p * 0x40
/-- TP_PL_STAT: Table 4-8, R143. -/
def TP_PL_STAT (n : Nat) (p : Nat) : Nat := 0x304014 + n * 0x100 + p * 0x40
/-- TP_OUT_FILL_CNT: Table 4-9, R144. -/
def TP_OUT_FILL_CNT (n : Nat) : Nat := 0x308000 + n * 0x20
/-- TP_OUT_ACCESS_CNT: Table 4-9, R144. -/
def TP_OUT_ACCESS_CNT (n : Nat) : Nat := 0x308004 + n * 0x20
/-- TP_OUT_LATE_CNT: Table 4-9, R144. -/
def TP_OUT_LATE_CNT (n : Nat) : Nat := 0x308008 + n * 0x20
/-- TP_OUT_LATE_LINES: Table 4-9, R144. -/
def TP_OUT_LATE_LINES (n : Nat) : Nat := 0x30800c + n * 0x20
/-- TP_OUT_LAST_LATE: Table 4-9, R144. -/
def TP_OUT_LAST_LATE (n : Nat) : Nat := 0x308010 + n * 0x20
/-- TP_OUT_INT_EN: Table 4-9, R144. -/
def TP_OUT_INT_EN (n : Nat) : Nat := 0x308014 + n * 0x20
/-- SL_CTRL: Table 5-10, R176. -/
def SL_CTRL (s : Nat) : Nat := 0x400000 + s * 0x1000
/-- SL_STAT: Table 5-10, R176. -/
def SL_STAT (s : Nat) : Nat := 0x400004 + s * 0x1000
/-- SL_CFG: Table 5-10, R176. -/
def SL_CFG (s : Nat) : Nat := 0x400008 + s * 0x1000
/-- SL_LEAD: Table 5-10, R176. -/
def SL_LEAD (s : Nat) : Nat := 0x40000c + s * 0x1000
/-- SL_BIND: Table 5-10, R176. -/
def SL_BIND (s : Nat) : Nat := 0x400010 + s * 0x1000
/-- SL_REPEAT_CNT: Table 5-10, R176. -/
def SL_REPEAT_CNT (s : Nat) : Nat := 0x400014 + s * 0x1000
/-- SL_LAST_SLOW: Table 5-10, R176. -/
def SL_LAST_SLOW (s : Nat) : Nat := 0x400018 + s * 0x1000
/-- SL_BUILD_LAST: Table 5-10, R176. -/
def SL_BUILD_LAST (s : Nat) : Nat := 0x40001c + s * 0x1000
/-- SL_BUILD_MAX: Table 5-10, R176. -/
def SL_BUILD_MAX (s : Nat) : Nat := 0x400020 + s * 0x1000
/-- SL_STALL_CNT: Table 5-10, R176. -/
def SL_STALL_CNT (s : Nat) : Nat := 0x400024 + s * 0x1000
/-- SL_SKIP_CNT: Table 5-10, R176. -/
def SL_SKIP_CNT (s : Nat) : Nat := 0x400028 + s * 0x1000
/-- SL_INT_EN: Table 5-10, R176. -/
def SL_INT_EN (s : Nat) : Nat := 0x40002c + s * 0x1000
/-- SL_LINE_OBJ: Table 5-10, R176. -/
def SL_LINE_OBJ (s : Nat) : Nat := 0x400030 + s * 0x1000
/-- SL_OUT_BIND: Table 5-11, R177. -/
def SL_OUT_BIND (n : Nat) : Nat := 0x440000 + n * 0x4
/-- SL_LO_POS: Table 5-12, R178. -/
def SL_LO_POS (n : Nat) (k : Nat) : Nat := 0x500000 + n * 0x1000 + k * 0x10
/-- SL_LO_CTRL: Table 5-12, R178. -/
def SL_LO_CTRL (n : Nat) (k : Nat) : Nat := 0x500004 + n * 0x1000 + k * 0x10
/-- SL_LO_PAT: Table 5-12, R178. -/
def SL_LO_PAT (n : Nat) (k : Nat) : Nat := 0x500008 + n * 0x1000 + k * 0x10
/-- SL_LO_KEY: Table 5-12, R178. -/
def SL_LO_KEY (n : Nat) (k : Nat) : Nat := 0x50000c + n * 0x1000 + k * 0x10
/-- SL_STAGED: Table 5-12, R178. -/
def SL_STAGED (n : Nat) (w : Nat) : Nat := 0x500400 + n * 0x1000 + w * 0x4
/-- SL_LCOMMIT: Table 5-12, R178. -/
def SL_LCOMMIT (n : Nat) : Nat := 0x500800 + n * 0x1000
/-- SL_LEN_LO: Table 5-12, R178. -/
def SL_LEN_LO (n : Nat) : Nat := 0x500804 + n * 0x1000
/-- SL_LEN_HI: Table 5-12, R178. -/
def SL_LEN_HI (n : Nat) : Nat := 0x500808 + n * 0x1000
/-- SL_LEN_SET_LO: Table 5-12, R178. -/
def SL_LEN_SET_LO (n : Nat) : Nat := 0x50080c + n * 0x1000
/-- SL_LEN_SET_HI: Table 5-12, R178. -/
def SL_LEN_SET_HI (n : Nat) : Nat := 0x500810 + n * 0x1000
/-- SL_LEN_CLR_LO: Table 5-12, R178. -/
def SL_LEN_CLR_LO (n : Nat) : Nat := 0x500814 + n * 0x1000
/-- SL_LEN_CLR_HI: Table 5-12, R178. -/
def SL_LEN_CLR_HI (n : Nat) : Nat := 0x500818 + n * 0x1000
/-- SL_LSTAT: Table 5-12, R178. -/
def SL_LSTAT (n : Nat) : Nat := 0x50081c + n * 0x1000
/-- SL_LROUTE: Table 5-12, R178. -/
def SL_LROUTE (n : Nat) (i : Nat) : Nat := 0x500820 + n * 0x1000 + i * 0x4
/-- MX_CTRL: Table 6-7, R207. -/
def MX_CTRL (n : Nat) : Nat := 0x800000 + n * 0x800
/-- MX_STAT: Table 6-7, R207. -/
def MX_STAT (n : Nat) : Nat := 0x800004 + n * 0x800
/-- MX_CFG: Table 6-7, R207. -/
def MX_CFG (n : Nat) : Nat := 0x800008 + n * 0x800
/-- MX_ORDER: Table 6-7, R207. -/
def MX_ORDER (n : Nat) : Nat := 0x80000c + n * 0x800
/-- MX_BG0: Table 6-7, R207. -/
def MX_BG0 (n : Nat) : Nat := 0x800010 + n * 0x800
/-- MX_BG1: Table 6-7, R207. -/
def MX_BG1 (n : Nat) : Nat := 0x800014 + n * 0x800
/-- MX_SALPHA: Table 6-7, R207. -/
def MX_SALPHA (n : Nat) : Nat := 0x800018 + n * 0x800
/-- MX_FMT: Table 6-7, R207. -/
def MX_FMT (n : Nat) : Nat := 0x80001c + n * 0x800
/-- MX_TBL_CFG: Table 6-7, R207. -/
def MX_TBL_CFG (n : Nat) : Nat := 0x800020 + n * 0x800
/-- MX_TBL_CMD: Table 6-7, R207. -/
def MX_TBL_CMD (n : Nat) : Nat := 0x800024 + n * 0x800
/-- MX_TM_EN: Table 6-7, R207. -/
def MX_TM_EN (n : Nat) : Nat := 0x800028 + n * 0x800
/-- MX_TM_CW0: Table 6-7, R207. -/
def MX_TM_CW0 (n : Nat) : Nat := 0x80002c + n * 0x800
/-- MX_TM_CW1: Table 6-7, R207. -/
def MX_TM_CW1 (n : Nat) : Nat := 0x800030 + n * 0x800
/-- MX_TM_M: Table 6-7, R207. -/
def MX_TM_M (n : Nat) (i : Nat) : Nat := 0x800040 + n * 0x800 + i * 0x4
/-- MX_FRZ_CFG: Table 6-7, R207. -/
def MX_FRZ_CFG (n : Nat) : Nat := 0x800080 + n * 0x800
/-- MX_FRZ_SIG: Table 6-7, R207. -/
def MX_FRZ_SIG (n : Nat) : Nat := 0x800084 + n * 0x800
/-- MX_FRZ_RUN: Table 6-7, R207. -/
def MX_FRZ_RUN (n : Nat) : Nat := 0x800088 + n * 0x800
/-- MX_ALM_STAT: Table 6-7, R207. -/
def MX_ALM_STAT (n : Nat) : Nat := 0x800090 + n * 0x800
/-- MX_ALM_EN: Table 6-7, R207. -/
def MX_ALM_EN (n : Nat) : Nat := 0x800094 + n * 0x800
/-- MX_RG_ALM_LO: Table 6-7, R207. -/
def MX_RG_ALM_LO (n : Nat) : Nat := 0x800098 + n * 0x800
/-- MX_RG_ALM_HI: Table 6-7, R207. -/
def MX_RG_ALM_HI (n : Nat) : Nat := 0x80009c + n * 0x800
/-- MX_VP_CFG: Table 6-8, R208. -/
def MX_VP_CFG (n : Nat) (p : Nat) : Nat := 0x800100 + n * 0x800 + p * 0x40
/-- MX_VP_BUF: Table 6-8, R208. -/
def MX_VP_BUF (n : Nat) (p : Nat) : Nat := 0x800104 + n * 0x800 + p * 0x40
/-- MX_VP_STRIDE: Table 6-8, R208. -/
def MX_VP_STRIDE (n : Nat) (p : Nat) : Nat := 0x800108 + n * 0x800 + p * 0x40
/-- MX_VP_SRC_ORG: Table 6-8, R208. -/
def MX_VP_SRC_ORG (n : Nat) (p : Nat) : Nat := 0x80010c + n * 0x800 + p * 0x40
/-- MX_VP_SRC_SIZE: Table 6-8, R208. -/
def MX_VP_SRC_SIZE (n : Nat) (p : Nat) : Nat := 0x800110 + n * 0x800 + p * 0x40
/-- MX_VP_DST_ORG: Table 6-8, R208. -/
def MX_VP_DST_ORG (n : Nat) (p : Nat) : Nat := 0x800114 + n * 0x800 + p * 0x40
/-- MX_VP_DST_SIZE: Table 6-8, R208. -/
def MX_VP_DST_SIZE (n : Nat) (p : Nat) : Nat := 0x800118 + n * 0x800 + p * 0x40
/-- MX_VP_ALPHA: Table 6-8, R208. -/
def MX_VP_ALPHA (n : Nat) (p : Nat) : Nat := 0x80011c + n * 0x800 + p * 0x40
/-- MX_VP_URG: Table 6-8, R208. -/
def MX_VP_URG (n : Nat) (p : Nat) : Nat := 0x800120 + n * 0x800 + p * 0x40
/-- MX_VP_STAT: Table 6-8, R208. -/
def MX_VP_STAT (n : Nat) (p : Nat) : Nat := 0x800124 + n * 0x800 + p * 0x40
/-- MX_VP_DRY_CNT: Table 6-8, R208. -/
def MX_VP_DRY_CNT (n : Nat) (p : Nat) : Nat := 0x800128 + n * 0x800 + p * 0x40
/-- MX_VP_URG_CNT: Table 6-8, R208. -/
def MX_VP_URG_CNT (n : Nat) (p : Nat) : Nat := 0x80012c + n * 0x800 + p * 0x40
/-- MX_VP_LAST_DRY: Table 6-8, R208. -/
def MX_VP_LAST_DRY (n : Nat) (p : Nat) : Nat := 0x800130 + n * 0x800 + p * 0x40
/-- MX_VP_INT_EN: Table 6-8, R208. -/
def MX_VP_INT_EN (n : Nat) (p : Nat) : Nat := 0x800134 + n * 0x800 + p * 0x40
/-- MX_RG_X: Table 6-10, R210. -/
def MX_RG_X (n : Nat) (r : Nat) : Nat := 0x9a0000 + n * 0x800 + r * 0x20
/-- MX_RG_Y: Table 6-10, R210. -/
def MX_RG_Y (n : Nat) (r : Nat) : Nat := 0x9a0004 + n * 0x800 + r * 0x20
/-- MX_RG_CFG: Table 6-10, R210. -/
def MX_RG_CFG (n : Nat) (r : Nat) : Nat := 0x9a0008 + n * 0x800 + r * 0x20
/-- MX_RG_EXP_A: Table 6-10, R210. -/
def MX_RG_EXP_A (n : Nat) (r : Nat) : Nat := 0x9a000c + n * 0x800 + r * 0x20
/-- MX_RG_EXP_B: Table 6-10, R210. -/
def MX_RG_EXP_B (n : Nat) (r : Nat) : Nat := 0x9a0010 + n * 0x800 + r * 0x20
/-- MX_RG_MEAS: Table 6-10, R210. -/
def MX_RG_MEAS (n : Nat) (r : Nat) : Nat := 0x9a0014 + n * 0x800 + r * 0x20
/-- MX_RG_CNT: Table 6-10, R210. -/
def MX_RG_CNT (n : Nat) (r : Nat) : Nat := 0x9a0018 + n * 0x800 + r * 0x20
/-- MX_RG_RUN: Table 6-10, R210. -/
def MX_RG_RUN (n : Nat) (r : Nat) : Nat := 0x9a001c + n * 0x800 + r * 0x20
/-- DM_CTRL: Table 7-9, R233. -/
def DM_CTRL (n : Nat) : Nat := 0xa00000 + n * 0x100
/-- DM_STAT: Table 7-9, R233. -/
def DM_STAT (n : Nat) : Nat := 0xa00004 + n * 0x100
/-- DM_CFG: Table 7-9, R233. -/
def DM_CFG (n : Nat) : Nat := 0xa00008 + n * 0x100
/-- DM_INT_EN: Table 7-9, R233. -/
def DM_INT_EN (n : Nat) : Nat := 0xa0000c + n * 0x100
/-- DM_ENTRY: Table 7-9, R233. -/
def DM_ENTRY (n : Nat) : Nat := 0xa00010 + n * 0x100
/-- DM_PC: Table 7-9, R233. -/
def DM_PC (n : Nat) : Nat := 0xa00014 + n * 0x100
/-- DM_FAULT: Table 7-9, R233. -/
def DM_FAULT (n : Nat) : Nat := 0xa00018 + n * 0x100
/-- DM_FAULT_CNT: Table 7-9, R233. -/
def DM_FAULT_CNT (n : Nat) : Nat := 0xa0001c + n * 0x100
/-- DM_OVR_CNT: Table 7-9, R233. -/
def DM_OVR_CNT (n : Nat) : Nat := 0xa00020 + n * 0x100
/-- DM_LATE_CNT: Table 7-9, R233. -/
def DM_LATE_CNT (n : Nat) : Nat := 0xa00024 + n * 0x100
/-- DM_LAST_LATE: Table 7-9, R233. -/
def DM_LAST_LATE (n : Nat) : Nat := 0xa00028 + n * 0x100
/-- DM_SIG_CODE: Table 7-9, R233. -/
def DM_SIG_CODE (n : Nat) : Nat := 0xa0002c + n * 0x100
/-- DM_FLAGS: Table 7-9, R233. -/
def DM_FLAGS (n : Nat) : Nat := 0xa00030 + n * 0x100
/-- DM_FLAGS_SET: Table 7-9, R233. -/
def DM_FLAGS_SET (n : Nat) : Nat := 0xa00034 + n * 0x100
/-- DM_FLAGS_CLR: Table 7-9, R233. -/
def DM_FLAGS_CLR (n : Nat) : Nat := 0xa00038 + n * 0x100
/-- DM_EV_TRIG: Table 7-9, R233. -/
def DM_EV_TRIG (n : Nat) : Nat := 0xa0003c + n * 0x100
/-- DM_EV_CNT: Table 7-9, R233. -/
def DM_EV_CNT (n : Nat) : Nat := 0xa00040 + n * 0x100
/-- DM_EV_OVF: Table 7-9, R233. -/
def DM_EV_OVF (n : Nat) : Nat := 0xa00044 + n * 0x100
/-- DM_EV_SEL: Table 7-9, R233. -/
def DM_EV_SEL (n : Nat) (i : Nat) : Nat := 0xa00048 + n * 0x100 + i * 0x4
/-- DM_DATA: Table 7-9, R233. -/
def DM_DATA (n : Nat) (i : Nat) : Nat := 0xa00080 + n * 0x100 + i * 0x4
/-- HOP_RD_BASE_LO: Table 8-8, R265. -/
def HOP_RD_BASE_LO (r : Nat) : Nat := 0xc00000 + r * 0x20
/-- HOP_RD_BASE_HI: Table 8-8, R265. -/
def HOP_RD_BASE_HI (r : Nat) : Nat := 0xc00004 + r * 0x20
/-- HOP_RD_CFG: Table 8-8, R265. -/
def HOP_RD_CFG (r : Nat) : Nat := 0xc00008 + r * 0x20
/-- HOP_RD_HEAD: Table 8-8, R265. -/
def HOP_RD_HEAD (r : Nat) : Nat := 0xc0000c + r * 0x20
/-- HOP_RD_TAIL: Table 8-8, R265. -/
def HOP_RD_TAIL (r : Nat) : Nat := 0xc00010 + r * 0x20
/-- HOP_RD_WB_LO: Table 8-8, R265. -/
def HOP_RD_WB_LO (r : Nat) : Nat := 0xc00014 + r * 0x20
/-- HOP_RD_WB_HI: Table 8-8, R265. -/
def HOP_RD_WB_HI (r : Nat) : Nat := 0xc00018 + r * 0x20
/-- HOP_RD_STAT: Table 8-8, R265. -/
def HOP_RD_STAT (r : Nat) : Nat := 0xc0001c + r * 0x20
/-- HOP_CTRL: Table 8-9, R266. -/
def HOP_CTRL : Nat := 0xc80000
/-- HOP_STAT: Table 8-9, R266. -/
def HOP_STAT : Nat := 0xc80004
/-- HOP_CFG: Table 8-9, R266. -/
def HOP_CFG : Nat := 0xc80008
/-- HOP_POND_CAP: Table 8-9, R266. -/
def HOP_POND_CAP : Nat := 0xc8000c
/-- HOP_POND_RES: Table 8-9, R266. -/
def HOP_POND_RES : Nat := 0xc80010
/-- HOP_POND_USED: Table 8-9, R266. -/
def HOP_POND_USED : Nat := 0xc80014
/-- HOP_HORIZON: Table 8-9, R266. -/
def HOP_HORIZON : Nat := 0xc80018
/-- HOP_TICK_RT_LO: Table 8-9, R266. -/
def HOP_TICK_RT_LO : Nat := 0xc8001c
/-- HOP_TICK_RT_HI: Table 8-9, R266. -/
def HOP_TICK_RT_HI : Nat := 0xc80020
/-- HOP_INGEST_CNT: Table 8-9, R266. -/
def HOP_INGEST_CNT : Nat := 0xc80024
/-- HOP_RING_IN_CNT: Table 8-9, R266. -/
def HOP_RING_IN_CNT : Nat := 0xc80028
/-- HOP_COMMIT_CNT: Table 8-9, R266. -/
def HOP_COMMIT_CNT : Nat := 0xc8002c
/-- HOP_LATE_CNT: Table 8-9, R266. -/
def HOP_LATE_CNT : Nat := 0xc80030
/-- HOP_LATE_ARR_CNT: Table 8-9, R266. -/
def HOP_LATE_ARR_CNT : Nat := 0xc80034
/-- HOP_REFUSE_CNT: Table 8-9, R266. -/
def HOP_REFUSE_CNT : Nat := 0xc80038
/-- HOP_LAST_REFUSE: Table 8-9, R266. -/
def HOP_LAST_REFUSE : Nat := 0xc8003c
/-- HOP_BP_CNT: Table 8-9, R266. -/
def HOP_BP_CNT : Nat := 0xc80040
/-- HOP_RING_DROP_CNT: Table 8-9, R266. -/
def HOP_RING_DROP_CNT : Nat := 0xc80044
/-- HOP_COMMIT_LAST: Table 8-9, R266. -/
def HOP_COMMIT_LAST : Nat := 0xc80048
/-- HOP_COMMIT_MAX: Table 8-9, R266. -/
def HOP_COMMIT_MAX : Nat := 0xc8004c
/-- HOP_INT_EN: Table 8-9, R266. -/
def HOP_INT_EN : Nat := 0xc80050
/-- HOP_GRP_STAT: Table 8-9, R266. -/
def HOP_GRP_STAT : Nat := 0xc80054
/-- HOP_VP_PEND_BUF: Table 8-10, R267. -/
def HOP_VP_PEND_BUF (n : Nat) (p : Nat) : Nat := 0xc81000 + n * 0x20 + p * 0x10
/-- HOP_VP_PEND: Table 8-10, R267. -/
def HOP_VP_PEND (n : Nat) (p : Nat) : Nat := 0xc81004 + n * 0x20 + p * 0x10
/-- HOP_VP_FIF_CNT: Table 8-10, R267. -/
def HOP_VP_FIF_CNT (n : Nat) (p : Nat) : Nat := 0xc81008 + n * 0x20 + p * 0x10
/-- HOP_VP_SUPER_CNT: Table 8-10, R267. -/
def HOP_VP_SUPER_CNT (n : Nat) (p : Nat) : Nat := 0xc8100c + n * 0x20 + p * 0x10
/-- HOP_TRK_DONE: Table 8-10, R267. -/
def HOP_TRK_DONE (t : Nat) : Nat := 0xc82000 + t * 0x8
/-- HOP_TRK_CUT: Table 8-10, R267. -/
def HOP_TRK_CUT (t : Nat) : Nat := 0xc82004 + t * 0x8
/-- FL_CTRL: Table 9-10, R296. -/
def FL_CTRL (n : Nat) : Nat := 0x1000000 + n * 0x400
/-- FL_STAT: Table 9-10, R296. -/
def FL_STAT (n : Nat) : Nat := 0x1000004 + n * 0x400
/-- FL_CFG: Table 9-10, R296. -/
def FL_CFG (n : Nat) : Nat := 0x1000008 + n * 0x400
/-- FL_TX_EQ: Table 9-10, R296. -/
def FL_TX_EQ (n : Nat) : Nat := 0x100000c + n * 0x400
/-- FL_BOARD: Table 9-10, R296. -/
def FL_BOARD (n : Nat) : Nat := 0x1000010 + n * 0x400
/-- FL_CMD: Table 9-10, R296. -/
def FL_CMD (n : Nat) : Nat := 0x1000014 + n * 0x400
/-- FL_PKT_CNT: Table 9-10, R296. -/
def FL_PKT_CNT (n : Nat) : Nat := 0x1000018 + n * 0x400
/-- FL_LINE_CNT: Table 9-10, R296. -/
def FL_LINE_CNT (n : Nat) : Nat := 0x100001c + n * 0x400
/-- FL_DROP_CNT: Table 9-10, R296. -/
def FL_DROP_CNT (n : Nat) : Nat := 0x1000020 + n * 0x400
/-- FL_UNSENT_CNT: Table 9-10, R296. -/
def FL_UNSENT_CNT (n : Nat) : Nat := 0x1000024 + n * 0x400
/-- FL_RETRAIN_CNT: Table 9-10, R296. -/
def FL_RETRAIN_CNT (n : Nat) : Nat := 0x1000028 + n * 0x400
/-- FL_LAT: Table 9-10, R296. -/
def FL_LAT (n : Nat) : Nat := 0x100002c + n * 0x400
/-- FL_DEMAND: Table 9-10, R296. -/
def FL_DEMAND (n : Nat) : Nat := 0x1000030 + n * 0x400
/-- FL_INT_EN: Table 9-10, R296. -/
def FL_INT_EN (n : Nat) : Nat := 0x1000034 + n * 0x400
/-- FL_AUX_CTRL: Table 9-10, R296. -/
def FL_AUX_CTRL (n : Nat) (i : Nat) : Nat := 0x1000040 + n * 0x400 + i * 0x4
/-- RING_CTRL: Table 10-9, R331. -/
def RING_CTRL : Nat := 0x1100000
/-- RING_STAT: Table 10-9, R331. -/
def RING_STAT : Nat := 0x1100004
/-- RING_CFG: Table 10-9, R331. -/
def RING_CFG : Nat := 0x1100008
/-- RING_NODE: Table 10-9, R331. -/
def RING_NODE : Nat := 0x110000c
/-- RING_POLICY: Table 10-9, R331. -/
def RING_POLICY : Nat := 0x1100010
/-- RING_HORIZON: Table 10-9, R331. -/
def RING_HORIZON : Nat := 0x1100014
/-- RING_HZ_NS: Table 10-9, R331. -/
def RING_HZ_NS : Nat := 0x1100018
/-- RING_HZ_AT: Table 10-9, R331. -/
def RING_HZ_AT : Nat := 0x110001c
/-- RING_RT_LO: Table 10-9, R331. -/
def RING_RT_LO : Nat := 0x1100020
/-- RING_RT_HI: Table 10-9, R331. -/
def RING_RT_HI : Nat := 0x1100024
/-- RING_TICK_ERR: Table 10-9, R331. -/
def RING_TICK_ERR : Nat := 0x1100028
/-- RING_LOOP: Table 10-9, R331. -/
def RING_LOOP : Nat := 0x110002c
/-- RING_LOOP_RES: Table 10-9, R331. -/
def RING_LOOP_RES : Nat := 0x1100030
/-- RING_BOARD_PRI: Table 10-9, R331. -/
def RING_BOARD_PRI : Nat := 0x1100034
/-- RING_BOARD_LEAT: Table 10-9, R331. -/
def RING_BOARD_LEAT : Nat := 0x1100038
/-- RING_INJ_RATE: Table 10-9, R331. -/
def RING_INJ_RATE : Nat := 0x110003c
/-- RING_INJ_WAIT_MAX: Table 10-9, R331. -/
def RING_INJ_WAIT_MAX : Nat := 0x1100040
/-- RING_SWITCH_CNT: Table 10-9, R331. -/
def RING_SWITCH_CNT : Nat := 0x1100044
/-- RING_BACK_CNT: Table 10-9, R331. -/
def RING_BACK_CNT : Nat := 0x1100048
/-- RING_CRC_CNT: Table 10-9, R331. -/
def RING_CRC_CNT : Nat := 0x110004c
/-- RING_GAP_CNT: Table 10-9, R331. -/
def RING_GAP_CNT : Nat := 0x1100050
/-- RING_FWD_CNT: Table 10-9, R331. -/
def RING_FWD_CNT : Nat := 0x1100054
/-- RING_INJ_CNT: Table 10-9, R331. -/
def RING_INJ_CNT : Nat := 0x1100058
/-- RING_SEG_CNT: Table 10-9, R331. -/
def RING_SEG_CNT : Nat := 0x110005c
/-- RING_SEG_DROP_CNT: Table 10-9, R331. -/
def RING_SEG_DROP_CNT : Nat := 0x1100060
/-- RING_MEMBERS_LO: Table 10-9, R331. -/
def RING_MEMBERS_LO : Nat := 0x1100064
/-- RING_MEMBERS_HI: Table 10-9, R331. -/
def RING_MEMBERS_HI : Nat := 0x1100068
/-- RING_LAG_LO: Table 10-9, R331. -/
def RING_LAG_LO : Nat := 0x110006c
/-- RING_LAG_HI: Table 10-9, R331. -/
def RING_LAG_HI : Nat := 0x1100070
/-- RING_INT_EN: Table 10-9, R331. -/
def RING_INT_EN : Nat := 0x1100074
/-- RING_CMD: Table 10-9, R331. -/
def RING_CMD : Nat := 0x1100078
/-- RING_LINK: Table 10-9, R331. -/
def RING_LINK : Nat := 0x110007c
/-- RING_TX_EQ: Table 10-9, R331. -/
def RING_TX_EQ : Nat := 0x11000f0
/-- RING_MBX_TX: Table 10-9, R331. -/
def RING_MBX_TX (i : Nat) : Nat := 0x1100080 + i * 0x4
/-- RING_MBX_TX_CTRL: Table 10-9, R331. -/
def RING_MBX_TX_CTRL : Nat := 0x11000a0
/-- RING_MBX_RX: Table 10-9, R331. -/
def RING_MBX_RX (i : Nat) : Nat := 0x11000c0 + i * 0x4
/-- RING_MBX_RX_INFO: Table 10-9, R331. -/
def RING_MBX_RX_INFO : Nat := 0x11000e0
/-- RING_MBX_RX_TS_LO: Table 10-9, R331. -/
def RING_MBX_RX_TS_LO : Nat := 0x11000e4
/-- RING_MBX_RX_TS_HI: Table 10-9, R331. -/
def RING_MBX_RX_TS_HI : Nat := 0x11000e8
/-- AUD_CTRL: Table 11-11, R365. -/
def AUD_CTRL : Nat := 0x1200000
/-- AUD_STAT: Table 11-11, R365. -/
def AUD_STAT : Nat := 0x1200004
/-- AUD_CFG: Table 11-11, R365. -/
def AUD_CFG : Nat := 0x1200008
/-- AUD_SIL_CFG: Table 11-11, R365. -/
def AUD_SIL_CFG : Nat := 0x120000c
/-- AUD_SIL_HOLD: Table 11-11, R365. -/
def AUD_SIL_HOLD : Nat := 0x1200010
/-- AUD_BUDGET: Table 11-11, R365. -/
def AUD_BUDGET : Nat := 0x1200014
/-- AUD_RUN_LAST: Table 11-11, R365. -/
def AUD_RUN_LAST : Nat := 0x1200018
/-- AUD_RUN_MAX: Table 11-11, R365. -/
def AUD_RUN_MAX : Nat := 0x120001c
/-- AUD_OVR_CNT: Table 11-11, R365. -/
def AUD_OVR_CNT : Nat := 0x1200020
/-- AUD_FETCH_LATE_CNT: Table 11-11, R365. -/
def AUD_FETCH_LATE_CNT : Nat := 0x1200024
/-- AUD_CMD_LATE_CNT: Table 11-11, R365. -/
def AUD_CMD_LATE_CNT : Nat := 0x1200028
/-- AUD_CMD_ERR_CNT: Table 11-11, R365. -/
def AUD_CMD_ERR_CNT : Nat := 0x120002c
/-- AUD_SAFE_CTRL: Table 11-11, R365. -/
def AUD_SAFE_CTRL : Nat := 0x1200030
/-- AUD_INT_EN: Table 11-11, R365. -/
def AUD_INT_EN : Nat := 0x1200034
/-- AUD_ZONE_STAT: Table 11-11, R365. -/
def AUD_ZONE_STAT : Nat := 0x1200038
/-- AUD_ZONE_FORCE: Table 11-11, R365. -/
def AUD_ZONE_FORCE : Nat := 0x120003c
/-- AUD_ZONE_POL: Table 11-11, R365. -/
def AUD_ZONE_POL : Nat := 0x1200040
/-- AUD_VEND: Table 11-11, R365. -/
def AUD_VEND (i : Nat) : Nat := 0x1200100 + i * 0x4
/-- AUD_TO_CFG: Table 11-12, R366. -/
def AUD_TO_CFG (n : Nat) : Nat := 0x1201000 + n * 0x10
/-- AUD_TI_CFG: Table 11-12, R366. -/
def AUD_TI_CFG (n : Nat) : Nat := 0x1201200 + n * 0x10
/-- AUD_TO_SIL: Table 11-12, R366. -/
def AUD_TO_SIL (n : Nat) : Nat := 0x1201004 + n * 0x10
/-- AUD_LL_MAP: Table 11-13, R367. -/
def AUD_LL_MAP (r : Nat) : Nat := 0x1201300 + r * 0x8
/-- AUD_LL_GAIN: Table 11-13, R367. -/
def AUD_LL_GAIN (r : Nat) : Nat := 0x1201304 + r * 0x8
/-- AUD_SINK: Table 11-13, R367. -/
def AUD_SINK (i : Nat) : Nat := 0x1202000 + i * 0x4
/-- AUD_SAFE_IDX: Table 11-14, R368. -/
def AUD_SAFE_IDX (e : Nat) : Nat := 0x1203000 + e * 0x8
/-- AUD_SAFE_VAL: Table 11-14, R368. -/
def AUD_SAFE_VAL (e : Nat) : Nat := 0x1203004 + e * 0x8
/-- AUD_V_ADDR: Table 11-15, R369. -/
def AUD_V_ADDR (v : Nat) : Nat := 0x1208000 + v * 0x20
/-- AUD_V_LEN: Table 11-15, R369. -/
def AUD_V_LEN (v : Nat) : Nat := 0x1208004 + v * 0x20
/-- AUD_V_LOOP: Table 11-15, R369. -/
def AUD_V_LOOP (v : Nat) : Nat := 0x1208008 + v * 0x20
/-- AUD_V_PITCH: Table 11-15, R369. -/
def AUD_V_PITCH (v : Nat) : Nat := 0x120800c + v * 0x20
/-- AUD_V_GAIN: Table 11-15, R369. -/
def AUD_V_GAIN (v : Nat) : Nat := 0x1208010 + v * 0x20
/-- AUD_V_ROUTE: Table 11-15, R369. -/
def AUD_V_ROUTE (v : Nat) : Nat := 0x1208014 + v * 0x20
/-- AUD_V_CTRL: Table 11-15, R369. -/
def AUD_V_CTRL (v : Nat) : Nat := 0x1208018 + v * 0x20
/-- AUD_V_POS: Table 11-15, R369. -/
def AUD_V_POS (v : Nat) : Nat := 0x120801c + v * 0x20
/-- AUD_G_W0: Table 11-16, R370. -/
def AUD_G_W0 (j : Nat) : Nat := 0x1220000 + j * 0x8
/-- AUD_G_W1: Table 11-16, R370. -/
def AUD_G_W1 (j : Nat) : Nat := 0x1220004 + j * 0x8
/-- KC_CTRL: Table 12-13, R394. -/
def KC_CTRL (c : Nat) : Nat := 0x1300000 + c * 0x1000
/-- KC_STAT: Table 12-13, R394. -/
def KC_STAT (c : Nat) : Nat := 0x1300004 + c * 0x1000
/-- KC_RESTART: Table 12-13, R394. -/
def KC_RESTART (c : Nat) : Nat := 0x1300008 + c * 0x1000
/-- KC_IMG_A: Table 12-13, R394. -/
def KC_IMG_A (c : Nat) : Nat := 0x130000c + c * 0x1000
/-- KC_IMG_B: Table 12-13, R394. -/
def KC_IMG_B (c : Nat) : Nat := 0x1300010 + c * 0x1000
/-- KC_IMG_LEN: Table 12-13, R394. -/
def KC_IMG_LEN (c : Nat) : Nat := 0x1300014 + c * 0x1000
/-- KC_WDT_CFG: Table 12-13, R394. -/
def KC_WDT_CFG (c : Nat) : Nat := 0x1300018 + c * 0x1000
/-- KC_WDT_KICK: Table 12-13, R394. -/
def KC_WDT_KICK (c : Nat) : Nat := 0x130001c + c * 0x1000
/-- KC_RESTART_CNT: Table 12-13, R394. -/
def KC_RESTART_CNT (c : Nat) : Nat := 0x1300020 + c * 0x1000
/-- KC_WDT_CNT: Table 12-13, R394. -/
def KC_WDT_CNT (c : Nat) : Nat := 0x1300024 + c * 0x1000
/-- KC_LAST_FAULT: Table 12-13, R394. -/
def KC_LAST_FAULT (c : Nat) : Nat := 0x1300028 + c * 0x1000
/-- KC_PC: Table 12-13, R394. -/
def KC_PC (c : Nat) : Nat := 0x130002c + c * 0x1000
/-- KC_LPWIN: Table 12-13, R394. -/
def KC_LPWIN (c : Nat) : Nat := 0x1300030 + c * 0x1000
/-- INTC_CTRL: Table 13-5, R422. -/
def INTC_CTRL (c : Nat) : Nat := 0x1300800 + c * 0x1000
/-- INTC_STAT: Table 13-5, R422. -/
def INTC_STAT (c : Nat) : Nat := 0x1300804 + c * 0x1000
/-- INTC_CLAIM: Table 13-5, R422. -/
def INTC_CLAIM (c : Nat) : Nat := 0x1300808 + c * 0x1000
/-- INTC_COMPLETE: Table 13-5, R422. -/
def INTC_COMPLETE (c : Nat) : Nat := 0x130080c + c * 0x1000
/-- INTC_ACTIVE: Table 13-5, R422. -/
def INTC_ACTIVE (c : Nat) : Nat := 0x1300810 + c * 0x1000
/-- INTC_LAST_OVF: Table 13-5, R422. -/
def INTC_LAST_OVF (c : Nat) : Nat := 0x1300814 + c * 0x1000
/-- INTC_OVF_CNT: Table 13-5, R422. -/
def INTC_OVF_CNT (c : Nat) : Nat := 0x1300818 + c * 0x1000
/-- INTC_EN: Table 13-5, R422. -/
def INTC_EN (c : Nat) (i : Nat) : Nat := 0x1300840 + c * 0x1000 + i * 0x4
/-- INTC_PEND: Table 13-5, R422. -/
def INTC_PEND (c : Nat) (i : Nat) : Nat := 0x1300880 + c * 0x1000 + i * 0x4
/-- INTC_MOD: Table 13-5, R422. -/
def INTC_MOD (c : Nat) (i : Nat) : Nat := 0x1300900 + c * 0x1000 + i * 0x4
/-- INT_ROUTE: Table 13-6, R423. -/
def INT_ROUTE (s : Nat) : Nat := 0x1308000 + s * 0x4
/-- INT_GSTAT: Table 13-6, R423. -/
def INT_GSTAT : Nat := 0x1309000
/-- INT_SW_RAISE: Table 13-6, R423. -/
def INT_SW_RAISE : Nat := 0x1309004
/-- INT_HOST_PEND: Table 13-6, R423. -/
def INT_HOST_PEND (i : Nat) : Nat := 0x1309040 + i * 0x4
/-- TMR_CTRL: Table 13-7, R424. -/
def TMR_CTRL : Nat := 0x1400000
/-- TMR_STAT: Table 13-7, R424. -/
def TMR_STAT : Nat := 0x1400004
/-- TMR_CFG: Table 13-7, R424. -/
def TMR_CFG : Nat := 0x1400008
/-- TMR_TB_LO: Table 13-7, R424. -/
def TMR_TB_LO : Nat := 0x1400010
/-- TMR_TB_HI: Table 13-7, R424. -/
def TMR_TB_HI : Nat := 0x1400014
/-- TMR_CH_CTRL: Table 13-7, R424. -/
def TMR_CH_CTRL (c : Nat) : Nat := 0x1400100 + c * 0x40
/-- TMR_CH_STAT: Table 13-7, R424. -/
def TMR_CH_STAT (c : Nat) : Nat := 0x1400104 + c * 0x40
/-- TMR_CMP_LO: Table 13-7, R424. -/
def TMR_CMP_LO (c : Nat) : Nat := 0x1400108 + c * 0x40
/-- TMR_CMP_HI: Table 13-7, R424. -/
def TMR_CMP_HI (c : Nat) : Nat := 0x140010c + c * 0x40
/-- TMR_PERIOD: Table 13-7, R424. -/
def TMR_PERIOD (c : Nat) : Nat := 0x1400110 + c * 0x40
/-- TMR_SKIP_CNT: Table 13-7, R424. -/
def TMR_SKIP_CNT (c : Nat) : Nat := 0x1400114 + c * 0x40
/-- TMR_CAP_LO: Table 13-7, R424. -/
def TMR_CAP_LO (c : Nat) : Nat := 0x1400118 + c * 0x40
/-- TMR_CAP_HI: Table 13-7, R424. -/
def TMR_CAP_HI (c : Nat) : Nat := 0x140011c + c * 0x40
/-- TMR_FIRE_CNT: Table 13-7, R424. -/
def TMR_FIRE_CNT (c : Nat) : Nat := 0x1400120 + c * 0x40
/-- DMA_CTRL: Table 13-8, R425. -/
def DMA_CTRL : Nat := 0x1410000
/-- DMA_STAT: Table 13-8, R425. -/
def DMA_STAT : Nat := 0x1410004
/-- DMA_CFG: Table 13-8, R425. -/
def DMA_CFG : Nat := 0x1410008
/-- DMA_BUSY: Table 13-8, R425. -/
def DMA_BUSY : Nat := 0x141000c
/-- DMA_DONE: Table 13-8, R425. -/
def DMA_DONE : Nat := 0x1410010
/-- DMA_SRC_LO: Table 13-8, R425. -/
def DMA_SRC_LO (ch : Nat) : Nat := 0x1410100 + ch * 0x40
/-- DMA_SRC_HI: Table 13-8, R425. -/
def DMA_SRC_HI (ch : Nat) : Nat := 0x1410104 + ch * 0x40
/-- DMA_DST_LO: Table 13-8, R425. -/
def DMA_DST_LO (ch : Nat) : Nat := 0x1410108 + ch * 0x40
/-- DMA_DST_HI: Table 13-8, R425. -/
def DMA_DST_HI (ch : Nat) : Nat := 0x141010c + ch * 0x40
/-- DMA_COUNT: Table 13-8, R425. -/
def DMA_COUNT (ch : Nat) : Nat := 0x1410110 + ch * 0x40
/-- DMA_CH_CFG: Table 13-8, R425. -/
def DMA_CH_CFG (ch : Nat) : Nat := 0x1410114 + ch * 0x40
/-- DMA_CH_CMD: Table 13-8, R425. -/
def DMA_CH_CMD (ch : Nat) : Nat := 0x1410118 + ch * 0x40
/-- DMA_CH_STAT: Table 13-8, R425. -/
def DMA_CH_STAT (ch : Nat) : Nat := 0x141011c + ch * 0x40
/-- DMA_REMAIN: Table 13-8, R425. -/
def DMA_REMAIN (ch : Nat) : Nat := 0x1410120 + ch * 0x40
/-- BLT_CTRL: Table 14-4, R441. -/
def BLT_CTRL : Nat := 0x1420000
/-- BLT_STAT: Table 14-4, R441. -/
def BLT_STAT : Nat := 0x1420004
/-- BLT_CFG: Table 14-4, R441. -/
def BLT_CFG : Nat := 0x1420008
/-- BLT_BUSY: Table 14-4, R441. -/
def BLT_BUSY : Nat := 0x142000c
/-- BLT_OP: Table 14-4, R441. -/
def BLT_OP (e : Nat) : Nat := 0x1420100 + e * 0x80
/-- BLT_SRC_BASE: Table 14-4, R441. -/
def BLT_SRC_BASE (e : Nat) : Nat := 0x1420104 + e * 0x80
/-- BLT_SRC_CFG: Table 14-4, R441. -/
def BLT_SRC_CFG (e : Nat) : Nat := 0x1420108 + e * 0x80
/-- BLT_DST_BASE: Table 14-4, R441. -/
def BLT_DST_BASE (e : Nat) : Nat := 0x142010c + e * 0x80
/-- BLT_DST_CFG: Table 14-4, R441. -/
def BLT_DST_CFG (e : Nat) : Nat := 0x1420110 + e * 0x80
/-- BLT_SIZE: Table 14-4, R441. -/
def BLT_SIZE (e : Nat) : Nat := 0x1420114 + e * 0x80
/-- BLT_COLOR: Table 14-4, R441. -/
def BLT_COLOR (e : Nat) : Nat := 0x1420118 + e * 0x80
/-- BLT_BGCOLOR: Table 14-4, R441. -/
def BLT_BGCOLOR (e : Nat) : Nat := 0x142011c + e * 0x80
/-- BLT_PAT_LO: Table 14-4, R441. -/
def BLT_PAT_LO (e : Nat) : Nat := 0x1420120 + e * 0x80
/-- BLT_PAT_HI: Table 14-4, R441. -/
def BLT_PAT_HI (e : Nat) : Nat := 0x1420124 + e * 0x80
/-- BLT_PAT_ORG: Table 14-4, R441. -/
def BLT_PAT_ORG (e : Nat) : Nat := 0x1420128 + e * 0x80
/-- BLT_WM: Table 14-4, R441. -/
def BLT_WM (e : Nat) : Nat := 0x142012c + e * 0x80
/-- BLT_TRK: Table 14-4, R441. -/
def BLT_TRK (e : Nat) : Nat := 0x1420130 + e * 0x80
/-- BLT_CMD: Table 14-4, R441. -/
def BLT_CMD (e : Nat) : Nat := 0x1420134 + e * 0x80
/-- BLT_ESTAT: Table 14-4, R441. -/
def BLT_ESTAT (e : Nat) : Nat := 0x1420138 + e * 0x80
/-- BLT_ROWS: Table 14-4, R441. -/
def BLT_ROWS (e : Nat) : Nat := 0x142013c + e * 0x80
/-- BLT_WM_TS_LO: Table 14-4, R441. -/
def BLT_WM_TS_LO (e : Nat) : Nat := 0x1420140 + e * 0x80
/-- BLT_WM_TS_HI: Table 14-4, R441. -/
def BLT_WM_TS_HI (e : Nat) : Nat := 0x1420144 + e * 0x80
/-- GP_CTRL: Table 15-5, R463. -/
def GP_CTRL : Nat := 0x1500000
/-- GP_STAT: Table 15-5, R463. -/
def GP_STAT : Nat := 0x1500004
/-- GP_FILT: Table 15-5, R463. -/
def GP_FILT : Nat := 0x1500008
/-- GP_IN: Table 15-5, R463. -/
def GP_IN (i : Nat) : Nat := 0x1500010 + i * 0x4
/-- GP_FILT_IN: Table 15-5, R463. -/
def GP_FILT_IN (i : Nat) : Nat := 0x1500020 + i * 0x4
/-- GP_OUT: Table 15-5, R463. -/
def GP_OUT (i : Nat) : Nat := 0x1500030 + i * 0x4
/-- GP_OUT_SET: Table 15-5, R463. -/
def GP_OUT_SET (i : Nat) : Nat := 0x1500040 + i * 0x4
/-- GP_OUT_CLR: Table 15-5, R463. -/
def GP_OUT_CLR (i : Nat) : Nat := 0x1500050 + i * 0x4
/-- GP_PIN_CFG: Table 15-5, R463. -/
def GP_PIN_CFG (p : Nat) : Nat := 0x1500400 + p * 0x8
/-- GP_PIN_OWN: Table 15-5, R463. -/
def GP_PIN_OWN (p : Nat) : Nat := 0x1500404 + p * 0x8
/-- GP_GRP_CFG: Table 15-5, R463. -/
def GP_GRP_CFG (g : Nat) : Nat := 0x1500800 + g * 0x10
/-- GP_GRP_MATCH: Table 15-5, R463. -/
def GP_GRP_MATCH (g : Nat) : Nat := 0x1500804 + g * 0x10
/-- GP_GRP_STAT: Table 15-5, R463. -/
def GP_GRP_STAT (g : Nat) : Nat := 0x1500808 + g * 0x10
/-- GP_GRP_EV_CNT: Table 15-5, R463. -/
def GP_GRP_EV_CNT (g : Nat) : Nat := 0x150080c + g * 0x10
/-- PIO_CTRL: Table 15-6, R464. -/
def PIO_CTRL : Nat := 0x1510000
/-- PIO_STAT: Table 15-6, R464. -/
def PIO_STAT : Nat := 0x1510004
/-- PIO_GCFG: Table 15-6, R464. -/
def PIO_GCFG : Nat := 0x1510008
/-- PIO_SYNC: Table 15-6, R464. -/
def PIO_SYNC : Nat := 0x151000c
/-- PIO_E_CFG: Table 15-6, R464. -/
def PIO_E_CFG (e : Nat) : Nat := 0x1510100 + e * 0x40
/-- PIO_E_DIV: Table 15-6, R464. -/
def PIO_E_DIV (e : Nat) : Nat := 0x1510104 + e * 0x40
/-- PIO_E_CTXEN: Table 15-6, R464. -/
def PIO_E_CTXEN (e : Nat) : Nat := 0x1510108 + e * 0x40
/-- PIO_E_FAULT: Table 15-6, R464. -/
def PIO_E_FAULT (e : Nat) : Nat := 0x151010c + e * 0x40
/-- PIO_E_LAST_FAULT: Table 15-6, R464. -/
def PIO_E_LAST_FAULT (e : Nat) : Nat := 0x1510110 + e * 0x40
/-- PIO_E_FLAGS: Table 15-6, R464. -/
def PIO_E_FLAGS (e : Nat) : Nat := 0x1510114 + e * 0x40
/-- PIO_E_FLAGS_SET: Table 15-6, R464. -/
def PIO_E_FLAGS_SET (e : Nat) : Nat := 0x1510118 + e * 0x40
/-- PIO_E_FLAGS_CLR: Table 15-6, R464. -/
def PIO_E_FLAGS_CLR (e : Nat) : Nat := 0x151011c + e * 0x40
/-- PIO_E_EV_SEL: Table 15-6, R464. -/
def PIO_E_EV_SEL (e : Nat) (i : Nat) : Nat := 0x1510120 + e * 0x40 + i * 0x4
/-- PIO_E_EV_CNT: Table 15-6, R464. -/
def PIO_E_EV_CNT (e : Nat) : Nat := 0x1510130 + e * 0x40
/-- PIO_E_INT_EN: Table 15-6, R464. -/
def PIO_E_INT_EN (e : Nat) : Nat := 0x1510134 + e * 0x40
/-- PIO_C_ENTRY: Table 15-6, R464. -/
def PIO_C_ENTRY (e : Nat) (c : Nat) : Nat := 0x1511000 + e * 0x400 + c * 0x40
/-- PIO_C_PINS0: Table 15-6, R464. -/
def PIO_C_PINS0 (e : Nat) (c : Nat) : Nat := 0x1511004 + e * 0x400 + c * 0x40
/-- PIO_C_PINS1: Table 15-6, R464. -/
def PIO_C_PINS1 (e : Nat) (c : Nat) : Nat := 0x1511008 + e * 0x400 + c * 0x40
/-- PIO_C_TXF: Table 15-6, R464. -/
def PIO_C_TXF (e : Nat) (c : Nat) : Nat := 0x151100c + e * 0x400 + c * 0x40
/-- PIO_C_RXF: Table 15-6, R464. -/
def PIO_C_RXF (e : Nat) (c : Nat) : Nat := 0x1511010 + e * 0x400 + c * 0x40
/-- PIO_C_FSTAT: Table 15-6, R464. -/
def PIO_C_FSTAT (e : Nat) (c : Nat) : Nat := 0x1511014 + e * 0x400 + c * 0x40
/-- PIO_C_STATE: Table 15-6, R464. -/
def PIO_C_STATE (e : Nat) (c : Nat) : Nat := 0x1511018 + e * 0x400 + c * 0x40
/-- MEM_CTRL: Table 16-10, R490. -/
def MEM_CTRL : Nat := 0x1600000
/-- MEM_STAT: Table 16-10, R490. -/
def MEM_STAT : Nat := 0x1600004
/-- MEM_ARB_CFG: Table 16-10, R490. -/
def MEM_ARB_CFG : Nat := 0x1600008
/-- MEM_WIN_PAGE: Table 16-10, R490. -/
def MEM_WIN_PAGE : Nat := 0x160000c
/-- MEM_LP_CFG: Table 16-10, R490. -/
def MEM_LP_CFG : Nat := 0x1600010
/-- MEM_LP_SIZE: Table 16-10, R490. -/
def MEM_LP_SIZE : Nat := 0x1600014
/-- MEM_BAR2_BASE: Table 16-10, R490. -/
def MEM_BAR2_BASE : Nat := 0x1600018
/-- MEM_LP_CE_CNT: Table 16-10, R490. -/
def MEM_LP_CE_CNT : Nat := 0x160001c
/-- MEM_LP_UE_CNT: Table 16-10, R490. -/
def MEM_LP_UE_CNT : Nat := 0x1600020
/-- MEM_LP_LINK_CNT: Table 16-10, R490. -/
def MEM_LP_LINK_CNT : Nat := 0x1600024
/-- MEM_LP_ERR_ADDR_LO: Table 16-10, R490. -/
def MEM_LP_ERR_ADDR_LO : Nat := 0x1600028
/-- MEM_LP_ERR_ADDR_HI: Table 16-10, R490. -/
def MEM_LP_ERR_ADDR_HI : Nat := 0x160002c
/-- MEM_URG_CNT: Table 16-10, R490. -/
def MEM_URG_CNT : Nat := 0x1600030
/-- MEM_WAKE_CNT: Table 16-10, R490. -/
def MEM_WAKE_CNT : Nat := 0x1600034
/-- MEM_INT_EN: Table 16-10, R490. -/
def MEM_INT_EN : Nat := 0x1600038
/-- MEM_BAR2_FLUSH: Table 16-10, R490. -/
def MEM_BAR2_FLUSH : Nat := 0x160003c
/-- MEM_ECC_REG: Table 16-10, R490. -/
def MEM_ECC_REG (r : Nat) : Nat := 0x1600040 + r * 0x8
/-- MEM_BANK_CTRL: Table 16-10, R490. -/
def MEM_BANK_CTRL (b : Nat) : Nat := 0x1600100 + b * 0x4
/-- MEM_CH_STAT: Table 16-10, R490. -/
def MEM_CH_STAT (ch : Nat) : Nat := 0x1600400 + ch * 0x10
/-- MEM_PCIE_STAT: Table 16-10, R490. -/
def MEM_PCIE_STAT : Nat := 0x1601000
/-- MEM_PCIE_ERR: Table 16-10, R490. -/
def MEM_PCIE_ERR : Nat := 0x1601004
/-- MEM_PCIE_FAIL_CNT: Table 16-10, R490. -/
def MEM_PCIE_FAIL_CNT : Nat := 0x1601008
/-- MEM_PCIE_DROP_CNT: Table 16-10, R490. -/
def MEM_PCIE_DROP_CNT : Nat := 0x160100c
/-- SYS_ID: Table 17-10, R516. -/
def SYS_ID : Nat := 0x0
/-- SYS_CTRL: Table 17-10, R516. -/
def SYS_CTRL : Nat := 0x4
/-- SYS_STAT: Table 17-10, R516. -/
def SYS_STAT : Nat := 0x8
/-- SYS_RST_CAUSE: Table 17-10, R516. -/
def SYS_RST_CAUSE : Nat := 0xc
/-- SYS_RST_CMD: Table 17-10, R516. -/
def SYS_RST_CMD : Nat := 0x10
/-- SYS_CLK_CTRL: Table 17-10, R516. -/
def SYS_CLK_CTRL : Nat := 0x14
/-- SYS_CLK_STAT: Table 17-10, R516. -/
def SYS_CLK_STAT : Nat := 0x18
/-- SYS_CORE_START: Table 17-10, R516. -/
def SYS_CORE_START : Nat := 0x1c
/-- SYS_BOOT_STAT: Table 17-10, R516. -/
def SYS_BOOT_STAT : Nat := 0x20
/-- SYS_BOOT_CMD: Table 17-10, R516. -/
def SYS_BOOT_CMD : Nat := 0x24
/-- SYS_BOOT_ADDR: Table 17-10, R516. -/
def SYS_BOOT_ADDR : Nat := 0x28
/-- SYS_STR_ID_LO: Table 17-10, R516. -/
def SYS_STR_ID_LO : Nat := 0x30
/-- SYS_STR_ID_HI: Table 17-10, R516. -/
def SYS_STR_ID_HI : Nat := 0x34
/-- SYS_STR_INFO: Table 17-10, R516. -/
def SYS_STR_INFO : Nat := 0x38
/-- SYS_STR_TICK: Table 17-10, R516. -/
def SYS_STR_TICK : Nat := 0x3c
/-- SYS_STR_LAST: Table 17-10, R516. -/
def SYS_STR_LAST : Nat := 0x40
/-- SYS_LOP_CMD: Table 17-10, R516. -/
def SYS_LOP_CMD : Nat := 0x48
/-- SYS_LOP_CFG: Table 17-10, R516. -/
def SYS_LOP_CFG : Nat := 0x4c
/-- SYS_LOP_BUSY_LO: Table 17-10, R516. -/
def SYS_LOP_BUSY_LO : Nat := 0x50
/-- SYS_LOP_BUSY_HI: Table 17-10, R516. -/
def SYS_LOP_BUSY_HI : Nat := 0x54
/-- SYS_LOP_DONE_LO: Table 17-10, R516. -/
def SYS_LOP_DONE_LO : Nat := 0x58
/-- SYS_LOP_DONE_HI: Table 17-10, R516. -/
def SYS_LOP_DONE_HI : Nat := 0x5c
/-- SYS_MBX_TC: Table 17-10, R516. -/
def SYS_MBX_TC (c : Nat) (i : Nat) : Nat := 0x100 + c * 0x40 + i * 0x4
/-- SYS_MBX_TH: Table 17-10, R516. -/
def SYS_MBX_TH (c : Nat) (i : Nat) : Nat := 0x110 + c * 0x40 + i * 0x4
/-- SYS_MBX_STAT: Table 17-10, R516. -/
def SYS_MBX_STAT (c : Nat) : Nat := 0x120 + c * 0x40
/-- SYS_LOP_STAT: Table 17-10, R516. -/
def SYS_LOP_STAT (s : Nat) : Nat := 0x1000 + s * 0x20
/-- SYS_LOP_PROG: Table 17-10, R516. -/
def SYS_LOP_PROG (s : Nat) : Nat := 0x1004 + s * 0x20
/-- SYS_LOP_P: Table 17-10, R516. -/
def SYS_LOP_P (s : Nat) (i : Nat) : Nat := 0x1008 + s * 0x20 + i * 0x4
/-- SYS_LOP_SNAP_STAT: Table 17-10, R516. -/
def SYS_LOP_SNAP_STAT (s : Nat) : Nat := 0x1018 + s * 0x20
/-- SYS_LOP_SNAP_PROG: Table 17-10, R516. -/
def SYS_LOP_SNAP_PROG (s : Nat) : Nat := 0x101c + s * 0x20
/-- UPD_CTRL: Table 18-13, R546. -/
def UPD_CTRL : Nat := 0x1700000
/-- UPD_STAT: Table 18-13, R546. -/
def UPD_STAT : Nat := 0x1700004
/-- UPD_CFG: Table 18-13, R546. -/
def UPD_CFG : Nat := 0x1700008
/-- UPD_STATE: Table 18-13, R546. -/
def UPD_STATE : Nat := 0x170000c
/-- UPD_CMD: Table 18-13, R546. -/
def UPD_CMD : Nat := 0x1700010
/-- UPD_VSET: Table 18-13, R546. -/
def UPD_VSET : Nat := 0x1700014
/-- UPD_ACT_TICK: Table 18-13, R546. -/
def UPD_ACT_TICK : Nat := 0x1700018
/-- UPD_TRIAL_LEFT: Table 18-13, R546. -/
def UPD_TRIAL_LEFT : Nat := 0x170001c
/-- UPD_CONFIRM_LO: Table 18-13, R546. -/
def UPD_CONFIRM_LO : Nat := 0x1700020
/-- UPD_CONFIRM_HI: Table 18-13, R546. -/
def UPD_CONFIRM_HI : Nat := 0x1700024
/-- UPD_VER_RES: Table 18-13, R546. -/
def UPD_VER_RES : Nat := 0x1700028
/-- UPD_STAGE_BASE: Table 18-13, R546. -/
def UPD_STAGE_BASE : Nat := 0x170002c
/-- UPD_STAGE_SIZE: Table 18-13, R546. -/
def UPD_STAGE_SIZE : Nat := 0x1700030
/-- UPD_VER_ID_LO: Table 18-13, R546. -/
def UPD_VER_ID_LO : Nat := 0x1700034
/-- UPD_VER_ID_HI: Table 18-13, R546. -/
def UPD_VER_ID_HI : Nat := 0x1700038
/-- UPD_RUN_ID_LO: Table 18-13, R546. -/
def UPD_RUN_ID_LO : Nat := 0x170003c
/-- UPD_RUN_ID_HI: Table 18-13, R546. -/
def UPD_RUN_ID_HI : Nat := 0x1700040
/-- UPD_INFO: Table 18-13, R546. -/
def UPD_INFO : Nat := 0x1700044
/-- SEC_CTRL: Table 18-14, R547. -/
def SEC_CTRL : Nat := 0x1701000
/-- SEC_STAT: Table 18-14, R547. -/
def SEC_STAT : Nat := 0x1701004
/-- SEC_LC_STATE: Table 18-14, R547. -/
def SEC_LC_STATE : Nat := 0x1701008
/-- SEC_LC_CMD: Table 18-14, R547. -/
def SEC_LC_CMD : Nat := 0x170100c
/-- SEC_WIPE_CMD: Table 18-14, R547. -/
def SEC_WIPE_CMD : Nat := 0x1701010
/-- SEC_WIPE_CNT: Table 18-14, R547. -/
def SEC_WIPE_CNT : Nat := 0x1701014
/-- SEC_KEY_CMD: Table 18-14, R547. -/
def SEC_KEY_CMD : Nat := 0x1701018
/-- SEC_KEY_ADDR: Table 18-14, R547. -/
def SEC_KEY_ADDR : Nat := 0x170101c
/-- SEC_KEY_STAT: Table 18-14, R547. -/
def SEC_KEY_STAT : Nat := 0x1701020
/-- SEC_IKEY_CMD: Table 18-14, R547. -/
def SEC_IKEY_CMD : Nat := 0x1701024
/-- SEC_TAMPER_CFG: Table 18-14, R547. -/
def SEC_TAMPER_CFG : Nat := 0x1701028
/-- SEC_TAMPER_STAT: Table 18-14, R547. -/
def SEC_TAMPER_STAT : Nat := 0x170102c
/-- SEC_TAMPER_CNT: Table 18-14, R547. -/
def SEC_TAMPER_CNT : Nat := 0x1701030
/-- SEC_VFY_KEY: Table 18-14, R547. -/
def SEC_VFY_KEY : Nat := 0x1701040
/-- SEC_VFY_HASH: Table 18-14, R547. -/
def SEC_VFY_HASH : Nat := 0x1701044
/-- SEC_VFY_SIG: Table 18-14, R547. -/
def SEC_VFY_SIG : Nat := 0x1701048
/-- SEC_VFY_CMD: Table 18-14, R547. -/
def SEC_VFY_CMD : Nat := 0x170104c
/-- SEC_VFY_RES: Table 18-14, R547. -/
def SEC_VFY_RES : Nat := 0x1701050
/-- SEC_RNG_CFG: Table 18-14, R547. -/
def SEC_RNG_CFG : Nat := 0x1701060
/-- SEC_RNG_REQ: Table 18-14, R547. -/
def SEC_RNG_REQ : Nat := 0x1701064
/-- SEC_RNG_RES: Table 18-14, R547. -/
def SEC_RNG_RES : Nat := 0x1701068
/-- SEC_RNG_STAT: Table 18-14, R547. -/
def SEC_RNG_STAT : Nat := 0x170106c
/-- SEC_RNG_CMD: Table 18-14, R547. -/
def SEC_RNG_CMD : Nat := 0x1701070
/-- SEC_RNG_FAIL_CNT: Table 18-14, R547. -/
def SEC_RNG_FAIL_CNT : Nat := 0x1701074
/-- AV_CTRL: Table 19-8, R573. -/
def AV_CTRL : Nat := 0x1800000
/-- AV_STAT: Table 19-8, R573. -/
def AV_STAT : Nat := 0x1800004
/-- AV_CFG: Table 19-8, R573. -/
def AV_CFG : Nat := 0x1800008
/-- AV_FENCE_CFG: Table 19-8, R573. -/
def AV_FENCE_CFG : Nat := 0x180000c
/-- AV_FT_STAT: Table 19-8, R573. -/
def AV_FT_STAT : Nat := 0x1800010
/-- AV_FT_CMD: Table 19-8, R573. -/
def AV_FT_CMD : Nat := 0x1800014
/-- AV_FT_MISMATCH_CNT: Table 19-8, R573. -/
def AV_FT_MISMATCH_CNT : Nat := 0x1800018
/-- AV_FT_TRANSIENT_CNT: Table 19-8, R573. -/
def AV_FT_TRANSIENT_CNT : Nat := 0x180001c
/-- AV_FT_REMAP_CNT: Table 19-8, R573. -/
def AV_FT_REMAP_CNT : Nat := 0x1800020
/-- AV_FT_SKIP_CNT: Table 19-8, R573. -/
def AV_FT_SKIP_CNT : Nat := 0x1800024
/-- AV_FT_LINES_CNT: Table 19-8, R573. -/
def AV_FT_LINES_CNT : Nat := 0x1800028
/-- AV_FT_INCOMP_CNT: Table 19-8, R573. -/
def AV_FT_INCOMP_CNT : Nat := 0x180002c
/-- AV_SCRUB_STAT: Table 19-8, R573. -/
def AV_SCRUB_STAT : Nat := 0x1800030
/-- AV_SCRUB_PASS_CNT: Table 19-8, R573. -/
def AV_SCRUB_PASS_CNT : Nat := 0x1800034
/-- AV_SRAM_CE_CNT: Table 19-8, R573. -/
def AV_SRAM_CE_CNT : Nat := 0x1800038
/-- AV_SRAM_UE_CNT: Table 19-8, R573. -/
def AV_SRAM_UE_CNT : Nat := 0x180003c
/-- AV_REP_CNT: Table 19-8, R573. -/
def AV_REP_CNT : Nat := 0x1800040
/-- AV_REP_CMD: Table 19-8, R573. -/
def AV_REP_CMD : Nat := 0x1800044
/-- AV_INT_EN: Table 19-8, R573. -/
def AV_INT_EN : Nat := 0x1800048
/-- AV_FENCE_CMD: Table 19-8, R573. -/
def AV_FENCE_CMD : Nat := 0x180004c
/-- AV_LOG_STAT: Table 19-8, R573. -/
def AV_LOG_STAT : Nat := 0x1800050
/-- AV_LOG_CMD: Table 19-8, R573. -/
def AV_LOG_CMD : Nat := 0x1800054
/-- AV_LOG_W: Table 19-8, R573. -/
def AV_LOG_W (i : Nat) : Nat := 0x1800060 + i * 0x4
/-- AV_SLICE: Table 19-8, R573. -/
def AV_SLICE (s : Nat) : Nat := 0x1800100 + s * 0x4
/-- AV_BANK: Table 19-8, R573. -/
def AV_BANK (b : Nat) : Nat := 0x1800200 + b * 0x4
/-- AV_OUT_CFG: Table 19-8, R573. -/
def AV_OUT_CFG (n : Nat) : Nat := 0x1800400 + n * 0x20
/-- AV_OUT_STAT: Table 19-8, R573. -/
def AV_OUT_STAT (n : Nat) : Nat := 0x1800404 + n * 0x20
/-- AV_FB_COLOR: Table 19-8, R573. -/
def AV_FB_COLOR (n : Nat) : Nat := 0x1800408 + n * 0x20
/-- AV_OUT_CMD: Table 19-8, R573. -/
def AV_OUT_CMD (n : Nat) : Nat := 0x180040c + n * 0x20
/-- AV_FB_BASE: Table 19-8, R573. -/
def AV_FB_BASE (n : Nat) : Nat := 0x1800410 + n * 0x20
/-- AV_CAP_BASE: Table 19-8, R573. -/
def AV_CAP_BASE (n : Nat) : Nat := 0x1800414 + n * 0x20
/-- DBG_CTRL: Table 20-3, R590. -/
def DBG_CTRL : Nat := 0x1900000
/-- DBG_STAT: Table 20-3, R590. -/
def DBG_STAT : Nat := 0x1900004
/-- DBG_CFG: Table 20-3, R590. -/
def DBG_CFG : Nat := 0x1900008
/-- DBG_ATTACH: Table 20-3, R590. -/
def DBG_ATTACH : Nat := 0x190000c
/-- DBG_ADDR_LO: Table 20-3, R590. -/
def DBG_ADDR_LO : Nat := 0x1900010
/-- DBG_ADDR_HI: Table 20-3, R590. -/
def DBG_ADDR_HI : Nat := 0x1900014
/-- DBG_MEM_CFG: Table 20-3, R590. -/
def DBG_MEM_CFG : Nat := 0x1900018
/-- DBG_MEM_DATA: Table 20-3, R590. -/
def DBG_MEM_DATA : Nat := 0x190001c
/-- DBG_MEM_STAT: Table 20-3, R590. -/
def DBG_MEM_STAT : Nat := 0x1900020
/-- DBG_RC_SEL: Table 20-3, R590. -/
def DBG_RC_SEL : Nat := 0x1900040
/-- DBG_RC_CFG: Table 20-3, R590. -/
def DBG_RC_CFG : Nat := 0x1900044
/-- DBG_RC_CMD: Table 20-3, R590. -/
def DBG_RC_CMD : Nat := 0x1900048
/-- DBG_RC_STAT: Table 20-3, R590. -/
def DBG_RC_STAT : Nat := 0x190004c
/-- DBG_RC_PC: Table 20-3, R590. -/
def DBG_RC_PC : Nat := 0x1900050
/-- DBG_RC_GSEL: Table 20-3, R590. -/
def DBG_RC_GSEL : Nat := 0x1900054
/-- DBG_RC_GDATA: Table 20-3, R590. -/
def DBG_RC_GDATA : Nat := 0x1900058
/-- DBG_BP: Table 20-3, R590. -/
def DBG_BP (i : Nat) : Nat := 0x1900060 + i * 0x4
/-- DBG_VT_TX: Table 20-3, R590. -/
def DBG_VT_TX (c : Nat) : Nat := 0x1900100 + c * 0x10
/-- DBG_VT_RX: Table 20-3, R590. -/
def DBG_VT_RX (c : Nat) : Nat := 0x1900104 + c * 0x10
/-- DBG_VT_STAT: Table 20-3, R590. -/
def DBG_VT_STAT (c : Nat) : Nat := 0x1900108 + c * 0x10

end Sys2Proof.Machine.Reg
end

