-- ==== Sys2Proof/Machine/Tab.lean ====
section
/-!
DEFINITION. Sparse tables in one canonical form: strictly rising keys, no entry equal to what an unlisted key reads as.
Every indexed store of the machine (memories, register file, objects, rings, voices, pins) is one of these.
-/

namespace Sys2Proof

/-- A sparse table: key and value pairs.  What an unlisted key reads as is the argument `d` of its operations. -/
abbrev Tab (α : Type) := List (Nat × α)

/-- The value at `k`; `d k` where the table lists none. -/
def Tab.get {α : Type} (d : Nat → α) : Tab α → Nat → α
  | [], k => d k
  | (j, v) :: t, k => if j = k then v else Tab.get d t k

/-- The table without the key `k`. -/
def Tab.erase {α : Type} (t : Tab α) (k : Nat) : Tab α :=
  t.filter (fun p => p.1 != k)

/-- The table with `(k, v)` put before the first larger key. -/
def Tab.insert {α : Type} : Tab α → Nat → α → Tab α
  | [], k, v => [(k, v)]
  | (j, w) :: t, k, v => if k < j then (k, v) :: (j, w) :: t else (j, w) :: Tab.insert t k v

/-- The table that reads `v` at `k` and as before elsewhere; canonical if it was. -/
def Tab.set {α : Type} [DecidableEq α] (d : Nat → α) (t : Tab α) (k : Nat) (v : α) : Tab α :=
  if v = d k then Tab.erase t k else Tab.insert (Tab.erase t k) k v

/-- Keys strictly rising above `lo`, and no entry equal to the default. -/
def Tab.wfFrom {α : Type} [DecidableEq α] (d : Nat → α) : Option Nat → Tab α → Bool
  | _, [] => true
  | lo, (k, v) :: t =>
    (match lo with
     | none => true
     | some l => decide (l < k)) && decide (v ≠ d k) && Tab.wfFrom d (some k) t

/-- The canonical form. -/
abbrev Tab.wf {α : Type} [DecidableEq α] (d : Nat → α) (t : Tab α) : Bool :=
  Tab.wfFrom d none t

/-- The table with `f` applied at `k`. -/
def Tab.modify {α : Type} [DecidableEq α] (d : Nat → α) (t : Tab α) (k : Nat) (f : α → α) : Tab α :=
  Tab.set d t k (f (Tab.get d t k))

/-- A table whose unlisted keys all read as `dflt`. -/
abbrev Tab.at {α : Type} (dflt : α) (t : Tab α) (k : Nat) : α :=
  Tab.get (fun _ => dflt) t k

/-- Writing into such a table. -/
abbrev Tab.put {α : Type} [DecidableEq α] (dflt : α) (t : Tab α) (k : Nat) (v : α) : Tab α :=
  Tab.set (fun _ => dflt) t k v

/-- Changing one entry of such a table. -/
abbrev Tab.upd {α : Type} [DecidableEq α] (dflt : α) (t : Tab α) (k : Nat) (f : α → α) : Tab α :=
  Tab.modify (fun _ => dflt) t k f

end Sys2Proof
end

