-- ==== Sys2Proof/Machine/State.lean ====
section
/-!
DEFINITION. The machine's state: every register, memory, queue, counter, mode and pin the spec gives the PV4852, as plain data,
and the queue of commands that wait.  Sections follow the chapters of the spec; each field's docstring names its rule.
-/

namespace Sys2Proof.Machine

/-! ### Basic and expert control (chapter 00) -/

/-- A scheduled change of a block's setting (R15): it waits for a mill tick and then for its output's frame start. -/
structure Upd where
  /-- A change was written since the last mill tick. -/
  fresh : Bool := true
  /-- The block's CTRL and expert words as the last mill tick found them, when a change then waited. -/
  armed : Option (List (Nat × Word)) := none
deriving DecidableEq, Repr, Inhabited

/-- The frame values that one committed epoch holds (R118, R180, R214). -/
structure FrameSet where
  epoch : Nat := 0
  vals : Tab Word := []
deriving DecidableEq, Repr, Inhabited

/-! ### The mill tick and the timing generators (chapter 02) -/

/-- The tick generator (R38 to R49, R64 to R66); times are nanoseconds of the timebase. -/
structure Tick where
  /-- TG_TICK_NUM: the tick in force (R38, R618). -/
  num : Nat := 0
  /-- TG_TICK_TS: the timebase at the last tick. -/
  ts : Nat := 0
  /-- Time fixed for the next tick (R40). -/
  next : Nat := 0
  /-- Numerator of the fraction of a ns carried to the next tick (R38). -/
  carry : Nat := 0
  /-- The denominator of that fraction. -/
  carryDen : Nat := 1
  /-- The fraction of a ns by which the ideal time of the tick in force lies after `ts` (R38, R65). -/
  frac : Nat := 0
  fracDen : Nat := 1
  /-- The rate in force, numerator and denominator in hertz (R46). -/
  num0 : Nat := 60
  den0 : Nat := 1
  /-- A submitted rate waiting for its tick (R48), and whether a profile submitted it (R49). -/
  rate : Option (Nat × Nat × Bool) := none
  /-- The period in force, corrected by the reference (R40, R41): numerator and denominator in ns. -/
  perNum : Nat := 1000000000
  perDen : Nat := 60
  /-- Phase correction for the first tick whose time is not fixed (R40): numerator and denominator in ns. -/
  corrNum : Int := 0
  corrDen : Nat := 1
  /-- The last reference edges in use, newest first, at most five (R40, R42). -/
  edges : List Nat := []
  /-- A valid edge was seen for the last tick issued, and for the next (R40). -/
  seen : Bool := false
  seenNext : Bool := false
  /-- The window of the last tick issued has closed (R40). -/
  closed : Bool := false
  /-- While slewing: the reference's predicted edge, and the end of the last window in which an edge was seen (R40). -/
  due : Nat := 0
  dueSeen : Nat := 0
  /-- Consecutive ticks without a valid edge (R41). -/
  misses : Nat := 0
  /-- The next tick is issued at a reference edge (R42, jump). -/
  jump : Bool := false
  /-- FS in force, and an FS change waiting for its tick (R66). -/
  fs : Nat := 0
  fsPend : Bool := false
  /-- Samples issued in the cadence cycle in force (R65). -/
  sample : Nat := 0
  /-- End of the TICK_OUT pulse in progress (R45). -/
  outUntil : Nat := 0
  /-- TICK_IN is high: the level to which its last active edge took it, high for a rising edge (R44). -/
  inHigh : Bool := false
deriving DecidableEq, Repr, Inhabited

/-- A raster timing (Table 2-6). -/
structure Timing where
  hAct : Nat := 0
  hTot : Nat := 0
  vAct : Nat := 0
  vTot : Nat := 0
  hsS : Nat := 0
  hsE : Nat := 0
  vsS : Nat := 0
  vsE : Nat := 0
  pNum : Nat := 0
  pDen : Nat := 1
  ppc : Nat := 1
  phase : Nat := 300000
deriving DecidableEq, Repr, Inhabited

/-- TG_STAT.STATE (R53). -/
inductive TgState where
  | off | acquiring | locked | blank
deriving DecidableEq, Repr, Inhabited

/-- One timing generator. -/
structure Tg where
  st : TgState := .off
  /-- The timing in force (R52). -/
  tm : Timing := {}
  /-- Frames per tick, TG_STAT.K (R47). -/
  k : Nat := 0
  /-- The beam's line (R11). -/
  line : Nat := 0
  /-- PLL frequency in microhertz, and the glide's target timing (R61). -/
  freq : Nat := 0
  glide : Option Timing := none
  /-- A second timing waits for the glide in progress to end (R63). -/
  glideNext : Option Timing := none
  /-- When the PLL reported lock, and the start point reckoned from it (R53, R62). -/
  lockAt : Option Nat := none
  startAt : Nat := 0
  /-- TG_TRIM in force and the trim the last frame start called for, 0.1 ppm (R54). -/
  trim : Int := 0
  trimWant : Int := 0
  /-- A re-phase is required at the end of the frame in progress, or is under way in BLANK (R55). -/
  rephase : Bool := false
  /-- Glides completed since BLANK was entered, counted in TG_GLIDE_CNT on the return to LOCKED (R62, R63). -/
  glided : Nat := 0
  /-- Frame starts since the last tick (the j of R54). -/
  frameJ : Nat := 0
  /-- Epoch of the index of the frame being drawn, and of the frame taken up and not yet started (R29, R31). -/
  cur : Option Nat := none
  nxt : Option Nat := none
  /-- The last epoch latched in TG_FLIP_EPOCH (R59). -/
  lastFlip : Option Nat := none
  /-- TG_FLIP_TS and TG_FLIP_EPOCH (R59). -/
  flipTs : Nat := 0
  flipEpoch : Nat := 0
  /-- Timebase of the last frame start, and of the start of the line in progress; the latter also in units of 2^-20 ns, so that lines differ
  by the line period (R281). -/
  frameTs : Nat := 0
  lineTs : Nat := 0
  lineAt : Nat := 0
  /-- Lines of the frame in progress that have begun. -/
  begun : Nat := 0
  /-- The line before the line in progress, and when it started: the beam as its synchroniser may still see it (R220). -/
  prevLine : Nat := 0
  prevTs : Nat := 0
  /-- The frame in progress took up a new epoch (R59, R281), and it is frame start 0 of its tick (R54). -/
  newEpoch : Bool := false
  firstOfTick : Bool := false
deriving DecidableEq, Repr, Inhabited

/-! ### Interrupts, timers and DMA (chapter 13) -/

/-- One moderation group of a controller (R402). -/
structure ModGroup where
  held : Bool := false
  since : Nat := 0
  events : Nat := 0
deriving DecidableEq, Repr, Inhabited

/-- One core's interrupt controller (R397 to R402). -/
structure Intc where
  /-- Pending count of each source, 0 to 15. -/
  count : Tab Nat := []
  active : Option Nat := none
  groups : Tab ModGroup := []
deriving DecidableEq, Repr, Inhabited

/-- One timer channel (R408 to R412). -/
structure TmrCh where
  armed : Bool := false
  cmp : Nat := 0
  /-- Captured timebase values, oldest first, at most 4. -/
  caps : List Nat := []
deriving DecidableEq, Repr, Inhabited

/-- One DMA channel's transfer in progress (R414 to R419). -/
structure DmaCh where
  busy : Bool := false
  src : Nat := 0
  dst : Nat := 0
  remain : Nat := 0
  /-- Bytes read from `src` on and not yet written, at most 256 (R417). -/
  buf : List Byte := []
  /-- The CCLK edge of its START. -/
  startAt : Nat := 0
deriving DecidableEq, Repr, Inhabited

-- SECTIONS

/-! ### Objects, canvases and the Bolter (chapter 03) -/

/-- The 32-byte object record (Table 3-1), w0 to w7. -/
structure ObjRec where
  w0 : Word := 0
  w1 : Word := 0
  w2 : Word := 0
  w3 : Word := 0
  w4 : Word := 0
  w5 : Word := 0
  w6 : Word := 0
  w7 : Word := 0
deriving DecidableEq, Repr, Inhabited

/-- One object: its two slots, its selector (slot B current) and its pending bit (R85, R86). -/
structure Obj where
  a : ObjRec := {}
  b : ObjRec := {}
  sel : Bool := false
  pending : Bool := false
deriving DecidableEq, Repr, Inhabited

/-- A group entry (Table 3-3); w3 is all RES. -/
structure GrpRec where
  w0 : Word := 0
  w1 : Word := 0
  w2 : Word := 0
deriving DecidableEq, Repr, Inhabited

/-- One group: slots, selector, pending bit (R82). -/
structure Grp where
  a : GrpRec := {}
  b : GrpRec := {}
  sel : Bool := false
  pending : Bool := false
deriving DecidableEq, Repr, Inhabited

/-- What a build latches for one output (R73). -/
structure VpLatch where
  enable : Bool := false
  canvas : Nat := 0
  vx : Nat := 0
  vy : Nat := 0
  cw : Nat := 65536
  ch : Nat := 65536
  /-- The timing at the output's first frame start after the tick that began the build. -/
  tm : Timing := {}
deriving DecidableEq, Repr, Inhabited

/-- An index entry (Table 3-4): object, object slot B, group slot B. -/
structure Entry where
  obj : Nat := 0
  oslot : Bool := false
  gslot : Bool := false
deriving DecidableEq, Repr, Inhabited

/-- One output's part of an index: its latched viewport and its bins (R89, R90). -/
structure OutIdx where
  vp : VpLatch := {}
  bins : Tab (List Entry) := []
  /-- Chunks used of the output's quota (R98). -/
  chunks : Nat := 0
  /-- Demand of each bin before capping (R91). -/
  demand : Tab Nat := []
  capDrops : Nat := 0
  quotaDrops : Nat := 0
  vpErr : Bool := false
deriving DecidableEq, Repr, Inhabited

/-- A published line-bin index with the page maps of its epoch (R93, R131). -/
structure Index where
  epoch : Nat := 0
  outs : Tab OutIdx := []
  mapPm : Tab Nat := []
  palPm : Tab Nat := []
deriving DecidableEq, Repr, Inhabited

/-- A build in progress: what it will publish, its length in CCLK, and the error bits it met (R91, R92, R80). -/
structure Build where
  idx : Index := {}
  cost : Nat := 0
  /-- Number of the CCLK edge on which the pass writes its last entry (R93). -/
  doneAt : Nat := 0
  fmtErr : Bool := false
  patErr : Bool := false
  grpMargin : Bool := false
deriving DecidableEq, Repr, Inhabited

/-- The OBJ and BOL block. -/
structure ObjSt where
  objs : Tab Obj := []
  grps : Tab Grp := []
  /-- The current epoch (R30), `none` before the first full load. -/
  epoch : Nat := 0
  /-- A commit's flip is running (R27), for this epoch. -/
  flip : Option Nat := none
  /-- Number of the CCLK edge on which that flip ends (R27). -/
  flipAt : Nat := 0
  /-- A tick's commit decision waits for the flip to end (R27). -/
  waiting : Bool := false
  /-- The CCLK edge on which the last flip ended (R27). -/
  flipDone : Nat := 0
  /-- The build in progress. -/
  build : Option Build := none
  /-- Complete indexes, newest first; older ones stay while an output uses them. -/
  indexes : List Index := []
  /-- The latch of the last build, with the OBJ_BOL_CFG in force (R94); empty after an abandoned build (R96). -/
  lastLatch : List VpLatch := []
  lastCfg : Word := 0
  /-- Shared pool: global ID and pool number of each mapped object (R101). -/
  pool : List (Nat × Nat) := []
  /-- Pool numbers marked for release at the last commit (R105). -/
  release : List Nat := []
  /-- Keep region of each shared canvas as last latched (R102): canvas, x0, y0, x1, y1. -/
  keep : List (Nat × Int × Int × Int × Int) := []
deriving DecidableEq, Repr, Inhabited

/-! ### Tile planes, patterns and palettes (chapter 04) -/

/-- A page space: tile map or palette (R127). -/
structure PageSpace where
  /-- Page maps of the current epoch, of the epoch before, and of the commit in progress: logical page to physical page. -/
  cur : Tab Nat := []
  prev : Tab Nat := []
  next : Tab Nat := []
  /-- Physical pages taken from the free list (`true`: taken) or given to it (`false`), against the list of the load. -/
  free : Tab Bool := []
  retired : List Nat := []
  /-- Logical pages written in the commit in progress. -/
  fresh : List Nat := []
deriving DecidableEq, Repr, Inhabited

/-- One line of the pattern and tile-map cache (R133). -/
structure CLine where
  way : Nat := 0
  line : Nat := 0
  /-- Its bytes, or `none` while its fill is in flight. -/
  data : Option (List Byte) := none
deriving DecidableEq, Repr, Inhabited

/-- A line fill in flight (R133): its 128-byte line number, whether an object fetch asked for it, and what the line held before each write
made to it since the request, oldest first. -/
structure Fill where
  line : Nat := 0
  isObj : Bool := false
  olds : List (List Byte) := []
  /-- The line was invalidated while the fill was in flight, so the fill is discarded (R139). -/
  dropped : Bool := false
deriving DecidableEq, Repr, Inhabited

/-- The TP block. -/
structure TileSt where
  map : PageSpace := {}
  pal : PageSpace := {}
  /-- Cache sets, each most recently used first. -/
  cache : Tab (List CLine) := []
  fills : List Fill := []
  /-- Lines of the locked ranges (R134) with their locked copies. -/
  locked : Tab (List Byte) := []
  /-- An invalidation in progress: first 128-byte line and the line after the last (R139), and the CCLK edge on which its scan ends. -/
  inv : Option (Nat × Nat) := none
  invAt : Nat := 0
  /-- The first line of the range that the scan has not yet reached. -/
  invTo : Nat := 0
  /-- OBJ_WAYS in force (R140). -/
  objWays : Nat := 0
  /-- MISS_FILL in force of each output (R140). -/
  missFill : Tab Bool := []
  /-- Output had a late span in the frame (R138). -/
  lateFrame : Tab Bool := []
  /-- The line being mixed had a late span already (R138 counts it once). -/
  lateLine : Tab Bool := []
deriving DecidableEq, Repr, Inhabited

/-! ### Composition slices and the sluice path (chapter 05) -/

/-- The two table banks of an output: words written, and the PROFILE whose derived words the others hold (R194, R206). -/
structure Tables where
  w0 : Tab (Option Word) := []
  w1 : Tab (Option Word) := []
  p0 : Nat := 0
  p1 : Nat := 0
deriving DecidableEq, Repr, Inhabited

/-- A plane pixel or a mixed pixel: 12-bit components, 8-bit alpha, high priority (R116, R121). -/
structure Px where
  r : Nat := 0
  g : Nat := 0
  b : Nat := 0
  a : Nat := 0
  hi : Bool := false
deriving DecidableEq, Repr, Inhabited

/-- Why a line was abandoned (R161). -/
inductive SlowCause where
  | lateStart | work | stall
deriving DecidableEq, Repr, Inhabited

/-- The object build of a line (R152). -/
inductive BuildStage where
  | waiting | building | ended | abandoned
deriving DecidableEq, Repr, Inhabited

/-- A line that a slice is building (R149 to R155). -/
structure LineWork where
  line : Nat := 0
  out : Nat := 0
  /-- Active pixels of the line. -/
  width : Nat := 0
  stage : BuildStage := .waiting
  /-- Latched at the build start (R150): the epoch of the index taken up, the live registers, the key table (R123) and SL_CFG. -/
  epoch : Nat := 0
  regs : Tab Word := []
  keys : Tab Word := []
  cfg : Word := 0
  /-- Planes skipped on the line, by the codes of Table 6-3 (R156). -/
  skipped : List Nat := []
  /-- The tone and scaler tables of a line whose build started before a change of the output's MX setting took effect (R13, R180); else the
  output's. -/
  tbl : Option Tables := none
  /-- Bytes that have arrived for the line, by 128-byte line of LPDDR5X, or by 64 bytes of SRAM from 2^40 up. -/
  got : Tab (List Byte) := []
  /-- Lines that its tile fetches still wait for. -/
  tileWait : List Nat := []
  /-- Map requests and tile rows that the tile fetcher has not issued, in order: plane, and 16-entry part of the map or tile column
  (R135). -/
  tileMaps : List (Nat × Nat) := []
  tileRows : List (Nat × Nat) := []
  /-- Data on its way from the cache or from an on-chip map: the CCLK edge on which it returns, its place under `got`, and its bytes
  (Table 4-5). -/
  tileBack : List (Nat × Nat × List Byte) := []
  /-- Lines that its object fetches still wait for, with the cycle of work at which the rasterizer needs them (R154). -/
  objWait : Tab Nat := []
  /-- Pattern accesses not yet issued, in drawing order: 128-byte line, the cycle of work that needs its data and the cycle from which the
  window of 64 accesses admits it (R154). -/
  toIssue : List (Nat × Nat × Nat) := []
  /-- Drawn objects whose look-ups have been made (R126). -/
  looked : Nat := 0
  /-- Number of the CCLK edge on which the object build began (R155). -/
  startAt : Nat := 0
  entries : Nat := 0
  drawn : Nat := 0
  /-- Cycles of the build without stalls, and cycles stalled so far (R155). -/
  work : Nat := 0
  stall : Nat := 0
  /-- The due point has passed before the object build began (R152, R161). -/
  dueGone : Bool := false
  s0 : List Px := []
  s1 : List Px := []
deriving DecidableEq, Repr, Inhabited

/-- One composition slice. -/
structure Slice where
  /-- Lines whose build has started, oldest first. -/
  lines : List LineWork := []
  /-- Lines past their due point for which its tile fetcher has work left, or which are being mixed, oldest first (R135, R136). -/
  after : List LineWork := []
  /-- Number of the CCLK edge from which the tile fetcher has a slot (R135). -/
  tileAt : Nat := 0
  /-- Number of the CCLK edge of the last build start (R149). -/
  started : Nat := 0
  /-- Outputs of which the slice abandoned a line in the frame in progress (R161). -/
  slowFrame : List Nat := []
  /-- The slice shadows this target slice for Fantail (R556, R557). -/
  shadows : Option Nat := none
deriving DecidableEq, Repr, Inhabited

/-- What the mixer takes for a line (R152, R159). -/
inductive LineKind where
  | mixed | repeatLast | black
deriving DecidableEq, Repr, Inhabited

/-- A line handed to an output at its due point, with its video lines (`none`: transparent). -/
structure LineDue where
  kind : LineKind := .mixed
  /-- The slice that built it. -/
  slice : Nat := 0
  work : LineWork := {}
  v0 : Option (List Px) := none
  v1 : Option (List Px) := none
  /-- A video plane was dry on the line (R187). -/
  dry : Bool := false
deriving DecidableEq, Repr, Inhabited

/-! ### Video planes, mixing and the output pipeline (chapter 06) -/

/-- One slice's memory of one video plane (R185). -/
structure VidPlane where
  /-- Source rows in the line memory, newest first: LPDDR5X address, format and number of the pixels fetched, and the raw pixels. -/
  rows : List ((Nat × Nat × Nat) × List Nat) := []
  /-- Rows requested and not yet arrived, in request order, under the same names. -/
  wait : List (Nat × Nat × Nat) := []
  /-- Completed scaled lines not yet due: output line and pixels, the key result in `hi`. -/
  scaled : List (Nat × List Px) := []
deriving DecidableEq, Repr, Inhabited

/-- One output pipeline. -/
structure MxOut where
  /-- What the mixer takes for the line that is due next, and for the line being mixed. -/
  due : Option LineDue := none
  now : Option LineDue := none
  /-- The same for the slice that shadows this output's target (R557), its running signature, and whether the line so far is
  incomparable. -/
  shDue : Option LineDue := none
  shNow : Option LineDue := none
  shCrc : Nat := 0
  shBad : Bool := false
  /-- Mixed pixels of the line so far, newest first, and the last complete mixed line (R159). -/
  row : List Px := []
  last : Option (List Px) := none
  /-- Tile spans as the mixer last took them, by plane * 256 + span (R136); the shadow's checker keeps its own. -/
  spans : Tab (Option (List Px)) := []
  shSpans : Tab (Option (List Px)) := []
  /-- The last completed scaled line of V0 and V1 (R187). -/
  lastVid : Tab (Option (List Px)) := []
  /-- V0 or V1 had a dry line in the frame (R187). -/
  dryFrame : Tab Bool := []
  /-- Tone-mapped pixels of the line that the formatter still needs for 4:2:2 (R198), newest first. -/
  toned : List (Nat × Nat × Nat) := []
  /-- Running CRC of each region, and of the frame under key 64 (R200). -/
  crc : Tab Nat := []
  /-- Region and freeze values latched at the take-up point (R180). -/
  lat : Tab Word := []
  /-- A region's or the freeze detector's run has had its ACTION taken (R202, R204), freeze under key 64. -/
  acted : Tab Bool := []
  /-- Signature of the previous frame (R204). -/
  prevSig : Option Nat := none
  /-- Alarms set in the frame: region, freeze (R205). -/
  almRegion : Bool := false
  almFreeze : Bool := false
  /-- MX_FMT in force, a change written since the last tick, one that a tick has found, and whether this is the first frame in it (R197,
  R203). -/
  fmt : Word := 0
  fmtPend : Option Word := none
  fmtArmed : Option Word := none
  fmtNew : Bool := false
  /-- The format of the last frame that the output ran (R203). -/
  fmtLast : Word := 0
  /-- The table banks as the window shows them (R194, R206), and those still in force while a change of LEVEL from 0 to 1 waits for its
  update point (R13, R15). -/
  tbl : Tables := {}
  tblForce : Option Tables := none
  /-- Number of the CCLK edge on which the table copy in progress ends (R194). -/
  copyAt : Nat := 0
  /-- The signature of the Fantail tap of the line so far (R557). -/
  ftCrc : Nat := 0
  /-- Formatted components of the line so far, newest first, for the PIXEL packets (R282). -/
  outPx : List (List Nat) := []
  /-- The frame in progress shows the fallback (R564); the capture frame in progress writes buffer A or B (R565). -/
  fallback : Bool := false
  /-- The fallback is to be shown from the next frame start (R202, R562); RESUME was written, and whether a tick has passed since. -/
  fbWant : Bool := false
  fbResume : Option Bool := none
  capBuf : Option Nat := none
  /-- The output is shed by a degraded plan: its fallback is the colour alone (R567). -/
  fbPlain : Bool := false
  /-- Regions (64: the freeze detector) whose ACTION 2 is still to be logged (R202, Table 19-5). -/
  fbWhy : List Nat := []
deriving DecidableEq, Repr, Inhabited

/-! ### Damsel (chapter 07) -/

/-- What a Damsel engine waits for. -/
inductive DmWait where
  | none
  /-- the beam at (x, line) (R221) -/
  | point (x line : Nat)
  /-- an event of the input, or the beam at (0, line) (R222) -/
  | event (i : Nat) (tmo : Option Nat)
deriving DecidableEq, Repr, Inhabited

/-- One Damsel engine; its flags, counts and program memory lie in registers and windows. -/
structure Dm where
  pc : Nat := 0
  c0 : Nat := 0
  c1 : Nat := 0
  c2 : Nat := 0
  c3 : Nat := 0
  target : Int := 0
  timeout : Bool := false
  late : Bool := false
  /-- A late write of this program frame has been signalled (R230). -/
  lateOnce : Bool := false
  /-- Number of the CCLK edge at which its next instruction begins (R219). -/
  at_ : Nat := 0
  wait : DmWait := .none
deriving DecidableEq, Repr, Inhabited

/-! ### Flume (chapter 09) -/

/-- A formed packet (R278): TYPE, F, payload, and the timebase of its formation. -/
structure FlPkt where
  typ : Nat := 0
  f : Word := 0
  payload : List Byte := []
  /-- When the packet was formed, in 1/120 ns. -/
  at_ : Nat := 0
deriving DecidableEq, Repr, Inhabited

/-- An item of the blanking queue (R285): the STATUS packet as formed, the refresh burst, and an armed AUX slot. -/
inductive FlItem where
  | status (p : FlPkt) | refresh | aux (k : Nat)
deriving DecidableEq, Repr, Inhabited

/-- A 66-bit block before scrambling: control or data, and its eight payload bytes (R272). -/
structure FlBlock where
  control : Bool := false
  bytes : List Byte := []
deriving DecidableEq, Repr, Inhabited

/-- One Flume port. -/
structure Fl where
  /-- Formed packets not yet sent, oldest first (R286), and the blanking queue. -/
  queue : List FlPkt := []
  blank : List FlItem := []
  /-- A training sequence runs since this timebase (R276). -/
  training : Option Nat := none
  /-- The next marker count (R275) and SEQ (R279). -/
  marker : Nat := 0
  seq : Nat := 0
  /-- Timebase at which the last training sequence started, and the slot groups sent from its ALIGN group on, that group included. -/
  t0 : Nat := 0
  groups : Nat := 0
  /-- The place of the next ALIGN group among those slot groups (R275, R277). -/
  alignAt : Nat := 0
  /-- The line in progress began before the port was ACTIVE, or in the idle stream: it sends nothing (R289, R290). -/
  lineOff : Bool := true
  /-- When the last frame ended or ACTIVE was entered, or the last STATUS of the idle stream was formed (R284). -/
  statusAt : Nat := 0
  /-- The last 58 bits that each logical lane's scrambler sent, the oldest lowest (R272). -/
  scr : List Nat := []
  /-- The stream blocks that the last command sent, and each physical lane's scrambled payloads with their sync headers. -/
  sent : List FlBlock := []
  wire : List (List (Bool × Nat)) := []
  /-- R288 occurred since the last STATUS. -/
  capSince : Bool := false
  /-- Slot groups that the packets of the present line need (R287). -/
  demand : Nat := 0
  /-- The PHY PLL has lost lock (R293). -/
  pllLost : Bool := false
  /-- Sources already raised in the tick, by bit of FL_INT_EN (R293). -/
  raised : Nat := 0
deriving DecidableEq, Repr, Inhabited

/-! ### Tailrace (chapter 11) -/

/-- A gain in use: a linear move from `start` to `goal` over `len` samples, `i` of them done (R338, R342). -/
structure Ramp where
  start : Int := 0
  goal : Int := 0
  len : Nat := 0
  i : Nat := 0
deriving DecidableEq, Repr, Inhabited

/-- AUD_V_CTRL.STATE (R339). -/
inductive VoiceSt where
  | idle | playing | release
deriving DecidableEq, Repr, Inhabited

/-- One voice: its position has 16 fraction bits (R337). -/
structure Voice where
  st : VoiceSt := .idle
  pos : Nat := 0
  a : Ramp := {}
  b : Ramp := {}
deriving DecidableEq, Repr, Inhabited

/-- A biquad block's state (R343). -/
structure Biq where
  x1 : Int := 0
  x2 : Int := 0
  y1 : Int := 0
  y2 : Int := 0
deriving DecidableEq, Repr, Inhabited

/-- The stage of the run in progress (Table 11-1). -/
inductive RunSt where
  | ended | voices | graph
deriving DecidableEq, Repr, Inhabited

/-- The AUD block. -/
structure Aud where
  /-- Index of the next sample tick, and of the first sample tick at or after each recent tick, newest first (R357). -/
  k : Nat := 0
  tickRuns : List (Nat × Nat) := []
  run : RunSt := .ended
  /-- Next operation of the graph phase, and the CCLK its operations have taken (R346). -/
  gpc : Nat := 0
  gtime : Nat := 0
  /-- The CCLK edge on which the run started, the voices not idle in it and its input wait (A and W of R346). -/
  startAt : Nat := 0
  active : Nat := 0
  wait : Nat := 0
  /-- The signal memory (R334), and the graph's signals written in the run. -/
  sig : Tab Int := []
  wrote : List Nat := []
  voices : Tab Voice := []
  biq : Tab Biq := []
  /-- Delay lines: samples written, newest first (R344), and each line's allocation in samples (the image's). -/
  delay : Tab (List Int) := []
  delayAlloc : Tab Nat := []
  /-- Dynamics envelopes (R345). -/
  env : Tab Int := []
  /-- Crosspoint gains that are moving (R342). -/
  xg : Tab (Option Ramp) := []
  /-- Size of the sample area in bytes (the image's, R335). -/
  sampleBytes : Nat := 0
  /-- AUD_CMD records handed over: due run, and b0 to b5 (R357). -/
  cmds : List (Nat × List Word) := []
  /-- Direct writes that wait for the next run start, oldest first: BAR0 offset, value, mask (R354). -/
  direct : List (Nat × Word × Word) := []
  /-- The armed safe load: COUNT, AT, tick number at the arming (R355). -/
  safe : Option (Nat × Nat × Nat) := none
  /-- Routes and sink entries latched at the run start (R332, R367). -/
  lat : Tab Word := []
  /-- Samples of the input frame last completed, by 16 * port + slot, as signals (R351). -/
  ins : Tab Int := []
  /-- Values of the output frame in progress and of the next one, by sink, on the 24-bit scale (R351). -/
  out : Tab Int := []
  next : Tab Int := []
  /-- Frames for which each sink has been within the threshold (R358). -/
  quiet : Tab Nat := []
  /-- Frames still muted after a rate change (R361). -/
  mute : Nat := 0
  /-- FS of the runs in progress (R361). -/
  fs : Nat := 0
  /-- Sources raised at most once per mill tick that were raised in this one: 240, 242, 243. -/
  once : List Nat := []
deriving DecidableEq, Repr, Inhabited

/-! ### Hopper (chapter 08) -/

/-- A staged record (R246): its 8 words (16 for an OBJ_WRITE pair), stamp, origin node, origin ring, class and place in ring order. -/
structure Rec where
  words : List Word := []
  stamp : Nat := 0
  node : Nat := 0
  ring : Nat := 0
  cls : Nat := 0
  order : Nat := 0
  /-- Received over the ring: it holds a place of the reserve (R250). -/
  fromRing : Bool := false
  /-- Already counted late (R248). -/
  late : Bool := false
  /-- It arrived after the commit decision of its tick (R249). -/
  arrivedLate : Bool := false
  /-- The tick at which it would have been committed, where that tick's commit was held (R31, R357). -/
  heldFor : Option Nat := none
deriving DecidableEq, Repr, Inhabited

/-- A marker whose write is due, in ring order (R258). -/
structure Marker where
  order : Nat := 0
  addr : Nat := 0
  value : Nat := 0
  mode : Bool := false
  irq : Bool := false
  /-- The epoch it names, once known, and the outputs that ran frames then. -/
  epoch : Option Nat := none
  outs : List Nat := []
deriving DecidableEq, Repr, Inhabited

/-- A FENCE that a ring has met (R257): MODE, TICK_LO, and the last order number accepted before it. -/
structure Fence where
  mode : Bool := false
  tick : Nat := 0
  order : Nat := 0
deriving DecidableEq, Repr, Inhabited

/-- A write to host memory that waits for Bus Master Enable (R483): KIND and ID of MEM_PCIE_ERR, address and bytes. -/
structure HostWr where
  kind : Nat := 0
  id : Nat := 0
  addr : Nat := 0
  bytes : List Byte := []
  /-- A marker whose ring's group source is raised after the write (R258). -/
  irq : Bool := false
deriving DecidableEq, Repr, Inhabited

/-- What Table 16-5 gives configuration space beside the registers that BAR0 shows: the power state D3hot, the maximum payload and read
request sizes in bytes, and the errors that Advanced Error Reporting has logged, oldest first, true for an uncorrectable one.  The sizes
at their defaults are those of the PCI Express specification (PRESUMED, log entry 62). -/
structure Pcie where
  d3hot : Bool := false
  maxPayload : Nat := 128
  maxRead : Nat := 512
  aer : List Bool := []
deriving DecidableEq, Repr, Inhabited

/-- The hopper. -/
structure Hop where
  /-- Records fetched and not yet dealt with, by ring, oldest first (R237). -/
  fetched : Tab (List (List Word)) := []
  /-- The ring after the one last served, by class (R237). -/
  after : Tab Nat := []
  /-- Rings whose only published record is an OBJ_WRITE head without its body, by the TAIL at which it was found (R237). -/
  noBody : Tab (Option Nat) := []
  pond : List Rec := []
  /-- Order number of the next record accepted. -/
  order : Nat := 0
  /-- Markers due, by ring, in ring order. -/
  markers : Tab (List Marker) := []
  /-- Records that HEAD has passed since the last write-back (R238). -/
  wbSince : Tab Nat := []
  fence : Tab (Option Fence) := []
  /-- Ring and order number of records that the commit of the running flip applied (R257). -/
  inflight : List (Nat × Nat) := []
  /-- Cuts fixed so far, newest first: tick and cut (R620). -/
  cuts : List (Nat × Nat) := []
  /-- TICKTIME of the next tick as fixed (R620). -/
  tickTime : Nat := 0
  /-- The trackers have latched for the newest cut (R261). -/
  latched : Bool := false
  /-- HOP_POND_USED lay above the watermark (R253). -/
  above : Bool := false
  /-- The tick period of the last drop of a shared record (R252). -/
  lastDrop : Nat := 0
  /-- The tick of the last commit decision made (R249). -/
  decided : Nat := 0
  /-- Sources already raised in this tick: 219, 222. -/
  once : List Nat := []
deriving DecidableEq, Repr, Inhabited

/-! ### The Ihlo ring (chapter 10) -/

/-- The ring node.  NSTATE codes are those of Table 10-4, selected input codes those of RING_STAT.INPUT. -/
structure Ring where
  nst : Nat := 0
  sel : Nat := 0
  priAlive : Bool := false
  leatAlive : Bool := false
  /-- The primary input has been alive since, and has carried a STATE frame of its neighbour with JOINED (R308). -/
  priSince : Nat := 0
  priJoined : Bool := false
  /-- LAST(o) and when a frame of o was last taken (R302). -/
  last : Tab (Option (Nat × Nat)) := []
  /-- The leat buffer, oldest first: arrival, KIND, frame (R303). -/
  leatBuf : List (Nat × Nat × RFrame) := []
  /-- Next SEQ (R302). -/
  seq : Nat := 0
  /-- Originated TICK, then PROBE and STATE frames not yet sent, and the injection queue with entry times (R305). -/
  tickq : List (Nat × RFrame) := []
  ctlq : List (Nat × RFrame) := []
  injq : List (Nat × Nat × RFrame) := []
  /-- Mailbox messages and notices that wait for a place in the full injection queue, oldest first (R305, R327). -/
  injWait : List (Nat × RFrame) := []
  /-- Forwarded frames that have yet to leave, oldest first: when they leave in 1/120 ns, KIND, frame (R304). -/
  dues : List (Nat × Nat × RFrame) := []
  /-- Slot groups injected in the last 4 µs: time and groups (R323). -/
  injected : List (Nat × Nat) := []
  /-- Frames most recently sent on both outputs, newest first: KIND and frame. -/
  sent : List (Nat × RFrame) := []
  /-- The PLL of the links has locked, and each input's last training found the wiring of R297 (R300). -/
  pllLocked : Bool := false
  priWired : Bool := false
  leatWired : Bool := false
  /-- The block streams of the primary and the leat output (R299). -/
  tx : Fl := {}
  txl : Fl := {}
  /-- Whether ring time has been set, by a first TICK frame or as a source; ring time less the timebase, the offset it is corrected
  towards, and when it was last corrected (R314, R410). -/
  rtSet : Bool := false
  rtOff : Int := 0
  rtWant : Int := 0
  rtMark : Nat := 0
  /-- The source last followed (R320), when a TICK frame was last taken, and how many have been taken. -/
  followed : Option Nat := none
  tickAt : Option Nat := none
  ticks : Nat := 0
  /-- Ticks in a row with RING_TICK_ERR within and beyond 4 ns (R313, R317). -/
  near : Nat := 0
  far : Nat := 0
  /-- The pending horizon change: NS and HZ_AT (R321). -/
  hzPend : Option (Nat × Nat) := none
  /-- Departures of the outstanding probes, ps of the timebase (R318). -/
  probes : List Nat := []
  /-- When a STATE frame of each origin was last taken (R312), and one with SEGMENT set (R310). -/
  heard : Tab (Option Nat) := []
  segHeard : Option Nat := none
  /-- When the node first sent STATE frames, when one last came back, and in how many consecutive tick periods one did (R310). -/
  ownSent : Option Nat := none
  ownBack : Option Nat := none
  backNow : Bool := false
  backRun : Nat := 0
  seg : Bool := false
  head : Bool := false
  source : Bool := false
  /-- It is a source only as a head, and it stopped being one on entering segment mode (R319). -/
  headSource : Bool := false
  /-- It is or was a head in this segment mode, and its flywheel is corrected as a head's (R319). -/
  headTick : Bool := false
  wasSource : Bool := false
  /-- The mailbox receive queue, oldest first: origin, STAMP, words (R327). -/
  mbx : List (Nat × Nat × List Word) := []
  /-- A tick and its TICKTIME as the source's last TICK frame gives it (R620). -/
  srcNext : Option (Nat × Nat) := none
  /-- The newest tick that the source has issued, as this node knows it, and its TICKTIME (R266, R620). -/
  srcTick : Option (Nat × Nat) := none
  /-- The segment's head as its last STATE frame named it (R310, R311). -/
  headOf : Option Nat := none
  /-- Flags of the last STATE frame originated (R312). -/
  flags : Nat := 0
  /-- When the node entered LISTEN. -/
  listenAt : Nat := 0
deriving DecidableEq, Repr, Inhabited

/-! ### Pins and programmable I/O (chapter 15) -/

/-- What a pad's always-on latch holds (R450): drive and value, and the pull code. -/
structure PadHold where
  drive : Bool := false
  value : Bool := false
  pull : Nat := 1
deriving DecidableEq, Repr, Inhabited

/-- The GP block beside its registers: raw values read in GP_IN, filtered values in GP_FILT_IN. -/
structure Pins where
  /-- Glitch-filtered values (R448). -/
  glitch : Tab Bool := []
  /-- CCLK count at the pin's last raw change, and timebase at its last glitch-filtered change or restart (R448). -/
  rawAt : Tab Nat := []
  glAt : Tab Nat := []
  /-- Value of each pin's timer-compare function (R445). -/
  tcmp : Tab Bool := []
  /-- The pads hold (R450), and what each holds. -/
  held : Bool := true
  hold : Tab PadHold := []
deriving DecidableEq, Repr, Inhabited

/-- PIO_C_STATE.STATE. -/
inductive PioSt where
  | disabled | running | waiting | halted
deriving DecidableEq, Repr, Inhabited

/-- One PIO context (R452 to R459). -/
structure PioCtx where
  st : PioSt := .disabled
  pc : Nat := 0
  a : Word := 0
  l0 : Nat := 0
  l1 : Nat := 0
  sr : Word := 0
  sc : Nat := 0
  f : Bool := false
  /-- Steps that still pass idle (R453). -/
  hold : Nat := 0
  tx : List Word := []
  rx : List Word := []
deriving DecidableEq, Repr, Inhabited

/-- One PIO engine. -/
structure PioEng where
  /-- CCLK count at the last clock restart, and the number of the next tick (R452). -/
  t0 : Nat := 0
  n : Nat := 0
  /-- Output and direction latches by pin. -/
  out : Tab Bool := []
  dir : Tab Bool := []
  ctx : Tab PioCtx := []
deriving DecidableEq, Repr, Inhabited

/-! ### Krytesh cores (chapter 12) and their run control (chapter 20) -/

/-- A load that reads memory or registers (R377, R383): width in bytes, sign extension. -/
structure LoadKind where
  size : Nat := 4
  signed : Bool := false
deriving DecidableEq, Repr, Inhabited

/-- The causes of Table 12-9. -/
inductive Cause where
  | illegal | fetch | align | load | store | stack | syscall | brk | memerr | interrupt
deriving DecidableEq, Repr

/-- What the instruction in a core's memory stage waits for. -/
inductive CoreWait where
  | none
  /-- data of a load (R373): destination, address -/
  | load (rd addr : Nat) (k : LoadKind)
  /-- data of a table look-up (R383): destination, base, index, entry format -/
  | tli (rd base index fmt : Nat)
  /-- the second entry of a table look-up, the first read: its value, or the exception that it met (R383) -/
  | tli2 (rd base index fmt : Nat) (v : Nat) (bad : Option Cause)
  /-- room in the posted buffer (R373): address, bytes, value -/
  | store (addr size : Nat) (v : Word)
  /-- every posted store (R374) -/
  | fence
deriving DecidableEq, Repr, Inhabited

/-- A store in the posted buffer. -/
structure Posted where
  addr : Nat := 0
  size : Nat := 4
  v : Word := 0
  /-- The LPDDR5X address that KC_LPWIN gave it at its issue (R371, R374). -/
  lp : Option Nat := none
deriving DecidableEq, Repr, Inhabited

/-- A restart in progress (R392). -/
structure Restart where
  areaB : Bool := false
  dkeep : Bool := false
  /-- CCLK count at the request. -/
  at_ : Nat := 0
deriving DecidableEq, Repr, Inhabited

/-- One Krytesh core; its state (RESET to DOUBLE) reads in KC_STAT. -/
structure Core where
  /-- g1 to g31 (R376). -/
  g : Tab Word := []
  pc : Nat := 0
  /-- The instruction at PC is a load's slot instruction: the load's destination and its value before the load (R377). -/
  slot : Option (Nat × Word) := Option.none
  wait : CoreWait := .none
  /-- CCLK count at which the wait began. -/
  since : Nat := 0
  /-- Posted buffer, oldest first (R373). -/
  posted : List Posted := []
  /-- A CSRW has set IEN: interrupts are taken from the boundary after the next instruction (R386). -/
  ienHold : Bool := false
  -- the core status registers of Table 12-8
  ien : Bool := false
  hnd : Bool := false
  ecause : Word := 0
  faddr : Word := 0
  xbase : Word := 0x100
  slotOld : Word := 0
  ba : Bool := false
  slimLo : Word := 0x20000
  slimHi : Word := 0x40000
  /-- KCLK counted, in thousandths of a CCLK; instructions completed; shadows of the HI halves. -/
  cycle : Nat := 0
  instret : Nat := 0
  cycleHi : Word := 0
  instretHi : Word := 0
  scratch0 : Word := 0
  scratch1 : Word := 0
  /-- User bits (Table 12-7). -/
  user : Tab Bool := []
  /-- Watchdog: timebase at the last reload, the first expiry has warned, and when a debugger's halt stopped the count (R391). -/
  wdtAt : Nat := 0
  wdtWarned : Bool := false
  wdtPaused : Option Nat := Option.none
  restart : Option Restart := Option.none
  -- run control (R581 to R585): DBG_RC_CFG, DBG_RC_STAT.REASON, breakpoints
  rcCfg : Word := 0
  reason : Nat := 0
  bp : Tab Word := []
  /-- A HALT waits for the next instruction boundary. -/
  haltReq : Bool := false
  /-- The core executes a STEP. -/
  stepping : Bool := false
  /-- The instruction at PC runs without a breakpoint test (R581). -/
  skipBp : Bool := false
  -- virtual terminal (R587)
  vtTx : List Word := []
  vtRx : List Word := []
deriving DecidableEq, Repr, Inhabited

/-! ### Availability (chapter 19) -/

/-- A row being copied to a spare row (R552). -/
structure RowCopy where
  bank : Nat := 0
  row : Nat := 0
  spare : Nat := 0
  /-- CCLK count when the copy began. -/
  at_ : Nat := 0
  /-- AV_REP_CMD called for it. -/
  cmd : Bool := false
deriving DecidableEq, Repr, Inhabited

/-- A repair that waits for its bank to wake (R552); `cmd` says that AV_REP_CMD named the row. -/
structure RowWait where
  bank : Nat := 0
  row : Nat := 0
  cmd : Bool := false
deriving DecidableEq, Repr, Inhabited

/-- Fantail's window of the tick (R556 to R558). -/
structure FtWin where
  target : Nat := 0
  shadow : Nat := 0
  /-- The window re-checks a transient. -/
  recheck : Bool := false
  mismatches : Nat := 0
  /-- First mismatching line. -/
  first : Option Nat := none
  confirmed : Bool := false
  /-- A frame of the window has been taken up. -/
  begun : Bool := false
deriving DecidableEq, Repr, Inhabited

/-- A binding that waits for its output's first take-up point (R148): `lead` none frees the output's slices. -/
structure Rebind where
  lead : Option Nat := none
  follow : Option Nat := none
  /-- A new lead λ and the port-gang role that a BINDING section gives. -/
  leadLines : Option Nat := none
  portGang : Option Bool := none
  /-- The output's fallback ends with it (R563). -/
  restore : Bool := false
deriving DecidableEq, Repr, Inhabited

/-- A confirmed mismatch whose remap waits (R559): the target and the shadow that found it. -/
structure Remap where
  target : Nat := 0
  shadow : Option Nat := none
deriving DecidableEq, Repr, Inhabited

/-- The degraded plan of a channel (R567): register writes (offset, word, byte enables) and outputs to shed. -/
structure Plan where
  writes : List (Nat × Word × Nat) := []
  shed : List Nat := []
deriving DecidableEq, Repr, Inhabited

/-- The AV block beside its registers. -/
structure Av where
  /-- Error count of each SRAM row, by bank * 2048 + row (R549). -/
  rowErr : Tab Nat := []
  /-- Flagged rows (bank, row), oldest first (R551). -/
  flagged : List (Nat × Nat) := []
  /-- Spare row assigned to a row, by bank * 2048 + row (R553). -/
  spare : Tab (Option Nat) := []
  /-- Row copies in progress, and rows of retained banks whose repair waits for the bank to wake (R552). -/
  copies : List RowCopy := []
  repWait : List RowWait := []
  /-- Next word of patrol scrub; its present rate holds from word `scrubI0`, due at timebase `scrubT0`, on (R550). -/
  scrub : Nat := 0
  scrubI0 : Nat := 0
  scrubT0 : Nat := 0
  /-- The window of the tick, and the one before whose last frame has not ended (R556). -/
  win : Option FtWin := none
  winOld : Option FtWin := none
  /-- Targets whose windows ended in a transient, the last target of rotation, and the last shadow of each target (R556). -/
  transients : List Nat := []
  lastRot : Option Nat := none
  lastShadow : Tab (Option Nat) := []
  remaps : List Remap := []
  /-- Start of each self-test that runs, and verdicts that wait for the next tick: slice and failing phase (R561). -/
  tests : Tab (Option Nat) := []
  verdicts : List (Nat × Option Nat) := []
  /-- Outputs to shed by command, and shed outputs whose restoring was commanded (R563). -/
  shedReq : List Nat := []
  resumeReq : List Nat := []
  /-- Bindings that wait for their outputs' take-up points (R148), by output. -/
  rebind : Tab (Option Rebind) := []
  /-- Lead of an output that a shed left without a slice: that of its last binding (R148). -/
  leads : Tab (Option Nat) := []
  /-- Channels fenced since the last commit that applied plans (R567), and the plans. -/
  newFence : List Nat := []
  plans : Tab Plan := []
  /-- Times of the uncorrectable errors of each channel in the last 1 s (R566). -/
  ueTimes : Tab (List Nat) := []
  /-- Capture that ended and is not yet good: buffer, and whether it was spoilt (R565). -/
  capEnd : Tab (Option (Nat × Bool)) := []
  capBad : Tab Bool := []
  /-- Buffer that the next capture writes, and the tick after which one is due. -/
  capNext : Tab Nat := []
  capDue : Tab Bool := []
deriving DecidableEq, Repr, Inhabited

/-! ### Structure images, long operations, start-up (chapter 17) -/

/-- Phase of a structure load (R502). -/
inductive LopPhase where
  | check | wait | apply
deriving DecidableEq, Repr, Inhabited

/-- A long-operation slot beside its registers. -/
structure Lop where
  phase : LopPhase := .check
  /-- A partial load's target tick (R495). -/
  target : Nat := 0
  /-- Timebase at which it last began to run, or made progress. -/
  at_ : Nat := 0
  /-- When the signature check of an IMAGE_VERIFY ends, once it has been requested (R525). -/
  sig : Option Nat := none
deriving DecidableEq, Repr, Inhabited

/-- The boot sequencer (R510, R512, R519). -/
structure Boot where
  /-- It works on a set that the host placed. -/
  host : Bool := false
  /-- SRAM address of the manifest. -/
  man : Nat := 0
  /-- The boot of a COLD_TRIAL set (R534). -/
  trial : Bool := false
  /-- After phase 11 the record FELL_BACK_RESET is due (R519). -/
  fellBack : Bool := false
deriving DecidableEq, Repr, Inhabited

/-! ### Update and security (chapter 18) -/

/-- What a control-record program completes (R519, R530 to R534). -/
inductive RecWhy where
  | disarm | cold | confirm | window | coldWindow | bootReset
deriving DecidableEq, Repr, Inhabited

/-- A control record being programmed: its fields of Table 18-3. -/
structure RecWrite where
  active : Nat := 0
  state : Nat := 0
  trialSet : Nat := 0
  booted : Nat := 0xFF
  last : Nat := 0
  why : RecWhy := .disarm
deriving DecidableEq, Repr, Inhabited

/-- The UPD block beside its registers. -/
structure UpdSt where
  /-- SRAM address of the manifest last verified. -/
  man : Nat := 0
  /-- The record being programmed. -/
  rec_ : Option RecWrite := none
  /-- Target tick of an arming (R530). -/
  target : Nat := 0
  /-- The trial is a cold one (R534), and its window has started. -/
  cold : Bool := false
  started : Bool := false
  confirmLo : Word := 0
  /-- SET_ID that ran before the trial. -/
  prevId : Nat := 0
  /-- REVERT waits for a commit that is not held (R533). -/
  revert : Bool := false
  /-- The area that arming loaded (R530). -/
  newArea : Bool := false
  /-- CCLK count of the commit decision that ended the trial window (R533). -/
  endedAt : Option Nat := none
deriving DecidableEq, Repr, Inhabited

/-- A verification queued at the ECDSA verifier: addresses in bank 95 of key, digest and signature (R525). -/
structure VfyJob where
  key : Nat := 0
  hash : Nat := 0
  sig : Nat := 0
  /-- Timebase of its start. -/
  at_ : Nat := 0
deriving DecidableEq, Repr, Inhabited

/-- A TRNG request (R544). -/
structure RngReq where
  tag : Nat := 0
  addr : Nat := 0
  blocks : Nat := 0
  done : Nat := 0
deriving DecidableEq, Repr, Inhabited

/-- The SEC block beside its registers. -/
structure Sec where
  /-- When the wipe in progress (re)started. -/
  wipeAt : Option Nat := none
  /-- Target of the lifecycle change in progress (R539). -/
  lc : Option Nat := none
  vfy : Option VfyJob := none
  /-- When the verifier has served the requests that have come (R525). -/
  vfyEnd : Nat := 0
  rng : List RngReq := []
  /-- Blocks formed during a wipe and written after it (R544). -/
  rngWait : Nat := 0
  /-- Timebase at which the start-up test, or the block being formed, began (R543). -/
  rngAt : Nat := 0
  /-- Monitors whose condition persists (R542). -/
  tampering : List Nat := []
deriving DecidableEq, Repr, Inhabited

/-! ### Debug (chapter 20) -/

/-- A DBGACC access in progress: word index, write, data (R576). -/
structure DbgAcc where
  index : Nat := 0
  write : Bool := false
  data : Word := 0
deriving DecidableEq, Repr, Inhabited

/-- The TAP and the debug bus master (R574 to R588). -/
structure Dbg where
  /-- The instruction in force: its code of Table 20-1. -/
  ir : Nat := 2
  /-- Boundary cells of the GPIO balls: drive and value. -/
  cells : Tab PadHold := []
  /-- The boundary cells as a scan sampled them, by cell. -/
  sampled : Tab Bool := []
  acc : Option DbgAcc := none
  /-- CCLK count when the memory access in progress began. -/
  since : Nat := 0
  rdata : Word := 0
  err : Bool := false
  /-- What the data register in use loaded at the last Capture-DR (R575, R576). -/
  dr : Nat := 0
deriving DecidableEq, Repr, Inhabited

/-- Power and resets (R18, R595 to R597). -/
structure Power where
  /-- POR_N is low, or VDD_AON is out of range. -/
  por : Bool := false
  /-- CORE_RST_N is low; the core rails are off. -/
  coreRst : Bool := false
  coreOff : Bool := false
deriving DecidableEq, Repr, Inhabited

/-! ### Changes of a sluice unit -/

/-- What a change does to its word of a sluice unit: a value under the mask, the bits of the mask inverted (R172, mode 5), or the staged
word at `src` (R170). -/
inductive SlAct where
  | put
  | flip
  | copy (src : Nat)
deriving DecidableEq, Repr, Inhabited

/-- A change of a word of a sluice unit (R167 to R170). -/
structure SlChange where
  /-- The CCLK edge at which it reaches the unit, in 1/120 ns of the timebase (R168). -/
  arrives : Nat := 0
  /-- Its kind (R169): 1 a write of the word, 4 SL_LCOMMIT, 5 SL_LEN_SET or SL_LEN_CLR, 6 a pin route. -/
  kind : Nat := 1
  /-- Its source: 0 the Damsel engine, 1 + c core `c`, 15 the host; of a pin route, the route. -/
  src : Nat := 15
  /-- The word, by BAR0 offset. -/
  off : Nat := 0
  mask : Word := 0
  val : Word := 0
  act : SlAct := .put
  /-- The word before this change. -/
  old : Word := 0
deriving DecidableEq, Repr, Inhabited

/-! ### The whole machine -/

/-- An event that an event input or a capture can select. -/
inductive Ev where
  | pinRise (p : Nat) | pinFall (p : Nat) | pioFlag (e : Nat) | tmrFire (c : Nat) | tick | frameStart (n : Nat) | flip (n : Nat)
deriving DecidableEq, Repr

/-- What reaches its place on a CCLK edge to come: a core's write of a sluice route, value and mask (R168), or an event that a Damsel input
may select (R227). -/
inductive Later where
  | route (out i : Nat) (v mask : Word)
  | event (e : Ev)
deriving DecidableEq, Repr

/-- What the engines keep in an SRAM partition to which the spec gives no byte layout (R465, R469). -/
inductive RawPart where
  | index (l : List Index) (b : Option Build)
  | cache (c : Tab (List CLine)) (l : Tab (List Byte))
  | line (s : Tab Slice) (v : Tab VidPlane) (m : Tab MxOut)
  | audio (sig env : Tab Int)
  | pond (l : List Rec)
deriving DecidableEq, Repr

/-- Bytes that port B has stored in such a partition, and what the engines held there after it: while they hold the same, the bytes read
back (R469). -/
structure RawKeep where
  addrs : List Nat
  held : RawPart
deriving DecidableEq, Repr

/-- Everything of the machine but its memories and its queue. -/
structure Dev where
  /-- Every register's read-back word, by BAR0 offset (an unlisted register holds its reset word). -/
  regs : Tab Word := []
  /-- The value in force of a register whose read-back and effect differ (R15, R616, the live values of R118, R180, R214). -/
  inForce : Tab Word := []
  /-- Frame values of committed epochs still to be taken up, newest first (R118). -/
  frames : List FrameSet := []
  /-- Scheduled settings, by the block's CTRL offset (R15). -/
  upds : Tab (Option Upd) := []
  /-- TG_PHASE of each output as the structure image gives it (after R50). -/
  imgPhase : Tab Nat := []
  /-- Blocks that the structure image fixes at the basic level, by CTRL offset (R16). -/
  fixed : List Nat := []
  /-- Shadows that a LO read loads, by the offset of the register that returns them (R59). -/
  shadow : Tab (Option Word) := []
  /-- The data of the last register read (R8). -/
  rdata : Word := 0
  /-- Index of the next free value: the model's own, no register of the part (log entry 2). -/
  free : Nat := 0
  /-- The 64-bit timebase, ns since POR_N (R407). -/
  tb : Nat := 0
  tick : Tick := {}
  tg : Tab Tg := []
  intc : Tab Intc := []
  /-- Pending MSI-X vectors: the pending-bit array (R404). -/
  msixPend : Tab Bool := []
  tmr : Tab TmrCh := []
  obj : ObjSt := {}
  tile : TileSt := {}
  slice : Tab Slice := []
  /-- Word-addressed windows beside the registers, by BAR0 offset: sluice pattern stores (R164), table windows (R209, bank 1 at
  2^32 above), Damsel and PIO program memories, AUX buffers, audio parameters, the MSI-X table. -/
  aux : Tab Word := []
  /-- Recent changes of sluice registers and pattern words, in the order in which they are applied (R167 to R169). -/
  slLog : List SlChange := []
  /-- Damsel writes of live values: the CCLK edge at which each enters, register, value, mask (R119, R216). -/
  dmLog : List (Nat × Nat × Word × Word) := []
  mx : Tab MxOut := []
  /-- Video line memories, by slice * 2 + plane (R185). -/
  vid : Tab VidPlane := []
  dm : Tab Dm := []
  fl : Tab Fl := []
  /-- Slices whose Fantail check is requested and not yet made (R202, R556). -/
  ftReq : List Nat := []
  dma : Tab DmaCh := []
  /-- Where round robin goes on in each class of DMA channels: DMA0 to DMA7, and the others (R417). -/
  dmaHi : Nat := 0
  dmaLo : Nat := 8
  /-- A structure load has completed (R396). -/
  loaded : Bool := false
  /-- Hopper sources 219 to 222 whose condition has arisen and whose raise is due (Table 8-5). -/
  news : List Nat := []
  /-- Cores whose sleep a debugger emulates (R586). -/
  emuIdle : Tab Bool := []
  /-- Words that hold an uncorrectable error (R228, R457, R468): on-chip windows by BAR0 offset, SRAM words at 2^32 above their
  address, TCM words at 2^40 above theirs, LPDDR5X words at 2^48 above. -/
  badWords : List Nat := []
  aud : Aud := {}
  hop : Hop := {}
  ring : Ring := {}
  /-- Writes to host memory that wait for Bus Master Enable, oldest first (R483). -/
  hostq : List HostWr := []
  /-- Configuration space of the endpoint (R479). -/
  pcie : Pcie := {}
  /-- Write-backs and markers of LOC 1 rings that wait for a bank of the SRAM window to wake, oldest first (R471). -/
  winq : List HostWr := []
  /-- The availability log, oldest first (R569), and the correctable errors of the tick by bank, or 96 + core: count and first
  address (R569). -/
  avlog : List (List Word) := []
  ceLog : Tab (Nat × Nat) := []
  /-- MSI-X enable of configuration space (R404). -/
  msixEn : Bool := false
  /-- A blitter's watermark has fired in its operation; its source pixels as they were at the start, where the surfaces overlap
  (R434, R438). -/
  bltWm : Tab Bool := []
  bltSrc : Tab (Option (List Nat)) := []
  /-- The CCLK edge of each blitter's last START (R436). -/
  bltAt : Tab Nat := []
  /-- When each waking bank began to wake, plus 1 (R471). -/
  wakeAt : Tab Nat := []
  /-- Bytes of the last memory read of the host (R480, R481). -/
  rbytes : List Byte := []
  /-- CCLK counted since POR_N, in thousandths (R25). -/
  cclk : Nat := 0
  /-- What is on its way, with the CCLK edge on which it arrives, oldest first (R168, R227). -/
  later : List (Nat × Later) := []
  pins : Pins := {}
  pio : Tab PioEng := []
  core : Tab Core := []
  /-- Core flags 0 to 255 (Table 12-7). -/
  coreFlags : Tab Bool := []
  /-- Cores started by SYS_CORE_START whose copies still run, in order (R513), and restarts that follow one another (R531). -/
  startQ : List Nat := []
  restartQ : List (Nat × Bool) := []
  /-- Structured words that hold an uncorrectable error (Table 19-2). -/
  ue : List UeAt := []
  av : Av := {}
  lop : Tab Lop := []
  boot : Boot := {}
  upd : UpdSt := {}
  sec : Sec := {}
  dbg : Dbg := {}
  power : Power := {}
  /-- Line-buffer share of each slice in pixels (the image's, R151). -/
  lineShare : Tab Nat := []
  /-- The sections of the structure in force, those of partial images laid over the full one's (R493). -/
  strSecs : StructSecs := []
  /-- DAMSEL and AUDIO sections of a partial image act later than its commit (Table 17-3): registers and words that wait for the
  output's first take-up point (by output), and sections that wait for the next audio run. -/
  dmWait : Tab (List (Nat × Word)) := []
  audWait : List SectionData := []
  /-- What port B has last stored in the partitions of no stated layout, by partition (R469). -/
  rawKeep : Tab (Option RawKeep) := []
deriving DecidableEq, Repr, Inhabited

/-- The memories, by the space an address lies in. -/
inductive MemSp where
  /-- the 96 SRAM banks (R465) -/
  | sram
  /-- LPDDR5X (R472) -/
  | lpddr
  /-- host memory as this device's requests see it -/
  | host
  /-- the tightly coupled memories: core c at c * 2^20, instruction TCM first, data TCM at 2^17 above (R371) -/
  | tcm
  /-- the xSPI flash -/
  | flash
  /-- the one-time-programmable fuses, one byte for eight -/
  | otp
deriving DecidableEq, Repr

/-- All addressed memory, each space a canonical list of cells. -/
structure Mem where
  sram : List Host.Cell := []
  lpddr : List Host.Cell := []
  host : List Host.Cell := []
  tcm : List Host.Cell := []
  flash : List Host.Cell := []
  otp : List Host.Cell := []
deriving DecidableEq, Repr, Inhabited

/-- The machine's state. -/
structure State where
  /-- Commands waiting, first in first out. -/
  pending : List Instr := []
  mem : Mem := {}
  d : Dev := {}
deriving DecidableEq, Repr

/-- Why a command stops with a fault. -/
inductive Fault where
  /-- Raised by the meaning of every command one of whose operands names what the part does not have: an output, a slice, a core, a
  ring, a register or a bit beyond the ranges of the register tables, or a BAR0 offset beyond its 64 MiB (`Instr.wf` is false).  Safe:
  no such command can be given to the part, and nothing is proved of its effect. -/
  | noSuchUnit
deriving DecidableEq, Repr

/-- Why a command is refused. -/
inductive Refusal where
  /-- Raised by an arm of the dispatch whose command has no meaning yet.  Safe: nothing can be proved of such a command. -/
  | notModelled (mnemonic : String)
deriving DecidableEq, Repr

/-- The machine right after reset: POR_N and CORE_RST_N both released, no boot phase run, nothing loaded (R18, R510). -/
def State.reset : State := {}

end Sys2Proof.Machine
end

