-- ==== Sys2Proof/Machine/Ops.lean ====
section
/-!
DEFINITION. The named operations over the register file and the indexed stores, and the raising of interrupt events (R8, R395 to
R406).  Every other file reads and writes registers through these.
-/

namespace Sys2Proof.Machine

/-! ### Numbers -/

/-- `w` bits of `v` from bit `lo`. -/
def bits (v lo w : Nat) : Nat := v / 2 ^ lo % 2 ^ w

/-- `v` with `w` bits from bit `lo` replaced by `x`. -/
def setBits (v lo w x : Nat) : Nat :=
  v - bits v lo w * 2 ^ lo + x % 2 ^ w * 2 ^ lo

/-- Is the core domain out of reset and powered? -/
def Dev.coreUp (d : Dev) : Bool := !d.power.por && !d.power.coreRst && !d.power.coreOff

/-- Does the always-on domain run? -/
def Dev.aonUp (d : Dev) : Bool := !d.power.por

/-- `v` with `n` bits from bit `lo` replaced by `x`. -/
def fieldWord (v : Word) (lo n x : Nat) : Word := BitVec.ofNat 32 (setBits v.toNat lo n x)

/-- The low `w` bits of `v` read as a two's-complement number. -/
def signed (w v : Nat) : Int :=
  let u := v % 2 ^ w
  if u < 2 ^ (w - 1) then (u : Int) else (u : Int) - (2 ^ w : Nat)

/-- `i` brought between `lo` and `hi`. -/
def clampI (lo hi i : Int) : Int := max lo (min hi i)

/-- `i` as a two's-complement word. -/
def wordOfInt (i : Int) : Word := BitVec.ofInt 32 i

/-- Ceiling of a quotient. -/
def ceilDiv (a b : Nat) : Nat := (a + b - 1) / b

/-- The 64-bit tick number meant by the 32-bit `low` when `now` is the tick in force (R618): the nearest, the later if two are
equally near. -/
def serialTick (now low : Nat) : Nat :=
  let d := (low + 2 ^ 32 - now % 2 ^ 32) % 2 ^ 32
  if d ≤ 2 ^ 31 ∨ now + d < 2 ^ 32 then now + d else now + d - 2 ^ 32

/-! ### The register file -/

/-- The register word at `a`. -/
def Dev.rg (d : Dev) (a : Nat) : Word := Tab.get Reg.resetWord d.regs a

/-- The register word at `a`, for a register whose reset word is 0: the same as `rg` without looking the reset word up. -/
def Dev.raw (d : Dev) (a : Nat) : Nat := (Tab.at 0 d.regs a : Word).toNat

/-- Store a register word. -/
def Dev.sg (d : Dev) (a : Nat) (v : Word) : Dev := { d with regs := Tab.set Reg.resetWord d.regs a v }

/-- A field of a register: `w` bits from bit `lo`. -/
def Dev.fd (d : Dev) (a lo w : Nat) : Nat := bits (d.rg a).toNat lo w

/-- Store a field of a register. -/
def Dev.sf (d : Dev) (a lo w v : Nat) : Dev := d.sg a (BitVec.ofNat 32 (setBits (d.rg a).toNat lo w v))

/-- One bit of a register. -/
def Dev.bt (d : Dev) (a i : Nat) : Bool := (d.rg a).getLsbD i

/-- Set one bit of a register. -/
def Dev.sb (d : Dev) (a i : Nat) : Dev := d.sg a (d.rg a ||| (1#32 <<< i))

/-- Clear one bit of a register. -/
def Dev.cb (d : Dev) (a i : Nat) : Dev := d.sg a (d.rg a &&& ~~~ (1#32 <<< i))

/-- Store one bit of a register. -/
def Dev.pb (d : Dev) (a i : Nat) (b : Bool) : Dev := if b then d.sb a i else d.cb a i

/-- Add `n` to a wrapping counter register. -/
def Dev.add (d : Dev) (a n : Nat) : Dev := d.sg a (d.rg a + BitVec.ofNat 32 n)

/-- Add 1 to a wrapping counter register. -/
def Dev.inc (d : Dev) (a : Nat) : Dev := d.add a 1

/-- Raise a high-water register to `n` if that is larger. -/
def Dev.raiseTo (d : Dev) (a n : Nat) : Dev := if (d.rg a).toNat < n then d.sg a (BitVec.ofNat 32 n) else d

/-- The word in force of a register (R616). -/
def Dev.fr (d : Dev) (a : Nat) : Word := Tab.get Reg.resetWord d.inForce a

/-- Store the word in force of a register. -/
def Dev.sfr (d : Dev) (a : Nat) (v : Word) : Dev := { d with inForce := Tab.set Reg.resetWord d.inForce a v }

/-- A field of the word in force. -/
def Dev.ff (d : Dev) (a lo w : Nat) : Nat := bits (d.fr a).toNat lo w

/-- One bit of the word in force. -/
def Dev.fbt (d : Dev) (a i : Nat) : Bool := (d.fr a).getLsbD i

/-- The next free value's index is used up. -/
def Dev.useFree (d : Dev) : Dev := { d with free := d.free + 1 }

/-! ### Indexed stores -/

/-- Timing generator `n`. -/
def Dev.tgAt (d : Dev) (n : Nat) : Tg := Tab.at {} d.tg n

/-- Change timing generator `n`. -/
def Dev.onTg (d : Dev) (n : Nat) (f : Tg → Tg) : Dev := { d with tg := Tab.upd {} d.tg n f }

/-- Controller of core `c`. -/
def Dev.intcAt (d : Dev) (c : Nat) : Intc := Tab.at {} d.intc c

/-- Change the controller of core `c`. -/
def Dev.onIntc (d : Dev) (c : Nat) (f : Intc → Intc) : Dev := { d with intc := Tab.upd {} d.intc c f }

/-- Timer channel `c`. -/
def Dev.tmrAt (d : Dev) (c : Nat) : TmrCh := Tab.at {} d.tmr c

/-- Change timer channel `c`. -/
def Dev.onTmr (d : Dev) (c : Nat) (f : TmrCh → TmrCh) : Dev := { d with tmr := Tab.upd {} d.tmr c f }

/-- Output pipeline `n`. -/
def Dev.mxAt (d : Dev) (n : Nat) : MxOut := Tab.at {} d.mx n

/-- Change output pipeline `n`. -/
def Dev.onMx (d : Dev) (n : Nat) (f : MxOut → MxOut) : Dev := { d with mx := Tab.upd {} d.mx n f }

/-- A tick finds the MX_FMT word that waits (R197). -/
def MxOut.armFmt (m : MxOut) : MxOut :=
  match m.fmtPend with
  | some w => { m with fmtPend := none, fmtArmed := some w }
  | none => m

/-- The waiting MX_FMT word is in force, for an output that runs no frame (R15); it stays armed, so that the next frame is the first in it
(R203). -/
def MxOut.takeFmt (m : MxOut) : MxOut :=
  let m := m.armFmt
  match m.fmtArmed with
  | some w => { m with fmt := w }
  | none => m

/-- Slice `s`. -/
def Dev.sliceAt (d : Dev) (s : Nat) : Slice := Tab.at {} d.slice s

/-- Change slice `s`. -/
def Dev.onSlice (d : Dev) (s : Nat) (f : Slice → Slice) : Dev := { d with slice := Tab.upd {} d.slice s f }

/-- Line memory of video plane `p` in slice `s`. -/
def Dev.vidAt (d : Dev) (s p : Nat) : VidPlane := Tab.at {} d.vid (s * 2 + p)

/-- Change it. -/
def Dev.onVid (d : Dev) (s p : Nat) (f : VidPlane → VidPlane) : Dev := { d with vid := Tab.upd {} d.vid (s * 2 + p) f }

/-- Damsel engine of output `n`. -/
def Dev.dmAt (d : Dev) (n : Nat) : Dm := Tab.at {} d.dm n

/-- Change it. -/
def Dev.onDm (d : Dev) (n : Nat) (f : Dm → Dm) : Dev := { d with dm := Tab.upd {} d.dm n f }

/-- Flume port `n`. -/
def Dev.flAt (d : Dev) (n : Nat) : Fl := Tab.at {} d.fl n

/-- Change it. -/
def Dev.onFl (d : Dev) (n : Nat) (f : Fl → Fl) : Dev := { d with fl := Tab.upd {} d.fl n f }

/-- Change the tick generator. -/
def Dev.onTick (d : Dev) (f : Tick → Tick) : Dev := { d with tick := f d.tick }

/-! ### Interrupt events (R395 to R404) -/

/-- Is core `c` IDLE, asleep or in a debugger's emulated sleep (R403)? -/
def Dev.coreIdle (d : Dev) (c : Nat) : Bool := d.fd (Reg.KC_STAT c) 1 3 == 3 || Tab.at false d.emuIdle c

/-- Is source `s` enabled at controller `c`? -/
def Dev.intEnabled (d : Dev) (c s : Nat) : Bool := d.bt (Reg.INTC_EN c (s / 32)) (s % 32)

/-- Has an enabled source of group `g` at controller `c` a count other than 0 (R402)? -/
def Dev.groupBusy (d : Dev) (c g : Nat) : Bool :=
  (d.intcAt c).count.any (fun p => p.1 / 16 == g && p.2 != 0 && d.intEnabled c p.1)

/-- Put group `g` of controller `c` in a new state, shown in INTC_MOD.HELD. -/
def Dev.setGroup (d : Dev) (c g : Nat) (m : ModGroup) : Dev :=
  (d.onIntc c (fun i => { i with groups := Tab.put {} i.groups g m })).pb (Reg.INTC_MOD c g) 31 m.held

/-- One event of source `s` reaches controller `c` (R397, R402, R403).  An event of an enabled source may begin a hold; every event counted
in the group counts towards its release. -/
def Dev.intcEvent (d : Dev) (c s : Nat) : Dev :=
  let g := s / 16
  let cnt := Tab.at 0 (d.intcAt c).count s
  if 15 ≤ cnt then
    ((d.sb (Reg.INTC_STAT c) 1).sg (Reg.INTC_LAST_OVF c) (BitVec.ofNat 32 s)).inc (Reg.INTC_OVF_CNT c)
  else
    let m := Tab.at {} (d.intcAt c).groups g
    let modUs := d.fd (Reg.INTC_MOD c g) 0 16
    let modCnt := d.fd (Reg.INTC_MOD c g) 16 4
    let en := d.intEnabled c s
    let begins := decide (modUs ≠ 0) && en && !m.held && !d.groupBusy c g && !d.coreIdle c
    let m1 : ModGroup := if begins then { held := true, since := d.tb, events := 0 } else m
    let m2 : ModGroup := if m1.held then { m1 with events := m1.events + 1 } else m1
    let m3 : ModGroup := if m2.held && decide (modCnt ≠ 0) && decide (modCnt ≤ m2.events) then {} else m2
    (d.onIntc c (fun i => { i with count := Tab.put 0 i.count s (cnt + 1) })).setGroup c g m3

/-- The fixed fields of INT_ROUTE of source `s` (R396). -/
def routeFixed (s : Nat) : Word := if s = 2 then 0x1F else if s = 0 ∨ s = 3 then 0xF else 0

/-- The cores whose controllers receive source `s` (R396). -/
def Dev.routeCores (d : Dev) (s : Nat) : List Nat :=
  if s = 2 then [3] else if s = 3 then [0, 1, 2]
  else if d.loaded then (List.range 4).filter (fun c => d.bt (Reg.INT_ROUTE s) c) else []

/-- Deliver source `s` to the host (R404). -/
def Dev.hostEvent (d : Dev) (s : Nat) : Dev :=
  if d.loaded && decide (s ≠ 2) && d.bt (Reg.INT_ROUTE s) 4 then
    let d := d.sb (Reg.INT_HOST_PEND (s / 32)) (s % 32)
    { d with msixPend := Tab.put false d.msixPend (d.fd (Reg.INT_ROUTE s) 8 9) true }
  else d

/-- One event of source `s` (R395 to R397). -/
def Dev.raise (d : Dev) (s : Nat) : Dev :=
  ((d.routeCores s).foldl (fun d c => d.intcEvent c s) d).hostEvent s

/-- Source 0, at the controller of the core whose watchdog warned (R396). -/
def Dev.raiseAt (d : Dev) (c : Nat) : Dev := (d.intcEvent c 0).hostEvent 0

/-- Raise source `s` if `b`. -/
def Dev.raiseIf (d : Dev) (b : Bool) (s : Nat) : Dev := if b then d.raise s else d

/-- Is source `s` eligible at controller `c` (R398)? -/
def Dev.eligible (d : Dev) (c s : Nat) : Bool :=
  decide (Tab.at 0 (d.intcAt c).count s ≠ 0) && d.intEnabled c s &&
    (decide (s < 8) || !(Tab.at {} (d.intcAt c).groups (s / 16)).held)

/-- The lowest-numbered eligible source of controller `c` (R399). -/
def Dev.bestSource (d : Dev) (c : Nat) : Option Nat :=
  (((d.intcAt c).count.map (·.1)).filter (fun s => d.eligible c s)).min?

/-- The request line of controller `c` (R398). -/
def Dev.requestLine (d : Dev) (c : Nat) : Bool :=
  (d.intcAt c).active.isNone && (d.bestSource c).isSome

/-- A condition that hopper source `s` reports at its next raise (Table 8-5). -/
def Dev.note (d : Dev) (s : Nat) : Dev := if d.news.contains s then d else { d with news := s :: d.news }

/-- Raise hopper source `s` if its condition has arisen since the last raise.  A condition met while HOP_INT_EN masks the source stays due
for the first commit or build that may raise it (DESIGN CHOICE, log entry 90). -/
def Dev.raiseNews (d : Dev) (s : Nat) : Dev :=
  if d.news.contains s && d.bt Reg.HOP_INT_EN (s - 216) then
    ({ d with news := d.news.filter (fun x => x != s) } : Dev).raise s
  else d

/-- Set bit `i` of OBJ_STAT; a bit newly set is due for source 220. -/
def Dev.objStat (d : Dev) (i : Nat) : Dev := if d.bt Reg.OBJ_STAT i then d else (d.sb Reg.OBJ_STAT i).note 220

/-- Set bit `i` of TP_STAT; a bit newly set is due for source 221. -/
def Dev.tpStat (d : Dev) (i : Nat) : Dev := if d.bt Reg.TP_STAT i then d else (d.sb Reg.TP_STAT i).note 221

/-- Release every held group of controller `c` (a core that enters IDLE, R403). -/
def Dev.releaseGroups (d : Dev) (c : Nat) : Dev :=
  (List.range 32).foldl (fun d g => if (Tab.at {} (d.intcAt c).groups g).held then d.setGroup c g {} else d) d

/-! ### Events that Damsel, PIO and the captures select (R226, R227, R411, R458) -/

/-- Does the event match source code `src` and index `ix` of Table 7-5? -/
def Ev.matches (e : Ev) (src ix : Nat) : Bool :=
  match e with
  | .pinRise p => src == 1 && ix == p
  | .pinFall p => src == 2 && ix == p
  | .pioFlag g => src == 3 && ix == g
  | .tmrFire c => src == 4 && ix == c
  | .tick => src == 5
  | .frameStart n => src == 6 && ix == n
  | .flip _ => false

/-- Does the event match capture source `src` and index `ix` of Table 13-2? -/
def Ev.captures (e : Ev) (src ix : Nat) : Bool :=
  match e with
  | .pinRise p => (src == 1 || src == 3) && ix == p
  | .pinFall p => (src == 2 || src == 3) && ix == p
  | .tick => src == 4
  | .frameStart n => src == 5 && ix == n
  | .flip n => src == 6 && ix == n
  | .tmrFire c => src == 7 && ix == c
  | .pioFlag _ => false

/-- Add one event to 4-bit count `i` of a count register; above 15 it is lost and sets bit `ovBit` of `ov` (R226). -/
def Dev.countEvent (d : Dev) (reg i ov ovBit : Nat) : Dev :=
  if d.fd reg (4 * i) 4 = 15 then d.sb ov ovBit else d.sf reg (4 * i) 4 (d.fd reg (4 * i) 4 + 1)

/-- The Damsel event inputs that select the event count it (R226, R227). -/
def Dev.damselEvent (d : Dev) (e : Ev) : Dev :=
  (List.range 48).foldl (fun d n => (List.range 8).foldl (fun d i =>
    if e.matches (bits (d.raw (Reg.DM_EV_SEL n i)) 0 3) (bits (d.raw (Reg.DM_EV_SEL n i)) 4 7) then
      d.countEvent (Reg.DM_EV_CNT n) i (Reg.DM_EV_OVF n) i
    else d) d) d

/-- The PIO event inputs that select the event count it (R458). -/
def Dev.pioEvent (d : Dev) (e : Ev) : Dev :=
  (List.range 8).foldl (fun d g => (List.range 4).foldl (fun d i =>
    if e.matches (bits (d.raw (Reg.PIO_E_EV_SEL g i)) 0 3) (bits (d.raw (Reg.PIO_E_EV_SEL g i)) 4 7) then
      d.countEvent (Reg.PIO_E_EV_CNT g) i (Reg.PIO_E_EV_CNT g) (16 + i)
    else d) d) d

/-- One capture of value `v` enters channel `c` (R412). -/
def Dev.capture (d : Dev) (c v : Nat) : Dev :=
  let q := (d.tmrAt c).caps
  let d1 := d.raiseIf (d.bt (Reg.TMR_CH_CTRL c) 4) (309 + 2 * c)
  if q.length < 4 then (d1.onTmr c (fun t => { t with caps := q ++ [v] })).sf (Reg.TMR_CH_STAT c) 2 3 (q.length + 1)
  else
    let d2 := d.sb (Reg.TMR_CH_STAT c) 1
    if d.bt Reg.TMR_CFG 0 then
      (d2.onTmr c (fun t => { t with caps := q.drop 1 ++ [v] })).raiseIf (d.bt (Reg.TMR_CH_CTRL c) 4) (309 + 2 * c)
    else d2

/-- The channels whose capture source is the event capture `v` (R411). -/
def Dev.captureEvent (d : Dev) (e : Ev) (v : Nat) : Dev :=
  (List.range 16).foldl (fun d c =>
    if e.captures (bits (d.raw (Reg.TMR_CH_CTRL c)) 5 3) (bits (d.raw (Reg.TMR_CH_CTRL c)) 8 7) then d.capture c v else d) d

/-- The event happens: captures record `v`, Damsel and PIO inputs count.  So it is with an event that comes on the CCLK edge on which its
source is 2 CCLK old already: a raw pin value (R447), or the fire of a timer compare. -/
def Dev.event (d : Dev) (e : Ev) (v : Nat) : Dev :=
  ((d.captureEvent e v).damselEvent e).pioEvent e

/-- Put something on its way, to arrive on CCLK edge `e`. -/
def Dev.sendLater (d : Dev) (e : Nat) (x : Later) : Dev := { d with later := d.later ++ [(e, x)] }

/-- Is the byte at BAR0 offset `a` part of a store that is byte-addressable, and no register: a sluice pattern store or an AUX buffer (R178,
R296)? -/
def byteStore (a : Nat) : Bool :=
  (decide (0x600000 ≤ a) && decide (a < 0x6C0000)) || (decide (0x1000000 ≤ a) && decide (a < 0x100C000) && decide (0x200 ≤ a % 0x400))

/-- Is the word at BAR0 offset `a` one of a sluice pattern store (R171)? -/
def patternStore (a : Nat) : Bool := decide (0x600000 ≤ a) && decide (a < 0x6C0000)

/-- The slice that output-level events of output `n` name: the bound slice, the leading one of a gang (R138, R146). -/
def Dev.leadSlice (d : Dev) (n : Nat) : Nat := d.fd (Reg.SL_OUT_BIND n) 0 6

/-- Is output `n` the follower of a port gang (R147, R291)? -/
def Dev.portFollower (d : Dev) (n : Nat) : Bool := d.bt (Reg.SL_OUT_BIND n) 15 && decide (n % 2 = 1)

/-- Is `n` the leader of a port gang: its follower is n + 1 (R147)? -/
def Dev.portLeader (d : Dev) (n : Nat) : Bool := n % 2 == 0 && d.portFollower (n + 1)

/-- The output whose settings govern output `n`: the leader of a port gang (R147, R291). -/
def Dev.portLead (d : Dev) (n : Nat) : Nat := if d.portFollower n then n - 1 else n

/-- Raise source 56 + s of the slice bound to output `n`, the leading slice of a gang, if `b`; an output without a slice has no such
source (R99, R138, R187, R293). -/
def Dev.raiseSlice (d : Dev) (b : Bool) (n : Nat) : Dev := d.raiseIf (b && d.bt (Reg.SL_OUT_BIND n) 16) (56 + d.leadSlice n)

/-- The CCLK frequency in MHz: 500 while the PLL relocks (R25), else the point in force. -/
def Dev.cclkMHz (d : Dev) : Nat :=
  if d.bt Reg.SYS_CLK_STAT 2 then 500 else
  match d.fd Reg.SYS_CLK_STAT 0 2 with
  | 0 => 1000
  | 1 => 800
  | 2 => 600
  | _ => 500

/-- CCLK rising edges counted since POR_N. -/
def Dev.cclks (d : Dev) : Nat := d.cclk / 1000

/-- The number of the `n`-th CCLK rising edge that lies strictly after an instant (R614).  `t` is the instant in 1/120 ns of the timebase:
in that unit every CCLK edge falls on a whole number, at each of the four frequencies, so that an instant between two of them may be
rounded down. -/
def Dev.edgeAfter (d : Dev) (t n : Nat) : Nat :=
  ((120 * (d.cclk : Int) + ((t : Int) - 120 * d.tb) * d.cclkMHz) / 120000 + n).toNat

/-- The instant of CCLK edge `e` in 1/120 ns, at the present frequency. -/
def Dev.edgeTime (d : Dev) (e : Nat) : Nat := (120 * (d.tb : Int) + ((e * 1000 : Nat) - (d.cclk : Int)) * 120 / d.cclkMHz).toNat

/-- The number of the `n`-th CCLK rising edge that lies strictly after timebase value `t` (R614). -/
def Dev.cclkEdge (d : Dev) (t n : Nat) : Nat := d.edgeAfter (120 * t) n

/-- An event of another domain happens now: captures record `v` and PIO inputs count; the Damsel inputs count it 2 CCLK later (R227). -/
def Dev.eventNow (d : Dev) (e : Ev) (v : Nat) : Dev := ((d.captureEvent e v).pioEvent e).sendLater (d.cclkEdge d.tb 2) (.event e)

/-- The timebase value at which that edge has come: its own instant, rounded up to a whole ns (R614, log entry 69). -/
def Dev.cclkAfter (d : Dev) (t n : Nat) : Nat :=
  d.tb + ceilDiv (d.cclkEdge t n * 1000 - d.cclk) d.cclkMHz

end Sys2Proof.Machine
end

