-- ==== Sys2Proof/Machine/Memory.lean ====
section
/-!
DEFINITION. The memories: reading and writing bytes, and the working context in which a command collects its writes.  A command
never edits a memory list itself: it answers a list of byte writes, which `Mem.apply` stores in canonical form.
-/

namespace Sys2Proof.Machine

/-- What a byte that nothing has written reads as: 0 in every memory but the flash, which holds erased bytes, 0xFF (log entry 3).  The list of host memory holds what
the part has written there; a read of host memory returns a free value instead (`W.rd`). -/
def Mem.dflt : MemSp → Nat → Byte := fun sp _ => if sp = .flash then 0xFF else 0

/-- The cells of a space. -/
def Mem.cells (m : Mem) : MemSp → List Host.Cell
  | .sram => m.sram
  | .lpddr => m.lpddr
  | .host => m.host
  | .tcm => m.tcm
  | .flash => m.flash
  | .otp => m.otp

/-- The memory with the cells of one space replaced. -/
def Mem.setCells (m : Mem) (sp : MemSp) (l : List Host.Cell) : Mem :=
  match sp with
  | .sram => { m with sram := l }
  | .lpddr => { m with lpddr := l }
  | .host => { m with host := l }
  | .tcm => { m with tcm := l }
  | .flash => { m with flash := l }
  | .otp => { m with otp := l }

/-- One byte of a space. -/
def Mem.read (m : Mem) (sp : MemSp) (a : Nat) : Byte := Tab.get (Mem.dflt sp) (m.cells sp) a

/-- One byte write. -/
structure MWr where
  sp : MemSp
  addr : Nat
  val : Byte
deriving DecidableEq, Repr

/-- Store one byte. -/
def Mem.write (m : Mem) (w : MWr) : Mem := m.setCells w.sp (Tab.set (Mem.dflt w.sp) (m.cells w.sp) w.addr w.val)

/-- Store bytes in order. -/
def Mem.apply (m : Mem) (ws : List MWr) : Mem := ws.foldl Mem.write m

/-- All six memories are in canonical form. -/
def Mem.wf (m : Mem) : Bool :=
  Tab.wf (Mem.dflt .sram) m.sram && Tab.wf (Mem.dflt .lpddr) m.lpddr && Tab.wf (Mem.dflt .host) m.host &&
  Tab.wf (Mem.dflt .tcm) m.tcm && Tab.wf (Mem.dflt .flash) m.flash && Tab.wf (Mem.dflt .otp) m.otp

/-- The SRAM banks in a list hold zeros. -/
def Mem.zeroBanks (m : Mem) (l : List Nat) : Mem := { m with sram := m.sram.filter (fun c => !l.contains (c.1 / 2 ^ 21)) }

/-- The working context of a command that may write memory: the memory it began with, the SRAM banks it has zeroed, its writes since
(newest first) and the device. -/
structure W where
  m : Mem
  zero : List Nat := []
  ws : List MWr := []
  d : Dev

/-- One byte as the command now sees it; host memory belongs to another agent and returns a free value. -/
def W.rd (w : W) (sp : MemSp) (a : Nat) : Byte :=
  if sp = .host then Config.hostByte w.d.free a else
  match w.ws.find? (fun x => x.sp == sp && x.addr == a) with
  | some x => x.val
  | none => if sp = .sram ∧ w.zero.contains (a / 2 ^ 21) then 0 else w.m.read sp a

/-- All words of these SRAM banks are written with zeros and check bits (R510, R540). -/
def W.zeroBanks (w : W) (l : List Nat) : W :=
  { w with zero := l ++ w.zero
           ws := w.ws.filter (fun x => x.sp != .sram || !l.contains (x.addr / 2 ^ 21))
           d := { w.d with badWords := w.d.badWords.filter (fun k =>
             !(decide (2 ^ 32 ≤ k) && decide (k < 2 ^ 40) && l.contains ((k - 2 ^ 32) / 2 ^ 21))) } }

/-- Write one byte. -/
def W.wr (w : W) (sp : MemSp) (a : Nat) (v : Byte) : W := { w with ws := ⟨sp, a, v⟩ :: w.ws }

/-- Change the device. -/
def W.dev (w : W) (f : Dev → Dev) : W := { w with d := f w.d }

/-- `n` bytes from `a`, lowest first. -/
def W.rdBytes (w : W) (sp : MemSp) (a n : Nat) : List Byte := (List.range n).map (fun i => w.rd sp (a + i))

/-- Store bytes from `a` upward. -/
def W.wrBytes (w : W) (sp : MemSp) (a : Nat) (l : List Byte) : W :=
  (l.zip (List.range l.length)).foldl (fun w p => w.wr sp (a + p.2) p.1) w

/-- The little-endian number of a byte list (R7). -/
def leNat : List Byte → Nat
  | [] => 0
  | b :: l => b.toNat + 256 * leNat l

/-- The low `n` bytes of a number, lowest first (R7). -/
def leBytes : Nat → Nat → List Byte
  | 0, _ => []
  | n + 1, v => BitVec.ofNat 8 v :: leBytes n (v / 256)

/-- An `n`-byte little-endian number. -/
def W.rdN (w : W) (sp : MemSp) (a n : Nat) : Nat := leNat (w.rdBytes sp a n)

/-- Store an `n`-byte little-endian number. -/
def W.wrN (w : W) (sp : MemSp) (a n v : Nat) : W := w.wrBytes sp a (leBytes n v)

/-- A 32-bit word. -/
def W.rd32 (w : W) (sp : MemSp) (a : Nat) : Word := BitVec.ofNat 32 (w.rdN sp a 4)

/-- Store a 32-bit word. -/
def W.wr32 (w : W) (sp : MemSp) (a : Nat) (v : Word) : W := w.wrN sp a 4 v.toNat

/-- The context a command starts with. -/
def State.ctx (s : State) : W := { m := s.mem, d := s.d }

/-- The state after an effect on the device alone: no memory is written and no command taken or added. -/
def State.afterDev (s : State) (f : Dev → Dev) : State := { s with d := f s.d }

/-- A command whose effect writes no memory. -/
def State.dev (s : State) (f : Dev → Dev) : Host.Outcome State Fault Refusal := .next (s.afterDev f)

/-- Is a word in error written whole by these writes (R468, R475)?  Keys of `badWords`: SRAM and LPDDR5X words of 8 bytes, TCM words of
4. -/
def rewritten (ws : List MWr) (k : Nat) : Bool :=
  let all := fun (sp : MemSp) (a n : Nat) => (List.range n).all (fun i => ws.any (fun x => x.sp == sp && x.addr == a + i))
  if 2 ^ 48 ≤ k then all .lpddr (k - 2 ^ 48) 8
  else if 2 ^ 40 ≤ k then all .tcm (k - 2 ^ 40) 4
  else if 2 ^ 32 ≤ k then all .sram (k - 2 ^ 32) 8
  else false

/-- The state after an effect that may write memory: the writes collected are stored in order, and a word in error that they write whole
is in error no more. -/
def State.afterRun (s : State) (f : W → W) : State :=
  let w := f s.ctx
  { s with mem := (s.mem.zeroBanks w.zero).apply w.ws.reverse, d := { w.d with badWords := w.d.badWords.filter (fun k => !rewritten w.ws k) } }

/-- A command whose effect may write memory. -/
def State.run (s : State) (f : W → W) : Host.Outcome State Fault Refusal := .next (s.afterRun f)

/-- Installed LPDDR5X size in bytes (MEM_LP_SIZE, in MiB). -/
def Dev.lpSize (d : Dev) : Nat := d.fd Reg.MEM_LP_SIZE 0 17 * 2 ^ 20

/-- First byte of SRAM bank `b` (R465). -/
def bankBase (b : Nat) : Nat := b * 2 ^ 21

/-! ### Banks and their retention (R465, R470, R471) -/

/-- The banks that `n` bytes from SRAM address `a` touch. -/
def banksOf (a n : Nat) : List Nat := if n = 0 then [] else (List.range ((a + n - 1) / 2 ^ 21 - a / 2 ^ 21 + 1)).map (· + a / 2 ^ 21)

/-- STATE of a bank: 0 active, 1 retaining, 2 waking. -/
def Dev.bankState (d : Dev) (b : Nat) : Nat := d.fd (Reg.MEM_BANK_CTRL b) 1 2

/-- A bank in retention starts to wake (R471). -/
def Dev.wakeBank (d : Dev) (b : Nat) : Dev :=
  if d.bankState b = 1 then { (d.sf (Reg.MEM_BANK_CTRL b) 1 2 2) with wakeAt := Tab.put 0 d.wakeAt b (d.tb + 1) } else d

/-- Are all these banks usable? -/
def Dev.banksReady (d : Dev) (l : List Nat) : Bool := l.all (fun b => d.bankState b == 0)

/-- An access to these banks wakes those in retention. -/
def Dev.wakeBanks (d : Dev) (l : List Nat) : Dev := l.foldl Dev.wakeBank d

/-! ### LPDDR5X -/

/-- Channel of an LPDDR5X byte (R473). -/
def lpChannel (a : Nat) : Nat := bits a 8 3

/-- Is the channel of byte `a` fenced (R566)? -/
def Dev.fenced (d : Dev) (a : Nat) : Bool := d.bt (Reg.MEM_CH_STAT (lpChannel a)) 0

/-- A byte of LPDDR5X as a requester reads it: a fenced channel returns 0 (R566). -/
def W.lpByte (w : W) (a : Nat) : Byte := if w.d.fenced a then 0 else w.rd .lpddr a

/-- `n` bytes of LPDDR5X. -/
def W.lpRead (w : W) (a n : Nat) : List Byte := (List.range n).map (fun i => w.lpByte (a + i))

/-- Line fills in flight note what their lines hold before a write of `n` bytes from `a` (R133). -/
def W.noteFills (w : W) (a n : Nat) : W :=
  let fs := w.d.tile.fills.map (fun (f : Fill) =>
    if f.line * 128 < a + n ∧ a < f.line * 128 + 128 then { f with olds := f.olds ++ [w.lpRead (f.line * 128) 128] } else f)
  w.dev (fun d => { d with tile := { d.tile with fills := fs } })

/-- A write to LPDDR5X; a fenced channel discards its bytes (R566). -/
def W.lpWrite (w : W) (a : Nat) (l : List Byte) : W :=
  (l.zip (List.range l.length)).foldl (fun w (p : Byte × Nat) => if w.d.fenced (a + p.2) then w else w.wr .lpddr (a + p.2) p.1)
    (w.noteFills a l.length)

/-- A 32-bit word of LPDDR5X. -/
def W.lpWord (w : W) (a : Nat) : Word := BitVec.ofNat 32 (leNat (w.lpRead a 4))

/-! ### Words in error (R468, R475) -/

/-- Key in `badWords` of the SRAM word at `a` (R468). -/
def sramKey (a : Nat) : Nat := 2 ^ 32 + a / 8 * 8

/-- Key in `badWords` of the LPDDR5X word at `a` (R475). -/
def lpKey (a : Nat) : Nat := 2 ^ 48 + a / 8 * 8

/-- Does the SRAM word at `a` hold an uncorrectable error? -/
def Dev.sramBad (d : Dev) (a : Nat) : Bool := d.badWords.contains (sramKey a)

/-- Does one of `n` bytes from SRAM address `a` lie in such a word? -/
def Dev.sramBadIn (d : Dev) (a n : Nat) : Bool := d.badWords.any (fun k => decide (sramKey a ≤ k) && decide (k < 2 ^ 32 + a + n))

/-- Bytes of the run of `n` from `a` in a memory space (R415: 0 LPDDR5X, 1 SRAM) that a reader gets before it meets a word in error; host
memory reports its errors by itself, and a fenced channel reads zeros (R566). -/
def Dev.goodRun (d : Dev) (space a n : Nat) : Nat :=
  let base := if space = 0 then 2 ^ 48 else 2 ^ 32
  let lo := base + a / 8 * 8
  d.badWords.foldl (fun m k =>
    if space < 2 ∧ lo ≤ k ∧ k < base + a + m ∧ !(space == 0 && d.fenced (k - base)) then k - (base + a) else m) n

/-- Does a read of `n` bytes from `a` in a memory space meet a word in error (R468, R475)? -/
def Dev.meetsBad (d : Dev) (space a n : Nat) : Bool := decide (d.goodRun space a n < n)

/-- The bytes `l` that a read of the host from `a` returns: those of a word in error are free (the error is delivered with them, R468; what
they hold is open, log entry 48). -/
def W.deliver (w : W) (space a : Nat) (l : List Byte) : W × List Byte :=
  if !w.d.meetsBad space a l.length then (w, l) else
  let bytes := (l.zip (List.range l.length)).map (fun (p : Byte × Nat) =>
    if w.d.meetsBad space (a + p.2) 1 then BitVec.ofNat 8 (Config.freeWord (w.d.free + p.2)).toNat else p.1)
  (w.dev (fun d => { d with free := d.free + l.length }), bytes)

end Sys2Proof.Machine
end

