-- ==== Sys2Proof/Machine/Profile.lean ====
section
/-!
DEFINITION. Basic and expert control (R12 to R16, R615 to R617): the blocks, the setting each PROFILE selects, and the four kinds
of CTRL write.  The update point of each block is applied by the event that reaches it.
-/

namespace Sys2Proof.Machine

/-- The block's CTRL register. -/
def Block.ctrl : Block → Nat
  | .tick => Reg.TG_TICK_CTRL
  | .tg n => Reg.TG_CTRL n
  | .obj => Reg.OBJ_CTRL
  | .tp => Reg.TP_CTRL
  | .sl s => Reg.SL_CTRL s
  | .mx n => Reg.MX_CTRL n
  | .dm n => Reg.DM_CTRL n
  | .hop => Reg.HOP_CTRL
  | .fl n => Reg.FL_CTRL n
  | .ring => Reg.RING_CTRL
  | .aud => Reg.AUD_CTRL
  | .kc c => Reg.KC_CTRL c
  | .intc c => Reg.INTC_CTRL c
  | .tmr => Reg.TMR_CTRL
  | .dma => Reg.DMA_CTRL
  | .blt => Reg.BLT_CTRL
  | .gp => Reg.GP_CTRL
  | .pio => Reg.PIO_CTRL
  | .mem => Reg.MEM_CTRL
  | .sys => Reg.SYS_CTRL
  | .upd => Reg.UPD_CTRL
  | .sec => Reg.SEC_CTRL
  | .av => Reg.AV_CTRL
  | .dbg => Reg.DBG_CTRL

/-- The indices `i < n` for which `base + i * stride = a`. -/
def indexOf (base stride n a : Nat) : Option Nat :=
  if base ≤ a ∧ (a - base) % stride = 0 ∧ (a - base) / stride < n then some ((a - base) / stride) else none

/-- The block whose CTRL register lies at `a`. -/
def Block.ofCtrl (a : Nat) : Option Block :=
  if a = Reg.TG_TICK_CTRL then some .tick
  else if a = Reg.OBJ_CTRL then some .obj
  else if a = Reg.TP_CTRL then some .tp
  else if a = Reg.HOP_CTRL then some .hop
  else if a = Reg.RING_CTRL then some .ring
  else if a = Reg.AUD_CTRL then some .aud
  else if a = Reg.TMR_CTRL then some .tmr
  else if a = Reg.DMA_CTRL then some .dma
  else if a = Reg.BLT_CTRL then some .blt
  else if a = Reg.GP_CTRL then some .gp
  else if a = Reg.PIO_CTRL then some .pio
  else if a = Reg.MEM_CTRL then some .mem
  else if a = Reg.SYS_CTRL then some .sys
  else if a = Reg.UPD_CTRL then some .upd
  else if a = Reg.SEC_CTRL then some .sec
  else if a = Reg.AV_CTRL then some .av
  else if a = Reg.DBG_CTRL then some .dbg
  else
    (indexOf (Reg.TG_CTRL 0) 0x400 48 a).map .tg <|>
    (indexOf (Reg.SL_CTRL 0) 0x1000 52 a).map .sl <|>
    (indexOf (Reg.MX_CTRL 0) 0x800 48 a).map .mx <|>
    (indexOf (Reg.DM_CTRL 0) 0x100 48 a).map .dm <|>
    (indexOf (Reg.FL_CTRL 0) 0x400 48 a).map .fl <|>
    (indexOf (Reg.KC_CTRL 0) 0x1000 4 a).map .kc <|>
    (indexOf (Reg.INTC_CTRL 0) 0x1000 4 a).map .intc

/-- The block's status register, whose bit 0 is IGNWR. -/
def Block.stat (b : Block) : Nat := b.ctrl + 4

/-- LEVEL as the CTRL register holds it. -/
def Dev.level (d : Dev) (b : Block) : Bool := d.bt b.ctrl 0

/-- Width of PROFILE: eight bits in TG_CTRL, four elsewhere. -/
def Block.profileWidth : Block → Nat
  | .tg _ => 8
  | _ => 4

/-- PROFILE as a CTRL word carries it. -/
def Block.profileOf (b : Block) (w : Nat) : Nat := bits w 4 b.profileWidth

/-- A word made of fields given as (first bit, value). -/
def packFields (l : List (Nat × Nat)) : Word := BitVec.ofNat 32 (l.foldl (fun acc p => acc + p.2 * 2 ^ p.1) 0)

/-- The rates of Table 2-1: numerator and denominator in hertz. -/
def tickProfile : Nat → Option (Nat × Nat)
  | 0 => some (60, 1)
  | 1 => some (60000, 1001)
  | 2 => some (50, 1)
  | 3 => some (30, 1)
  | 4 => some (30000, 1001)
  | 5 => some (25, 1)
  | 6 => some (24, 1)
  | 7 => some (24000, 1001)
  | 8 => some (120, 1)
  | 9 => some (120000, 1001)
  | 10 => some (100, 1)
  | 11 => some (240, 1)
  | 12 => some (48, 1)
  | _ => none

/-- The timings of Table 2-2: H_ACTIVE, H_TOTAL, V_ACTIVE, V_TOTAL, HSYNC, VSYNC, PCLK NUM and DEN, PPC code. -/
def tgProfile : Nat → Option (Nat × Nat × Nat × Nat × Nat × Nat × Nat × Nat × Nat × Nat × Nat)
  | 0 => some (0, 0, 0, 0, 0, 0, 0, 0, 0, 1, 0)
  | 1 => some (1280, 1650, 720, 750, 1390, 1430, 725, 730, 297, 400, 0)
  | 2 => some (1920, 2200, 1080, 1125, 2008, 2052, 1084, 1089, 297, 200, 0)
  | 3 => some (1920, 2200, 1080, 1125, 2008, 2052, 1084, 1089, 1485, 1001, 0)
  | 4 => some (1920, 2640, 1080, 1125, 2448, 2492, 1084, 1089, 297, 200, 0)
  | 5 => some (3840, 4400, 2160, 2250, 4016, 4104, 2168, 2178, 297, 50, 0)
  | 6 => some (3840, 4400, 2160, 2250, 4016, 4104, 2168, 2178, 5940, 1001, 0)
  | 7 => some (3840, 5280, 2160, 2250, 4896, 4984, 2168, 2178, 297, 50, 0)
  | 8 => some (3840, 4400, 2160, 2250, 4016, 4104, 2168, 2178, 297, 50, 1)
  | 9 => some (3840, 4400, 2160, 2250, 4016, 4104, 2168, 2178, 5940, 1001, 1)
  | 10 => some (3840, 4400, 4320, 4500, 4016, 4104, 4328, 4338, 297, 50, 1)
  | _ => none

/-- The tone matrix of a profile: 14 fraction bits, the largest coefficient of each row adjusted so that the row sums to 16,384
(R195). -/
def toneMatrix (p : Nat) : List Int :=
  if p = 1 ∨ p = 2 ∨ p = 3 then [10280, 5395, 709, 1132, 15065, 187, 269, 1442, 14673]
  else if p = 4 ∨ p = 5 then [27204, -9627, -1193, -2041, 18561, -136, -298, -1648, 18330]
  else [16384, 0, 0, 0, 16384, 0, 0, 0, 16384]

/-- The registers that PROFILE `p` of a block sets, with their words; `none` for a reserved profile (R615).  `phase` is the
TG_PHASE that the structure image gives. -/
def Block.profile (b : Block) (p : Nat) (phase : Nat) : Option (List (Nat × Word)) :=
  match b with
  | .tick => (tickProfile p).map (fun r =>
      [(Reg.TG_TICK_RATE_NUM, BitVec.ofNat 32 r.1), (Reg.TG_TICK_RATE_DEN, BitVec.ofNat 32 r.2),
       (Reg.TG_TICK_SLEW, packFields [(0, 60), (16, 100)]), (Reg.TG_TICK_OUT_CFG, 125)])
  | .tg n => (tgProfile p).map (fun (ha, ht, va, vt, hs, he, vs, ve, pn, pd, ppc) =>
      [(Reg.TG_HTIMING n, packFields [(0, ha), (16, ht)]), (Reg.TG_VTIMING n, packFields [(0, va), (16, vt)]),
       (Reg.TG_HSYNC n, packFields [(0, hs), (16, he)]), (Reg.TG_VSYNC n, packFields [(0, vs), (16, ve)]),
       (Reg.TG_PCLK_NUM n, BitVec.ofNat 32 pn), (Reg.TG_PCLK_DEN n, BitVec.ofNat 32 pd), (Reg.TG_FMT n, BitVec.ofNat 32 ppc),
       (Reg.TG_PHASE n, BitVec.ofNat 32 phase)])
  | .obj => match p with
    | 0 => some [(Reg.OBJ_BOL_CFG, packFields [(0, 1), (4, 4096)])]
    | 1 => some [(Reg.OBJ_BOL_CFG, packFields [(4, 4096)])]
    | _ => none
  | .tp => match p with
    | 0 => some [(Reg.TP_MISS_CFG, 0)]
    | 1 => some [(Reg.TP_MISS_CFG, 1)]
    | 2 => some [(Reg.TP_MISS_CFG, packFields [(4, 8)])]
    | _ => none
  | .sl s => match p with
    | 0 => some [(Reg.SL_CFG s, 1)]
    | 1 => some [(Reg.SL_CFG s, 0)]
    | 2 => some [(Reg.SL_CFG s, 3)]
    | _ => none
  | .mx n =>
    if 8 ≤ p then none else
    -- the weights are given for SEL 1 alone; elsewhere they keep their reset value (log entry 20)
    let sel := p == 3 || p == 5 || p == 6 || p == 7
    some ([(Reg.MX_TM_EN n, if p = 0 then 0 else 15),
           (Reg.MX_TM_CW0 n, if sel then packFields [(0, 8608), (16, 22217)] else 0),
           (Reg.MX_TM_CW1 n, if sel then packFields [(0, 1943), (16, 1)] else 0)] ++
          ((List.range 9).zip (toneMatrix p)).map (fun q => (Reg.MX_TM_M n q.1, BitVec.ofInt 32 q.2 &&& 0xFFFF)))
  | .dm n => match p with
    | 0 => some [(Reg.DM_CFG n, 1)]
    | 1 => some [(Reg.DM_CFG n, 0)]
    | 2 => some [(Reg.DM_CFG n, 3)]
    | _ => none
  | .hop => match p with
    | 0 => some [(Reg.HOP_CFG, packFields [(0, 64), (8, 4095), (20, 75)])]
    | 1 => some [(Reg.HOP_CFG, packFields [(0, 1), (8, 4095), (20, 75)])]
    | 2 => some [(Reg.HOP_CFG, packFields [(0, 64), (8, 600), (20, 50)])]
    | _ => none
  | .fl n =>
    let mk := fun (rate lanes pkt sw post : Nat) =>
      some [(Reg.FL_CFG n, packFields [(0, rate), (4, lanes), (6, 1), (8, pkt)]), (Reg.FL_TX_EQ n, packFields [(0, sw), (8, post)])]
    match p with
    | 0 => mk 5 2 0 8 7
    | 1 => mk 4 2 0 8 6
    | 2 => mk 2 2 0 8 4
    | 3 => mk 0 2 0 4 0
    | 4 => mk 5 1 0 8 7
    | 5 => mk 2 2 2 8 4
    | _ => none
  | .ring =>
    let mk := fun (seg sw post : Nat) =>
      some [(Reg.RING_POLICY, packFields [(0, seg), (1, 1), (8, 2)]), (Reg.RING_TX_EQ, packFields [(0, sw), (8, post)])]
    match p with
    | 0 => mk 0 8 7
    | 1 => mk 1 8 7
    | 2 => mk 0 12 10
    | _ => none
  | .aud =>
    let mk := fun (delay hold : Nat) =>
      some [(Reg.AUD_CFG, packFields [(0, delay), (16, 64)]), (Reg.AUD_SIL_CFG, 265), (Reg.AUD_SIL_HOLD, BitVec.ofNat 32 hold)]
    match p with
    | 0 => mk 24 48000
    | 1 => mk 24 480000
    | 2 => mk 2400 240000
    | _ => none
  | .kc c => match p with
    | 0 => some [(Reg.KC_WDT_CFG c, packFields [(0, 100000), (31, 1)])]
    | 1 => some [(Reg.KC_WDT_CFG c, packFields [(0, 1000000), (31, 1)])]
    | 2 => some [(Reg.KC_WDT_CFG c, packFields [(0, 100000)])]
    | _ => none
  | .intc c =>
    let mk := fun (us cnt : Nat) =>
      some ((List.range 32).map (fun g => (Reg.INTC_MOD c g, if g = 0 then 0 else packFields [(0, us), (16, cnt)])))
    match p with
    | 0 => mk 0 0
    | 1 => mk 100 8
    | 2 => mk 1000 0
    | _ => none
  | .tmr => match p with
    | 0 => some [(Reg.TMR_CFG, 0)]
    | 1 => some [(Reg.TMR_CFG, 1)]
    | _ => none
  | .dma => match p with
    | 0 => some [(Reg.DMA_CFG, 2)]
    | 1 => some [(Reg.DMA_CFG, 4)]
    | 2 => some [(Reg.DMA_CFG, 0)]
    | _ => none
  | .blt => match p with
    | 0 => some [(Reg.BLT_CFG, 2)]
    | 1 => some [(Reg.BLT_CFG, 4)]
    | 2 => some [(Reg.BLT_CFG, 0)]
    | _ => none
  | .gp => match p with
    | 0 => some [(Reg.GP_FILT, 16)]
    | 1 => some [(Reg.GP_FILT, 256)]
    | 2 => some [(Reg.GP_FILT, 4095)]
    | _ => none
  | .pio => match p with
    | 0 => some [(Reg.PIO_GCFG, 0)]
    | 1 => some [(Reg.PIO_GCFG, 1)]
    | _ => none
  | .mem => match p with
    | 0 => some [(Reg.MEM_ARB_CFG, 20)]
    | 1 => some [(Reg.MEM_ARB_CFG, 40)]
    | 2 => some [(Reg.MEM_ARB_CFG, 5)]
    | _ => none
  | .sys =>
    let mk := fun (gap mbps : Nat) => some [(Reg.SYS_LOP_CFG, packFields [(0, gap), (8, mbps)])]
    match p with
    | 0 => mk 4 1000
    | 1 => mk 0 8000
    | 2 => mk 64 100
    | _ => none
  | .upd => match p with
    | 0 => some [(Reg.UPD_CFG, 3600)]
    | 1 => some [(Reg.UPD_CFG, 36000)]
    | 2 => some [(Reg.UPD_CFG, 600)]
    | _ => none
  | .sec => match p with
    | 0 => some [(Reg.SEC_RNG_CFG, 1024)]
    | 1 => some [(Reg.SEC_RNG_CFG, 2048)]
    | _ => none
  | .av =>
    let mk := fun (s t c rs : Nat) => some [(Reg.AV_CFG, packFields [(0, s), (12, t), (16, c), (24, 1), (25, rs), (26, 1)])]
    match p with
    | 0 => mk 10 3 2 1
    | 1 => mk 2 2 1 1
    | 2 => mk 60 8 4 0
    | _ => none
  | .dbg =>
    let mk := fun (t r : Nat) => some [(Reg.DBG_CFG, packFields [(0, t), (16, r)])]
    match p with
    | 0 => mk 64 1
    | 1 => mk 64 0
    | 2 => mk 1024 1
    | _ => none

/-- Store a list of register words, read-back side. -/
def Dev.sgAll (d : Dev) (l : List (Nat × Word)) : Dev := l.foldl (fun d p => d.sg p.1 p.2) d

/-- Store a list of register words, the side in force. -/
def Dev.sfrAll (d : Dev) (l : List (Nat × Word)) : Dev := l.foldl (fun d p => d.sfr p.1 p.2) d

/-- The TG_PHASE that the structure image gives for output `n`, or 300,000 ns (after R50). -/
def Dev.imagePhase (d : Dev) (n : Nat) : Nat := Tab.at 300000 d.imgPhase n

/-- The setting that the block's held PROFILE selects. -/
def Dev.derived (d : Dev) (b : Block) : List (Nat × Word) :=
  let ph := match b with
    | .tg n => d.imagePhase n
    | _ => 300000
  (b.profile (b.profileOf (d.rg b.ctrl).toNat) ph).getD []

/-- The expert registers of a block: those that its PROFILE 0 sets. -/
def Block.experts (b : Block) : List Nat := ((b.profile 0 0).getD []).map (·.1)

/-- The tables of output `n` in force: those of the window, except while a change of LEVEL from 0 to 1 waits (R13, R15). -/
def MxOut.tblNow (m : MxOut) : Tables := m.tblForce.getD m.tbl

/-- The tables that PROFILE `p` derives, the same in both banks (R206). -/
def Tables.ofProfile (p : Nat) : Tables := { p0 := p, p1 := p }

/-- The newest value of the frame-valued register at `a` for epoch `e`: the oldest set of epoch `e` or later that lists it, else the
newest (R118). -/
def Dev.frameValue (d : Dev) (a e : Nat) : Word :=
  match (d.frames.reverse.filter (fun f => decide (e ≤ f.epoch))).findSome?
      (fun f => if f.vals.any (fun p => p.1 == a) then some (Tab.at 0 f.vals a) else none) with
  | some v => v
  | none => d.rg a

/-- The epoch whose frame values output `n` uses: of the frame taken up, else of the frame in progress, else the newest (R118). -/
def Dev.frameEpoch (d : Dev) (n : Nat) : Nat := (((d.tgAt n).nxt <|> (d.tgAt n).cur).getD d.obj.epoch)

/-- The lines of the frame of output `n` that starts, whose build began before it, have its setting too: no frame shows two (R2, R13).
Lines of a frame that has ended are no longer with a slice. -/
def Dev.frameLines (d : Dev) (n : Nat) : Dev :=
  let put := fun (lw : LineWork) =>
    if lw.out = n then { lw with tbl := none, regs := (Block.mx n).experts.foldl (fun t a => Tab.set Reg.resetWord t a (d.fr a)) lw.regs } else lw
  let due := fun (o : Option LineDue) => o.map (fun (x : LineDue) => { x with work := put x.work })
  { d with slice := d.slice.map (fun (p : Nat × Slice) => (p.1, { p.2 with lines := p.2.lines.map put })) }.onMx n
    (fun m => { m with due := due m.due, shDue := due m.shDue })

/-- The MX setting takes effect (R13 to R15, R206): at the expert level the copied and since written words and tables, at the basic level
those that PROFILE derives, in every epoch; while a later change to the expert level waits, what it copied stays as it is. -/
def Dev.applyMx (d : Dev) (n : Nat) : Dev :=
  let b : Block := .mx n
  let waits := (Tab.at {} d.mx n).tblForce.isSome
  Dev.frameLines (n := n) <|
    if d.level b then
      let d := b.experts.foldl (fun d a => d.sfr a (d.frameValue a (d.frameEpoch n))) d
      d.onMx n (fun m => { m with tblForce := none })
    else
      let t := Tables.ofProfile (b.profileOf (d.rg b.ctrl).toNat)
      let d := (d.sgAll (d.derived b)).sfrAll (d.derived b)
      if waits then d.onMx n (fun m => { m with tblForce := some t })
      else
        { d.onMx n (fun m => { m with tbl := t }) with
          frames := d.frames.map (fun f => { f with vals := f.vals.filter (fun p => !b.experts.contains p.1) }) }

/-- The word that the block uses where an expert register holds `w`: SWING above 12 is taken as 12, PRE above 6 as 6, and POST above 12
as 12 (R295, R330); FLOOR above 80 as 80 (R489); BURST 5 to 7 as code 4 (R425, R441). -/
def takenWord (a : Nat) (w : Word) : Word :=
  if (indexOf (Reg.FL_TX_EQ 0) 0x400 48 a).isSome || a == Reg.RING_TX_EQ then
    packFields [(0, min 12 (bits w.toNat 0 4)), (4, min 6 (bits w.toNat 4 4)), (8, min 12 (bits w.toNat 8 4))]
  else if (indexOf (Reg.FL_CFG 0) 0x400 48 a).isSome && bits w.toNat 8 2 == 3 then w &&& ~~~0x300
  else if a = Reg.MEM_ARB_CFG then packFields [(0, min 80 (bits w.toNat 0 7))]
  else if a = Reg.DMA_CFG || a = Reg.BLT_CFG then packFields [(0, min 4 (bits w.toNat 0 3))]
  else w

/-- The setting of a block takes effect (its update point has come): at the expert level the words last written, at the basic
level the words derived from PROFILE (R12, R14, R15, R616). -/
def Dev.applySetting (d : Dev) (b : Block) : Dev :=
  match b with
  | .mx n => d.applyMx n
  | .ring =>
    -- RING_TX_EQ takes effect at the next training of the links (R330)
    if d.level .ring then d.sfr Reg.RING_POLICY (d.rg Reg.RING_POLICY)
    else
      let l := (d.derived .ring).filter (fun p => p.1 == Reg.RING_POLICY)
      (d.sgAll l).sfrAll l
  | _ =>
    if d.level b then (b.experts.foldl (fun d a => d.sfr a (takenWord a (d.rg a))) d)
    else (d.sgAll (d.derived b)).sfrAll (d.derived b)

/-- When a block's setting takes effect (R15 and each chapter's update-point rule). -/
inductive UpdatePoint where
  /-- at the write -/
  | atWrite
  /-- at the output's next frame start after the next mill tick, or at that tick if it runs no frame -/
  | frame (n : Nat)
  /-- at a later event of the block: the next tick, commit, build, run or access -/
  | later
deriving DecidableEq, Repr

/-- The update point of each block (R49, R108, R140, R175, R206, R232, R264, R295, R330, R364, R393, R421, R440, R462, R489,
R515, R545, R572, R589); a slice's is its output's, or the write when it is not live (R175). -/
def Dev.updatePoint (d : Dev) : Block → UpdatePoint
  | .tg n => .frame n
  | .mx n => .frame n
  | .dm n => .frame n
  | .fl n => .frame n
  | .sl s => if d.bt (Reg.SL_BIND s) 6 then .frame (d.fd (Reg.SL_BIND s) 0 6) else .atWrite
  | .obj => .later
  | .tp => .later
  | .hop => .later
  | .ring => .later
  | .aud => .later
  | .sys => .later
  | .upd => .later
  | .sec => .later
  | .av => .later
  | .dbg => .later
  | .dma => .later
  | .blt => .later
  | .tick => .later
  | .kc _ => .atWrite
  | .intc _ => .atWrite
  | .tmr => .atWrite
  | .gp => .atWrite
  | .pio => .atWrite
  | .mem => .atWrite

/-- A change of the block's setting is scheduled, or takes effect at once where the update point is the write. -/
def Dev.schedule (d : Dev) (b : Block) : Dev :=
  match d.updatePoint b with
  | .atWrite => d.applySetting b
  | _ => { d with upds := Tab.upd none d.upds b.ctrl (fun u => some { armed := u.bind Upd.armed }) }

/-- A write of LEVEL 0 discards the expert values, those too that a tick has kept for the update point (R14). -/
def Dev.discardExpert (d : Dev) (b : Block) : Dev :=
  let expert := fun (l : List (Nat × Word)) => ((l.find? (fun p => p.1 == b.ctrl)).map (·.2.getLsbD 0)).getD false
  let keep := fun (u : Upd) => { u with armed := u.armed.filter (fun l => !expert l) }
  let d := { d with upds := Tab.upd none d.upds b.ctrl (Option.map keep) }
  let d := match b with
    | .mx n => d.onMx n (fun m => { m with tbl := m.tblNow, tblForce := none })
    | _ => d
  b.experts.foldl (fun d a => d.sg a (d.fr a)) d

/-- The update point of block `b` has come: apply its scheduled setting, if any. -/
def Dev.reachUpdate (d : Dev) (b : Block) : Dev :=
  match Tab.at none d.upds b.ctrl with
  | none => d
  | some _ => { (d.applySetting b) with upds := Tab.put none d.upds b.ctrl none }

/-- The registers whose words a tick keeps for a change that waits: CTRL and the expert registers with that update point; those of MX have
frame values (R180). -/
def Block.kept (b : Block) : List Nat :=
  b.ctrl :: (match b with
    | .fl n => [Reg.FL_CFG n]
    | .mx _ => []
    | _ => b.experts)

/-- A mill tick passes for every scheduled change (R15, R616): the words it finds are those that take effect. -/
def Dev.tickUpdates (d : Dev) : Dev :=
  { d with upds := d.upds.map (fun (p : Nat × Option Upd) =>
      match p.2, Block.ofCtrl p.1 with
      | some u, some b => if u.fresh then (p.1, some { fresh := false, armed := some (b.kept.map (fun a => (a, d.rg a))) }) else p
      | _, _ => p) }

/-- Run `f` with the words that a tick kept.  CTRL reads what was last written to it, and so do the expert registers at the expert level
(R15, R616); what was written since the tick waits for its own. -/
def Dev.withKept (d : Dev) (b : Block) (u : Upd) (l : List (Nat × Word)) (f : Dev → Dev) : Dev :=
  let d1 := (f (d.sgAll l)).sg b.ctrl (d.rg b.ctrl)
  let d1 := if d.level b then b.experts.foldl (fun d1 a => d1.sg a (d.rg a)) d1 else d1
  -- FL_TX_EQ written at the expert level since is in force already (R295, R616)
  let d1 := match b with
    | .fl n =>
      let a := Reg.FL_TX_EQ n
      if d.level b && d.fr a == takenWord a (d.rg a) then d1.sfr a (d.fr a) else d1
    | _ => d1
  if u.fresh then { d1 with upds := Tab.put none d1.upds b.ctrl (some {}) } else d1

/-- A frame start of the block's output: a change scheduled before the last tick takes effect, by `f`. -/
def Dev.frameUpdateBy (d : Dev) (b : Block) (f : Dev → Dev) : Dev :=
  match Tab.at none d.upds b.ctrl with
  | some u => match u.armed with
    | some l => d.withKept b u l f
    | none => d
  | none => d

/-- The same where the change is the block's setting alone. -/
def Dev.frameUpdate (d : Dev) (b : Block) : Dev := d.frameUpdateBy b (fun d => d.reachUpdate b)

/-! ### The CTRL writes -/

/-- A CTRL write with its RW bits stored, PROFILE kept when the carried one is reserved (R615); with the flag whether it was. -/
def Dev.storeCtrl (d : Dev) (b : Block) (w : Word) : Dev × Bool :=
  let p := b.profileOf w.toNat
  let reserved := (b.profile p 0).isNone
  let w' := if reserved then BitVec.ofNat 32 (setBits w.toNat 4 b.profileWidth (b.profileOf (d.rg b.ctrl).toNat)) else w
  (d.sg b.ctrl w', reserved)

/-- The write of a reserved PROFILE sets IGNWR, or RATE_ERR for the tick and timing profiles (R615). -/
def Dev.flagReserved (d : Dev) (b : Block) (reserved : Bool) : Dev :=
  if reserved then
    match b with
    | .tick => d.sb Reg.TG_TICK_STAT 4
    | .tg n => d.sb (Reg.TG_STAT n) 1
    | _ => d.sb b.stat 0
  else d

/-- R16: the image fixes the block at the basic level and the write sets LEVEL. -/
def Dev.fixedRefuse (d : Dev) (b : Block) (w : Word) : Bool := d.fixed.contains b.ctrl && w.getLsbD 0

/-- A CTRL write of a block with no rules of its own (R12 to R16, R615 to R617); `mask` are the register's RW bits. -/
def Dev.blockCtrl (b : Block) (mask w : Word) (d : Dev) : Dev :=
  if d.fixedRefuse b w then d.sb b.stat 0 else
  let l0 := d.level b
  let l1 := w.getLsbD 0
  let p0 := b.profileOf (d.rg b.ctrl).toNat
  let (d1, reserved) := d.storeCtrl b (w &&& mask)
  let d1 := d1.flagReserved b reserved
  let p1 := b.profileOf (d1.rg b.ctrl).toNat
  match l0, l1 with
  | false, true =>
    let d2 := d1.sgAll (d1.derived b)
    let d2 := match b with
      | .mx n => d2.onMx n (fun m => { m with tbl := Tables.ofProfile p1, tblForce := some m.tblNow })
      | _ => d2
    d2.schedule b
  | true, false => (d1.discardExpert b).schedule b
  | false, false => if p0 = p1 then d1 else d1.schedule b
  | true, true => d1

/-- A write to an expert register of block `b` (R12, R616), already merged: ignored with IGNWR at the basic level. -/
def Dev.expertWrite (b : Block) (a : Nat) (w : Word) (d : Dev) : Dev :=
  if d.level b then (d.sg a w).schedule b else d.sb b.stat 0

/-- The block whose expert register the row at `a` describes. -/
def RegDesc.block (r : RegDesc) (a : Nat) : Option Block :=
  if r.expert then Block.ofCtrl (r.ctrl + (a - r.base) / r.s1 * r.ctrlStride) else none

/-- A write by the access codes of the register's table (R8, R9), under a byte mask. -/
def Dev.plainWrite (a : Nat) (v mask : Word) (d : Dev) : Dev :=
  match RegTable.find a with
  | none => d
  | some r =>
    let old := d.rg a
    let m := fun (x : Nat) => mask &&& BitVec.ofNat 32 x
    let new := (((old &&& ~~~ m r.rw) ||| (v &&& m r.rw)) &&& ~~~ (v &&& m r.w1c)) ||| (v &&& m r.w1s)
    match r.block a with
    | some b => d.expertWrite b a new
    | none => d.sg a new

end Sys2Proof.Machine
end

