-- ==== Sys2Proof/Machine/Transfer.lean ====
section
/-!
DEFINITION. The exact conversions of the tone profiles (R195, R196), in fixed point with 48 fraction bits, and the words of the tables that
PROFILE derives.  The standards that R196 names are ITU-R BT.709, BT.2020 and BT.2100; their constants stand here (log entry 10).
-/

namespace Sys2Proof.Machine

/-! ### Powers -/

/-- One, with 48 fraction bits. -/
def fxOne : Nat := 2 ^ 48

/-- Fraction bits of the binary logarithm of `m`, which lies from 1 to 2. -/
def log2Frac : Nat → Nat → Nat
  | 0, _ => 0
  | k + 1, m =>
    let q := m * m / fxOne
    if 2 * fxOne ≤ q then 2 ^ k + log2Frac k (q / 2) else log2Frac k q

/-- The binary logarithm of a positive number. -/
def log2Fx (x : Nat) : Int := ((Nat.log2 x : Int) - 48) * fxOne + log2Frac 48 (x * fxOne / 2 ^ Nat.log2 x)

/-- Integer square root, `k` bits long. -/
def sqrtBits : Nat → Nat → Nat → Nat
  | 0, _, r => r
  | k + 1, n, r => sqrtBits k n (if (r + 2 ^ k) * (r + 2 ^ k) ≤ n then r + 2 ^ k else r)

/-- 2 to the fraction `f`: `c` is 2 to the weight of its next bit. -/
def exp2Frac : Nat → Nat → Nat → Nat → Nat
  | 0, _, _, acc => acc
  | k + 1, c, f, acc => exp2Frac k (sqrtBits 50 (c * fxOne) 0) f (if f.testBit k then acc * c / fxOne else acc)

/-- 2 to the power `y`. -/
def exp2Fx (y : Int) : Nat :=
  let m := exp2Frac 48 (sqrtBits 50 (2 * fxOne * fxOne) 0) (y % fxOne).toNat fxOne
  let n := y / fxOne
  if 0 ≤ n then m * 2 ^ n.toNat else m / 2 ^ (-n).toNat

/-- `x` to the power p / q. -/
def powFx (x : Nat) (p : Int) (q : Nat) : Nat := if x = 0 then 0 else exp2Fx (log2Fx x * p / q)

/-- The natural logarithm of 2. -/
def fxLn2 : Nat := 195103586505167

/-! ### Transfer functions (R196) -/

/-- A decimal fraction. -/
def fxDec (num den : Nat) : Nat := num * fxOne / den

/-- SDR: a pure power of 2.4. -/
def sdrDecode (e : Nat) : Nat := powFx e 24 10
/-- Its inverse. -/
def sdrEncode (l : Nat) : Nat := powFx l 10 24

/-- PQ: display light as a fraction of 10,000 cd/m² (BT.2100). -/
def pqDecode (e : Nat) : Nat :=
  let n := powFx e 32 2523
  powFx ((n - fxDec 3424 4096) * fxOne / (fxDec 2413 128 - fxDec 2392 128 * n / fxOne)) 16384 2610

/-- Its inverse. -/
def pqEncode (l : Nat) : Nat :=
  let n := powFx l 2610 16384
  powFx ((fxDec 3424 4096 + fxDec 2413 128 * n / fxOne) * fxOne / (fxOne + fxDec 2392 128 * n / fxOne)) 2523 32

/-- HLG: the constants a, b and c of BT.2100. -/
def hlgA : Nat := fxDec 17883277 100000000
/-- b = 1 - 4a. -/
def hlgB : Nat := fxDec 28466892 100000000
/-- c = 0.5 - a ln 4a. -/
def hlgC : Nat := fxDec 55991073 100000000

/-- HLG: scene light of a signal. -/
def hlgDecode (e : Nat) : Nat :=
  if e ≤ fxOne / 2 then e * e / fxOne / 3
  else (exp2Fx (((e : Int) - hlgC) * fxOne / hlgA * fxOne / fxLn2) + hlgB) / 12

/-- Its inverse. -/
def hlgEncode (l : Nat) : Nat :=
  if 12 * l ≤ fxOne then powFx (3 * l) 1 2
  else (hlgA * (log2Fx (12 * l - hlgB) * fxLn2 / fxOne) / fxOne + hlgC).toNat

/-- Luminance with the weights of SEL 1 (R195). -/
def fxLuma (v : List Nat) : Nat := (8608 * v.getD 0 0 + 22217 * v.getD 1 0 + 1943 * v.getD 2 0) / 32768

/-- The HLG OOTF of system gamma 1.2: display light as a fraction of the nominal peak of 1,000 cd/m². -/
def hlgOotf (v : List Nat) : List Nat := v.map (fun e => powFx (fxLuma v) 2 10 * e / fxOne)

/-- Its inverse. -/
def hlgInvOotf (v : List Nat) : List Nat := v.map (fun e => if fxLuma v = 0 then 0 else powFx (fxLuma v) (-1) 6 * e / fxOne)

/-! ### The exact conversions (R195) -/

/-- The matrix of a profile; a negative result, an out-of-gamut colour, becomes 0 (R193). -/
def fxMatrix (p : Nat) (v : List Nat) : List Nat :=
  (List.range 3).map (fun r => ((List.range 3).map (fun c => (toneMatrix p).getD (3 * r + c) 0 * (v.getD c 0 : Int))).sum.toNat / 16384)

/-- The SDR level of a light `m`, a fraction of 1,000 cd/m² (Table 6-4, PROFILE 4): linear to 203 cd/m², a knee into the top of the range,
and clipped above; the level at 203 cd/m² and the knee's shape are free (log entry 10). -/
def kneeOf (m : Nat) : Nat :=
  let at203 := fxOne * (1 + Config.kneeLevel % 999) / 1000
  if 1000 * m ≤ 203 * fxOne then m * at203 / fxDec 203 1000
  else if fxOne ≤ m then fxOne
  else max at203 (min fxOne (Config.kneeCurve m))

/-- The components of a colour of level `m` after the knee. -/
def kneed (m : Nat) (v : List Nat) : List Nat := v.map (fun l => if m = 0 then 0 else min fxOne (l * kneeOf m / m))

/-- What PROFILE `p` makes of the 12-bit codes `v`, as fractions of the full code range: input, matrix, curve and output by Table 6-4.
Under PROFILE 3 the light of SDR white is free (log entry 10). -/
def exactTone (p : Nat) (v : List Nat) : Option (List Nat) :=
  let e := v.map (fun c => fxDec c 4095)
  match p with
  | 1 => some ((fxMatrix 1 (e.map sdrDecode)).map sdrEncode)
  | 2 => some ((fxMatrix 2 (e.map sdrDecode)).map (fun l => pqEncode (l * 203 / 10000)))
  | 3 => some ((hlgInvOotf ((fxMatrix 3 (e.map sdrDecode)).map (fun l => l * (1 + Config.sdrWhite % 1000) / 1000))).map hlgEncode)
  | 4 =>
    let l := fxMatrix 4 (e.map (fun c => pqDecode c * 10))
    some ((kneed (l.foldl max 0) l).map sdrEncode)
  | 5 =>
    let l := hlgOotf (fxMatrix 5 (e.map hlgDecode))
    some ((kneed (fxLuma l) l).map sdrEncode)
  | 6 => some ((hlgInvOotf (e.map (fun c => min fxOne (pqDecode c * 10)))).map hlgEncode)
  | 7 => some ((hlgOotf (e.map hlgDecode)).map (fun l => pqEncode (l / 10)))
  | _ => none

/-- A converted component brought to within 4 codes of the exact one (R195). -/
def within4 (exact v : Nat) : Nat := max (ceilDiv (4095 * exact) fxOne - 4) (min (4095 * exact / fxOne + 4) (min 4095 v))

/-! ### The derived tables (R195, R206, R209) -/

/-- Byte offsets of the table window that hold a table word (Table 6-9). -/
def tableListed (off : Nat) : Bool :=
  decide (off < 0x1004) || (decide (0x1400 ≤ off) && decide (off < 0x2404)) || (decide (0x2800 ≤ off) && decide (off < 0x3804)) ||
  (decide (0x3C00 ≤ off) && decide (off < 0x5C00) && decide ((off - 0x3C00) % 0x800 < 0x604)) ||
  (decide (0x5C00 ≤ off) && decide (off < 0x6C00) &&
    (if (off - 0x5C00) / 0x400 % 2 = 0 then true else decide ((off - 0x5C00) % 0x400 < 0x200)))

/-- Bits of the table word at `off` that are stored (R209): the last of 769 entries has its word to itself. -/
def tableMask (off : Nat) : Word :=
  let half : Word := if 0x3C00 ≤ off ∧ off < 0x5C00 ∧ (off - 0x3C00) % 0x800 = 0x600 then 0x0000FFFF else 0xFFFFFFFF
  (if off < 0x3C00 then 0x00FFFFFF else if off < 0x5400 then 0x0FFF0FFF else 0xFFFFFFFF) &&& half

/-- A free coefficient of a derived scaler table: entry `i` of phase `f`; those of V0 and V1 are one table.  The window of the windowed sinc
is not stated (log entry 10): the coefficient has the sign of the sinc at the tap's distance, is 0 at its zeros, and lies within its
envelope. -/
def scalerFree (vert : Bool) (f i : Nat) : Int :=
  let p := ((64 * (i : Int) - 64 * ((if vert then 4 else 8) / 2 - 1 : Nat)) - f).natAbs
  if p % 64 = 0 then 0 else
  let v : Int := ((Config.toneTable 0 (0x5C00 + (if vert then 0x400 + 8 * f + 2 * i else 16 * f + 2 * i))).toNat % (min 1024 (1024 * 64 / (3 * p)) + 1) : Nat)
  if p / 64 % 2 = 0 then v else -v

/-- A coefficient of a derived scaler table: the centre tap makes the sum of its phase 1,024 (R195). -/
def scalerCoef (vert : Bool) (f i : Nat) : Int :=
  let n := if vert then 4 else 8
  if i = n / 2 - 1 then 1024 - (((List.range n).filter (fun j => j != i)).map (scalerFree vert f)).sum else scalerFree vert f i

/-- The word at `off` that PROFILE `p` derives: the scaler tables, the same for every profile; gain 1 where Table 6-4 says so; and, free,
whatever else meets the bound of R195 (log entry 10). -/
def derivedWord (p off : Nat) : Word :=
  if 0x5C00 ≤ off then
    let o := (off - 0x5C00) % 0x800
    let vert := decide (0x400 ≤ o)
    let n := if vert then 4 else 8
    let k := o % 0x400 / 2
    packFields [(0, (BitVec.ofInt 16 (scalerCoef vert (k / n) (k % n))).toNat), (16, (BitVec.ofInt 16 (scalerCoef vert (k / n) (k % n + 1))).toNat)]
  else if 0x5400 ≤ off ∧ (p = 1 ∨ p = 2) then 0x10001000 &&& tableMask off
  else Config.toneTable p off &&& tableMask off

end Sys2Proof.Machine
end

