-- ==== Sys2Proof/Machine/Audio.lean ====
section
/-!
DEFINITION. Tailrace (chapter 11): voices, the graph, the TDM ports' values, safe loads, commands, silence and zones.
-/

namespace Sys2Proof.Machine

/-! ### Numbers (R333) -/

/-- Saturate to 32 bits (R333). -/
def sat32 (v : Int) : Int := clampI (-2147483648) 2147483647 v

/-- Full scale of a sink (R351). -/
def sat24 (v : Int) : Int := clampI (-8388608) 8388607 v

/-- A quotient whose rounding the spec does not state: exact when it divides, else either neighbour (log entry 15). -/
def roundQ (num : Int) (den : Nat) : Int :=
  if num % (den : Int) = 0 then num / (den : Int) else num / (den : Int) + (if Config.roundUp num den then 1 else 0)

/-- The gain in use (R338, R342). -/
def Ramp.now (r : Ramp) : Int :=
  if r.len ≤ r.i then r.goal else roundQ (r.start * ((r.len - r.i : Nat) : Int) + r.goal * (r.i : Int)) r.len

/-- One sample later. -/
def Ramp.step (r : Ramp) : Ramp := if r.len ≤ r.i then r else { r with i := r.i + 1 }

/-- Move towards a new target over `len` samples from the gain in use. -/
def Ramp.toward (r : Ramp) (goal : Int) (len : Nat) : Ramp :=
  if r.goal = goal then r else { start := r.now, goal := goal, len := len, i := 0 }

/-! ### The block -/

/-- Change the AUD block. -/
def Dev.onAud (d : Dev) (f : Aud → Aud) : Dev := { d with aud := f d.aud }

/-- Raise audio source `s` by its enable (R363). -/
def Dev.audRaise (d : Dev) (s : Nat) : Dev := d.raiseIf (d.bt Reg.AUD_INT_EN (s - 240)) s

/-- Raise audio source `s`, at most once per mill tick. -/
def Dev.audOnce (d : Dev) (s : Nat) : Dev :=
  if d.aud.once.contains s || !d.bt Reg.AUD_INT_EN (s - 240) then d
  else (d.onAud (fun a => { a with once := s :: a.once })).audRaise s

/-- Set bit `i` of AUD_STAT; GROUP_WR, PARAM_ERR and CFG_ERR newly set raise source 244 (Table 11-8). -/
def Dev.audStat (d : Dev) (i : Nat) : Dev :=
  if d.bt Reg.AUD_STAT i then d else
  let d := d.sb Reg.AUD_STAT i
  if 4 ≤ i then d.audRaise 244 else d

/-- PARAM_ERR. -/
def Dev.paramErr (d : Dev) : Dev := d.audStat 5

/-- Voice `v`. -/
def Dev.voiceAt (d : Dev) (v : Nat) : Voice := Tab.at {} d.aud.voices v

/-- Change voice `v`. -/
def Dev.onVoice (d : Dev) (v : Nat) (f : Voice → Voice) : Dev := d.onAud (fun a => { a with voices := Tab.upd {} a.voices v f })

/-- The signal `i`. -/
def Dev.sigAt (d : Dev) (i : Nat) : Int := Tab.at 0 d.aud.sig i

/-- Write signal `i` in the run. -/
def Dev.setSig (d : Dev) (i : Nat) (v : Int) : Dev :=
  d.onAud (fun a => { a with sig := Tab.put 0 a.sig i v, wrote := if a.wrote.contains i then a.wrote else i :: a.wrote })

/-! ### The parameter memory (R354, Table 11-17) -/

/-- The window offset of parameter `i`. -/
def paramOff (i : Nat) : Nat := 0x1210000 + 4 * i

/-- Parameter `i` in force. -/
def Dev.param (d : Dev) (i : Nat) : Word := Tab.at 0 d.aux (paramOff i)

/-- What Table 11-17 assigns an index: the bits it holds and whether it belongs to a group. -/
def paramKind (i : Nat) : Option (Word × Bool) :=
  if i < 0x1000 then (if i % 8 < 5 then some (0xFFFFFFFF, true) else none)
  else if i < 0x1040 then some (0x7FFFFF, false)
  else if 0x1100 ≤ i ∧ i < 0x1300 then
    match i % 8 with
    | 0 => some (3, true)
    | 1 => some (0xFFFFFF, true)
    | 7 => none
    | _ => some (0xFFFF, true)
  else if 0x2000 ≤ i ∧ i < 0x4000 then some (0xFFFF07FF, false)
  else none

/-- The signed gain of a crosspoint word (R342). -/
def xpGain (w : Word) : Int := signed 16 (w.toNat / 2 ^ 16)

/-- Store parameter `i`; a crosspoint whose gain changes starts to move (R342). -/
def Dev.setParam (d : Dev) (i : Nat) (v mask : Word) : Dev :=
  let m := match paramKind i with
    | some p => p.1
    | none => 0
  let old := d.param i
  let new := ((old &&& ~~~mask) ||| (v &&& mask)) &&& m
  let d := { d with aux := Tab.put 0 d.aux (paramOff i) new }
  if 0x2000 ≤ i ∧ xpGain old ≠ xpGain new then
    let r : Ramp := (Tab.at none d.aud.xg (i - 0x2000)).getD { goal := xpGain old }
    d.onAud (fun a => { a with xg := Tab.put none a.xg (i - 0x2000) (some (r.toward (xpGain new) (d.ff Reg.AUD_CFG 16 16))) })
  else d

/-- A direct write to the parameter memory (R354): a group parameter or an unassigned index is ignored with its flag; any other
waits for the next run start. -/
def paramWrite (i : Nat) (v mask : Word) (d : Dev) : Dev :=
  match paramKind i with
  | none => d.paramErr
  | some (_, true) => d.audStat 4
  | some (_, false) => d.onAud (fun a => { a with direct := a.direct ++ [(paramOff i, v, mask)] })

/-- The bits of voice word `w` (Table 11-15). -/
def voiceMask : Nat → Word
  | 1 => 0x0FFFFFFF
  | 2 => 0xFFFFFF
  | 3 => 0xFFFFF
  | 5 => 0xFFFF7F7F
  | _ => 0xFFFFFFFF

/-- A direct write to word `w` of voice `v` (R354): it reads back at once and takes effect at the next run start. -/
def voiceWrite (v w : Nat) (x mask : Word) (d : Dev) : Dev :=
  let a := Reg.AUD_V_ADDR v + 4 * w
  let m := mask &&& voiceMask w
  (d.sg a ((d.rg a &&& ~~~m) ||| (x &&& m))).onAud (fun s => { s with direct := s.direct ++ [(a, x, m)] })

/-- A write of AUD_V_CTRL of voice `v` (R339): KEYON and KEYOFF act at the next run start. -/
def voiceCtrlWrite (v : Nat) (x : Word) (d : Dev) : Dev :=
  d.onAud (fun s => { s with direct := s.direct ++ [(Reg.AUD_V_CTRL v, x &&& 3, 3)] })

/-- A write of KEYON. -/
def keyOn (v : Nat) (d : Dev) : Dev := voiceCtrlWrite v 1 d

/-- A write of KEYOFF. -/
def keyOff (v : Nat) (d : Dev) : Dev := voiceCtrlWrite v 2 d

/-- A write of AUD_SAFE_CTRL (R355). -/
def safeCtrlWrite (w : Word) (d : Dev) : Dev :=
  let v := w.toNat
  let busy := d.bt Reg.AUD_SAFE_CTRL 11
  let go := w.getLsbD 10
  if busy && go then d.paramErr else
  let d := (d.sf Reg.AUD_SAFE_CTRL 0 7 (bits v 0 7)).sf Reg.AUD_SAFE_CTRL 8 2 (bits v 8 2)
  if go then
    (d.sb Reg.AUD_SAFE_CTRL 11).onAud (fun a => { a with safe := some (min 64 (bits v 0 7), bits v 8 2, d.tick.num) })
  else d

/-- A write to the safe-load buffer word at `off` (R355). -/
def safeBufWrite (off : Nat) (v mask : Word) (d : Dev) : Dev :=
  if d.bt Reg.AUD_SAFE_CTRL 11 then d.paramErr else
  let m := if off % 8 = 0 then mask &&& 0x3FFF else mask
  d.sg off ((d.rg off &&& ~~~m) ||| (v &&& m))

/-! ### TDM ports (R348) -/

/-- Slots of a port setting; `none` for the reserved code. -/
def tdmSlots (cfg : Nat) : Option Nat :=
  match bits cfg 1 2 with
  | 0 => some 2
  | 1 => some 8
  | 2 => some 16
  | _ => none

/-- Slot width in bits. -/
def tdmWidth (cfg : Nat) : Nat := if bits cfg 3 1 = 0 then 16 else 32

/-- The five conditions of R348 at sample rate `fs` hertz. -/
def tdmOk (fs cfg : Nat) : Bool :=
  match tdmSlots cfg with
  | none => false
  | some n =>
    let mode := bits cfg 4 2
    decide (mode ≠ 3) && (decide (mode ≠ 0) || decide (n = 2)) && (decide (bits cfg 6 1 = 0) || decide (tdmWidth cfg = 32)) &&
      decide (fs * n * tdmWidth cfg ≤ 24576000)

/-- The sample rate code of R64 in hertz. -/
def audHz (fs : Nat) : Nat := if fs = 0 then 48000 else 96000

/-- Is `a` the setting register of an audio port? -/
def tdmPort (a : Nat) : Bool := (List.range 24).any (fun q => a == Reg.AUD_TO_CFG q) || (List.range 8).any (fun q => a == Reg.AUD_TI_CFG q)

/-- A write of the port setting register at `a`. -/
def tdmCfgWrite (a : Nat) (w : Word) (d : Dev) : Dev :=
  if tdmOk (audHz d.tick.fs) w.toNat then d.sg a (w &&& 0x7F) else d.audStat 6

/-- Slot count of an enabled port in force, else 0. -/
def Dev.portSlots (d : Dev) (a : Nat) : Nat := if d.fbt a 0 then (tdmSlots (d.fr a).toNat).getD 0 else 0

/-- BCLK periods from a frame's start to the MSB of slot 0 (Table 11-6). -/
def tdmShift (cfg : Nat) : Nat := if bits cfg 4 2 = 2 then 0 else 1

/-- Significant bits of a slot (BITS). -/
def tdmBits (cfg : Nat) : Nat := if bits cfg 6 1 = 0 then 16 else 24

/-- FS in BCLK period `j` of a frame of `total` periods (Table 11-6). -/
def tdmFs (cfg total j : Nat) : Bool := if bits cfg 4 2 = 0 then decide (total / 2 ≤ j) else decide (j = 0)

/-- BCLK and FS of the port whose settings lie at `a`, input or output, over one frame from its start, two pairs to a BCLK period: data
changes on the falling edge that begins the period and is sampled on the rising edge in its middle (R349).  A port that is not enabled
drives both low (R348): no pair. -/
def Dev.tdmClock (d : Dev) (a : Nat) : List (Bool × Bool) :=
  let cfg := (d.fr a).toNat
  let total := d.portSlots a * tdmWidth cfg
  (List.range (2 * total)).map (fun i => (i % 2 == 1, tdmFs cfg total (i / 2)))

/-- Bit `i` of the data of slots that hold `vals`, MSB first and left-justified, 0 below the significant bits (R349). -/
def tdmBit (cfg : Nat) (vals : Nat → Int) (i : Nat) : Bool :=
  let w := tdmWidth cfg
  let b := tdmBits cfg
  let v := vals (i / w)
  let u : Int := if b = 16 then v / 256 else v
  decide (i % w < b) && (u / (2 ^ (b - 1 - i % w) : Nat)) % 2 == 1

/-- FS and SD of output port `q`, one pair per BCLK period from the MSB of slot 0 to the last bit of the frame's data (R349). -/
def Dev.tdmFrame (d : Dev) (q : Nat) : List (Bool × Bool) :=
  let cfg := (d.fr (Reg.AUD_TO_CFG q)).toNat
  let total := d.portSlots (Reg.AUD_TO_CFG q) * tdmWidth cfg
  (List.range total).map (fun i =>
    (tdmFs cfg total ((i + tdmShift cfg) % total), tdmBit cfg (fun s => Tab.at 0 d.aud.out (16 * q + s)) i))

/-- The word of slot `s` of an input port with setting `cfg`, of what SD carries at the rising edges of BCLK from the frame's start: its
MSB comes by FS_MODE, and the bits below the significant ones are ignored (R349).  SAMPLE_TICK names these words (log entry 60). -/
def tdmWord (cfg : Nat) (sd : List Bool) (s : Nat) : Nat :=
  ((sd.drop (tdmShift cfg + s * tdmWidth cfg)).take (tdmBits cfg)).foldl (fun v b => 2 * v + b.toNat) 0

/-! ### Voice sources (R335 to R340) -/

/-- Length of a voice's source. -/
def Dev.vLen (d : Dev) (v : Nat) : Nat := d.ff (Reg.AUD_V_LEN v) 0 24
/-- FORMAT of a voice. -/
def Dev.vFmt (d : Dev) (v : Nat) : Nat := d.ff (Reg.AUD_V_LEN v) 24 2
/-- LOOP_START as used (R337). -/
def Dev.vLoop (d : Dev) (v : Nat) : Nat :=
  let l := d.ff (Reg.AUD_V_LOOP v) 0 24
  if d.vFmt v = 2 then l / 64 * 64 else l
/-- Does the voice loop: LOOP_EN with a loop start below LENGTH (R337)? -/
def Dev.vLoops (d : Dev) (v : Nat) : Bool := d.fbt (Reg.AUD_V_LEN v) 27 && decide (d.vLoop v < d.vLen v)
/-- LOC of a voice. -/
def Dev.vLoc (d : Dev) (v : Nat) : Bool := d.fbt (Reg.AUD_V_LEN v) 26

/-- A source byte of a voice; a byte beyond its space reads 0 (R340), as does one in an uncorrectable word (R554, R475).  The sample area
begins the audio partition. -/
def W.vByte (w : W) (v i : Nat) : Byte :=
  let a := (w.d.fr (Reg.AUD_V_ADDR v)).toNat * 16 + i
  if w.d.vLoc v then (if a < w.d.lpSize ∧ !w.d.meetsBad 0 a 1 then w.lpByte a else 0)
  else if a < w.d.aud.sampleBytes ∧ !w.d.sramBad (bankBase 86 + a) then w.rd .sram (bankBase 86 + a) else 0

/-- Does a source byte lie beyond its space? -/
def Dev.vBeyond (d : Dev) (v i : Nat) : Bool :=
  decide ((if d.vLoc v then d.lpSize else d.aud.sampleBytes) ≤ (d.fr (Reg.AUD_V_ADDR v)).toNat * 16 + i)

/-- step(i) = round(16 * 2^(i / 8)) (R336). -/
def adpcmStep (i : Nat) : Nat :=
  ([16, 17, 19, 21, 23, 25, 27, 29, 32, 35, 38, 41, 45, 49, 54, 59] ++
  [64, 70, 76, 83, 91, 99, 108, 117, 128, 140, 152, 166, 181, 197, 215, 235] ++
  [256, 279, 304, 332, 362, 395, 431, 470, 512, 558, 609, 664, 724, 790, 861, 939] ++
  [1024, 1117, 1218, 1328, 1448, 1579, 1722, 1878, 2048, 2233, 2435, 2656, 2896, 3158, 3444, 3756] ++
  [4096, 4467, 4871, 5312, 5793, 6317, 6889, 7512, 8192, 8933, 9742, 10624, 11585, 12634, 13777, 15024] ++
  [16384, 17867, 19484, 21247, 23170, 25268, 27554, 30048, 32768]).getD i 0

/-- adj of R336. -/
def adpcmAdj (m : Nat) : Int :=
  match m with
  | 4 => 2
  | 5 => 4
  | 6 => 6
  | 7 => 8
  | _ => -1

/-- One step of the ADPCM decoder: predictor and index after code `c`. -/
def adpcmNext (p : Int × Nat) (c : Nat) : Int × Nat :=
  let m := c % 8
  let dd : Int := (2 * m + 1) * adpcmStep p.2 / 8
  let pred := if 8 ≤ c then max (-32768) (p.1 - dd) else min 32767 (p.1 + dd)
  (pred, (clampI 0 88 (p.2 + adpcmAdj m)).toNat)

/-- Sample `n` of the ADPCM block `b` of a voice (R336). -/
def W.adpcm (w : W) (v b n : Nat) : Int :=
  let base := 36 * b
  let by_ := fun i => (w.vByte v (base + i)).toNat
  let start := (signed 16 (by_ 0 + 256 * by_ 1), min 88 (by_ 2))
  ((List.range n).foldl (fun p j => adpcmNext p (by_ (4 + j / 2) / (if j % 2 = 0 then 1 else 16) % 16)) start).1

/-- Sample `n` of a voice's source as it enters the engine (R336).  A FORMAT of 3 written while the voice plays gives a free value,
the `k`-th of the voice's two in the run. -/
def W.vSample (w : W) (v n k : Nat) : Int :=
  let by_ := fun i => (w.vByte v i).toNat
  match w.d.vFmt v with
  | 0 => signed 16 (by_ (2 * n) + 256 * by_ (2 * n + 1)) * 256
  | 1 => signed 24 (by_ (3 * n) + 256 * by_ (3 * n + 1) + 65536 * by_ (3 * n + 2))
  | 2 => w.adpcm v (n / 64) (n % 64) * 256
  | _ => signed 32 (Config.freeWord (w.d.free + 2 * v + k)).toNat

/-- The source bytes that sample `n` of a voice lies in: the first and their count (R336). -/
def Dev.sampleRun (d : Dev) (v n : Nat) : Nat × Nat :=
  match d.vFmt v with
  | 0 => (2 * n, 2)
  | 1 => (3 * n, 3)
  | _ => (36 * (n / 64), 36)

/-- Does sample `n` of a voice lie beyond its space? -/
def Dev.sampleBeyond (d : Dev) (v n : Nat) : Bool :=
  let (i, l) := d.sampleRun v n
  d.vBeyond v (i + l - 1)

/-- Banks of the sample area that a voice with LOC 0 reads for this sample. -/
def Dev.voiceBanks (d : Dev) (v : Nat) : List Nat :=
  if d.vLoc v then [] else
  let n := (d.voiceAt v).pos / 65536
  (n :: (if n + 1 < d.vLen v then [n + 1] else if d.vLoops v then [d.vLoop v] else [])).flatMap (fun n =>
    let (i, l) := d.sampleRun v n
    if d.sampleBeyond v n then [] else banksOf (bankBase 86 + (d.fr (Reg.AUD_V_ADDR v)).toNat * 16 + i) l)

/-- A voice becomes IDLE and sets its AUD_VEND bit (R339). -/
def Dev.voiceEnd (d : Dev) (v : Nat) : Dev :=
  (d.onVoice v (fun x => { x with st := .idle })).sb (Reg.AUD_VEND (v / 32)) (v % 32)

/-- The voice's output for this sample (R337). -/
def W.voiceOut (w : W) (v : Nat) : Int :=
  let pos := (w.d.voiceAt v).pos
  let n := pos / 65536
  let f : Int := pos % 65536
  let s0 := w.vSample v n 0
  let s1 := if n + 1 < w.d.vLen v then w.vSample v (n + 1) 1
    else if w.d.vLoops v then w.vSample v (w.d.vLoop v) 1 else 0
  sat32 (roundQ (s0 * (65536 - f) + s1 * f) 65536)

/-- Add into a voice bus (R338). -/
def Dev.addBus (d : Dev) (b : Nat) (x : Int) : Dev := d.setSig b (sat32 (d.sigAt b + x))

/-- One voice's sample (R337 to R340); `late` says that its data had not arrived, as does a bank of its sample that wakes (R471).  A position that reached LENGTH loops here; a voice
that ends does so at the next run's start (Table 11-10). -/
def W.voiceStep (w : W) (late : List Nat) (v : Nat) : W :=
  let x := w.d.voiceAt v
  if x.st = .idle then w else
  let banks := w.d.voiceBanks v
  let miss := w.d.vLoc v && late.contains v || !w.d.banksReady banks
  let o := if miss then 0 else w.voiceOut v
  let n := x.pos / 65536
  let d := w.d.wakeBanks banks
  let d := if miss then ((d.inc Reg.AUD_FETCH_LATE_CNT).sb Reg.AUD_STAT 2).audOnce 243
    else if d.sampleBeyond v n || (decide (n + 1 < d.vLen v) && d.sampleBeyond v (n + 1)) then d.paramErr else d
  let r := d.fr (Reg.AUD_V_ROUTE v)
  let d := if r.getLsbD 6 then d.addBus (bits r.toNat 0 6) (roundQ (o * x.a.now) 0x4000) else d
  let d := if r.getLsbD 14 then d.addBus (bits r.toNat 8 6) (roundQ (o * x.b.now) 0x4000) else d
  let pos := x.pos + d.ff (Reg.AUD_V_PITCH v) 0 20
  let len := d.vLen v * 65536
  let lp := d.vLoop v * 65536
  let wraps := decide (len ≤ pos)
  let pos' := if wraps && d.vLoops v then lp + (pos - len) % (len - lp) else pos
  { w with d := d.onVoice v (fun x => { x with pos := pos', a := x.a.step, b := x.b.step }) }

/-! ### The start of a run (R332, R339, R356) -/

/-- KEYON of voice `v` (R335, R337, R339). -/
def Dev.applyKeyOn (d : Dev) (v : Nat) : Dev :=
  if d.vFmt v = 3 ∨ d.vLen v = 0 then (d.onVoice v (fun x => { x with st := .idle })).paramErr else
  let d := if d.fbt (Reg.AUD_V_LEN v) 27 && !d.vLoops v then d.paramErr else d
  let g := (d.fr (Reg.AUD_V_GAIN v)).toNat
  let len := d.ff (Reg.AUD_V_ROUTE v) 16 16
  d.onVoice v (fun _ => { st := .playing, pos := 0, a := { goal := bits g 0 16, len := len }, b := { goal := bits g 16 16, len := len } })

/-- KEYOFF of voice `v` (R339). -/
def Dev.applyKeyOff (d : Dev) (v : Nat) : Dev :=
  if (d.voiceAt v).st = .playing then
    let len := d.ff (Reg.AUD_V_ROUTE v) 16 16
    if len = 0 then d.voiceEnd v
    else d.onVoice v (fun x => { x with st := .release, a := { start := x.a.now, goal := 0, len := len },
                                        b := { start := x.b.now, goal := 0, len := len } })
  else d

/-- A write to a voice word or the parameter memory takes effect; the key operations met are collected (R339: the last one of a
voice holds). -/
def Dev.applyWord (d : Dev) (keys : Tab Nat) (a : Nat) (v mask : Word) : Dev × Tab Nat :=
  if 0x1210000 ≤ a then (d.setParam ((a - 0x1210000) / 4) v mask, keys) else
  let vo := (a - 0x1208000) / 0x20
  if a % 0x20 = 0x18 then
    (d, if v.getLsbD 1 then Tab.put 0 keys vo 2 else if v.getLsbD 0 then Tab.put 0 keys vo 1 else keys)
  else
    let new := (d.fr a &&& ~~~mask) ||| (v &&& mask)
    ((d.sfr a new).sg a new, keys)

/-- An AUD_CMD applied at its run start (R356, Table 11-7). -/
def Dev.applyCmd (d : Dev) (keys : Tab Nat) (b : List Word) : Dev × Tab Nat :=
  let w := fun i => b.getD i 0
  let two := (w 0).getLsbD 3
  match bits (w 0).toNat 0 3 with
  | 0 =>
    let one := fun (d : Dev) (i : Nat) (v : Word) =>
      if (paramKind i).isSome then d.setParam i v 0xFFFFFFFF else d.inc Reg.AUD_CMD_ERR_CNT
    let d := one d (bits (w 1).toNat 0 14) (w 2)
    (if two then one d (bits (w 3).toNat 0 14) (w 4) else d, keys)
  | 1 => (d, [w 1, w 2, w 3, w 4].foldl (fun k x => if x.getLsbD 31 then Tab.put 0 k (bits x.toNat 0 10) 1 else k) keys)
  | 2 => (d, [w 1, w 2, w 3, w 4].foldl (fun k x => if x.getLsbD 31 then Tab.put 0 k (bits x.toNat 0 10) 2 else k) keys)
  | 3 =>
    let one := fun (p : Dev × Tab Nat) (x v : Word) =>
      let n := bits x.toNat 10 3
      if n < 6 then p.1.applyWord p.2 (Reg.AUD_V_ADDR (bits x.toNat 0 10) + 4 * n) v (voiceMask n)
      else (p.1.inc Reg.AUD_CMD_ERR_CNT, p.2)
    let p := one (d, keys) (w 1) (w 2)
    if two then one p (w 3) (w 4) else p
  | _ => (d.paramErr, keys)

/-- A safe load's entry (R355); a bad index is ignored and counted (R356). -/
def Dev.applySafe (d : Dev) (e : Nat) : Dev :=
  let i := d.fd (Reg.AUD_SAFE_IDX e) 0 14
  if (paramKind i).isSome then d.setParam i (d.rg (Reg.AUD_SAFE_VAL e)) 0xFFFFFFFF else d.inc Reg.AUD_CMD_ERR_CNT

/-- The due safe load, if any (R355): `changed` says that this run follows a change of sample rate. -/
def Dev.dueSafe (d : Dev) (changed : Bool) : Dev :=
  match d.aud.safe with
  | none => d
  | some (n, at_, t) =>
    let due := match at_ with
      | 1 => decide (t < d.tick.num)
      | 2 => changed
      | _ => true
    if due then
      (((List.range n).foldl Dev.applySafe d).cb Reg.AUD_SAFE_CTRL 11).onAud (fun a => { a with safe := none }) |>.audRaise 241
    else d

/-- Did this run start latch a new LENGTH or LOOP_START for voice `v` (R337)?  `d0` is the part before the run's writes. -/
def Dev.newBounds (d0 d : Dev) (v : Nat) : Bool :=
  decide (d0.vLen v ≠ d.vLen v) || decide (d0.ff (Reg.AUD_V_LOOP v) 0 24 ≠ d.ff (Reg.AUD_V_LOOP v) 0 24)

/-- A voice that is not IDLE meets its latched words: a position at or beyond LENGTH and the end of a release ramp end it; a new
LENGTH or LOOP_START is checked as a KEYON is; and its gains start towards new targets (R337 to R339). -/
def Dev.checkVoice (d0 d : Dev) (v : Nat) : Dev :=
  let x := d.voiceAt v
  let ramped := decide (x.st = .release) && decide (x.a.len ≤ x.a.i)
  if x.st = .idle then d
  else
    let d := if d0.newBounds d v && (d.vLen v == 0 || (d.fbt (Reg.AUD_V_LEN v) 27 && !d.vLoops v)) then d.paramErr else d
    if d.vLen v ≤ x.pos / 65536 ∨ ramped then d.voiceEnd v
    else if x.st = .playing then
      let g := (d.fr (Reg.AUD_V_GAIN v)).toNat
      let len := d.ff (Reg.AUD_V_ROUTE v) 16 16
      d.onVoice v (fun x => { x with a := x.a.toward (bits g 0 16) len, b := x.b.toward (bits g 16 16) len })
    else d

/-- Routes and sink entries are latched (R332). -/
def Dev.latchRoutes (d : Dev) : Dev :=
  d.onAud (fun a => { a with lat := d.regs.filter (fun r => decide (0x1201300 ≤ r.1) && decide (r.1 < 0x1202600)) })

/-- The run's writes, in the order of R356, and its latches (R332). -/
def Dev.runStart (d0 : Dev) (changed : Bool) : Dev :=
  let d := d0
  let due := d.aud.cmds.filter (fun c => decide (c.1 ≤ d.aud.k))
  let p := due.foldl (fun (p : Dev × Tab Nat) c => p.1.applyCmd p.2 c.2) (d, [])
  let d := p.1.dueSafe changed
  let q := d.aud.direct.foldl (fun (q : Dev × Tab Nat) (x : Nat × Word × Word) => q.1.applyWord q.2 x.1 x.2.1 x.2.2) (d, p.2)
  let d := q.1.onAud (fun a => { a with cmds := a.cmds.filter (fun c => !decide (c.1 ≤ a.k)), direct := [] })
  let d := q.2.foldl (fun (d : Dev) (k : Nat × Nat) => if k.2 = 1 then d.applyKeyOn k.1 else d.applyKeyOff k.1) d
  ((d.aud.voices.map (·.1)).foldl (Dev.checkVoice d0) d).latchRoutes

/-! ### Zones and silence (R358 to R360) -/

/-- A latched route or sink word. -/
def Dev.audLat (d : Dev) (a : Nat) : Word := Tab.get Reg.resetWord d.aud.lat a

/-- Is sink `i` silent (R358)? -/
def Dev.sinkSilent (d : Dev) (i : Nat) : Bool := decide (d.ff Reg.AUD_SIL_HOLD 0 24 ≤ Tab.at 0 d.aud.quiet i)

/-- The active zones (R359). -/
def Dev.zones (d : Dev) : Word :=
  (List.range 384).foldl (fun (z : Word) i =>
    let n := bits (d.audLat (Reg.AUD_SINK i)).toNat 12 6
    if n < 32 ∧ !d.sinkSilent i then z ||| (1#32 <<< n) else z) (d.rg Reg.AUD_ZONE_FORCE)

/-- The zones are evaluated (R360); a change raises source 246. -/
def Dev.evalZones (d : Dev) : Dev :=
  let z := d.zones
  if z = d.rg Reg.AUD_ZONE_STAT then d else (d.sg Reg.AUD_ZONE_STAT z).audRaise 246

/-- The level a pin muxed to zone `z` is driven to (R360). -/
def Dev.zonePin (d : Dev) (z : Nat) : Bool := d.bt Reg.AUD_ZONE_STAT z != d.bt Reg.AUD_ZONE_POL z

/-- AUD_TO_SIL of every output port (R358). -/
def Dev.silRegs (d : Dev) : Dev :=
  (List.range 24).foldl (fun d q =>
    d.sg (Reg.AUD_TO_SIL q) ((List.range 16).foldl (fun (z : Word) s => if d.sinkSilent (16 * q + s) then z ||| (1#32 <<< s) else z) 0)) d

/-- An AUD_CMD is handed over for run `due` (R357, R359): a KEYON wakes its zones. -/
def Dev.handOver (d : Dev) (due : Nat) (b : List Word) : Dev :=
  let late := decide (due < d.aud.k)
  let d := if late then ((d.inc Reg.AUD_CMD_LATE_CNT).sb Reg.AUD_STAT 3).audOnce 242 else d
  let d := d.onAud (fun a => { a with cmds := a.cmds ++ [(max due a.k, b)] })
  if bits (b.getD 0 0).toNat 0 3 = 1 then
    let zs := b.getD 5 0
    let d := d.onAud (fun a => { a with quiet := a.quiet.filter (fun q =>
      !(let n := bits (d.audLat (Reg.AUD_SINK q.1)).toNat 12 6; decide (n < 32) && zs.getLsbD n)) })
    d.silRegs.evalZones
  else d

/-- A tick-targeted AUD_CMD of tick `n` is handed over at its commit (R357): due at S_n + CMD_DELAY.  A tick whose first sample is
no longer remembered has long passed. -/
def Dev.handOverTick (d : Dev) (n : Nat) (b : List Word) : Dev :=
  match d.aud.tickRuns.find? (fun p => p.1 == n) with
  | some p => d.handOver (p.2 + d.ff Reg.AUD_CFG 0 16) b
  | none => d.handOver 0 b

/-- An immediate AUD_CMD (R259): applied at the next run start. -/
def Dev.handOverNow (d : Dev) (b : List Word) : Dev := d.handOver d.aud.k b

/-! ### The sample tick (R332, R347, R361) -/

/-- The value of a sink: its signal clamped, 0 where the entry is not VALID (R351). -/
def Dev.sinkValue (d : Dev) (i : Nat) : Int :=
  let e := d.audLat (Reg.AUD_SINK i)
  if e.getLsbD 11 then sat24 (d.sigAt (bits e.toNat 0 11)) else 0

/-- The value that slot `i` sends for `v`, on the 24-bit scale, by BITS of its port (R351). -/
def Dev.slotValue (d : Dev) (i : Nat) (v : Int) : Int :=
  if d.fbt (Reg.AUD_TO_CFG (i / 16)) 6 then v else (min 32767 ((v + 128) / 256)) * 256

/-- The sinks' values for the next output frame; of a stopped run, only those of a signal that it wrote (R347). -/
def Dev.latchSinks (d : Dev) (stopped : Bool) : Dev :=
  let f := fun (t : Tab Int) (i : Nat) =>
    let e := d.audLat (Reg.AUD_SINK i)
    if stopped && e.getLsbD 11 && !d.aud.wrote.contains (bits e.toNat 0 11) then t else Tab.put 0 t i (d.sinkValue i)
  d.onAud (fun a => { a with next := (List.range 384).foldl f a.next })

/-- The moving crosspoint gains make one step (R342). -/
def Dev.stepGains (d : Dev) : Dev :=
  d.onAud (fun a => { a with xg := (a.xg.map (fun p => (p.1, p.2.map Ramp.step))).filter (fun p =>
    match p.2 with
    | some r => decide (r.i < r.len)
    | none => false) })

/-- The run in progress had not ended (R347). -/
def Dev.stopRun (d : Dev) : Dev :=
  if d.aud.run = .ended then d else
  (((d.latchSinks true).inc Reg.AUD_OVR_CNT).sb Reg.AUD_STAT 1).audOnce 240

/-- A change of sample rate takes effect at this sample tick (R361). -/
def Dev.rateChange (d : Dev) : Dev :=
  let fs := d.tick.fs
  let d := d.onAud (fun a => { a with fs := fs, voices := a.voices.map (fun p => (p.1, { p.2 with st := .idle })), sig := [], biq := [], env := [], delay := [],
                                      mute := 17, next := [], out := [] })
  let ports := (List.range 24).map Reg.AUD_TO_CFG ++ (List.range 8).map Reg.AUD_TI_CFG
  let d := ports.foldl (fun d a => if d.bt a 0 && !tdmOk (audHz fs) (d.rg a).toNat then (d.cb a 0).audStat 6 else d) d
  d.audRaise 245

/-- Port settings take effect at the port's frame start (R348); a port newly enabled restarts its sinks' silence counts (R358). -/
def Dev.portStart (d : Dev) : Dev :=
  let ports := (List.range 24).map Reg.AUD_TO_CFG ++ (List.range 8).map Reg.AUD_TI_CFG
  let starts := (List.range 24).filter (fun q => d.bt (Reg.AUD_TO_CFG q) 0 && !d.fbt (Reg.AUD_TO_CFG q) 0)
  let d := ports.foldl (fun d a => d.sfr a (d.rg a)) d
  d.onAud (fun a => { a with quiet := a.quiet.filter (fun q => !starts.contains (q.1 / 16)) })

/-- The input frame that ended (R351): received words by 16 * port + slot. -/
def Dev.takeInputs (d : Dev) (ins : List (Nat × Nat)) : Dev :=
  let val := fun (i : Nat) =>
    let a := Reg.AUD_TI_CFG (i / 16)
    if d.portSlots a ≤ i % 16 ∨ d.aud.mute ≠ 0 then (0 : Int) else
    let x := ((ins.find? (fun p => p.1 == i)).map (·.2)).getD 0
    if d.fbt a 6 then signed 24 x else signed 16 x * 256
  d.onAud (fun a => { a with ins := (List.range 128).foldl (fun t i => Tab.put 0 t i (val i)) [] })

/-- The output frame that starts: the latched values, with the low-latency routes over them (R350, R352).  After a change of rate 16
frames are sent as 0; the input frame that ends as the 17th starts is the last one discarded (R361). -/
def Dev.frameOut (d0 : Dev) : Dev :=
  let d := d0.onAud (fun a => { a with mute := a.mute - 1 })
  if 1 < d0.aud.mute then d.onAud (fun a => { a with out := [] }) else
  let route := fun (t : Tab Int) (r : Nat) =>
    let m := d.audLat (Reg.AUD_LL_MAP r)
    let q := bits m.toNat 8 5
    let sl := bits m.toNat 16 4
    if !m.getLsbD 31 || decide (24 ≤ q) then t else
    let x := Tab.at 0 d.aud.ins (16 * bits m.toNat 0 3 + bits m.toNat 4 4) * signed 16 (d.audLat (Reg.AUD_LL_GAIN r)).toNat
    Tab.put 0 t (16 * q + sl) (sat24 (roundQ x 0x4000))
  let t := (List.range 32).foldl route d.aud.next
  d.onAud (fun a => { a with out := (List.range 384).foldl (fun o i => Tab.put 0 o i (d.slotValue i (Tab.at 0 t i))) [] })

/-- The silence detectors see the frame that starts (R358). -/
def Dev.silence (d : Dev) : Dev :=
  let th := d.ff Reg.AUD_SIL_CFG 0 24
  let step := fun (t : Tab Nat) (i : Nat) =>
    if d.portSlots (Reg.AUD_TO_CFG (i / 16)) ≤ i % 16 then t
    else if (Tab.at 0 d.aud.out i).natAbs ≤ th then Tab.upd 0 t i (fun n => min (2 ^ 24) (n + 1)) else Tab.put 0 t i 0
  (d.onAud (fun a => { a with quiet := (List.range 384).foldl step a.quiet })).silRegs

/-- Sources 248 + g of the voice groups that newly set an AUD_VEND bit (R363). -/
def Dev.voiceEndRaise (d0 d : Dev) : Dev :=
  (List.range 16).foldl (fun d g =>
    let new := fun (i : Nat) => d.rg (Reg.AUD_VEND i) &&& ~~~ d0.rg (Reg.AUD_VEND i)
    d.raiseIf (d.bt Reg.AUD_INT_EN (8 + g) && (decide (new (2 * g) ≠ 0) || decide (new (2 * g + 1) ≠ 0))) (248 + g)) d

/-- A sample tick: a run that has not ended stops, a change of sample rate takes effect, the input frame that ended is taken (`ins`:
its words) and the next output frame starts, with the silence detectors and the zones (R347 to R361). -/
def sampleFrame (ins : List (Nat × Nat)) (d : Dev) : Dev :=
  let d := d.stopRun
  let d := d.onTick (fun t => { t with sample := t.sample + 1 })
  let d := if d.aud.fs ≠ d.tick.fs then d.rateChange else d
  let d := (d.takeInputs ins).portStart.frameOut.silence.evalZones
  d.onAud (fun a => { a with startAt := d.cclkEdge d.tb 2 })

/-- The run of a sample tick starts, and its voice phase (R332): `changed` says that the tick changed the sample rate, `late` lists the
LPDDR5X voices whose data has not arrived. -/
def runBegin (changed : Bool) (late : List Nat) (w : W) : W :=
  let d := ((w.d.stepGains).frameUpdate .aud).runStart changed
  let live := (d.aud.voices.filter (fun p => p.2.st != .idle)).map (·.1)
  let d := (List.range 64).foldl (fun d i => d.setSig i 0) (d.onAud (fun a => { a with wrote := [] }))
  let w' := live.foldl (fun w v => w.voiceStep late v) { w with d := d }
  let d' := (w'.d.onAud (fun a => { a with k := a.k + 1, run := .voices, gpc := 0, gtime := 0, wait := 0, active := live.length }))
  let d' := { d' with free := d'.free + 2 * 1024 }
  { w' with d := Dev.voiceEndRaise w.d d' }

/-! ### The graph phase (R341 to R346) -/

/-- The gain in use of crosspoint `c` (R342). -/
def Dev.xpNow (d : Dev) (c : Nat) : Int :=
  match Tab.at none d.aud.xg c with
  | some r => r.now
  | none => xpGain (d.param (0x2000 + c))

/-- MIX (R342). -/
def Dev.gMix (d : Dev) (first n : Nat) : Int :=
  let s := ((List.range n).map (fun i =>
    let c := (first + i) % 8192
    d.sigAt (bits (d.param (0x2000 + c)).toNat 0 11) * d.xpNow c)).sum
  sat32 ((s + 8192) / 16384)

/-- BIQ (R343): the output and the block's new state. -/
def Dev.gBiq (d : Dev) (b : Nat) (x : Int) : Int × Biq :=
  let s := Tab.at {} d.aud.biq b
  let c := fun i => signed 32 (d.param (8 * b + i)).toNat
  let acc := signed 64 ((c 0 * x + c 1 * s.x1 + c 2 * s.x2 - c 3 * s.y1 - c 4 * s.y2 + 2 ^ 29) % 2 ^ 64).toNat
  let y := sat32 (acc / 2 ^ 30)
  (y, { x1 := x, x2 := s.x1, y1 := y, y2 := s.y1 })

/-- The length in use of delay line `l` (R344). -/
def Dev.gDelayLen (d : Dev) (l : Nat) : Nat := min (max 1 (bits (d.param (0x1000 + l)).toNat 0 23)) (max 1 (Tab.at 0 d.aud.delayAlloc l))

/-- The gain of a compressor (mode 0) or limiter (mode 1) above its threshold, with 48 fraction bits: free within 0.05 dB, a factor of
1.005773, of the formula of Table 11-5 (R345; log entry 16). -/
def dynGain (mode t e ratio : Nat) : Nat :=
  let x := fxDec t e
  let g := if mode = 0 then powFx x (ratio - 16 : Nat) ratio else x
  max (ceilDiv (g * 1000000) 1005773) (min (g * 1005773 / 1000000) (Config.dynGain mode t e ratio))

/-- DYN (R345): the output and the new envelope. -/
def Dev.gDyn (d : Dev) (b : Nat) (x s : Int) : Int × Int :=
  let p := fun i => (d.param (0x1100 + 8 * b + i)).toNat
  let e0 := Tab.at 0 d.aud.env b
  let e := e0 + (s - e0) * (if e0 < s then (p 3 : Int) else p 4) / 65536
  let t : Int := p 1
  let mk : Int := p 5
  let y := match p 0 with
    | 0 => if t < e then roundQ (x * (dynGain 0 t.toNat e.toNat (max 16 (p 2)) : Int) * mk) (2 ^ 62) else roundQ (x * mk) 0x4000
    | 1 => if t < e then roundQ (x * (dynGain 1 t.toNat e.toNat 0 : Int) * mk) (2 ^ 62) else roundQ (x * mk) 0x4000
    | 2 => if e < t then roundQ (x * (p 6 : Int) * mk) (2 ^ 28) else roundQ (x * mk) 0x4000
    | _ => x
  (sat32 y, e)

/-- Write a graph result; a DST below 192 writes nothing (R341). -/
def Dev.gWrite (d : Dev) (dst : Nat) (v : Int) : Dev := if dst < 192 then d else d.setSig dst v

/-- CCLK that the operation at the program's present address takes (Table 11-4). -/
def Dev.graphCost (d : Dev) : Nat :=
  match bits (d.raw (Reg.AUD_G_W0 d.aud.gpc)) 0 4 with
  | 1 => ceilDiv (bits (d.raw (Reg.AUD_G_W1 d.aud.gpc)) 16 10 + 1) 16
  | 2 | 3 | 4 => 1
  | _ => 0

/-- One graph operation (Table 11-4); `late` lists the delay lines whose read has not arrived.  The flag says that the phase ends. -/
def Dev.graphOp (d : Dev) (late : List Nat) : Dev × Bool :=
  let w0 := d.raw (Reg.AUD_G_W0 d.aud.gpc)
  let w1 := d.raw (Reg.AUD_G_W1 d.aud.gpc)
  let dst := bits w0 4 11
  let x := d.sigAt (bits w0 15 11)
  let next := fun (d : Dev) (t : Nat) => (d.onAud (fun a => { a with gpc := a.gpc + 1, gtime := a.gtime + t }), decide (4095 ≤ d.aud.gpc))
  match bits w0 0 4 with
  | 0 => (d, true)
  | 1 =>
    let n := bits w1 16 10 + 1
    next (d.gWrite dst (d.gMix (bits w1 0 13) n)) (ceilDiv n 16)
  | 2 =>
    let b := bits w1 0 9
    let (y, s) := d.gBiq b x
    next ((d.onAud (fun a => { a with biq := Tab.put {} a.biq b s })).gWrite dst y) 1
  | 3 =>
    let l := bits w1 0 6
    let q := x :: Tab.at [] d.aud.delay l
    let miss := late.contains l
    let y := if miss then 0 else q.getD (d.gDelayLen l) 0
    let d := d.onAud (fun a => { a with delay := Tab.put [] a.delay l (q.take (Tab.at 0 a.delayAlloc l + 1)) })
    let d := if miss then ((d.inc Reg.AUD_FETCH_LATE_CNT).sb Reg.AUD_STAT 2).audOnce 243 else d
    next (d.gWrite dst y) 1
  | 4 =>
    let b := bits w1 0 6
    let s : Int := if bits w1 17 1 = 1 then (d.sigAt (bits w1 6 11)).natAbs else x.natAbs
    let (y, e) := d.gDyn b x s
    next ((d.onAud (fun a => { a with env := Tab.put 0 a.env b e })).gWrite dst y) 1
  | _ => (d.paramErr, true)

/-- The CCLK edge that the run has reached (Table 11-1). -/
def Aud.edge (a : Aud) : Nat := a.startAt + 2 + ceilDiv a.active 2 + a.wait + a.gtime

/-- At most `n` operations, as far as they end by CCLK edge `by_`; the flag says that the phase ended. -/
def Dev.graphOps (by_ : Nat) (late : List Nat) : Nat → Dev → Dev × Bool
  | 0, d => (d, false)
  | n + 1, d =>
    if by_ < d.aud.edge + d.graphCost then (d, false) else
    let (d', fin) := d.graphOp late
    if fin then (d', true) else Dev.graphOps by_ late n d'

/-- The CCLK that the run has still to wait for its inputs when its voice phase ends (W of R346): the last bit of a frame whose FS_MODE
is 0 or 1 comes one BCLK after the frame's period. -/
def Dev.inputTail (d : Dev) : Nat :=
  (List.range 8).foldl (fun t p =>
    let a := Reg.AUD_TI_CFG p
    let cfg := (d.fr a).toNat
    if d.portSlots a = 0 ∨ bits cfg 4 2 = 2 then t
    else max t (ceilDiv (d.cclkMHz * 1000000) (audHz d.aud.fs * d.portSlots a * tdmWidth cfg) - 4 - ceilDiv d.aud.active 2)) 0

/-- The input wait of the run is over, `wait` CCLK after its voice phase or when its ports are through, whichever is later, and the
inputs enter their signals (Tables 11-1 and 11-2). -/
def Dev.graphBegin (d : Dev) (by_ wait : Nat) : Dev :=
  let wt := max wait d.inputTail
  if d.aud.run ≠ .voices ∨ by_ < d.aud.edge + wt then d else
  (List.range 128).foldl (fun d i => d.setSig (64 + i) (Tab.at 0 d.aud.ins i)) (d.onAud (fun a => { a with run := .graph, wait := wt }))

/-- The run ends (R346). -/
def Dev.graphDone (d : Dev) : Dev :=
  let len := 2 + ceilDiv d.aud.active 2 + d.aud.wait + d.aud.gtime + 4
  let d := (d.latchSinks false).onAud (fun a => { a with run := .ended })
  (d.sf Reg.AUD_RUN_LAST 0 16 len).raiseTo Reg.AUD_RUN_MAX (len % 65536)

/-- The graph phase (R341), at most `ops` operations of it and as far as they end by CCLK edge `by_`.  The result says on which CCLK edge,
and whether the run ends. -/
def graphPhase (by_ ops wait : Nat) (late : List Nat) (d : Dev) : Dev × Nat × Bool :=
  let d := d.graphBegin by_ wait
  if d.aud.run ≠ .graph then (d, d.cclks, false) else
  let (d, fin) := Dev.graphOps by_ late (min ops 4096) d
  if fin ∧ d.aud.edge + 4 ≤ by_ then (d, d.aud.edge + 4, true) else (d, d.aud.edge, false)

/-- CORE_RST_N or a rate change aside, a mill tick fixes S_N and lets the once-per-tick sources rise again (R357, R363). -/
def Dev.audTick (d : Dev) : Dev :=
  d.onAud (fun a => { a with tickRuns := ((d.tick.num, a.k) :: a.tickRuns).take 16, once := [] })

end Sys2Proof.Machine
end

