-- ==== Sys2Proof/Machine/Live.lean ====
section
/-!
DEFINITION. Registers with frame values and live values (R118, R119, R180, R214): which they are, how each kind of write changes
them, and the reload at a take-up edge.
-/

namespace Sys2Proof.Machine

/-- The registers of output `n` that each line latches at its build start (R118, R150, R180). -/
def lineRegs (n : Nat) : List Nat :=
  (List.range 4).flatMap (fun p =>
    [Reg.TP_PL_CFG n p, Reg.TP_PL_SCROLL n p, Reg.TP_PL_MAP n p, Reg.TP_PL_TILE n p, Reg.TP_PL_PAL n p]) ++
  [Reg.MX_CFG n, Reg.MX_ORDER n, Reg.MX_BG0 n, Reg.MX_BG1 n, Reg.MX_SALPHA n, Reg.MX_TBL_CFG n, Reg.MX_TM_EN n, Reg.MX_TM_CW0 n,
   Reg.MX_TM_CW1 n] ++
  (List.range 9).map (fun i => Reg.MX_TM_M n i) ++
  (List.range 2).flatMap (fun p =>
    [Reg.MX_VP_CFG n p, Reg.MX_VP_BUF n p, Reg.MX_VP_STRIDE n p, Reg.MX_VP_SRC_ORG n p, Reg.MX_VP_SRC_SIZE n p,
     Reg.MX_VP_DST_ORG n p, Reg.MX_VP_DST_SIZE n p, Reg.MX_VP_ALPHA n p, Reg.MX_VP_URG n p])

/-- The region and freeze registers of output `n`, latched at each take-up point (R180). -/
def regionRegs (n : Nat) : List Nat :=
  Reg.MX_FRZ_CFG n :: (List.range 64).flatMap (fun r =>
    [Reg.MX_RG_X n r, Reg.MX_RG_Y n r, Reg.MX_RG_CFG n r, Reg.MX_RG_EXP_A n r, Reg.MX_RG_EXP_B n r])

/-- The Damsel registers of output `n` with frame values (R214). -/
def damselRegs (n : Nat) : List Nat := Reg.DM_ENTRY n :: (List.range 16).map (fun i => Reg.DM_DATA n i)

/-- Every register of output `n` with a frame value and a live value. -/
def frameRegs (n : Nat) : List Nat := lineRegs n ++ regionRegs n ++ damselRegs n

/-- The output whose register with a frame value lies at `a`. -/
def frameOutput (a : Nat) : Option Nat :=
  let n := if 0x304000 ≤ a ∧ a < 0x307000 then some ((a - 0x304000) / 0x100)
    else if 0x800000 ≤ a ∧ a < 0x818000 then some ((a - 0x800000) / 0x800)
    else if 0x9A0000 ≤ a ∧ a < 0x9B8000 then some ((a - 0x9A0000) / 0x800)
    else if 0xA00000 ≤ a ∧ a < 0xA03000 then some ((a - 0xA00000) / 0x100)
    else none
  n.filter (fun n => (frameRegs n).contains a)

/-- The newest value of `l` merged under a bit mask. -/
def mergeWord (old v mask : Word) : Word := (old &&& ~~~mask) ||| (v &&& mask)

/-- MX_ORDER names each plane once (R190). -/
def orderOk (w : Nat) : Bool := (List.range 8).all (fun c => (List.range 8).any (fun i => bits w (3 * i) 3 == c))

/-- A frame-valued word that may not be taken: an order that is no permutation (R190), or BANK while a copy runs (R194). -/
def Dev.frameRefuse (d : Dev) (n a : Nat) (v : Word) : Option Dev :=
  if a = Reg.MX_ORDER n ∧ !orderOk v.toNat then some (d.sb (Reg.MX_STAT n) 1)
  else if a = Reg.MX_TBL_CFG n ∧ d.bt (Reg.MX_TBL_CMD n) 1 then some (d.sb (Reg.MX_STAT n) 4)
  else none

/-- Does the register's live value wait, since LEVEL goes from 0 to 1 and its update point has not come (R13, R15)? -/
def Dev.liveHeld (d : Dev) (n a : Nat) : Bool := (d.mxAt n).tblForce.isSome && (Block.mx n).experts.contains a

/-- The Damsel writes that enter the live value of `a` on the present CCLK edge or later stand over what else reaches it on this edge
(R119, R216). -/
def Dev.dmOver (d : Dev) (n a : Nat) : Dev :=
  d.dmLog.foldl (fun d e =>
    if e.2.1 = a ∧ d.cclks ≤ e.1 then
      let new := mergeWord (d.fr a) e.2.2.1 e.2.2.2
      if (d.frameRefuse n a new).isSome then d else d.sfr a new
    else d) d

/-- A write by the host, a core or REG_NOW (R118, R119): the live value at once, and the frame value of every epoch still to be taken up,
under the mask of the bytes written. -/
def Dev.frameWrite (d : Dev) (n a : Nat) (v mask : Word) : Dev :=
  let new := mergeWord (d.rg a) v mask
  match d.frameRefuse n a new with
  | some d => d
  | none =>
    let fs := d.frames.map (fun (f : FrameSet) =>
      if f.vals.any (fun p => p.1 == a) then
        { f with vals := f.vals.map (fun (p : Nat × Word) => if p.1 = a then (a, mergeWord p.2 v mask) else p) }
      else f)
    let d1 := { d with frames := fs }.sg a new
    if d.liveHeld n a then d1 else (d1.sfr a (mergeWord (d.fr a) v mask)).dmOver n a

/-- A change of the frame value of the epoch being committed (R118, R256, R260): older epochs keep the value they had. -/
def Dev.commitFrame (d : Dev) (n a : Nat) (v : Word) : Dev :=
  match d.frameRefuse n a v with
  | some d => d
  | none =>
    match d.frames with
    | [] => d.sg a v
    | f :: rest =>
      let f' := if f.vals.any (fun p => p.1 == a) then f else { f with vals := Tab.insert f.vals a (d.rg a) }
      { d with frames := f' :: rest }.sg a v

/-- A commit that proceeds begins: the epoch before it gets a set, and sets that no output can still take up are dropped: older than every
epoch in use, in a complete index or in a build. -/
def Dev.openFrames (d : Dev) (prev : Nat) : Dev :=
  let used := (d.tg.map (fun (p : Nat × Tg) => [p.2.cur, p.2.nxt])).flatten.filterMap id ++ d.obj.indexes.map (·.epoch)
  let oldest := used.foldl min prev
  { d with frames := { epoch := prev } :: d.frames.filter (fun f => decide (oldest ≤ f.epoch) && f.epoch != prev) }

/-- A Damsel write that enters on CCLK edge `e`: the live value only (R118), under the mask of its bytes and fields. -/
def Dev.liveWrite (d : Dev) (n e a : Nat) (v mask : Word) : Dev :=
  let new := mergeWord (d.fr a) v mask
  match d.frameRefuse n a new with
  | some d => d
  | none => { d with dmLog := d.dmLog.filter (fun (p : Nat × Nat × Word × Word) => decide (d.cclks ≤ p.1)) ++ [(e, a, v, mask)] }.sfr a new

/-- The reload at the take-up edge of output `n`, for epoch `e` (R118, R119). -/
def Dev.reloadLive (d : Dev) (n e : Nat) : Dev :=
  (frameRegs n).foldl (fun d a => if d.liveHeld n a then d else (d.sfr a (d.frameValue a e)).dmOver n a) d

end Sys2Proof.Machine
end

