-- ==== Sys2Proof/Machine/Pixel.lean ====
section
/-!
DEFINITION. Pattern formats, widening, the key test and the effective alpha (R79, R100, R120 to R125).
-/

namespace Sys2Proof.Machine

/-- Bits per pixel of a pattern format (Table 3-2); 0 for a reserved code. -/
def fmtBits : Nat → Nat
  | 0 => 4
  | 1 => 8
  | 2 => 16
  | 3 => 16
  | 4 => 24
  | 5 => 32
  | 6 => 32
  | _ => 0

/-- Widen an `n`-bit field to `m` bits by repeating its bits from the most significant downwards (R121). -/
def widen (n m v : Nat) : Nat :=
  if n = 0 then 0 else
  let reps := m / n + 1
  let big := (List.range reps).foldl (fun acc _ => acc * 2 ^ n + v % 2 ^ n) 0
  big / 2 ^ (reps * n - m)

/-- `c * a / 255` rounded to nearest: the mul of the over operation (before R189), and the rounding of R100. -/
def mul255 (c a : Nat) : Nat := (c * a + 127) / 255

/-- The colour of an ARGB8888 word (Table 4-2, R121). -/
def pxArgb8888 (w : Nat) : Px :=
  { r := widen 8 12 (bits w 16 8), g := widen 8 12 (bits w 8 8), b := widen 8 12 (bits w 0 8), a := bits w 24 8 }

/-- The colour of an RGB10A2 word. -/
def pxRgb10a2 (w : Nat) : Px :=
  { r := widen 10 12 (bits w 20 10), g := widen 10 12 (bits w 10 10), b := widen 10 12 (bits w 0 10), a := widen 2 8 (bits w 30 2) }

/-- The colour and pixel alpha of a packed pattern pixel (Tables 4-2 and 4-3). -/
def pxPacked (fmt raw : Nat) : Px :=
  match fmt with
  | 2 => { r := widen 5 12 (bits raw 11 5), g := widen 6 12 (bits raw 5 6), b := widen 5 12 (bits raw 0 5), a := 255 }
  | 3 => { r := widen 5 12 (bits raw 10 5), g := widen 5 12 (bits raw 5 5), b := widen 5 12 (bits raw 0 5),
           a := if bits raw 15 1 = 1 then 255 else 0 }
  | 4 => { r := widen 8 12 (bits raw 16 8), g := widen 8 12 (bits raw 8 8), b := widen 8 12 (bits raw 0 8), a := 255 }
  | 5 => pxArgb8888 raw
  | 6 => pxRgb10a2 raw
  | _ => {}

/-- The raw value of pixel `c` of a row that starts at byte `row`, from a byte reader (R120). -/
def rawPixel (rd : Nat → Byte) (fmt row c : Nat) : Nat :=
  match fmt with
  | 0 => bits (rd (row + c / 2)).toNat (4 * (c % 2)) 4
  | _ =>
    let n := fmtBits fmt / 8
    leNat ((List.range n).map (fun i => rd (row + c * n + i)))

/-- The bytes of pixel `c` of a row: first byte and count. -/
def pixelSpan (fmt row c : Nat) : Nat × Nat :=
  match fmt with
  | 0 => (row + c / 2, 1)
  | _ => (row + c * (fmtBits fmt / 8), fmtBits fmt / 8)

/-- Does a raw pixel match key entry `key` of the key table that a line latched (R123)? -/
def keyMatch (keys : Tab Word) (fmt key raw : Nat) : Bool :=
  match fmt with
  | 0 => raw == key % 16
  | 1 => raw == key
  | _ => ((BitVec.ofNat 32 raw ^^^ Tab.get Reg.resetWord keys (Reg.TP_KEY_VAL key)) &&&
      Tab.get Reg.resetWord keys (Reg.TP_KEY_MASK key)) == 0

/-- The effective alpha of a pixel (the table of R100). -/
def effAlpha (blend alpha p : Nat) (keyed : Bool) : Nat :=
  match blend with
  | 0 => 255
  | 1 => if keyed then 0 else 255
  | 2 => alpha
  | _ => mul255 p alpha

/-- First SRAM byte of a physical tile-map page (bank 72 upwards, R127). -/
def mapPageAddr (ph : Nat) : Nat := bankBase 72 + ph * 1024

/-- First SRAM byte of a physical palette page (bank 80 upwards, R127). -/
def palPageAddr (ph : Nat) : Nat := bankBase 80 + ph * 1024

/-- A palette entry through the page map `pm`; colour 0 and p = 0 beyond the logical space (R124, R126)
and for an uncorrectable word (R554). -/
def W.palette (w : W) (pm : Tab Nat) (bank i : Nat) : Px :=
  if w.d.fd Reg.TP_PAL_SPACE 0 13 ≤ bank then {}
  else
    let a := palPageAddr (Tab.get id pm bank) + 4 * i
    let e := (w.rd32 .sram a).toNat
    if w.d.sramBad a then {}
    else if w.d.fd Reg.TP_PAL_SPACE 16 13 ≤ bank then pxRgb10a2 e else pxArgb8888 e

/-- Does a look-up of the bank set PAL_RANGE (R126)? -/
def Dev.palRange (d : Dev) (bank : Nat) : Bool := decide (d.fd Reg.TP_PAL_SPACE 0 13 ≤ bank)

/-- A pixel premultiplied by an effective alpha (R189). -/
def premul (p : Px) (a : Nat) : Px := { r := mul255 p.r a, g := mul255 p.g a, b := mul255 p.b a, a := a, hi := p.hi }

/-- A premultiplied pixel laid over a premultiplied buffer pixel (R189). -/
def layOver (x p : Px) : Px :=
  { r := min 4095 (x.r + mul255 p.r (255 - x.a)), g := min 4095 (x.g + mul255 p.g (255 - x.a)),
    b := min 4095 (x.b + mul255 p.b (255 - x.a)), a := min 255 (x.a + mul255 p.a (255 - x.a)), hi := p.hi }

end Sys2Proof.Machine
end

