-- ==== Sys2Proof/Machine/Lanes.lean ====
section
/-!
DEFINITION. The lanes of a Flume port (R268 to R279, R286 to R288): settings and their fit, lane states, blocks and scrambling, and the slot
groups in which packets start.
-/

namespace Sys2Proof.Machine

/-! ### CRC-32 (R200, R279) -/

/-- One bit of the reflected CRC-32. -/
def crcBit (c : Word) : Word := if c.getLsbD 0 then (c >>> 1) ^^^ 0xEDB88320 else c >>> 1

/-- One byte into a running CRC-32 (initial value 0xFFFF_FFFF, final XOR left to the reader). -/
def crcByte (c : Word) (b : Byte) : Word :=
  let c := c ^^^ b.setWidth 32
  crcBit (crcBit (crcBit (crcBit (crcBit (crcBit (crcBit (crcBit c)))))))

/-- A byte list into a running CRC-32. -/
def crcBytes (c : Word) (l : List Byte) : Word := l.foldl crcByte c

/-- The CRC-32 of a byte list. -/
def crc32 (l : List Byte) : Word := crcBytes 0xFFFFFFFF l ^^^ 0xFFFFFFFF

/-! ### Settings (R269, R270, R287, R295) -/

/-- Lane rate in Mb/s (Table 9-1); 0 for a reserved code. -/
def laneMbps : Nat → Nat
  | 0 => 3125
  | 1 => 5000
  | 2 => 6250
  | 3 => 8000
  | 4 => 10000
  | 5 => 12500
  | _ => 0

/-- L for a LANES code; 0 for the reserved one. -/
def laneCount : Nat → Nat
  | 0 => 1
  | 1 => 2
  | 2 => 4
  | _ => 0

/-- Pixels per PIXEL packet for a PKT_PX code (R295). -/
def pktPixels : Nat → Nat
  | 1 => 32
  | 2 => 16
  | _ => 64

/-- Depth of an MX_FMT word in bits (Table 6-7). -/
def fmtDepth (fmt : Nat) : Nat := 8 + 2 * bits fmt 2 2

/-- Bits per pixel of a format (Table 9-5). -/
def fmtBpp (fmt : Nat) : Nat := if bits fmt 0 2 = 2 then 2 * fmtDepth fmt else 3 * fmtDepth fmt

/-- Slot groups of a packet of `len` data blocks on `l` lanes (R286). -/
def pktGroups (len l : Nat) : Nat := ceilDiv (len + 2) l

/-- Data blocks of a PIXEL packet of `n` pixels (Table 9-4). -/
def pixelLen (n bpp : Nat) : Nat := ceilDiv (n * bpp) 64

/-- Capacity of a line in slot groups (R287): the line period is that of H_TOTAL pixels, PPC of them a PCLK. -/
def flCapacity (t : Timing) (rate : Nat) : Nat :=
  if t.pNum = 0 then 0 else t.hTot * 10 * t.pDen * laneMbps rate / (t.pNum * t.ppc * 66 * 1000)

/-- Largest demand of any line of a frame under a setting (R287). -/
def flDemand (t : Timing) (fmt cfg : Nat) : Nat :=
  let l := laneCount (bits cfg 4 2)
  let p := pktPixels (bits cfg 8 2)
  let bpp := fmtBpp fmt
  let active := pktGroups 1 l + t.hAct / p * pktGroups (pixelLen p bpp) l +
    (if t.hAct % p = 0 then 0 else pktGroups (pixelLen (t.hAct % p) bpp) l)
  max active (pktGroups 1 l + pktGroups 3 l)

/-- Does a setting of FL_CFG fit a timing and a format (R287)?  An output without a timing has no line to fit. -/
def flFitsWith (t : Timing) (fmt cfg : Nat) : Bool := decide (t.hTot = 0) || decide (flDemand t fmt cfg + 2 ≤ flCapacity t (bits cfg 0 3))

/-- Does a setting fit the timing and format in force? -/
def Dev.flFits (d : Dev) (n cfg : Nat) : Bool := flFitsWith (d.tgAt n).tm (d.mxAt n).fmt.toNat cfg

/-- GANG_SIDE. -/
def Dev.gangSide (d : Dev) (n : Nat) : Nat := if d.portFollower n then 1 else 0

/-- The FL_CFG that an FL_CTRL write would put in force: the one held where the block stays at the expert level, else that of the PROFILE
written (R13, R14). -/
def Dev.flCfgOf (d : Dev) (n : Nat) (ctrl : Word) : Nat :=
  if d.level (.fl n) && ctrl.getLsbD 0 then (d.rg (Reg.FL_CFG n)).toNat
  else ((((Block.fl n).profile (bits ctrl.toNat 4 4) 0).getD []).headD (0, d.rg (Reg.FL_CFG n))).2.toNat

/-! ### Lane states and training (R271, R276, R290, R293) -/

/-- LSTATE codes (Table 9-2). -/
def lstOff : Nat := 0
/-- CLOCK. -/
def lstClock : Nat := 1
/-- TRAIN. -/
def lstTrain : Nat := 2
/-- ACTIVE. -/
def lstActive : Nat := 3

/-- LSTATE as stored: OFF, CLOCK (a training sequence runs), ACTIVE. -/
def Dev.lstate (d : Dev) (n : Nat) : Nat := d.fd (Reg.FL_STAT n) 12 2

/-- Is the port ACTIVE? -/
def Dev.flActive (d : Dev) (n : Nat) : Bool := d.lstate n == lstActive

/-- FL_STAT as read: a training sequence shows CLOCK for its first 32,768 block times and then TRAIN (R276). -/
def Dev.flStatRead (d : Dev) (n : Nat) : Word :=
  match (d.flAt n).training with
  | none => d.rg (Reg.FL_STAT n)
  | some t0 =>
    let rate := laneMbps (d.ff (Reg.FL_CFG n) 0 3)
    let st := if (d.tb - t0) * rate < 32768 * 66 * 1000 then lstClock else lstTrain
    BitVec.ofNat 32 (setBits (d.rg (Reg.FL_STAT n)).toNat 12 2 st)

/-- The ports that run from the PHY PLL of port `n` and train together: both of a port gang (R291). -/
def Dev.flGang (d : Dev) (n : Nat) : List Nat :=
  let m := d.portLead n
  if m % 2 = 0 ∧ d.portFollower (m + 1) = true then [m, m + 1] else [n]

/-! ### Blocks on the wire (R270 to R275) -/

/-- The eight payload bytes of a block as a number, byte 0 lowest. -/
def FlBlock.num (b : FlBlock) : Nat := leNat b.bytes

/-- An IDLE block. -/
def idleBlock : FlBlock := { control := true, bytes := 0x1E :: List.replicate 7 0 }

/-- Bytes 1 and 2 of a TRAIN or ALIGN block (R274). -/
def Dev.laneBytes (d : Dev) (n lane : Nat) : List Byte :=
  [BitVec.ofNat 8 (lane + 4 * d.ff (Reg.FL_CFG n) 4 2 + 16 * d.ff (Reg.FL_CFG n) 0 3 + 128 * d.gangSide n), BitVec.ofNat 8 n]

/-- XOR of a byte list. -/
def xorBytes (l : List Byte) : Byte := l.foldl (· ^^^ ·) 0

/-- A TRAIN block with countdown `c`. -/
def Dev.trainBlock (d : Dev) (n c lane : Nat) : FlBlock :=
  let b := d.laneBytes n lane ++ leBytes 2 c ++ [0xA5, 0x5A]
  { control := true, bytes := 0x2D :: b ++ [xorBytes b] }

/-- An ALIGN block with marker count `m`. -/
def Dev.alignBlock (d : Dev) (n m lane : Nat) : FlBlock :=
  let b := d.laneBytes n lane ++ leBytes 3 m ++ [0]
  { control := true, bytes := 0x4B :: b ++ [xorBytes b] }

/-- The blocks of a packet with sequence number `seq` (R278, R279). -/
def FlPkt.blocks (p : FlPkt) (seq : Nat) : List FlBlock :=
  let len := ceilDiv p.payload.length 8
  let pay := p.payload ++ List.replicate (len * 8 - p.payload.length) 0
  let head : List Byte := [BitVec.ofNat 8 p.typ] ++ leBytes 2 len ++ leBytes 4 p.f.toNat
  let s : Byte := BitVec.ofNat 8 seq
  let crc := crc32 (head ++ pay ++ [s])
  [{ control := true, bytes := 0x78 :: head }] ++
  (List.range len).map (fun i => { control := false, bytes := (pay.drop (8 * i)).take 8 }) ++
  [{ control := true, bytes := [0x87, s] ++ leBytes 4 crc.toNat ++ [0, 0] }]

/-- One 64-bit payload through the scrambler 1 + x^39 + x^58 (R272), bit 0 first: bit i leaves as its exclusive or with the bits sent 39
and 58 bits before it.  `h` holds the 58 bits sent last, the oldest lowest; the result is the new `h` and the bits sent. -/
def scrBlock (h v : Nat) : Nat × Nat :=
  let lo := (v ^^^ (h >>> 19) ^^^ h) % 2 ^ 39
  let h' := h + lo * 2 ^ 58
  let hi := ((v >>> 39) ^^^ (h' >>> 58) ^^^ (h' >>> 39)) % 2 ^ 25
  let out := lo + hi * 2 ^ 39
  (out >>> 6, out)

/-- A slot group, one block per logical lane, passes the scramblers: what each lane sends, sync header and payload. -/
def Fl.scramble (f : Fl) (g : List FlBlock) : Fl × List (Bool × Nat) :=
  let out := (f.scr.zip g).map (fun p => (scrBlock p.1 p.2.num, p.2.control))
  ({ f with scr := out.map (fun o => o.1.1) ++ f.scr.drop g.length, groups := f.groups + 1 }, out.map (fun o => (o.2, o.1.2)))

/-- Send a slot group and keep what the lanes send. -/
def Fl.sendGroup (f : Fl) (g : List FlBlock) : Fl :=
  let (f, out) := f.scramble g
  { f with wire := if f.wire = [] then out.map (fun o => [o]) else (f.wire.zip out).map (fun p => p.1 ++ [p.2]) }

/-- The place of the first ALIGN group at or after place `p` (R275). -/
def Fl.alignFrom (f : Fl) (p : Nat) : Nat := f.alignAt + 16384 * ceilDiv (p - f.alignAt) 16384

/-- Where `len` slot groups that may start at place `p` start and end, with the ALIGN group that falls before or within them (R275, R286). -/
def Fl.span (f : Fl) (p len : Nat) : Nat × Nat :=
  let a := f.alignFrom p
  let s := if p = a then p + 1 else p
  let a := if p = a then a + 16384 else a
  (s, s + len + if a < s + len then 1 else 0)

/-- Send the ALIGN group that is due, `mk` its blocks for a marker count: the next one follows 16,384 slot groups after it (R275, R277). -/
def Fl.sendAlign (mk : Nat → List FlBlock) (f : Fl) : Fl :=
  { f.sendGroup (mk f.marker) with marker := (f.marker + 1) % 2 ^ 24, alignAt := f.groups + 16384 }

/-- Send a slot group at the next place, after the ALIGN group where that is its place. -/
def Fl.emit (mk : Nat → List FlBlock) (f : Fl) (g : List FlBlock) : Fl :=
  (if f.groups = f.alignAt then f.sendAlign mk else f).sendGroup g

/-- IDLE groups, and ALIGN groups at their places, up to place `p`. -/
def Fl.idleTo (mk : Nat → List FlBlock) (idle : List FlBlock) (p : Nat) (f : Fl) : Fl :=
  (List.range (p - f.groups)).foldl (fun (f : Fl) _ =>
    if f.groups = f.alignAt then { (f.scramble (mk f.marker)).1 with marker := (f.marker + 1) % 2 ^ 24, alignAt := f.groups + 16384 }
    else (f.scramble idle).1) f

/-- Lay stream blocks out in slot groups of `l`, the last filled with IDLE (R273, R278). -/
def slotGroups (l : Nat) (bs : List FlBlock) : List (List FlBlock) :=
  (List.range (ceilDiv bs.length l)).map (fun j => (List.range l).map (fun i => bs.getD (l * j + i) idleBlock))

/-- The physical order and polarity of the lanes (R270): logical lane i leaves on lane i, or L - 1 - i, inverted by POL. -/
def Dev.wirePhysical (d : Dev) (n : Nat) (w : List (List (Bool × Nat))) : List (List (Bool × Nat)) :=
  let w := if d.bt (Reg.FL_BOARD n) 0 then w.reverse else w
  (w.zip (List.range w.length)).map (fun p =>
    if d.bt (Reg.FL_BOARD n) (4 + p.2) then p.1.map (fun b => (!b.1, 2 ^ 64 - 1 - b.2)) else p.1)

/-- L of the setting in force. -/
def Dev.flLanes (d : Dev) (n : Nat) : Nat := laneCount (d.ff (Reg.FL_CFG n) 4 2)

/-- The lane rate in force, Mb/s. -/
def Dev.flRate (d : Dev) (n : Nat) : Nat := max 1 (laneMbps (d.ff (Reg.FL_CFG n) 0 3))

/-- An ALIGN group with marker count `m`. -/
def Dev.alignBlocks (d : Dev) (n m : Nat) : List FlBlock := (List.range (d.flLanes n)).map (d.alignBlock n m)

/-- The 64 or 2,048 TRAIN groups of a burst or a training sequence, their countdown running from `k - 1` to 0 (R276, R277). -/
def Dev.trainGroups (d : Dev) (n k : Nat) : List (List FlBlock) :=
  (List.range k).map (fun i => (List.range (d.flLanes n)).map (d.trainBlock n (k - 1 - i)))

/-- Block times of a training sequence before its ALIGN group, which has place 0 among the slot groups (R276). -/
def trainBlocks : Nat := 32768 + 2048

/-- The first place whose slot group begins at or after time `t`, in 1/120 ns. -/
def Dev.flPlaceFrom (d : Dev) (n t : Nat) : Nat := ceilDiv ((t - 120 * (d.flAt n).t0) * d.flRate n) 7920000 - trainBlocks

/-- When the slot group at place `p` begins, ns rounded up. -/
def Dev.flPlaceNs (d : Dev) (n p : Nat) : Nat := (d.flAt n).t0 + ceilDiv ((trainBlocks + p) * 66000) (d.flRate n)

/-- Does the slot group at place `p` begin before time `t`, in 1/120 ns? -/
def Dev.flBefore (d : Dev) (n p t : Nat) : Bool := decide ((trainBlocks + p) * 7920000 < (t - 120 * (d.flAt n).t0) * d.flRate n)

/-- The stream goes on with IDLE groups up to place `p` and then with what `act` sends; `bs` are its blocks. -/
def Dev.flSend (d : Dev) (n p : Nat) (bs : List FlBlock) (act : Fl → Fl) : Dev :=
  let f := (d.flAt n).idleTo (d.alignBlocks n) (List.replicate (d.flLanes n) idleBlock) p
  let f := act { f with wire := [] }
  d.onFl n (fun _ => { f with sent := bs, wire := d.wirePhysical n f.wire })

/-! ### When formed packets start (R286, R288) -/

/-- The place from which a formed packet may start: the framer latency has passed and every earlier packet has ended (R286). -/
def Dev.flReady (d : Dev) (n at_ : Nat) : Nat := max (d.flAt n).groups (d.flPlaceFrom n (at_ + 120 * d.fd (Reg.FL_LAT n) 0 8))

/-- The formed packets that start before time `t`: packet by packet, each where the one before has ended (R286, R288). -/
def Dev.startedBy (d : Dev) (n t : Nat) : List FlPkt :=
  ((d.flAt n).queue.foldl (fun (acc : Nat × Bool × List FlPkt) p =>
    let (pos, open_, l) := acc
    let (s, e) := (d.flAt n).span (max pos (d.flReady n p.at_)) (pktGroups (ceilDiv p.payload.length 8) (d.flLanes n))
    if open_ && d.flBefore n s t then (e, true, l ++ [p]) else (pos, false, l)) (0, true, [])).2.2

/-- The frames of port `n` end: what has not started is not sent (R290), and the line in progress sends no more. -/
def Dev.flCut (d : Dev) (n : Nat) : Dev :=
  let kept := d.startedBy n (120 * d.tb)
  d.onFl n (fun f => { f with
    queue := kept ++ (f.queue.drop kept.length).filter (fun p => p.typ == 5), blank := [], lineOff := true, statusAt := d.tb })

/-- Is the port ACTIVE at time `t`, in 1/120 ns: now, or because the training sequence that runs ends by then (R276, R289)? -/
def Dev.flActiveBy (d : Dev) (n t : Nat) : Bool :=
  d.flActive n || (match (d.flAt n).training with
    | some t0 => decide (120 * t0 * d.flRate n + (trainBlocks + 1) * 7920000 ≤ t * d.flRate n)
    | none => false)

/-- The port leaves ACTIVE, and its queue is emptied: a line whose LINE_START is not yet formed sends nothing (R289). -/
def Dev.flLeave (d : Dev) (n : Nat) : Dev :=
  let unsent := ((d.flAt n).queue.filter (fun p => p.typ == 1 && decide (120 * d.tb < p.at_))).length
  (d.add (Reg.FL_UNSENT_CNT n) unsent).onFl n (fun f => { f with queue := [], blank := [], lineOff := true })

end Sys2Proof.Machine
end

