-- ==== Sys2Proof/Machine/Tick.lean ====
section
/-!
DEFINITION. The tick flywheel (R38 to R49), the audio cadence (R64 to R66), and the timings of the generators (R47, R50 to R54).
Times are nanoseconds of the timebase.
-/

namespace Sys2Proof.Machine

/-! ### Rates and cadence -/

/-- The sample rate that FS selects, in hertz (R64). -/
def fsHz (fs : Nat) : Nat := if fs = 0 then 48000 else 96000

/-- C: the smallest number of ticks whose duration holds a whole number of samples (R64). -/
def cadenceC (num den fs : Nat) : Nat := num / Nat.gcd num (fsHz fs * den)

/-- S: the samples of a cadence cycle. -/
def cadenceS (num den fs : Nat) : Nat := cadenceC num den fs * fsHz fs * den / num

/-- The tick period in force in ns, rounded down. -/
def Tick.periodNs (t : Tick) : Nat := t.perNum / t.perDen

/-- The programmed period in ns, rounded down. -/
def Tick.nominalNs (t : Tick) : Nat := 1000000000 * t.den0 / t.num0

/-- The programmed rate is in force without a correction of the period. -/
def Tick.program (t : Tick) : Tick := { t with perNum := 1000000000 * t.den0, perDen := t.num0 }

/-- k of R47: the frame rate over the tick rate, when it is an integer from 1 to 8. -/
def Timing.kOf (t : Timing) (num den : Nat) : Option Nat :=
  let a := 100000000 * t.pNum * t.ppc * den
  let b := t.pDen * t.hTot * t.vTot * num
  if b = 0 then none else if a % b = 0 ∧ 1 ≤ a / b ∧ a / b ≤ 8 then some (a / b) else none

/-- Is the output enabled for R48: its generator is not OFF? -/
def Dev.tgOn (d : Dev) (n : Nat) : Bool := (d.tgAt n).st != .off

/-- The four conditions on a submitted rate (R46); the cadence is that of the sample rate that TG_AUD_CFG selects. -/
def Dev.rateOk (d : Dev) (num den : Nat) : Bool :=
  decide (num ≠ 0) && decide (den ≠ 0) && decide (24000 * den ≤ num * 1001) && decide (num ≤ 240 * den) &&
  decide (cadenceC num den (d.fd Reg.TG_AUD_CFG 0 1) ≤ 16) &&
  d.tg.all (fun p => p.2.st == .off || (p.2.tm.kOf num den).isSome)

/-- TG_AUD_CADENCE for the rate and FS in force (R64). -/
def Dev.showCadence (d : Dev) : Dev :=
  d.sg Reg.TG_AUD_CADENCE (packFields
    [(0, cadenceC d.tick.num0 d.tick.den0 d.tick.fs), (8, cadenceS d.tick.num0 d.tick.den0 d.tick.fs)])

/-- Submit a rate (R46, R48): scheduled, or refused with RATE_ERR.  The flag says whether a profile submitted it. -/
def Dev.submitRate (d : Dev) (num den : Nat) (profile : Bool) : Dev × Bool :=
  if d.rateOk num den then (d.onTick (fun t => { t with rate := some (num, den, profile) }), true)
  else (d.sb Reg.TG_TICK_STAT 4, false)

/-- A write of TG_TICK_RATE_DEN at the expert level (R46): the rate is submitted; a refusal returns both registers to the rate in
force. -/
def tickRateSubmit (w : Word) (d : Dev) : Dev :=
  if !d.level .tick then d.sb Reg.TG_TICK_STAT 0 else
  let den := bits w.toNat 0 20
  let num := (d.rg Reg.TG_TICK_RATE_NUM).toNat
  let (d1, ok) := d.submitRate num den false
  if ok then d1.sg Reg.TG_TICK_RATE_DEN (BitVec.ofNat 32 den)
  else (d1.sg Reg.TG_TICK_RATE_NUM (BitVec.ofNat 32 d.tick.num0)).sg Reg.TG_TICK_RATE_DEN (BitVec.ofNat 32 d.tick.den0)

/-- STEP in force, clamped to 250 ppm (R43), as a fraction of a ns of the period. -/
def Dev.slewStep (d : Dev) : Int × Nat := (min 250 (d.ff Reg.TG_TICK_SLEW 0 8) * d.tick.perNum, 1000000 * d.tick.perDen)

/-- A fraction held to ±`l`. -/
def clampFrac (c l : Int × Nat) : Int × Nat :=
  if l.1 * c.2 < c.1 * l.2 then l else if c.1 * l.2 < -l.1 * c.2 then (-l.1, l.2) else c

/-- The valid window: 0.1 % of the tick period (R40). -/
def Dev.tickWindow (d : Dev) : Nat := d.tick.periodNs / 1000

/-- SRC takes a new value (R39, R42): internal clears HOLDOVER and SLEWING and the corrections; a reference starts to be acquired.  Until
then no reference is in use, and SRC_ACTIVE reads 0 (DESIGN CHOICE, log entry 84). -/
def Dev.selectSource (d : Dev) (src : Nat) : Dev :=
  let d := (((d.sf Reg.TG_TICK_CTRL 8 2 src).cb Reg.TG_TICK_STAT 3).sf Reg.TG_TICK_STAT 7 2 0).onTick
    (fun t => { t with edges := [], jump := false, misses := 0, corrNum := 0, corrDen := 1 })
  if src = 0 then (d.cb Reg.TG_TICK_STAT 2).onTick Tick.program else d

/-- A write of TG_TICK_CTRL.SRC (R39): the reserved code 3 sets RATE_ERR and leaves SRC unchanged. -/
def Dev.writeSource (d : Dev) (src : Nat) : Dev :=
  if src = 3 then d.sb Reg.TG_TICK_STAT 4
  else if src = d.fd Reg.TG_TICK_CTRL 8 2 then d
  else d.selectSource src

/-- A write that applies PROFILE `p` of the tick at the basic level (R49). -/
def Dev.applyTickProfile (d : Dev) (p : Nat) : Dev :=
  match tickProfile p with
  | none => d.sb Reg.TG_TICK_STAT 4
  | some (num, den) =>
    let (d1, ok) := d.submitRate num den true
    if ok then d1.sf Reg.TG_TICK_CTRL 4 4 p else d1

/-- A write of TG_TICK_CTRL (R39, R49, R615, R617). -/
def tickCtrlWrite (w : Word) (d : Dev) : Dev :=
  let v := w.toNat
  if d.fixedRefuse .tick w then d.sb Reg.TG_TICK_STAT 0 else
  let l0 := d.level .tick
  let l1 := w.getLsbD 0
  let d := (d.sf Reg.TG_TICK_CTRL 10 4 (bits v 10 4)).writeSource (bits v 8 2)
  let p := bits v 4 4
  let carried := (tickProfile p).isSome
  let use := if carried then p else d.fd Reg.TG_TICK_CTRL 4 4
  let d := if carried then d else d.sb Reg.TG_TICK_STAT 4
  match l0, l1 with
  | false, false => if carried then d.applyTickProfile p else d
  | true, false =>
    let d := (d.cb Reg.TG_TICK_CTRL 0).applyTickProfile use
    (d.sg Reg.TG_TICK_RATE_NUM (BitVec.ofNat 32 d.tick.num0)).sg Reg.TG_TICK_RATE_DEN (BitVec.ofNat 32 d.tick.den0)
  | false, true =>
    let d := (d.sb Reg.TG_TICK_CTRL 0).applyTickProfile use
    d.sgAll (d.derived .tick)
  | true, true => if carried then d.sf Reg.TG_TICK_CTRL 4 4 p else d

/-! ### The flywheel -/

/-- The time of the next tick is fixed when a tick is issued at `now` (R38, R40): the period with the carried fraction, and the
correction of the phase. -/
def Tick.fixNext (t : Tick) (now : Nat) : Tick :=
  let den := t.carryDen * t.perDen * t.corrDen
  let total : Int := (t.carry * t.perDen * t.corrDen + t.perNum * t.carryDen * t.corrDen : Nat) + t.corrNum * (t.carryDen * t.perDen)
  let n := total.toNat
  let g := max 1 (Nat.gcd (n % den) den)
  { t with next := now + n / den, carry := n % den / g, carryDen := den / g, corrNum := 0, corrDen := 1,
           frac := t.carry, fracDen := t.carryDen }

/-- The timing of generator `n` is checked against the rate that takes effect (R47): its k is that rate's, or RATE_ERR sets and the
timing stays as it is. -/
def Dev.recheck (num den : Nat) (d : Dev) (n : Nat) : Dev :=
  if !d.tgOn n || (d.tgAt n).tm.hTot == 0 then d else
  match (d.tgAt n).tm.kOf num den with
  | some k => (d.onTg n (fun g => { g with k := k })).sf (Reg.TG_STAT n) 8 4 k
  | none => d.sb (Reg.TG_STAT n) 1

/-- A scheduled rate takes effect at the first tick whose number is a multiple of both cadence lengths (R48, R49).  At the expert level
the rate registers hold what was last written to them: a numerator staged since stays (R46, R616). -/
def Dev.applyRate (d : Dev) : Dev :=
  match d.tick.rate with
  | none => d
  | some (num, den, prof) =>
    if d.tick.num % Nat.lcm (cadenceC d.tick.num0 d.tick.den0 d.tick.fs) (cadenceC num den d.tick.fs) = 0 then
      let d := d.onTick (fun t =>
        let same := num * t.den0 == t.num0 * den
        let t := { t with num0 := num, den0 := den, rate := none }
        if same then t else t.program)
      let d := (d.tg.map (·.1)).foldl (Dev.recheck num den) d
      let d := if d.level .tick then d
        else (d.sg Reg.TG_TICK_RATE_NUM (BitVec.ofNat 32 num)).sg Reg.TG_TICK_RATE_DEN (BitVec.ofNat 32 den)
      let d := if prof then
          let l := [(Reg.TG_TICK_SLEW, packFields [(0, 60), (16, 100)]), (Reg.TG_TICK_OUT_CFG, (125 : Word))]
          if d.level .tick then l.foldl (fun d p => d.sfr p.1 (d.rg p.1)) d else (d.sgAll l).sfrAll l
        else d
      d.showCadence
    else d

/-- An FS change takes effect at a tick that begins a cadence cycle for both settings (R66). -/
def Dev.applyFs (d : Dev) : Dev :=
  let new := d.fd Reg.TG_AUD_CFG 0 1
  if d.tick.fsPend && d.tick.num % cadenceC d.tick.num0 d.tick.den0 d.tick.fs == 0 &&
      d.tick.num % cadenceC d.tick.num0 d.tick.den0 new == 0 then
    (d.onTick (fun t => { t with fs := new, fsPend := false })).showCadence
  else d

/-- A write of TG_AUD_CFG.FS (R66).  A setting whose cadence at the rate in force exceeds 16 ticks breaks R64, and no rule says what becomes
of the write: it is refused as a rate would be, FS stays and RATE_ERR sets (DESIGN CHOICE, log entry 70). -/
def audCfgWrite (w : Word) (d : Dev) : Dev :=
  let fs := bits w.toNat 0 1
  if 16 < cadenceC d.tick.num0 d.tick.den0 fs then d.sb Reg.TG_TICK_STAT 4
  else (d.sf Reg.TG_AUD_CFG 0 1 fs).onTick (fun t => { t with fsPend := fs != d.tick.fs })

/-- The place of the tick in force in its cadence cycle (R64). -/
def Tick.cyclePos (t : Tick) : Nat := t.num % cadenceC t.num0 t.den0 t.fs

/-- The first sample of the cadence cycle that falls in tick `p` of the cycle or later (R65). -/
def Tick.firstSample (t : Tick) (p : Nat) : Nat := ceilDiv (p * cadenceS t.num0 t.den0 t.fs) (cadenceC t.num0 t.den0 t.fs)

/-- The samples of the tick in force are due next (R64, R65): sample 0 of the cycle at a tick that begins one. -/
def Tick.startSamples (t : Tick) : Tick :=
  { t with sample := if t.cyclePos = 0 then 0 else max t.sample (t.firstSample t.cyclePos) }

/-- When the next sample is issued, on the last TBCLK edge at or before its ideal time (R65); `none` where the tick in force holds no
further sample.  The ideal times spread over the interval from the tick in force to the next, so that they follow a slew. -/
def Tick.sampleAt (t : Tick) : Option Nat :=
  let s := max 1 (cadenceS t.num0 t.den0 t.fs)
  let ahead := t.sample * cadenceC t.num0 t.den0 t.fs - t.cyclePos * s
  if t.firstSample (t.cyclePos + 1) ≤ t.sample then none else
  -- the tick's ideal time and the interval to the next, over one denominator
  let den := t.fracDen * t.carryDen
  let t0 := (t.ts * t.fracDen + t.frac) * t.carryDen
  let t1 := (t.next * t.carryDen + t.carry) * t.fracDen
  some ((t0 * s + (t1 - t0) * ahead) / (den * s))

/-- The level of the TICK_OUT pin at timebase value `now` (R45): the pulse starts 4 ns after the tick, and OUT_POL 1 inverts it. -/
def Dev.tickOutAt (d : Dev) (now : Nat) : Bool :=
  let pulse := d.bt Reg.TG_TICK_CTRL 12 && decide (d.tick.ts + 4 ≤ now) && decide (now < d.tick.outUntil)
  pulse != d.bt Reg.TG_TICK_CTRL 13

/-- TICK_OUT now. -/
def Dev.tickOut (d : Dev) : Bool := d.tickOutAt d.tb

/-- The tick generator's part of the mill tick whose time is `at0` (R38, R42, R45, R48, R58, R64 to R66). -/
def Dev.issueTick (d : Dev) (at0 : Nat) : Dev :=
  let d := d.onTick (fun t => { t with num := t.num + 1, ts := at0, seen := t.seenNext, seenNext := false, closed := false, jump := false })
  let d := d.applyRate
  let d := d.applyFs
  let d := d.onTick (fun t => t.fixNext at0)
  let d := d.onTick Tick.startSamples
  let d := if d.bt Reg.TG_TICK_CTRL 12 then
      d.onTick (fun t => { t with outUntil := at0 + 4 + max 1 (d.ff Reg.TG_TICK_OUT_CFG 0 16) * 8 })
    else d
  -- each generator latches its frame count (R58) and begins a new run of frame starts
  d.tg.foldl (fun d p => (d.sg (Reg.TG_FRAME_LATCH p.1) (d.rg (Reg.TG_FRAME_CNT p.1))).onTg p.1 (fun g => { g with frameJ := 0 })) d

/-- The newest edges of the reference that follow one another by the period, within twice the valid window. -/
def Tick.edgeRun (t : Tick) : List Nat → List Nat
  | a :: b :: l => if ((a : Int) - b - t.periodNs).natAbs ≤ 2 * (t.periodNs / 1000) then a :: t.edgeRun (b :: l) else [a]
  | l => l

/-- The period measured on the reference: the mean of the periods between the last edges that follow one another by the period
(log entry 19). -/
def Tick.measured (t : Tick) : Tick :=
  match t.edgeRun t.edges with
  | e :: f :: l => { t with perNum := e - (f :: l).getLast?.getD e, perDen := (f :: l).length }
  | _ => t

/-- Are the last four edges three periods each within 250 ppm of the programmed rate (R42)? -/
def Tick.acquires (t : Tick) : Bool :=
  match t.edges.take 4 with
  | [a, b, c, e] =>
    [a - b, b - c, c - e].all (fun p =>
      decide (((p : Int) * t.num0 - 1000000000 * t.den0).natAbs * 1000000 ≤ 250 * 1000000000 * t.den0))
  | _ => false

/-- Every generator that runs frames re-phases (R43, R55).  A generator in a glide or in BLANK starts at the corrected phase anyway (R63:
the re-phase merges into the glide), and the model sets no REPHASE there (DESIGN CHOICE, log entry 71). -/
def Dev.rephaseAll (d : Dev) : Dev :=
  { d with tg := d.tg.map (fun p => (p.1, if p.2.st == .locked then { p.2 with rephase := true } else p.2)) }

/-- The edge `e`, which belongs to the tick in force plus `ahead`, corrects the period and the phase (R40, R42): the first tick whose
time is not fixed moves towards the edge that the reference will have there, by at most STEP. -/
def Dev.steer (d : Dev) (e ahead : Nat) : Dev :=
  let d := d.onTick Tick.measured
  let t := d.tick
  -- the edge expected at the tick after the next, less the flywheel's time for it
  let den := t.perDen * t.carryDen
  let goal : Int := ((e * t.perDen + (2 - ahead) * t.perNum) * t.carryDen : Nat)
  let plain : Int := (t.next * den + t.carry * t.perDen + t.perNum * t.carryDen : Nat)
  let c := clampFrac (goal - plain, den) d.slewStep
  d.onTick (fun t => { t with corrNum := c.1, corrDen := c.2 })

/-- The reference is locked: SLEWING ends, and the tick that the edge belongs to has its valid edge. -/
def Dev.lockRef (d : Dev) (ahead : Nat) : Dev :=
  (d.cb Reg.TG_TICK_STAT 3).onTick (fun t =>
    if ahead = 0 then { t with misses := 0, seen := true } else { t with misses := 0, seenNext := true })

/-- The tick is issued at the reference edge `e` itself (R42, R43). -/
def Dev.jumpTick (d : Dev) (e : Nat) : Dev :=
  let d := d.onTick (fun t => { t with carry := 0, carryDen := 1, corrNum := 0, corrDen := 1 })
  ((d.issueTick e).rephaseAll).lockRef 0

/-- Does the edge `e` issue the tick of a jump: it lies at least half a period after the last tick (R42)? -/
def Dev.jumpsAt (d : Dev) (e : Nat) : Bool := decide (2 * d.tick.ts * d.tick.perDen + d.tick.perNum ≤ 2 * e * d.tick.perDen)

/-- The jump waits for a reference edge at least half a period after the last tick (R42). -/
def Dev.jumpEdge (d : Dev) (e : Nat) : Dev := if d.jumpsAt e then d.jumpTick e else d

/-- Does a re-acquisition with the phase difference `off` jump (R42)? -/
def Dev.jumpsBy (d : Dev) (off : Nat) : Bool :=
  d.bt Reg.TG_TICK_CTRL 11 && decide (d.ff Reg.TG_TICK_SLEW 16 16 * 1000 < off)

/-- Re-acquisition at the edge `e` of source `src`, which is `off` ns from its tick (R42): HOLDOVER clears, and the flywheel locks, slews
or jumps. -/
def Dev.reacquire (d : Dev) (e src ahead off : Nat) : Dev :=
  let d := (((d.cb Reg.TG_TICK_STAT 2).sf Reg.TG_TICK_STAT 7 2 src).onTick (fun t => { t with misses := 0 })).onTick Tick.measured
  if d.jumpsBy off then (d.onTick (fun t => { t with jump := true })).jumpEdge e
  else if off ≤ d.tickWindow then (d.steer e ahead).lockRef ahead
  else ((d.sb Reg.TG_TICK_STAT 3).steer e ahead).onTick (fun t => { t with due := e + t.periodNs, dueSeen := e })

/-- A reference edge at compensated time `e` of source `src` (R40 to R42).  A jump issues the tick at the edge itself. -/
def Dev.refEdge (d : Dev) (e src : Nat) : Dev :=
  if d.fd Reg.TG_TICK_CTRL 8 2 ≠ src then d else
  let add := fun (d : Dev) => d.onTick (fun t => { t with edges := (e :: t.edges).take 5 })
  let dist := fun (t : Nat) => ((e : Int) - t).natAbs
  let w := d.tickWindow
  let ahead := if dist d.tick.ts ≤ dist d.tick.next then 0 else 1
  let off := dist (if ahead = 0 then d.tick.ts else d.tick.next)
  let glitch := fun (d : Dev) => if off ≤ w then d else d.inc Reg.TG_TICK_GLITCH_CNT
  if d.tick.jump then (if d.jumpsAt e then (add d).jumpEdge e else glitch (add d))
  else if d.bt Reg.TG_TICK_STAT 3 then
    if dist d.tick.due ≤ w then
      let d := ((add d).onTick (fun t => { t with misses := 0, dueSeen := t.due + w })).steer e ahead
      if off ≤ w then d.lockRef ahead else d.onTick (fun t => { t with due := e + t.periodNs })
    else d.inc Reg.TG_TICK_GLITCH_CNT
  else if d.fd Reg.TG_TICK_STAT 7 2 = src then
    if off ≤ w then ((add d).steer e ahead).lockRef ahead else glitch d
  else
    -- not yet re-acquired: an edge that is valid corrects the flywheel as any other (R40), and four good periods re-acquire (R42)
    let d := add d
    if d.tick.acquires then
      let d := if d.jumpsBy off && d.jumpsAt e then d else glitch d
      d.reacquire e src ahead off
    else if off ≤ w then (d.steer e ahead).lockRef ahead else glitch d

/-- The active edge of TICK_IN takes the pin to its level: IN_POL 0 is the rising edge, 1 the falling edge (R44). -/
def Dev.tickInPin (d : Dev) : Dev := d.onTick (fun t => { t with inHigh := !d.bt Reg.TG_TICK_CTRL 10 })

/-- The active edge of TICK_IN (R40, R44), which IN_POL makes the rising or the falling one: it is judged with the 3 ns of pad and
synchroniser delay subtracted. -/
def tickInEdge (d : Dev) : Dev := d.tickInPin.refEdge (d.tb - 3) 1

/-- A jump whose reference has gone: the tick is issued 1.5 periods after the last one, and the reference is looked for anew
(log entry 19). -/
def Dev.dropJump (d : Dev) : Dev :=
  if d.tick.jump then
    (d.sf Reg.TG_TICK_STAT 7 2 0).onTick (fun t => { t with next := t.ts + 3 * t.perNum / (2 * t.perDen), carry := 0, carryDen := 1,
                                                            edges := [], jump := false })
  else d

/-- When the window that closes next ends (R40): round the predicted edge while SLEWING is 1. -/
def Dev.windowEnd (d : Dev) : Nat :=
  if d.bt Reg.TG_TICK_STAT 3 then (if d.tb ≤ d.tick.dueSeen then d.tick.dueSeen else d.tick.due + d.tickWindow)
  else d.tick.ts + d.tickWindow

/-- A tick without a valid edge (R40, R41).  In holdover no reference is in use, and SRC_ACTIVE reads 0 (DESIGN CHOICE, log entry 84). -/
def Dev.missTick (d : Dev) : Dev :=
  let m := d.tick.misses + 1
  let d := (d.inc Reg.TG_TICK_MISS_CNT).onTick (fun t => { t with misses := m })
  if m = 8 then
    ((((d.sb Reg.TG_TICK_STAT 1).sb Reg.TG_TICK_STAT 2).cb Reg.TG_TICK_STAT 3).sf Reg.TG_TICK_STAT 7 2 0).onTick
      (fun t => { t with edges := [], jump := false, corrNum := 0, corrDen := 1 })
  else d

/-- The window closes (R40, R41), once for each tick. -/
def tickWindowClose (d : Dev) : Dev :=
  if d.fd Reg.TG_TICK_CTRL 8 2 = 0 then d
  else if d.bt Reg.TG_TICK_STAT 3 then
    if d.tb ≤ d.tick.dueSeen then d else (d.onTick (fun t => { t with due := t.due + t.periodNs })).missTick
  else if d.tick.closed then d
  else
    let d := d.onTick (fun t => { t with closed := true })
    if d.tick.seen then d else d.missTick

/-! ### Timings of the generators -/

/-- The outputs that take the timing of output `n`: none for a follower, its follower too for a leader (R147). -/
def Dev.timedBy (d : Dev) (n : Nat) : List Nat :=
  if d.portFollower n then [] else if n % 2 = 0 ∧ d.portFollower (n + 1) = true then [n, n + 1] else [n]

/-- Timing registers of output `n` that a port gang's follower takes from its leader (R147). -/
def tgTiming (n : Nat) : List Nat :=
  [Reg.TG_HTIMING n, Reg.TG_VTIMING n, Reg.TG_HSYNC n, Reg.TG_VSYNC n, Reg.TG_PCLK_NUM n, Reg.TG_PCLK_DEN n, Reg.TG_FMT n, Reg.TG_PHASE n]

/-- The timing that the registers of output `n` describe: the words last written at the expert level, PROFILE's at the basic level
(R50, R51). -/
def Dev.timingOf (d : Dev) (out : Nat) : Timing :=
  let n := d.portLead out
  let d := if d.level (.tg n) then d else d.sgAll (d.derived (.tg n))
  { hAct := d.fd (Reg.TG_HTIMING n) 0 16, hTot := d.fd (Reg.TG_HTIMING n) 16 16, vAct := d.fd (Reg.TG_VTIMING n) 0 16,
    vTot := d.fd (Reg.TG_VTIMING n) 16 16, hsS := d.fd (Reg.TG_HSYNC n) 0 16, hsE := d.fd (Reg.TG_HSYNC n) 16 16,
    vsS := d.fd (Reg.TG_VSYNC n) 0 16, vsE := d.fd (Reg.TG_VSYNC n) 16 16, pNum := d.fd (Reg.TG_PCLK_NUM n) 0 24,
    pDen := d.fd (Reg.TG_PCLK_DEN n) 0 24, ppc := d.fd (Reg.TG_FMT n) 0 1 + 1, phase := (d.rg (Reg.TG_PHASE n)).toNat }

/-- Is the setting of output `n` PROFILE 0, which has no timing (R50)?  At the expert level an H_TOTAL of 0 is a timing that breaks R51. -/
def Dev.noTiming (d : Dev) (n : Nat) : Bool := !d.level (.tg (d.portLead n)) && (d.timingOf n).hTot == 0

/-- Slices that feed output `n`: two in a gang (R145). -/
def Dev.slicesOf (d : Dev) (n : Nat) : Nat := if d.bt (Reg.SL_OUT_BIND n) 14 then 2 else 1

/-- The lead of output `n` (R149): its leading slice's, or, when it was shed, its last binding's. -/
def Dev.lead (d : Dev) (n : Nat) : Nat := (Tab.at none d.av.leads n).getD (d.fd (Reg.SL_LEAD (d.leadSlice n)) 0 3)

/-- The limits of R51 for output `n` under the tick rate in force. -/
def Dev.timingOk (d : Dev) (n : Nat) (t : Timing) : Bool :=
  let k := (t.kOf d.tick.num0 d.tick.den0).getD 0
  decide (k ≠ 0) && decide (t.hAct % 4 = 0) && decide (64 ≤ t.hAct) && decide (t.hAct ≤ 4096) &&
  decide (t.hAct + 64 ≤ t.hTot) && decide (t.hTot ≤ 8192) && (decide (t.ppc = 1) || decide (t.hTot % 2 = 0)) &&
  decide (16 ≤ t.vAct) && decide (t.vAct ≤ 4320) && decide (t.vTot ≤ 8192) && decide (t.vAct + 4 ≤ t.vTot) &&
  decide (t.vAct + d.lead n + 1 ≤ t.vTot) && decide (t.hsS ≤ t.hTot) && decide (t.hsE ≤ t.hTot) &&
  decide (t.vsS ≤ t.vTot) && decide (t.vsE ≤ t.vTot) && decide (t.pDen ≠ 0) &&
  decide (25 * t.pDen ≤ 100 * t.pNum) && decide (100 * t.pNum ≤ 600 * t.pDen) &&
  decide (100 * t.pNum * t.ppc ≤ 600 * t.pDen * d.slicesOf n) &&
  decide (t.phase * k * d.tick.num0 < 1000000000 * d.tick.den0)

/-- The programmed PCLK in microhertz. -/
def Timing.freq (t : Timing) : Nat := 100000000000000 * t.pNum / t.pDen

/-- The line period in ns, rounded down. -/
def Timing.lineNs (t : Timing) : Nat := if t.pNum = 0 then 0 else t.hTot * 10 * t.pDen / (t.pNum * t.ppc)

/-- The frame-start spacing in ns: the tick period over k (R54). -/
def Dev.spacing (d : Dev) (k : Nat) : Nat := if k = 0 then 0 else d.tick.periodNs / k

/-- Frame-start point `j` of the tick in force for a phase and a k (R54); the points from k on are those of the next tick. -/
def Dev.pointAt (d : Dev) (phase k : Nat) (j : Int) : Int :=
  let k := max 1 k
  let t := d.tick
  let ph := phase % max 1 (d.spacing k)
  let span := fun (i : Int) => i * t.perNum / (k * t.perDen : Nat)
  if j < k then (t.ts + ph : Nat) + span j else (t.next + ph : Nat) + span (j - k)

/-- The frame-start point nearest to `now`. -/
def Dev.nearestPoint (d : Dev) (phase k now : Nat) : Int :=
  let sp : Int := max 1 (d.spacing (max 1 k) : Nat)
  let dist := fun (j : Int) => (d.pointAt phase k j - now).natAbs
  let j := ((now : Int) - d.pointAt phase k 0) / sp
  if dist (j + 1) < dist j then j + 1 else j

/-- The first frame-start point at or after `need`. -/
def Dev.pointFrom (d : Dev) (phase k : Nat) (need : Nat) : Nat :=
  let sp : Int := max 1 (d.spacing (max 1 k) : Nat)
  let j := ((need : Int) - d.pointAt phase k 0) / sp
  let at' := fun (i : Int) => d.pointAt phase k i
  (if (need : Int) ≤ at' j then at' j else if (need : Int) ≤ at' (j + 1) then at' (j + 1) else at' (j + 2)).toNat

/-- The start point reckoned from `at0` (R53): the first frame-start point whose take-up point falls at least 100 µs after it. -/
def Dev.startPoint (d : Dev) (n at0 : Nat) (t : Timing) : Nat :=
  d.pointFrom t.phase ((t.kOf d.tick.num0 d.tick.den0).getD 1) (max (at0 + 100000) d.tb + d.lead (d.portLead n) * t.lineNs)

/-- A tick places anew the start points that wait for it (R40, R53). -/
def Dev.replan (d : Dev) : Dev :=
  d.tg.foldl (fun d p =>
    match p.2.lockAt with
    | some at0 => if p.2.st != .locked && p.2.nxt.isNone then d.onTg p.1 (fun g => { g with startAt := d.startPoint p.1 at0 g.tm }) else d
    | none => d) d

/-- Does output `n` run a frame (R53, R56)? -/
def Dev.runsFrame (d : Dev) (n : Nat) : Bool := (d.tgAt n).cur.isSome || (d.tgAt n).nxt.isSome

/-- TG_STAT.STATE codes (R53). -/
def TgState.code : TgState → Nat
  | .off => 0
  | .acquiring => 1
  | .locked => 2
  | .blank => 3

/-- An output that runs no frames runs no program (R212). -/
def Dev.dmStopped (d : Dev) (n : Nat) : Dev := (d.sf (Reg.DM_STAT n) 8 2 0).onDm n (fun m => { m with wait := .none })

/-- Put generator `n` in a state and show it, with k, in TG_STAT. -/
def Dev.tgState (d : Dev) (n : Nat) (st : TgState) : Dev :=
  let d := d.onTg n (fun g => { g with st := st })
  let d := if st = .locked then d else d.dmStopped n
  (d.sf (Reg.TG_STAT n) 2 2 st.code).sf (Reg.TG_STAT n) 8 4 (if st = .off then 0 else (d.tgAt n).k)

/-- The frame of output `n` is cut short: the lines in work for it are given up, their line sets, scaled lines and spans with them, and
counted nowhere (DESIGN CHOICE, log entry 95); a capture of it is none (R565), and its port sends idle (R290). -/
def Dev.cutFrame (d : Dev) (n : Nat) : Dev :=
  let mine := fun (s : Nat) => (d.fd (Reg.SL_BIND s) 0 6 == n && d.bt (Reg.SL_BIND s) 6) || (d.sliceAt s).lines.any (fun l => l.out == n) ||
    (d.sliceAt s).shadows.any (fun t => d.fd (Reg.SL_BIND t) 0 6 == n)
  let keep := fun (ls : List LineWork) => ls.filter (fun l => l.out != n)
  let d := (d.slice.map (·.1)).foldl (fun d s =>
    if !mine s then d else
      (List.range 2).foldl (fun d pn => d.onVid s pn (fun v => { v with scaled := [] }))
        (d.onSlice s (fun sl => { sl with lines := keep sl.lines, after := keep sl.after }))) d
  (d.flCut n).onMx n (fun x => { x with capBuf := none, due := none, now := none, shDue := none, shNow := none, outPx := [] })

/-- The generator goes OFF, and the follower that takes its PCLK from it (R53, R147). -/
def Dev.tgOff (d : Dev) (n : Nat) : Dev :=
  (n :: d.timedBy n).foldl (fun d m =>
    ((d.tgState m .off).onTg m (fun g => { g with cur := none, nxt := none, lockAt := none, glide := none, glideNext := none })).cutFrame m) d

/-- Is generator `n` enabled with a setting other than PROFILE 0 (R53)?  A follower's setting is its leader's.  Before the first full load
has completed every output is OFF (R619). -/
def Dev.tgWanted (d : Dev) (n : Nat) : Bool :=
  let l := d.portLead n
  d.loaded && d.bt (Reg.TG_CTRL n) 1 && d.bt (Reg.TG_CTRL l) 1 &&
  (d.level (.tg l) || decide ((Block.tg l).profileOf (d.rg (Reg.TG_CTRL l)).toNat ≠ 0))

/-- Generator `n` enters ACQUIRING, its frame count 0 (R53, R58); the PLL of a follower is its leader's (R147). -/
def Dev.acquireOne (d : Dev) (n : Nat) : Dev :=
  let l := d.tgAt (d.portLead n)
  let d := ((d.tgState n .acquiring).sg (Reg.TG_FRAME_CNT n) 0).onTg n (fun g => { g with lockAt := none, frameJ := 0 })
  if d.portFollower n && l.lockAt.isSome then d.onTg n (fun g => { g with lockAt := some d.tb, startAt := d.startPoint n d.tb g.tm }) else d

/-- The generator enters ACQUIRING, and the enabled follower that waits for it. -/
def Dev.tgAcquire (d : Dev) (n : Nat) : Dev :=
  (n :: d.timedBy n).foldl (fun d m => if d.tgWanted m && !d.tgOn m then d.acquireOne m else d) d

/-- The frequency of a trimmed PLL in microhertz (R54): the programmed one and the trim in force. -/
def Tg.trimmed (g : Tg) : Nat := ((g.tm.freq : Int) + g.tm.freq * g.trim / 10000000).toNat

/-- A glide to the timing `t` begins at the frequency that the PLL then has, a trim in force included (R61). -/
def Tg.startGlide (g : Tg) (t : Timing) : Tg :=
  { g with glide := some t, lockAt := none, cur := none, nxt := none, freq := g.trimmed }

/-- A timing that has passed its checks is in force: it starts at once, begins a glide when PCLK changes, or waits for the glide in
progress (R52, R61, R63).  TG_STAT.K follows (R47). -/
def Dev.takeTiming (d : Dev) (t : Timing) (n : Nat) : Dev :=
  let g := d.tgAt n
  let k := (t.kOf d.tick.num0 d.tick.den0).getD 0
  if g.glide.isSome then d.onTg n (fun g => { g with glideNext := some t })
  else if g.lockAt.isSome && g.tm.freq != t.freq then (d.tgState n .blank).onTg n (fun g => g.startGlide t)
  else
    let d := (d.onTg n (fun g => { g with tm := t, k := k })).tgState n g.st
    match g.st, g.lockAt with
    | .acquiring, some at0 => d.onTg n (fun g => { g with startAt := d.startPoint n at0 t })
    | .blank, some at0 => d.onTg n (fun g => { g with startAt := d.startPoint n at0 t })
    | _, _ => d

/-- The update point of TG_CTRL and the timing registers has come (R15, R47, R51 to R53, R147): the timing is refused with RATE_ERR or
takes effect; PROFILE 0 puts the generator OFF, and an enabled generator that was OFF enters ACQUIRING. -/
def Dev.applyTiming (d : Dev) (n : Nat) : Dev :=
  let d := { d with upds := Tab.put none d.upds (Reg.TG_CTRL n) none }
  if d.portFollower n then d.tgAcquire n else
  let t := d.timingOf n
  if d.noTiming n then
    let d := d.applySetting (.tg n)
    let d := (d.timedBy n).foldl (fun d m => d.onTg m (fun g => { g with tm := t, k := 0 })) d
    if d.tgWanted n || !d.tgOn n then d else d.tgOff n
  else if !d.timingOk n t then d.sb (Reg.TG_STAT n) 1
  else
    let d := d.applySetting (.tg n)
    ((d.timedBy n).foldl (fun d m => d.takeTiming t m) d).tgAcquire n

/-- The update point at a frame start of output `n`, with the words that the last tick kept; ENABLE acts at the write. -/
def Dev.frameTiming (d : Dev) (out : Nat) : Dev :=
  let n := d.portLead out
  let en := d.fd (Reg.TG_CTRL n) 1 1
  d.frameUpdateBy (.tg n) (fun d => (d.sf (Reg.TG_CTRL n) 1 1 en).applyTiming n)

/-- The timing to which the PLL of output `n` is set: the last target of the glides in progress, else the timing in force (R63). -/
def Dev.nextTiming (d : Dev) (n : Nat) : Timing :=
  let g := d.tgAt n
  (g.glideNext <|> g.glide).getD g.tm

/-- The timing that the next frame of output `n` starts with (R52, R73): the one that waits, if it is accepted, else the one in force. -/
def Dev.comingTiming (d : Dev) (n : Nat) : Timing :=
  match (Tab.at none d.upds (Reg.TG_CTRL (d.portLead n))).bind Upd.armed with
  | some l =>
    let t := (d.sgAll l).timingOf n
    if (d.sgAll l).noTiming n || d.timingOk n t then t else d.nextTiming n
  | none => d.nextTiming n

/-- A write of TG_CTRL of output `n` (R13 to R15, R52, R53, R615): ENABLE acts at the write, PROFILE and LEVEL at their update point. -/
def tgCtrlWrite (n : Nat) (w : Word) (d : Dev) : Dev :=
  let b : Block := .tg n
  if d.fixedRefuse b w then d.sb (Reg.TG_STAT n) 0 else
  let l0 := d.level b
  let (d1, reserved) := d.storeCtrl b (w &&& 0xFF3)
  let d1 := d1.flagReserved b reserved
  let d1 := if d.rg b.ctrl &&& 0xFF1 = d1.rg b.ctrl &&& 0xFF1 then d1
    else
      let d1 := if !l0 && d1.level b then d1.sgAll (d1.derived b)
        else if l0 && !d1.level b then d1.discardExpert b else d1
      if l0 && d1.level b then d1 else d1.schedule b
  if d1.tgOn n then (if d1.bt b.ctrl 1 then d1 else d1.tgOff n)
  else if d1.tgWanted n && (Tab.at none d1.upds b.ctrl).isNone then d1.tgAcquire n
  else d1

/-- An expert write to timing register `a` of output `n` (R51, R52, R616); at the basic level it is ignored (R12). -/
def tgTimingWrite (n a : Nat) (w : Word) (d : Dev) : Dev :=
  if !d.level (.tg n) then d.sb (Reg.TG_STAT n) 0 else (d.sg a w).schedule (.tg n)

/-- The PLL locks (R53): the start point is fixed.  A PLL that no timing has given a frequency does not lock. -/
def pllLock (n : Nat) (d : Dev) : Dev :=
  (d.timedBy n).foldl (fun d m =>
    let g := d.tgAt m
    if g.st = .acquiring ∧ g.lockAt.isNone ∧ g.tm.hTot ≠ 0 then
      d.onTg m (fun g => { g with lockAt := some d.tb, freq := g.tm.freq, startAt := d.startPoint m d.tb g.tm })
    else d) d

/-- The target's k fails R47 at the rate in force: the timing is refused with RATE_ERR, and the PLL glides back to the timing that the
generator keeps. -/
def Dev.glideBack (d : Dev) (n : Nat) (t : Timing) : Dev :=
  (d.sb (Reg.TG_STAT n) 1).onTg n (fun g => { g with freq := t.freq, glide := some g.tm, glided := g.glided + 1 })

/-- The glide of generator `n` has reached its target `t` (R47, R62, R63): a timing that waits begins its glide, or the start point of
`t` is fixed. -/
def Dev.glideReached (d : Dev) (n : Nat) (t : Timing) : Dev :=
  let g := d.tgAt n
  match g.glideNext, t.kOf d.tick.num0 d.tick.den0 with
  | some u, _ => d.onTg n (fun g => { g with tm := t, freq := t.freq, glide := some u, glideNext := none, glided := g.glided + 1 })
  | none, none =>
    if (g.tm.kOf d.tick.num0 d.tick.den0).isSome then d.glideBack n t
    else d.onTg n (fun g => { g with tm := t, freq := t.freq, glide := none, glided := g.glided + 1, lockAt := some d.tb,
                                     startAt := d.startPoint n d.tb t })
  | none, some k =>
    let d := d.onTg n (fun g => { g with tm := t, freq := t.freq, glide := none, glided := g.glided + 1, k := k, lockAt := some d.tb })
    (d.onTg n (fun g => { g with startAt := d.startPoint n d.tb t })).tgState n .blank

/-- The generator's part of GLIDE_LOCK: the PLL reports lock at the new frequency only once it has reached it (R62). -/
def Dev.glideEnd (d : Dev) (n : Nat) : Dev :=
  match (d.tgAt n).glide with
  | none => d
  | some t => if (d.tgAt n).freq = t.freq then d.glideReached n t else d

/-- The PLL reports lock at the end of a glide (R62, R63, R147). -/
def glideLock (n : Nat) (d : Dev) : Dev := (d.timedBy n).foldl Dev.glideEnd d

/-- A step of the PLL at a line of a glide towards `goal` (R61): 1,000 ppm of the present frequency, and at the last line the rest. -/
def glideNextFreq (freq goal : Nat) : Nat :=
  if freq ≤ goal then min goal (freq + freq / 1000) else max goal (freq - freq / 1000)

/-- A step of a glide at a line (R61); the trim in force at its start is part of the present frequency and drops with the first step. -/
def Tg.glideStep (g : Tg) : Tg :=
  match g.glide with
  | none => g
  | some t => { g with freq := glideNextFreq g.freq t.freq, trim := 0 }

/-- The lines that a glide still lasts, in ns (R61): each is the old H_TOTAL at the present frequency.  `fuel` bounds them: a glide over
the whole range of R51 takes 3,181 lines. -/
def glideRest (hTot ppc goal : Nat) : Nat → Nat → Nat
  | 0, _ => 0
  | fuel + 1, freq =>
    if freq = goal then 0 else hTot * 10 ^ 15 / (max 1 (freq * ppc)) + glideRest hTot ppc goal fuel (glideNextFreq freq goal)

/-- When the glide of generator `n` reaches its target (R61, R62), reckoned from the line in progress. -/
def Dev.glideEndsAt (d : Dev) (n : Nat) : Nat :=
  let g := d.tgAt n
  match g.glide with
  | none => d.tb
  | some t => g.lineTs + glideRest g.tm.hTot g.tm.ppc t.freq 4096 g.freq

/-- The glide runs to its end: the lines that remain have passed. -/
def Tg.glideDone (g : Tg) : Tg :=
  match g.glide with
  | none => g
  | some t => { g with freq := t.freq, trim := 0 }

/-! ### The beam -/

/-- Pixels that the beam of a generator passes in 1/120 ns, as a fraction: the programmed clock with the trim in force (R11, R54). -/
def Tg.pxNum (g : Tg) : Nat := (g.tm.pNum * g.tm.ppc * (10000000 + g.trim)).toNat
/-- The denominator of that fraction. -/
def Tg.pxDen (g : Tg) : Nat := 12000000000 * g.tm.pDen

/-- When the beam reaches pixel `x` of a line that began at timebase `t0`, in 1/120 ns. -/
def Tg.beamTime (g : Tg) (t0 x : Nat) : Nat := 120 * t0 + x * g.pxDen / max 1 g.pxNum

/-- The beam of output `n` at timebase `t` (R11), reckoned from the line in progress.  While the generator is OFF it keeps the last line,
and comes to stand at that line's end (DESIGN CHOICE, log entry 85). -/
def Dev.beamAt (d : Dev) (n t : Nat) : Nat × Nat :=
  let g := d.tgAt n
  (g.line, min (120 * (t - g.lineTs) * g.pxNum / max 1 g.pxDen) (g.tm.hTot - 1))

/-- The beam of output `n` as a 2-CCLK synchroniser shows it on CCLK edge `e` (R220, R614): the last position for which `e` is the second
edge after the beam reached it, or a later one. -/
def Dev.beamSeen (d : Dev) (n e : Nat) : Nat × Nat :=
  let g := d.tgAt n
  let t := d.edgeTime (e - 1)
  let x := fun (t0 : Nat) => min (g.tm.hTot - 1) (ceilDiv ((t - 120 * t0) * g.pxNum) (max 1 g.pxDen) - 1)
  if 120 * g.lineTs < t then (g.line, x g.lineTs) else (g.prevLine, x g.prevTs)

/-- The CCLK edge 2 CCLK after the beam reaches (x, line) of the frame in progress (R149, R220), once that line has begun; a line before the
frame has been reached, and X is taken as H_TOTAL - 1 at most. -/
def Dev.beamEdge (d : Dev) (n x : Nat) (line : Int) : Option Nat :=
  let g := d.tgAt n
  let x := min x (g.tm.hTot - 1)
  if (g.line : Int) < line then none
  else if line = g.line then some (d.edgeAfter (g.beamTime g.lineTs x) 2)
  else if line = g.prevLine then some (d.edgeAfter (g.beamTime g.prevTs x) 2)
  else some 0

/-- Has the synchronised beam reached (x, line) of the frame in progress on CCLK edge `e` (R220)? -/
def Dev.beamReached (d : Dev) (n x : Nat) (line : Int) (e : Nat) : Bool :=
  match d.beamEdge n x line with
  | some b => decide (b ≤ e)
  | none => false

/-- The trim set anew at a line: at most 2 ppm towards what is needed, within ±800 ppm (R54), in units of 0.1 ppm. -/
def Tg.trimStep (g : Tg) : Tg :=
  let want := clampI (-8000) 8000 g.trimWant
  { g with trim := clampI (g.trim - 20) (g.trim + 20) want }

end Sys2Proof.Machine
end

