-- ==== Sys2Proof/Machine/Object.lean ====
section
/-!
DEFINITION. Objects, groups, epoch slots and the Bolter (chapter 03): what an object covers, how a record changes its slots, the
flip, the pass that builds the line-bin index, and the snapshots.
-/

namespace Sys2Proof.Machine

/-! ### Fields of the object record (Table 3-1) -/

/-- X, signed 20.4. -/
def ObjRec.x (o : ObjRec) : Int := signed 24 o.w0.toNat
/-- CANVAS. -/
def ObjRec.canvas (o : ObjRec) : Nat := bits o.w0.toNat 24 8
/-- Y, signed 20.4. -/
def ObjRec.y (o : ObjRec) : Int := signed 24 o.w1.toNat
/-- PRIORITY. -/
def ObjRec.priority (o : ObjRec) : Nat := bits o.w1.toNat 24 8
/-- Pattern width in pixels. -/
def ObjRec.w (o : ObjRec) : Nat := bits o.w2.toNat 0 12 + 1
/-- Pattern height in pixels. -/
def ObjRec.h (o : ObjRec) : Nat := bits o.w2.toNat 12 12 + 1
/-- Replication factor Z. -/
def ObjRec.z (o : ObjRec) : Nat := 2 ^ bits o.w2.toNat 24 2
/-- FLIPH. -/
def ObjRec.fliph (o : ObjRec) : Bool := o.w2.getLsbD 26
/-- FLIPV. -/
def ObjRec.flipv (o : ObjRec) : Bool := o.w2.getLsbD 27
/-- PLANE: 0 S0, 1 S1. -/
def ObjRec.plane (o : ObjRec) : Nat := bits o.w2.toNat 28 1
/-- VISIBLE. -/
def ObjRec.visible (o : ObjRec) : Bool := o.w2.getLsbD 29
/-- BLEND. -/
def ObjRec.blend (o : ObjRec) : Nat := bits o.w2.toNat 30 2
/-- PALETTE. -/
def ObjRec.palette (o : ObjRec) : Nat := bits o.w4.toNat 0 12
/-- FORMAT. -/
def ObjRec.format (o : ObjRec) : Nat := bits o.w4.toNat 12 4
/-- ALPHA. -/
def ObjRec.alpha (o : ObjRec) : Nat := bits o.w4.toNat 16 8
/-- KEY. -/
def ObjRec.key (o : ObjRec) : Nat := bits o.w4.toNat 24 8
/-- STRIDE, 16-byte units. -/
def ObjRec.stride (o : ObjRec) : Nat := bits o.w5.toNat 0 16
/-- FRAME. -/
def ObjRec.frame (o : ObjRec) : Nat := bits o.w5.toNat 16 16
/-- GROUP. -/
def ObjRec.group (o : ObjRec) : Nat := bits o.w7.toNat 0 12

/-- GX, signed 20.4 (Table 3-3). -/
def GrpRec.gx (g : GrpRec) : Int := signed 24 g.w0.toNat
/-- GY. -/
def GrpRec.gy (g : GrpRec) : Int := signed 24 g.w1.toNat
/-- HIDDEN. -/
def GrpRec.hidden (g : GrpRec) : Bool := g.w2.getLsbD 0

/-- The word of the record by number. -/
def ObjRec.word (o : ObjRec) : Nat → Word
  | 0 => o.w0
  | 1 => o.w1
  | 2 => o.w2
  | 3 => o.w3
  | 4 => o.w4
  | 5 => o.w5
  | 6 => o.w6
  | _ => o.w7

/-- The record with one word replaced under a bit mask; w7[31:12] stays 0 (Table 3-1). -/
def ObjRec.merge (o : ObjRec) (i : Nat) (v mask : Word) : ObjRec :=
  let n := (o.word i &&& ~~~ mask) ||| (v &&& mask)
  match i with
  | 0 => { o with w0 := n }
  | 1 => { o with w1 := n }
  | 2 => { o with w2 := n }
  | 3 => { o with w3 := n }
  | 4 => { o with w4 := n }
  | 5 => { o with w5 := n }
  | 6 => { o with w6 := n }
  | _ => { o with w7 := n &&& 0xFFF }

/-- A record from eight words, w7[31:12] stored as 0. -/
def ObjRec.ofWords (l : List Word) : ObjRec :=
  { w0 := l.getD 0 0, w1 := l.getD 1 0, w2 := l.getD 2 0, w3 := l.getD 3 0, w4 := l.getD 4 0, w5 := l.getD 5 0, w6 := l.getD 6 0,
    w7 := l.getD 7 0 &&& 0xFFF }

/-! ### The index entry as a word (Table 3-4) -/

/-- The 4 bytes of an index entry. -/
def Entry.word (e : Entry) : Word := packFields [(0, e.obj % 2 ^ 20), (20, e.oslot.toNat), (21, e.gslot.toNat)]

/-- The entry that a word holds; bits 22 upward are RES. -/
def Entry.ofWord (w : Word) : Entry := { obj := bits w.toNat 0 20, oslot := w.getLsbD 20, gslot := w.getLsbD 21 }

/-! ### Slots (R85, R86) -/

/-- The current slot of an object. -/
def Obj.current (o : Obj) : ObjRec := if o.sel then o.b else o.a

/-- The slot that is not current. -/
def Obj.noncurrent (o : Obj) : ObjRec := if o.sel then o.a else o.b

/-- Store the slot that is not current and set the pending bit. -/
def Obj.stage (o : Obj) (r : ObjRec) : Obj := if o.sel then { o with a := r, pending := true } else { o with b := r, pending := true }

/-- An OBJ_WRITE applied at a commit (R86). -/
def Obj.write (o : Obj) (r : ObjRec) : Obj := o.stage r

/-- An OBJ_PATCH applied at a commit: copy forward when it is the first record, then merge (R86). -/
def Obj.patch (o : Obj) (f : ObjRec → ObjRec) : Obj := o.stage (f (if o.pending then o.noncurrent else o.current))

/-- The flip of one object (R27, R86). -/
def Obj.flip (o : Obj) : Obj := if o.pending then { o with sel := !o.sel, pending := false } else o

/-- The current slot of a group. -/
def Grp.current (g : Grp) : GrpRec := if g.sel then g.b else g.a

/-- The slot that is not current. -/
def Grp.noncurrent (g : Grp) : GrpRec := if g.sel then g.a else g.b

/-- A GROUP_SET applied at a commit (R82, R86). -/
def Grp.patch (g : Grp) (f : GrpRec → GrpRec) : Grp :=
  let r := f (if g.pending then g.noncurrent else g.current)
  if g.sel then { g with a := r, pending := true } else { g with b := r, pending := true }

/-- The flip of one group. -/
def Grp.flip (g : Grp) : Grp := if g.pending then { g with sel := !g.sel, pending := false } else g

/-- Object `n`. -/
def Dev.objAt (d : Dev) (n : Nat) : Obj := Tab.at {} d.obj.objs n

/-- Change the OBJ block. -/
def Dev.onObj (d : Dev) (f : ObjSt → ObjSt) : Dev := { d with obj := f d.obj }

/-- Change object `n`. -/
def Dev.setObj (d : Dev) (n : Nat) (o : Obj) : Dev := d.onObj (fun s => { s with objs := Tab.put {} s.objs n o })

/-- Object `n` as a copy forward reads it: a word in error counts as 0 (R554). -/
def Dev.objClean (d : Dev) (n : Nat) : Obj :=
  d.ue.foldl (fun o u => match u with
    | .obj k b w => if k ≠ n then o else if b then { o with b := o.b.merge w 0 0xFFFFFFFF } else { o with a := o.a.merge w 0 0xFFFFFFFF }
    | _ => o) (d.objAt n)

/-- Object `n` patched at a commit: the other slot is written whole, the current one stays as it is. -/
def Dev.patchObj (d : Dev) (n : Nat) (f : ObjRec → ObjRec) : Obj :=
  let o := d.objAt n
  let c := (d.objClean n).patch f
  if o.sel then { o with a := c.a, pending := true } else { o with b := c.b, pending := true }

/-- A slot that a commit has written holds no word in error. -/
def Dev.slotWritten (d : Dev) (n : Nat) : Dev :=
  { d with ue := d.ue.filter (fun u => match u with
      | .obj k b _ => !(k == n && b == !(d.objAt n).sel)
      | _ => true) }

/-- Group `n`. -/
def Dev.grpAt (d : Dev) (n : Nat) : Grp := Tab.at {} d.obj.grps n

/-- Change group `n`. -/
def Dev.setGrp (d : Dev) (n : Nat) (g : Grp) : Dev := d.onObj (fun s => { s with grps := Tab.put {} s.grps n g })

/-! ### Geometry (R76 to R78) -/

/-- Top-left canvas pixel of an object with its group's offset (R76). -/
def originOf (o : ObjRec) (g : GrpRec) : Int × Int := ((o.x + g.gx) / 16, (o.y + g.gy) / 16)

/-- First byte of pattern row `r` (R78). -/
def ObjRec.rowAddr (o : ObjRec) (r : Nat) : Nat :=
  o.w3.toNat * 64 + o.frame * o.stride * 16 * o.h + r * o.stride * 16

/-- Last byte of the pattern (R80). -/
def ObjRec.lastByte (o : ObjRec) : Nat := o.rowAddr (o.h - 1) + ceilDiv (o.w * fmtBits o.format) 8 - 1

/-! ### The build (R73, R89 to R99) -/

/-- H_ACTIVE of a latched viewport (R72). -/
def VpLatch.hAct (v : VpLatch) : Nat := v.tm.hAct

/-- V_ACTIVE of a latched viewport (R72). -/
def VpLatch.vAct (v : VpLatch) : Nat := v.tm.vAct

/-- What the build latches for output `n` (R73). -/
def Dev.latchVp (d : Dev) (n : Nat) : VpLatch :=
  let c := d.fd (Reg.OBJ_VP_CFG n) 0 8
  { enable := d.bt (Reg.OBJ_VP_CFG n) 8, canvas := c, vx := d.fd (Reg.OBJ_VP_ORG n) 0 16, vy := d.fd (Reg.OBJ_VP_ORG n) 16 16,
    cw := d.fd (Reg.OBJ_CANVAS_SIZE c) 0 16 + 1, ch := d.fd (Reg.OBJ_CANVAS_SIZE c) 16 16 + 1, tm := d.comingTiming n }

/-- Does the viewport lie wholly within its canvas (R74)? -/
def VpLatch.fits (v : VpLatch) : Bool := decide (v.vx + v.hAct ≤ v.cw) && decide (v.vy + v.vAct ≤ v.ch)

/-- Does the output's part of the index take entries (R74)? -/
def VpLatch.live (v : VpLatch) : Bool := v.enable && v.fits

/-- The first and last bin that an object at (`x0`, `y0`) touches in a viewport (R89).  A viewport without pixels has no bins, and one that
is disabled or does not fit its canvas takes no entries (R74) and counts as no viewport for R80 and R81 (DESIGN CHOICE, log entry 72). -/
def VpLatch.binsOf (v : VpLatch) (o : ObjRec) (g : GrpRec) : Option (Nat × Nat) :=
  let (x0, y0) := originOf o g
  let x1 := x0 + o.w * o.z - 1
  let y1 := y0 + o.h * o.z - 1
  let vx1 : Int := v.vx + v.hAct - 1
  let vy1 : Int := v.vy + v.vAct - 1
  if v.live && decide (0 < v.hAct) && decide (0 < v.vAct) && o.canvas == v.canvas && decide (x0 ≤ vx1) && decide ((v.vx : Int) ≤ x1) && decide (y0 ≤ vy1) && decide ((v.vy : Int) ≤ y1)
  then some (((max y0 v.vy - v.vy) / 16).toNat, ((min y1 vy1 - v.vy) / 16).toNat)
  else none

/-- BIN_CAP in force; 0 and values above 4,096 are taken as 4,096 (R108). -/
def Dev.binCap (d : Dev) : Nat :=
  let c := d.ff Reg.OBJ_BOL_CFG 4 13
  if c = 0 ∨ 4096 < c then 4096 else c

/-- Append one entry to bin `b` of an output (the pseudocode after R91). -/
def OutIdx.append (o : OutIdx) (cap quota b : Nat) (e : Entry) : OutIdx :=
  let dem := Tab.at 0 o.demand b + 1
  let o := { o with demand := Tab.put 0 o.demand b dem }
  let l := Tab.at [] o.bins b
  if cap < dem then { o with capDrops := o.capDrops + 1 }
  else if l.length % 64 = 0 && o.chunks == quota then { o with quotaDrops := o.quotaDrops + 1 }
  else { o with bins := Tab.put [] o.bins b (l ++ [e]), chunks := if l.length % 64 = 0 then o.chunks + 1 else o.chunks }

/-- Does the offset of group `g` exceed the margin of a shared canvas (R106)? -/
def Dev.overMargin (d : Dev) (o : ObjRec) (g : GrpRec) : Bool :=
  d.bt (Reg.OBJ_CANVAS_CFG o.canvas) 0 &&
    (decide (d.fd (Reg.OBJ_CANVAS_CFG o.canvas) 16 16 * 16 < g.gx.natAbs) ||
     decide (d.fd (Reg.OBJ_CANVAS_CFG o.canvas) 16 16 * 16 < g.gy.natAbs))

/-- One object of the pass: its entries go to every output's bins, and its step's extra length is counted.  A mapped shared object is
tested against the margin wherever it lies (R106). -/
def Dev.passObject (d : Dev) (lat : List VpLatch) (bl : Build) (n : Nat) (ob : Obj) : Build × Nat :=
  let o := ob.current
  let gr := d.grpAt o.group
  let g := gr.current
  let bl := if d.obj.pool.any (fun p => p.2 == n) && d.overMargin o g then { bl with grpMargin := true } else bl
  if !o.visible || g.hidden then (bl, 0) else
  let hits := (lat.zip (List.range lat.length)).filterMap (fun p => (p.1.binsOf o g).map (fun q => (p.2, q.1, q.2)))
  if hits.isEmpty then (bl, 0) else
  if fmtBits o.format = 0 then ({ bl with fmtErr := true }, 0) else
  if d.lpSize ≤ o.lastByte then ({ bl with patErr := true }, 0) else
  let e : Entry := { obj := n, oslot := ob.sel, gslot := gr.sel }
  let put := fun (bl : Build) (h : Nat × Nat × Nat) =>
    (List.range (h.2.2 - h.2.1 + 1)).foldl (fun bl i =>
      let outs := Tab.upd {} bl.idx.outs h.1 (fun oi => oi.append d.binCap (d.fd (Reg.OBJ_IDX_QUOTA h.1) 0 15) (h.2.1 + i) e)
      { bl with idx := { bl.idx with outs := outs } }) bl
  (hits.foldl put bl, (hits.map (fun h => h.2.2 - h.2.1 + 1)).sum)

/-- The whole pass for epoch `e` (R91 to R93): the index it will publish, its length in CCLK and the edge of its last entry.  VP_ERR is
met only by an enabled viewport: R74 names the disabled one first, and the model takes it to end the matter (DESIGN CHOICE, log entry
72). -/
def Dev.pass (d : Dev) (e : Nat) : Build :=
  let ceil := d.fd Reg.OBJ_CEIL 0 21
  let lat := (List.range 48).map d.latchVp
  let outs : Tab OutIdx :=
    (lat.zip (List.range 48)).foldl (fun t p => Tab.put {} t p.2 { vp := p.1, vpErr := p.1.enable && !p.1.fits }) []
  let start : Build := { idx := { epoch := e, mapPm := d.tile.map.cur, palPm := d.tile.pal.cur, outs := outs } }
  let step := fun (acc : Build × Tab Nat) (p : Nat × Obj) =>
    if p.1 < ceil then
      let (bl, n) := d.passObject lat acc.1 p.1 p.2
      (bl, Tab.upd 0 acc.2 (p.1 / 4) (fun m => max m n))
    else acc
  let (bl, steps) := d.obj.objs.foldl step (start, [])
  let cost := ceilDiv ceil 4 + (steps.map (fun p => ceilDiv p.2 16 - 1)).sum
  { bl with cost := cost, doneAt := d.cclks + cost }

/-- The results of a build for one output (R99).  No rule says at which moment of the pass the drop counters and their bits rise: they do
at its end, and not for a build that R96 abandons (DESIGN CHOICE, log entry 73). -/
def Dev.buildResult (d : Dev) (n : Nat) (o : OutIdx) : Dev :=
  let maxb := (o.demand.map (·.2)).foldl max 0
  let beyond := (o.demand.filter (fun p => decide (d.binCap < p.2))).map (·.1)
  let d := d.sg (Reg.OBJ_OUT_ENTRIES n) (BitVec.ofNat 32 (o.bins.map (fun p => p.2.length)).sum)
  let d := d.sg (Reg.OBJ_OUT_MAXBIN n) (BitVec.ofNat 32 (min 65535 maxb))
  let d := d.sf (Reg.OBJ_OUT_STAT n) 8 9 (beyond.head?.getD 0x1FF)
  let d := (d.add (Reg.OBJ_OUT_DROP_CNT n) o.capDrops).add (Reg.OBJ_OUT_QDROP_CNT n) o.quotaDrops
  let ev := fun (d : Dev) (i : Nat) (b : Bool) =>
    if b then (d.sb (Reg.OBJ_OUT_STAT n) i).raiseSlice (d.bt (Reg.OBJ_OUT_INT_EN n) i) n else d
  ev (ev (ev d 0 (decide (0 < o.capDrops))) 1 (decide (0 < o.quotaDrops))) 2 o.vpErr

/-- An index becomes the newest complete one; indexes no output uses any more are forgotten (R29, R93). -/
def Dev.publish (d : Dev) (ix : Index) : Dev :=
  let used := (d.tg.map (fun p => [p.2.cur, p.2.nxt])).flatten
  d.onObj (fun s => { s with indexes := ix :: s.indexes.filter (fun i => used.contains (some i.epoch) && i.epoch != ix.epoch) })

/-- The build in progress ends (R92, R93, R99): the results of every output are written, and the error bits that the pass met set.  No rule
says at which moment of the pass FMT_ERR, PAT_ERR and GRP_MARGIN become visible: the model sets them at its end, and not for a build that
R96 abandons (DESIGN CHOICE, log entry 73). -/
def boltComplete (d : Dev) : Dev :=
  match d.obj.build with
  | none => d
  | some bl =>
    let d := (d.publish bl.idx).onObj (fun s => { s with build := none })
    let d := (d.sg Reg.OBJ_BOL_EPOCH (BitVec.ofNat 32 bl.idx.epoch)).sg Reg.OBJ_BOL_LAST (BitVec.ofNat 32 bl.cost)
    let d := (d.raiseTo Reg.OBJ_BOL_MAX bl.cost).sg Reg.OBJ_BOL_STATE 0
    let d := if bl.fmtErr then d.objStat 3 else d
    let d := if bl.patErr then d.objStat 4 else d
    let d := if bl.grpMargin then d.objStat 7 else d
    ((List.range 48).foldl (fun d n => d.buildResult n (Tab.at {} bl.idx.outs n)) d).raiseNews 220

/-- The keep regions as a build latches them (R102): the bounding rectangle of the enabled viewports on each shared canvas, widened
by MARGIN.  The viewport of an output without a timing has no pixels (R72). -/
def Dev.keepRegions (d : Dev) (lat : List VpLatch) : List (Nat × Int × Int × Int × Int) :=
  let add := fun (l : List (Nat × Int × Int × Int × Int)) (v : VpLatch) =>
    if v.enable && decide (0 < v.hAct) && decide (0 < v.vAct) && d.bt (Reg.OBJ_CANVAS_CFG v.canvas) 0 then
      let m : Int := d.fd (Reg.OBJ_CANVAS_CFG v.canvas) 16 16
      let r := ((v.vx : Int) - m, (v.vy : Int) - m, (v.vx + v.hAct : Int) - 1 + m, (v.vy + v.vAct : Int) - 1 + m)
      match l.find? (fun p => p.1 == v.canvas) with
      | none => (v.canvas, r) :: l
      | some p => (v.canvas, min p.2.1 r.1, min p.2.2.1 r.2.1, max p.2.2.2.1 r.2.2.1, max p.2.2.2.2 r.2.2.2) ::
          l.filter (fun q => q.1 != v.canvas)
    else l
  lat.foldl add []

/-- Does the covered area of a record, without group offset, meet the keep region of its canvas (R102)? -/
def Dev.inKeep (d : Dev) (o : ObjRec) : Bool :=
  d.obj.keep.any (fun (c, x0, y0, x1, y1) =>
    c == o.canvas && decide (o.x / 16 ≤ x1) && decide (x0 ≤ o.x / 16 + o.w * o.z - 1) &&
    decide (o.y / 16 ≤ y1) && decide (y0 ≤ o.y / 16 + o.h * o.z - 1))

/-- The commit's flip ends (R27): selectors flip, the epoch becomes current, and the Bolter reuses its index or starts a build
(R94). -/
def flipEnd (d : Dev) : Dev :=
  match d.obj.flip with
  | none => d
  | some e =>
    let touched := d.obj.objs.any (fun p => p.2.pending) || d.obj.grps.any (fun p => p.2.pending)
    let d := d.onObj (fun s => { s with objs := s.objs.map (fun p => (p.1, p.2.flip)), grps := s.grps.map (fun p => (p.1, p.2.flip)),
                                        epoch := e, flip := none, flipDone := d.cclks })
    let d := { d with hop := { d.hop with inflight := [] } }
    let sp := fun (p : PageSpace) => { p with prev := p.cur, cur := p.next, fresh := [] }
    let d := { d with tile := { d.tile with map := sp d.tile.map, pal := sp d.tile.pal } }
    let d := d.reachUpdate .obj
    let lat := (List.range 48).map d.latchVp
    let same := lat == d.obj.lastLatch && d.fr Reg.OBJ_BOL_CFG == d.obj.lastCfg
    let d := d.onObj (fun s => { s with lastLatch := lat, lastCfg := d.fr Reg.OBJ_BOL_CFG, keep := d.keepRegions lat })
    match d.obj.indexes.head? with
    | some ix =>
      if d.fbt Reg.OBJ_BOL_CFG 0 && !touched && same then
        ((d.publish { ix with epoch := e, mapPm := d.tile.map.cur, palPm := d.tile.pal.cur }).inc Reg.OBJ_BOL_REUSE_CNT).sg
          Reg.OBJ_BOL_STATE 2 |>.sg Reg.OBJ_BOL_EPOCH (BitVec.ofNat 32 e)
      else (d.onObj (fun s => { s with build := some (d.pass e) })).sb Reg.OBJ_BOL_STATE 0
    | none => (d.onObj (fun s => { s with build := some (d.pass e) })).sb Reg.OBJ_BOL_STATE 0

/-- Is slot B the one that a SLOT code names (Table 3-6): 0 current, 1 non-current, 2 A, 3 B? -/
def slotIsB (sel : Bool) (code : Nat) : Bool :=
  match code with
  | 0 => sel
  | 1 => !sel
  | 2 => false
  | _ => true

/-- The snapshot of an object slot (R88). -/
def objPeek (w : Word) (d : Dev) : Dev :=
  let d := d.sg Reg.OBJ_PEEK_SEL (w &&& 0x3FFFFF)
  let o := d.objAt (bits w.toNat 0 20)
  let isB := slotIsB o.sel (bits w.toNat 20 2)
  let r := if isB then o.b else o.a
  let d := (List.range 8).foldl (fun d i => d.sg (Reg.OBJ_PEEK_W i) (r.word i)) d
  (d.pb Reg.OBJ_PEEK_STAT 0 isB).pb Reg.OBJ_PEEK_STAT 1 o.pending

/-- The snapshot of a group slot (R88). -/
def objGPeek (w : Word) (d : Dev) : Dev :=
  let d := d.sg Reg.OBJ_GPEEK_SEL (w &&& 0x3FFF)
  let g := d.grpAt (bits w.toNat 0 12)
  let r := if slotIsB g.sel (bits w.toNat 12 2) then g.b else g.a
  ((d.sg (Reg.OBJ_GPEEK_W 0) r.w0).sg (Reg.OBJ_GPEEK_W 1) r.w1).sg (Reg.OBJ_GPEEK_W 2) r.w2

end Sys2Proof.Machine
end

