-- ==== Sys2Proof/Machine/Tile.lean ====
section
/-!
DEFINITION. The pattern and tile-map cache (R133 to R139), and tile planes: geometry, fetches and pixels (R112 to R117, R135, R136).
-/

namespace Sys2Proof.Machine

/-- Change the TP block. -/
def Dev.onTile (d : Dev) (f : TileSt → TileSt) : Dev := { d with tile := f d.tile }

/-! ### The cache -/

/-- S: the number of sets (R133). -/
def Dev.cacheSets (d : Dev) : Nat := d.fd Reg.TP_CACHE_KIB 0 17 / 2

/-- Does the invalidation in progress cover the line (R139)? -/
def Dev.invCovers (d : Dev) (line : Nat) : Bool :=
  match d.tile.inv with
  | some (a, b) => decide (a ≤ line) && decide (line < b)
  | none => false

/-- The scan of an invalidation brought up to the present, 4 lines a CCLK: the lines it has passed leave the cache, and their fills in
flight are discarded (R139). -/
def Dev.invScan (d : Dev) : Dev :=
  match d.tile.inv with
  | none => d
  | some (a, b) =>
    let upTo := min b (a + 4 * (d.cclks - (d.tile.invAt - ceilDiv (b - a) 4)))
    let from_ := d.tile.invTo
    if upTo ≤ from_ then d else
    let out := fun (l : Nat) => decide (l < from_) || decide (upTo ≤ l)
    d.onTile (fun t => { t with
      invTo := upTo
      cache := (t.cache.map (fun (p : Nat × List CLine) => (p.1, p.2.filter (fun c => out c.line)))).filter (fun p => p.2 != [])
      fills := t.fills.map (fun (f : Fill) => if out f.line then f else { f with dropped := true }) })

/-- The set with a line put in as a miss requests its fill (R133): in a way not in use among those allowed, else in the least recently
used of them. -/
def cacheInsert (ways : Nat) (isObj : Bool) (set : List CLine) (line : Nat) : List CLine :=
  let allowed := if ways = 0 then List.range 16
    else if isObj then List.range ways else (List.range 16).filter (fun i => decide (ways ≤ i))
  let rest := set.filter (fun c => c.line != line)
  match allowed.find? (fun i => rest.all (fun c => c.way != i)) with
  | some i => { way := i, line := line } :: rest
  | none =>
    match (rest.filter (fun c => allowed.contains c.way)).getLast? with
    | some v => { way := v.way, line := line } :: rest.filter (fun c => c.line != v.line)
    | none => rest

/-- A fill of a line is requested and counted (R133, R138). -/
def W.requestFill (w : W) (n : Nat) (isObj : Bool) (line : Nat) : W :=
  let s := w.d.cacheSets
  w.dev (fun d => (d.onTile (fun t => { t with
    fills := t.fills ++ [{ line := line, isObj := isObj }]
    cache := if s = 0 then t.cache
      else Tab.put [] t.cache (line % s) (cacheInsert t.objWays isObj (Tab.at [] t.cache (line % s)) line) })).inc (Reg.TP_OUT_FILL_CNT n))

/-- A fetch of a line for output `n` (R133, R134): its bytes on a hit; on a miss a fill is requested, and a line whose fill is in flight is
waited for. -/
def W.fetch (w : W) (n : Nat) (isObj : Bool) (line : Nat) : W × Option (List Byte) :=
  let w := w.dev Dev.invScan
  let lk := Tab.at [] w.d.tile.locked line
  let covered := w.d.invCovers line
  if lk ≠ [] ∧ !covered then (w, some lk) else
  let s := w.d.cacheSets
  let set := if s = 0 then [] else Tab.at [] w.d.tile.cache (line % s)
  if covered then
    (if w.d.tile.fills.any (fun f => f.line == line && !f.dropped) then w else w.requestFill n isObj line, none)
  else
  match set.find? (fun c => c.line == line) with
  | some c =>
    (w.dev (fun d => d.onTile (fun t => { t with cache := Tab.put [] t.cache (line % s) (c :: set.filter (fun x => x.line != line)) })),
     c.data)
  | none => (w.requestFill n isObj line, none)

/-- The bytes a fill brings: each of its two bursts as the memory held it at one instant since the request, which instant is not defined
(R133, log entry 4). -/
def W.fillData (w : W) (f : Fill) : List Byte :=
  let states := f.olds ++ [w.lpRead (f.line * 128) 128]
  let pick := (Config.freeWord w.d.free).toNat
  let burst := fun (k : Nat) => (states.getD (k % states.length) []).take 64
  burst pick ++ ((states.getD (pick / 65536 % states.length) []).drop 64)

/-! ### Tile-plane geometry (R113, R114) -/

/-- A tile plane as a line latched it. -/
structure Plane where
  cfg : Nat
  scroll : Nat
  map : Nat
  tile : Nat
  pal : Nat

/-- Plane `p` of output `n` from latched registers. -/
def Plane.of (r : Tab Word) (n p : Nat) : Plane :=
  let g := fun a => (Tab.get Reg.resetWord r a).toNat
  { cfg := g (Reg.TP_PL_CFG n p), scroll := g (Reg.TP_PL_SCROLL n p), map := g (Reg.TP_PL_MAP n p), tile := g (Reg.TP_PL_TILE n p),
    pal := g (Reg.TP_PL_PAL n p) }

/-- ENABLE. -/
def Plane.enable (p : Plane) : Bool := bits p.cfg 0 1 == 1
/-- T: 8 or 16. -/
def Plane.t (p : Plane) : Nat := if bits p.cfg 1 1 = 1 then 16 else 8
/-- MAP_LOC. -/
def Plane.mapLp (p : Plane) : Bool := bits p.cfg 2 1 == 1
/-- FORMAT. -/
def Plane.format (p : Plane) : Nat := bits p.cfg 4 4
/-- MW (a value above 12 is taken as 12). -/
def Plane.mw (p : Plane) : Nat := 2 ^ min 12 (bits p.cfg 8 4)
/-- MH. -/
def Plane.mh (p : Plane) : Nat := 2 ^ min 12 (bits p.cfg 12 4)
/-- WRAP_X. -/
def Plane.wrapX (p : Plane) : Bool := bits p.cfg 16 1 == 1
/-- WRAP_Y. -/
def Plane.wrapY (p : Plane) : Bool := bits p.cfg 17 1 == 1
/-- BLEND. -/
def Plane.blend (p : Plane) : Nat := bits p.cfg 18 2
/-- SX. -/
def Plane.sx (p : Plane) : Nat := bits p.scroll 0 16
/-- SY. -/
def Plane.sy (p : Plane) : Nat := bits p.scroll 16 16
/-- PAL_BASE. -/
def Plane.palBase (p : Plane) : Nat := bits p.pal 0 12
/-- ALPHA. -/
def Plane.alpha (p : Plane) : Nat := bits p.pal 16 8
/-- KEY. -/
def Plane.key (p : Plane) : Nat := bits p.pal 24 8

/-- The plane coordinate that `i` names in an extent, by wrap or inside it; `none` in the border (R114). -/
def wrapCoord (ext : Nat) (wrap : Bool) (i : Nat) : Option Nat :=
  if i < ext then some i else if wrap then some (i % ext) else none

/-- u of R114. -/
def Plane.u (p : Plane) (x : Nat) : Option Nat := wrapCoord (p.t * p.mw) p.wrapX ((p.sx + x) % 65536)

/-- v of R114. -/
def Plane.v (p : Plane) (line : Nat) : Option Nat := wrapCoord (p.t * p.mh) p.wrapY ((p.sy + line) % 65536)

/-- The tile columns met along a line of `w` pixels, in ascending x, one for each tile begun (R135). -/
def Plane.cols (p : Plane) (w : Nat) : List Nat :=
  (List.range w).filterMap (fun x => (p.u x).bind (fun u => if x = 0 ∨ u % p.t = 0 then some (u / p.t) else none))

/-- Does the map lie wholly in its space (R113)? -/
def Dev.mapFits (d : Dev) (p : Plane) : Bool :=
  if p.mapLp then decide (p.map * 64 + 4 * p.mw * p.mh ≤ d.lpSize)
  else decide (p.map + ceilDiv (p.mw * p.mh) 256 ≤ d.fd Reg.TP_MAP_SPACE 0 15)

/-- Is a plane fetched and drawn: enabled, its map in its space, its format valid? -/
def Dev.planeOk (d : Dev) (p : Plane) : Bool := p.enable && d.mapFits p && decide (fmtBits p.format ≠ 0)

/-- Key under which map entry `e` arrives, and the entry's offset there: its 128-byte line of LPDDR5X, or its 64 bytes on chip, from 2^40
up.  `pm` is the page map taken up (R131). -/
def Plane.entryAt (p : Plane) (pm : Tab Nat) (e : Nat) : Nat × Nat :=
  if p.mapLp then ((p.map * 64 + 4 * e) / 128, (p.map * 64 + 4 * e) % 128)
  else
    let a := mapPageAddr (Tab.get id pm (p.map + e / 256)) + 4 * (e % 256)
    (2 ^ 40 + a / 64, a % 64)

/-- A byte of the line's arrived data. -/
def LineWork.byte (lw : LineWork) (a : Nat) : Option Byte :=
  let l := Tab.at [] lw.got (a / 128)
  if l = [] then none else some (l.getD (a % 128) 0)

/-- Map entry `e` of a plane, once it has arrived. -/
def LineWork.entry (lw : LineWork) (p : Plane) (pm : Tab Nat) (e : Nat) : Option Nat :=
  let (k, o) := p.entryAt pm e
  let l := Tab.at [] lw.got k
  if l = [] then none else some (leNat ((List.range 4).map (fun i => l.getD (o + i) 0)))

/-- First byte of row `r` of the tile that an entry names (R114); `none` when the tile's pattern leaves the memory. -/
def Dev.tileRow (d : Dev) (p : Plane) (e r : Nat) : Option Nat :=
  let tb := p.t * p.t * fmtBits p.format / 8
  let base := p.tile * 64 + bits e 0 20 * tb
  let r := if bits e 25 1 = 1 then p.t - 1 - r else r
  if base + tb ≤ d.lpSize then some (base + r * (p.t * fmtBits p.format / 8)) else none

/-- The 128-byte lines that `n` bytes from `a` touch. -/
def linesOf (a n : Nat) : List Nat := (List.range ((a + n - 1) / 128 - a / 128 + 1)).map (fun i => a / 128 + i)

/-- Logical bank and entry of an indexed tile pixel (Table 4-4). -/
def tileBank (fmt palBase sub i : Nat) : Nat × Nat :=
  if fmt = 0 then (palBase, sub * 16 + i) else ((palBase + sub) % 4096, i)

/-! ### Fetches of a line (R135) -/

/-- The index whose epoch a line latched. -/
def Dev.pubIndex (d : Dev) (e : Nat) : Index := (d.obj.indexes.find? (fun i => i.epoch == e)).getD {}

/-- One access of a line's tile fetcher in the slot of CCLK edge `at_`: counted, and each line it touches on its way 12 CCLK later, or
awaited (R135, R138, Table 4-5); a cached line in error brings nothing, so that its spans are late (R554).  Those of a Fantail shadow count
for its target's output, for which the shadow draws (DESIGN CHOICE, log entry 83). -/
def W.tileAccess (w : W) (lw : LineWork) (at_ : Nat) (ls : List Nat) : W × LineWork :=
  ls.foldl (fun (acc : W × LineWork) l =>
    match acc.1.fetch lw.out false l with
    | (w, some b) => (w, if w.d.ue.contains (.cache l) then acc.2 else { acc.2 with tileBack := acc.2.tileBack ++ [(at_ + 12, l, b)] })
    | (w, none) => (w, { acc.2 with tileWait := if acc.2.tileWait.contains l then acc.2.tileWait else acc.2.tileWait ++ [l] }))
    (w.dev (fun d => d.inc (Reg.TP_OUT_ACCESS_CNT lw.out)), lw)

/-- The map entry of tile column `tx` of a plane on the line, if the line meets the plane (R114). -/
def LineWork.entryNo (lw : LineWork) (p : Plane) (tx : Nat) : Option Nat := (p.v lw.line).map (fun v => v / p.t * p.mw + tx)

/-- Has the map entry of a row not yet issued arrived (R135)? -/
def Dev.rowReady (d : Dev) (lw : LineWork) (pn tx : Nat) : Bool :=
  let p := Plane.of lw.regs lw.out pn
  ((lw.entryNo p tx).bind (lw.entry p (d.pubIndex lw.epoch).mapPm)).isSome

/-- The tile row of column `tx` of a plane is requested: one access, or none where the tile's pattern leaves the memory (R114).  The flag:
a slot was used. -/
def W.tileRowOp (w : W) (lw : LineWork) (at_ pn tx : Nat) : W × LineWork × Bool :=
  let p := Plane.of lw.regs lw.out pn
  match (lw.entryNo p tx).bind (lw.entry p (w.d.pubIndex lw.epoch).mapPm), p.v lw.line with
  | some ent, some v =>
    match w.d.tileRow p ent (v % p.t) with
    | none => (w.dev (fun d => d.sb (Reg.TP_PL_STAT lw.out pn) 0), lw, false)
    | some a =>
      let r := w.tileAccess lw at_ (linesOf a (p.t * fmtBits p.format / 8))
      (r.1, r.2, true)
  | _, _ => (w, lw, false)

/-- A map request: the 16 entries of part `c` of a plane's map, through the cache, or on chip in 4 CCLK (R135, Table 4-5).  On-chip words
in error bring nothing (R554). -/
def W.tileMapOp (w : W) (lw : LineWork) (at_ pn c : Nat) : W × LineWork :=
  let p := Plane.of lw.regs lw.out pn
  if p.mapLp then w.tileAccess lw at_ [(p.map + c) / 2]
  else
    let k := (p.entryAt (w.d.pubIndex lw.epoch).mapPm (16 * c)).1
    let a := (k - 2 ^ 40) * 64
    if w.d.sramBadIn a 64 then (w, lw)
    else (w, { lw with tileBack := lw.tileBack ++ [(at_ + 4, k, w.rdBytes .sram a 64)] })

/-- The planes T0 to T3 that a line fetches: enabled, well placed, not skipped. -/
def Dev.fetchedPlanes (d : Dev) (lw : LineWork) : List Nat :=
  (List.range 4).filter (fun pn => d.planeOk (Plane.of lw.regs lw.out pn) && !lw.skipped.contains pn)

/-- Does an indexed pixel that can now be looked up, its map entry and its row being there, name a bank beyond the palette (R126)?  `only`:
of the columns that the arrival of that line completes. -/
def W.tileLookUps (w : W) (lw : LineWork) (only : Option Nat) : Bool :=
  (w.d.fetchedPlanes lw).any (fun pn =>
    let p := Plane.of lw.regs lw.out pn
    let pm := (w.d.pubIndex lw.epoch).mapPm
    decide (p.format < 2) &&
    (match p.v lw.line with
    | none => false
    | some v => (p.cols lw.width).any (fun tx =>
      let e := v / p.t * p.mw + tx
      match (lw.entry p pm e).bind (fun ent => (w.d.tileRow p ent (v % p.t)).map (fun a => (ent, a))) with
      | none => false
      | some (ent, a) =>
        let ls := linesOf a (p.t * fmtBits p.format / 8)
        let now := only.isNone || only == some (p.entryAt pm e).1 || ls.any (fun l => only == some l)
        now && ls.all (fun l => Tab.at [] lw.got l != []) && w.d.palRange (tileBank p.format p.palBase (bits ent 20 4) 0).1)))

/-- What the tile fetcher of a line has to do, from its build start: the map requests plane by plane, then the rows (R135). -/
def Dev.tilePlan (d : Dev) (lw : LineWork) : LineWork :=
  let ps := (d.fetchedPlanes lw).filter (fun pn => ((Plane.of lw.regs lw.out pn).v lw.line).isSome)
  let cols := fun (pn : Nat) => (Plane.of lw.regs lw.out pn).cols lw.width
  { lw with
    tileMaps := ps.flatMap (fun pn =>
      (((cols pn).filterMap (fun tx => lw.entryNo (Plane.of lw.regs lw.out pn) tx)).map (fun e => e / 16)).eraseDups.map (fun c => (pn, c)))
    tileRows := ps.flatMap (fun pn => (cols pn).map (fun tx => (pn, tx))) }

/-- Data that a line's tile fetches asked for is there: the look-ups that it completes are made (R126). -/
def W.tileArrive (w : W) (lw : LineWork) (key : Nat) (b : List Byte) : W × LineWork :=
  let lw := { lw with got := Tab.put [] lw.got key b, tileWait := lw.tileWait.filter (fun l => l != key) }
  (w.dev (fun d => if w.tileLookUps lw (some key) then d.tpStat 4 else d), lw)

/-- What has returned for a line up to CCLK edge `at_`. -/
def W.tileReturns (w : W) (lw : LineWork) (at_ : Nat) : W × LineWork :=
  let rest := { lw with tileBack := lw.tileBack.filter (fun r => decide (at_ < r.1)) }
  (lw.tileBack.filter (fun r => decide (r.1 ≤ at_))).foldl (fun (acc : W × LineWork) r => acc.1.tileArrive acc.2 r.2.1 r.2.2) (w, rest)

/-- The same for every line of a list. -/
def W.tileReturnsAll (w : W) : List LineWork → Nat → W × List LineWork
  | [], _ => (w, [])
  | lw :: rest, at_ =>
    let (w, lw) := w.tileReturns lw at_
    let (w, rest) := w.tileReturnsAll rest at_
    (w, lw :: rest)

/-- The slot of CCLK edge `at_` offered to a line (R135): its next map request, else the first row in order whose entry is there, so that a
row passed over goes ahead of rows not yet issued.  `none` when it has nothing to issue; the flag: the slot was used. -/
def W.tileNext (w : W) (lw : LineWork) (at_ : Nat) : Option (W × LineWork × Bool) :=
  match lw.tileMaps with
  | (pn, c) :: ms =>
    let r := w.tileMapOp { lw with tileMaps := ms } at_ pn c
    some (r.1, r.2, true)
  | [] => (lw.tileRows.find? (fun r => w.d.rowReady lw r.1 r.2)).map (fun r =>
      w.tileRowOp { lw with tileRows := lw.tileRows.erase r } at_ r.1 r.2)

/-- The slot offered to the lines of a slice, the oldest first. -/
def W.tileSlot (w : W) : List LineWork → Nat → Option (W × List LineWork × Bool)
  | [], _ => none
  | lw :: rest, at_ =>
    match w.tileNext lw at_ with
    | some (w, lw, used) => some (w, lw :: rest, used)
    | none => (w.tileSlot rest at_).map (fun r => (r.1, lw :: r.2.1, r.2.2))

/-- The tile fetcher of a slice from its slot of edge `at_` up to the present (R135), with the edge of its next slot.  `fuel` bounds the
turns. -/
def W.tileTurns (w : W) (ls : List LineWork) (at_ : Nat) : Nat → W × List LineWork × Nat
  | 0 => (w, ls, at_)
  | fuel + 1 =>
    if w.d.cclks < at_ then
      let (w, ls) := w.tileReturnsAll ls w.d.cclks
      (w, ls, at_)
    else
      let (w, ls) := w.tileReturnsAll ls at_
      match w.tileSlot ls at_ with
      | some (w, ls, used) => w.tileTurns ls (if used then at_ + 1 else at_) fuel
      | none =>
        match (ls.flatMap (fun lw => lw.tileBack.map (fun r => r.1))).min? with
        | some e => if e ≤ w.d.cclks then w.tileTurns ls e fuel else (w, ls, w.d.cclks)
        | none => (w, ls, w.d.cclks)

/-- Has the tile fetcher work left for a line? -/
def LineWork.tileLeft (lw : LineWork) : Bool :=
  !lw.tileMaps.isEmpty || !lw.tileRows.isEmpty || !lw.tileWait.isEmpty || !lw.tileBack.isEmpty

/-- Is a line due or being mixed at its output? -/
def Dev.mixing (d : Dev) (lw : LineWork) : Bool :=
  let m := d.mxAt lw.out
  [m.due, m.now, m.shDue, m.shNow].any (fun o => o.any (fun (x : LineDue) => x.work.line == lw.line))

/-- The tile fetcher of slice `s` brought up to the present. -/
def W.tiles (w : W) (s : Nat) : W :=
  let sl := w.d.sliceAt s
  let ls := sl.after ++ sl.lines
  let fuel := 2 * (ls.map (fun lw => lw.tileMaps.length + 2 * lw.tileRows.length + lw.tileBack.length)).sum + 2
  let (w, ls, at_) := w.tileTurns ls sl.tileAt fuel
  let k := sl.after.length
  w.dev (fun d => d.onSlice s (fun sl => { sl with
    after := (ls.take k).filter (fun lw => lw.tileLeft || d.mixing lw), lines := ls.drop k, tileAt := at_ }))

/-- The work of a line handed over, with the tile data that has arrived since (R136). -/
def Dev.tileData (d : Dev) (x : LineDue) : LineWork :=
  match (d.sliceAt x.slice).after.reverse.find? (fun lw => lw.line == x.work.line) with
  | some lw => { x.work with got := lw.got }
  | none => x.work

/-! ### Tile pixels (R114 to R117, R121 to R126) -/

/-- The premultiplied pixel of plane `pn` at `x` with its HIPRI bit; `none` when data it needs has not arrived. -/
def W.tilePixel (w : W) (lw : LineWork) (pn x : Nat) : Option Px :=
  let p := Plane.of lw.regs lw.out pn
  let ix := w.d.pubIndex lw.epoch
  match p.u x, p.v lw.line with
  | some u, some v =>
    match lw.entry p ix.mapPm (v / p.t * p.mw + u / p.t) with
    | none => none
    | some ent =>
      match w.d.tileRow p ent (v % p.t) with
      | none => some { hi := bits ent 26 1 == 1 }
      | some row =>
        let c := if bits ent 24 1 = 1 then p.t - 1 - u % p.t else u % p.t
        let (a0, n) := pixelSpan p.format row c
        if (List.range n).all (fun i => (lw.byte (a0 + i)).isSome) then
          let raw := rawPixel (fun a => (lw.byte a).getD 0) p.format row c
          let keyed := keyMatch lw.keys p.format p.key raw
          let hi := bits ent 26 1 == 1
          if p.format < 2 then
            let (bank, i) := tileBank p.format p.palBase (bits ent 20 4) raw
            let col := w.palette ix.palPm bank i
            some { premul col (effAlpha p.blend p.alpha col.a keyed) with hi := hi }
          else
            let col := pxPacked p.format raw
            some { premul col (effAlpha p.blend p.alpha col.a keyed) with hi := hi }
        else none
  | _, _ => some {}

/-- The span `k` of a plane as it stands: its pixels, or `none` when it is late (R136). -/
def W.tileSpan (w : W) (lw : LineWork) (pn k width : Nat) : Option (List Px) :=
  ((List.range 16).filter (fun i => decide (16 * k + i < width))).mapM (fun i => w.tilePixel lw pn (16 * k + i))

/-! ### Invalidation (R139) and direct writes of pages (R132) -/

/-- A write of 1 to TP_INV_CMD.GO. -/
def cacheInvalidate (d : Dev) : Dev :=
  let len := (d.rg Reg.TP_INV_LEN).toNat
  if d.bt Reg.TP_INV_CMD 1 ∨ len = 0 then d
  else
    let a := (d.rg Reg.TP_INV_BASE).toNat * 64 / 128
    let b := ceilDiv (((d.rg Reg.TP_INV_BASE).toNat + len) * 64) 128
    (d.onTile (fun t => { t with
      inv := some (a, b), invAt := d.cclks + ceilDiv (b - a) 4, invTo := a })).sb Reg.TP_INV_CMD 1

/-- The scan and the refetch of the locked lines end (R139). -/
def invalidateDone (w : W) : W :=
  match w.d.tile.inv with
  | none => w
  | some (a, b) =>
    let w := w.dev Dev.invScan
    let lk := w.d.tile.locked.map (fun (p : Nat × List Byte) =>
      if a ≤ p.1 ∧ p.1 < b then (p.1, w.lpRead (p.1 * 128) 128) else p)
    w.dev (fun d => (d.onTile (fun t => { t with inv := none, locked := lk })).cb Reg.TP_INV_CMD 1)

/-- TP_PMAP_RD for the selection in TP_PMAP_SEL (R127, Table 4-6). -/
def Dev.pmapRead (d : Dev) : Word :=
  let sel := (d.rg Reg.TP_PMAP_SEL).toNat
  let page := bits sel 0 15
  let sp := if bits sel 15 1 = 1 then d.tile.pal else d.tile.map
  let limit := if bits sel 15 1 = 1 then d.fd Reg.TP_PAL_SPACE 0 13 else d.fd Reg.TP_MAP_SPACE 0 15
  let pm := if bits sel 16 1 = 1 then sp.prev else sp.cur
  if page < limit then packFields [(0, Tab.get id pm page), (31, 1)] else 0

end Sys2Proof.Machine
end

