-- ==== Sys2Proof/Machine/Video.lean ====
section
/-!
DEFINITION. Video planes (R181 to R188): geometry, row fetch, the scaler, and the tables of an output (R194, R206, R209).
-/

namespace Sys2Proof.Machine

/-! ### The table window of an output -/

/-- A word of table bank `bank` at byte offset `off` (a multiple of 4). -/
def Tables.word (t : Tables) (bank off : Nat) : Word :=
  if bank = 0 then (Tab.at none t.w0 off).getD (derivedWord t.p0 off) else (Tab.at none t.w1 off).getD (derivedWord t.p1 off)

/-- A word written to a bank. -/
def Tables.put (t : Tables) (bank off : Nat) (v : Word) : Tables :=
  if bank = 0 then { t with w0 := Tab.put none t.w0 off (some v) } else { t with w1 := Tab.put none t.w1 off (some v) }

/-- The other bank copied into `bank` (R194). -/
def Tables.copyTo (t : Tables) (bank : Nat) : Tables :=
  if bank = 0 then { t with w0 := t.w1, p0 := t.p1 } else { t with w1 := t.w0, p1 := t.p0 }

/-- A 16-bit entry of a table that begins at `base`. -/
def Tables.half (t : Tables) (bank base i : Nat) : Nat :=
  let off := base + 2 * i
  bits (t.word bank (off / 4 * 4)).toNat (8 * (off % 4)) 16

/-- The tables that a line uses: those in force, or those it kept over a change of setting (R13). -/
def Dev.lineTables (d : Dev) (lw : LineWork) : Tables := lw.tbl.getD (d.mxAt lw.out).tblNow

/-! ### Geometry (R181, R182) -/

/-- A video plane as a line latched it. -/
structure Vp where
  cfg : Nat
  buf : Nat
  strideU : Nat
  srcOrg : Nat
  srcSize : Nat
  dstOrg : Nat
  dstSize : Nat
  alphaKey : Nat

/-- Video plane `p` of output `n` from latched registers. -/
def Vp.of (r : Tab Word) (n p : Nat) : Vp :=
  let g := fun a => (Tab.get Reg.resetWord r a).toNat
  { cfg := g (Reg.MX_VP_CFG n p), buf := g (Reg.MX_VP_BUF n p), strideU := g (Reg.MX_VP_STRIDE n p), srcOrg := g (Reg.MX_VP_SRC_ORG n p),
    srcSize := g (Reg.MX_VP_SRC_SIZE n p), dstOrg := g (Reg.MX_VP_DST_ORG n p), dstSize := g (Reg.MX_VP_DST_SIZE n p),
    alphaKey := g (Reg.MX_VP_ALPHA n p) }

/-- ENABLE. -/
def Vp.enable (v : Vp) : Bool := bits v.cfg 0 1 == 1
/-- FORMAT. -/
def Vp.format (v : Vp) : Nat := bits v.cfg 4 4
/-- BLEND. -/
def Vp.blend (v : Vp) : Nat := bits v.cfg 8 2
/-- HFILT; the reserved code is taken as 1. -/
def Vp.hfilt (v : Vp) : Nat := if bits v.cfg 10 2 = 3 then 1 else bits v.cfg 10 2
/-- VFILT. -/
def Vp.vfilt (v : Vp) : Nat := if bits v.cfg 12 2 = 3 then 1 else bits v.cfg 12 2
/-- SX. -/
def Vp.sx (v : Vp) : Nat := bits v.srcOrg 0 13
/-- SY. -/
def Vp.sy (v : Vp) : Nat := bits v.srcOrg 16 13
/-- SW. -/
def Vp.sw (v : Vp) : Nat := bits v.srcSize 0 13 + 1
/-- SH. -/
def Vp.sh (v : Vp) : Nat := bits v.srcSize 16 13 + 1
/-- DX. -/
def Vp.dx (v : Vp) : Int := signed 16 v.dstOrg
/-- DY. -/
def Vp.dy (v : Vp) : Int := signed 16 (v.dstOrg / 2 ^ 16)
/-- DW. -/
def Vp.dw (v : Vp) : Nat := bits v.dstSize 0 13 + 1
/-- DH. -/
def Vp.dh (v : Vp) : Nat := bits v.dstSize 16 13 + 1
/-- ALPHA. -/
def Vp.alpha (v : Vp) : Nat := bits v.alphaKey 0 8
/-- KEY. -/
def Vp.key (v : Vp) : Nat := bits v.alphaKey 8 8

/-- FMT_ERR applies (R181). -/
def Vp.fmtErr (v : Vp) : Bool := decide (v.format < 2) || fmtBits v.format == 0
/-- BUF_ERR applies. -/
def Vp.bufErr (v : Vp) (lp : Nat) : Bool :=
  !v.fmtErr && decide (lp < v.buf * 64 + (v.sy + v.sh - 1) * (bits v.strideU 0 16 * 64) + (v.sx + v.sw) * (fmtBits v.format / 8))
/-- SCALE_ERR applies (R182). -/
def Vp.scaleErr (v : Vp) : Bool :=
  !(decide (v.sw ≤ 4 * v.dw) && decide (v.dw ≤ 16 * v.sw) && decide (v.sh ≤ 4 * v.dh) && decide (v.dh ≤ 16 * v.sh))

/-- Enabled, with none of the three errors. -/
def Vp.ok (v : Vp) (lp : Nat) : Bool := v.enable && !v.fmtErr && !v.bufErr lp && !v.scaleErr

/-- Does the line lie in the destination rectangle? -/
def Vp.onLine (v : Vp) (line : Nat) : Bool := decide (v.dy ≤ line) && decide ((line : Int) < v.dy + v.dh)

/-- Is the plane covering on the line (R188)? -/
def Vp.covering (v : Vp) (lp width line : Nat) : Bool :=
  v.ok lp && decide (v.blend = 0) && decide (v.dx ≤ 0) && decide ((width : Int) ≤ v.dx + v.dw) && v.onLine line

/-- pos(i) of R182. -/
def vpPos (s src dst i : Nat) : Int :=
  let step := src * 65536 / dst
  (s * 65536 : Nat) + (((2 * i + 1) * step : Nat) - 65536 : Int) / 2

/-- A tap brought into the source range (R183). -/
def clampTap (s src : Nat) (k : Int) : Nat := (clampI s ((s : Int) + src - 1) k).toNat

/-- The single source sample nearest to a position: floor(pos + 0.5) (Table 6-2). -/
def nearestTap (s src : Nat) (pos : Int) : Nat := clampTap s src ((pos + 32768) / 65536)

/-- The taps of a position under a filter of `n` taps (R183). -/
def tapList (s src : Nat) (pos : Int) (filt n : Nat) : List Nat :=
  if filt = 0 then [nearestTap s src pos]
  else
    let k := pos / 65536
    let m := if filt = 1 then 2 else n
    (List.range m).map (fun (i : Nat) => clampTap s src (k - (m / 2 : Nat) + 1 + (i : Int)))

/-- The phase of a position. -/
def tapPhase (pos : Int) : Nat := (pos % 65536).toNat / 1024

/-- The source rows that destination row `j` needs. -/
def Vp.rowTaps (v : Vp) (j : Nat) : List Nat := tapList v.sy v.sh (vpPos v.sy v.sh v.dh j) v.vfilt 4

/-- LPDDR5X address of the fetched part of source row `r`. -/
def Vp.rowAddr (v : Vp) (r : Nat) : Nat := v.buf * 64 + r * (bits v.strideU 0 16 * 64) + v.sx * (fmtBits v.format / 8)

/-- The name by which a fetched source row is known in the line memory: its address, format and pixels (R185, log entry 27). -/
def Vp.rowName (v : Vp) (r : Nat) : Nat × Nat × Nat := (v.rowAddr r, v.format, v.sw)

/-- Rows that the line memory holds: the vertical taps (R185). -/
def Vp.rowsHeld (v : Vp) : Nat := match v.vfilt with
  | 0 => 1
  | 1 => 2
  | _ => 4

/-! ### The scaler (R183) -/

/-- One filtered component. -/
def filterSum (l : List (Int × Nat)) (top : Nat) : Nat :=
  (clampI 0 top (((l.map (fun p => p.1 * (p.2 : Int))).sum + 512) / 1024)).toNat

/-- Filter pixels with coefficients. -/
def filterPx (l : List (Int × Px)) : Px :=
  { r := filterSum (l.map (fun p => (p.1, p.2.r))) 4095, g := filterSum (l.map (fun p => (p.1, p.2.g))) 4095,
    b := filterSum (l.map (fun p => (p.1, p.2.b))) 4095, a := filterSum (l.map (fun p => (p.1, p.2.a))) 255 }

/-- Coefficients of a phase: `tab i` is the `i`-th coefficient of the plane's table. -/
def coefs (filt f n : Nat) (tab : Nat → Nat) : List Int :=
  match filt with
  | 0 => [1024]
  | 1 => [1024 - 16 * f, 16 * f]
  | _ => (List.range n).map (fun i => signed 16 (tab (f * n + i)))

/-- The scaled line of destination row `j`: horizontal filter, then vertical (log entry 12).  `rowPx r` gives the raw pixels of source
row `r`; the key result of the nearest source pixel goes into `hi` (R184). -/
def W.scaleRow (w : W) (lw : LineWork) (pn j : Nat) (rowPx : Nat → List Nat) : List Px :=
  let v := Vp.of lw.regs lw.out pn
  let t := w.d.lineTables lw
  let bank := bits (Tab.get Reg.resetWord lw.regs (Reg.MX_TBL_CFG lw.out)).toNat 0 1
  let hb := if pn = 0 then 0x5C00 else 0x6400
  let vb := if pn = 0 then 0x6000 else 0x6800
  let vpos := vpPos v.sy v.sh v.dh j
  let vc := coefs v.vfilt (tapPhase vpos) 4 (fun i => t.half bank vb i)
  let near := nearestTap v.sy v.sh vpos
  (List.range v.dw).map (fun i =>
    let hpos := vpPos v.sx v.sw v.dw i
    let hc := coefs v.hfilt (tapPhase hpos) 8 (fun i => t.half bank hb i)
    let cols := tapList v.sx v.sw hpos v.hfilt 8
    let horiz := fun (r : Nat) => filterPx (hc.zip (cols.map (fun c => pxPacked v.format ((rowPx r).getD (c - v.sx) 0))))
    let px := filterPx (vc.zip ((v.rowTaps j).map horiz))
    { px with hi := keyMatch lw.keys v.format v.key ((rowPx near).getD (nearestTap v.sx v.sw hpos - v.sx) 0) })

/-- Is plane `pn` shown on the line: enabled, without error, in its destination rows, not skipped? -/
def Dev.vidShown (d : Dev) (lw : LineWork) (pn : Nat) : Bool :=
  let v := Vp.of lw.regs lw.out pn
  v.ok d.lpSize && v.onLine lw.line && !lw.skipped.contains (6 + pn)

/-- Scaled lines that the rows now in memory complete, for the lines that slice `s` is building, in line order. -/
def W.scaleReady (w : W) (s pn : Nat) : W :=
  ((w.d.sliceAt s).lines).foldl (fun (w : W) lw =>
    let v := Vp.of lw.regs lw.out pn
    let mem := w.d.vidAt s pn
    let j := ((lw.line : Int) - v.dy).toNat
    let rowPx := fun (r : Nat) => ((mem.rows.find? (fun p => p.1 == v.rowName r)).map (·.2)).getD []
    if !lw.dueGone && w.d.vidShown lw pn && !mem.scaled.any (fun p => p.1 == lw.line) &&
        (v.rowTaps j).all (fun r => mem.rows.any (fun p => p.1 == v.rowName r)) then
      w.dev (fun d => d.onVid s pn (fun m => { m with scaled := m.scaled ++ [(lw.line, w.scaleRow lw pn j rowPx)] }))
    else w) w

/-- Row requests of a line at its build start (R185, R186, R188): for a skipped plane, those of the next line the slice builds.  The plane
raises urgency on a line whose rows are not all in its line memory; a Fantail shadow's requests for the same line of the plane count no
second time (DESIGN CHOICE, log entry 83). -/
def W.vidFetch (w : W) (s : Nat) (lw : LineWork) (pn step : Nat) : W :=
  let v := Vp.of lw.regs lw.out pn
  let line := if lw.skipped.contains (6 + pn) then lw.line + step else lw.line
  if v.ok w.d.lpSize && v.onLine line then
    let mem := w.d.vidAt s pn
    let rows := (v.rowTaps ((line : Int) - v.dy).toNat).eraseDups
    let absent := rows.filter (fun r => !mem.rows.any (fun p => p.1 == v.rowName r))
    let need := absent.filter (fun r => !mem.wait.contains (v.rowName r))
    let w := w.dev (fun d => d.onVid s pn (fun m => { m with wait := m.wait ++ need.map v.rowName }))
    let urgent := bits (Tab.get Reg.resetWord lw.regs (Reg.MX_VP_URG lw.out pn)).toNat 0 12 ≠ 0 ∧ absent ≠ []
    if urgent ∧ w.d.bt (Reg.SL_BIND s) 6 then w.dev (fun d => d.inc (Reg.MX_VP_URG_CNT lw.out pn)) else w
  else w

/-- The live slice whose lines slice `s` builds: itself, or the target it shadows (R557). -/
def Dev.builderOf (d : Dev) (s : Nat) : Option Nat :=
  if d.bt (Reg.SL_BIND s) 6 then some s
  else match (d.sliceAt s).shadows with
    | some t => if d.bt (Reg.SL_BIND t) 6 then some t else none
    | none => none

/-- Rows that the line memory of plane `pn` in slice `s` holds: the vertical taps of the lines in work, or of the plane's setting. -/
def Dev.vidHeld (d : Dev) (s pn : Nat) : Nat :=
  let taps := ((d.sliceAt s).lines).map (fun lw => (Vp.of lw.regs lw.out pn).rowsHeld)
  let now := match d.builderOf s with
    | some t => (Vp.of d.inForce (d.fd (Reg.SL_BIND t) 0 6) pn).rowsHeld
    | none => 1
  taps.foldl max now

/-- A source row arrives for video plane `pn` of slice `s` (R185): the oldest outstanding one. -/
def W.rowArrive (w : W) (s pn : Nat) : W :=
  match (w.d.vidAt s pn).wait with
  | [] => w
  | (a, fmt, n) :: rest =>
    let raw := (List.range n).map (fun c => rawPixel w.lpByte fmt a c)
    (w.dev (fun d => d.onVid s pn (fun m => { m with wait := rest, rows := (((a, fmt, n), raw) :: m.rows).take (d.vidHeld s pn) }))).scaleReady s pn

end Sys2Proof.Machine
end

