-- ==== Sys2Proof/Machine/Slice.lean ====
section
/-!
DEFINITION. Building a line in a composition slice (R145 to R161): build start, tile and video fetch, the object build, fills, and
the due point.
-/

namespace Sys2Proof.Machine

/-! ### Binding (R145, R146) -/

/-- Does slice `s` build line `line` of its output: a live binding or a shadow, and the parity of its place in a gang? -/
def Dev.buildsLine (d : Dev) (s line : Nat) : Option Nat :=
  match d.builderOf s with
  | none => none
  | some t =>
    if d.bt (Reg.SL_BIND t) 7 && (line % 2 == 1) != d.bt (Reg.SL_BIND t) 8 then none
    else some (d.fd (Reg.SL_BIND t) 0 6)

/-- SL_CFG in force of the slice that governs an output (R146): the leading one. -/
def Dev.sliceCfg (d : Dev) (n : Nat) : Word := d.fr (Reg.SL_CFG (d.leadSlice n))

/-! ### Build start (R150, R156) -/

/-- Is a tile plane covering on the line (R156)? -/
def Dev.tileCovering (d : Dev) (p : Plane) (width line : Nat) : Bool :=
  d.planeOk p && decide (p.blend = 0) && (p.v line).isSome && (List.range width).all (fun x => (p.u x).isSome)

/-- Position of plane code `c` in an order. -/
def posOf (order c : Nat) : Nat := ((List.range 8).find? (fun i => bits order (3 * i) 3 == c)).getD 0

/-- The planes skipped on a line, by code (R156). -/
def Dev.skippedPlanes (d : Dev) (lw : LineWork) : List Nat :=
  if !lw.cfg.getLsbD 0 then [] else
  let order := (Tab.get Reg.resetWord lw.regs (Reg.MX_ORDER lw.out)).toNat
  let covers := (List.range 8).filter (fun i =>
    let c := bits order (3 * i) 3
    if c < 4 then d.tileCovering (Plane.of lw.regs lw.out c) lw.width lw.line
    else if c < 6 then false
    else (Vp.of lw.regs lw.out (c - 6)).covering d.lpSize lw.width lw.line)
  match covers.getLast? with
  | none => []
  | some h => (List.range h).map (fun i => bits order (3 * i) 3)

/-- Planes among the skipped that SL_SKIP_CNT counts: enabled tile and video planes, and S0 and S1. -/
def LineWork.skipCount (lw : LineWork) : Nat :=
  (lw.skipped.filter (fun c =>
    if c < 4 then (Plane.of lw.regs lw.out c).enable
    else if c < 6 then true
    else (Vp.of lw.regs lw.out (c - 6)).enable)).length

/-- Width of the lines that output `n` builds now: the coming timing's once the next frame is taken up, else the one in force. -/
def Dev.buildSize (d : Dev) (n : Nat) : Nat × Nat :=
  let t := if (d.tgAt n).nxt.isSome then d.comingTiming n else (d.tgAt n).tm
  (t.hAct, t.vAct)

/-- The instant of the lead-in at which line `line` of the first frame lies `x` pixels before its start, in 1/120 ns: at the programmed
PCLK without trim (R149). -/
def Dev.leadIn (d : Dev) (n line back : Nat) : Nat :=
  let g := d.tgAt n
  120 * g.startAt - (back - line * g.tm.hTot) * 1200 * g.tm.pDen / max 1 (g.tm.pNum * g.tm.ppc)

/-- The CCLK edge of the build start of line `line` of output `n`: 2 CCLK after the beam reaches (0, line - λ), lines below 0 counting back
into the frame in progress or the lead-in (R149).  It is known while the beam is in that line. -/
def Dev.buildEdge (d : Dev) (n line : Nat) : Option Nat :=
  let g := d.tgAt n
  let lam := d.lead n
  if g.nxt.isSome then
    if lam ≤ line then none
    else if g.st = .locked then (if g.line + lam = g.tm.vTot + line then d.beamEdge n 0 g.line else none)
    else some (d.edgeAfter (d.leadIn n line (lam * g.tm.hTot)) 2)
  else if g.cur.isSome ∧ g.line + lam = line then d.beamEdge n 0 g.line
  else none

/-- The CCLK edge of the due point of line `line` of output `n`: 2 CCLK after the beam reaches x = H_TOTAL - 64 of the line before (R149).
It is known while the beam is in that line. -/
def Dev.dueEdge (d : Dev) (n line : Nat) : Option Nat :=
  let g := d.tgAt n
  if g.nxt.isSome ∧ g.st ≠ .locked then (if line = 0 then some (d.edgeAfter (d.leadIn n 0 64) 2) else none)
  else if g.line + 1 = (if line = 0 then g.tm.vTot else line) then d.beamEdge n (g.tm.hTot - 64) g.line
  else none

/-- Plane errors found at a build start: MAP_ERR, FMT_ERR (R113, R114) and the video errors (R181).  A plane whose ENABLE is 0 is not checked
(DESIGN CHOICE, log entry 75). -/
def Dev.planeErrors (d : Dev) (lw : LineWork) : Dev :=
  let d := (List.range 4).foldl (fun d pn =>
    let p := Plane.of lw.regs lw.out pn
    if !p.enable then d else
    let d := if d.mapFits p then d else d.sb (Reg.TP_PL_STAT lw.out pn) 1
    if fmtBits p.format = 0 then d.sb (Reg.TP_PL_STAT lw.out pn) 2 else d) d
  (List.range 2).foldl (fun d pn =>
    let v := Vp.of lw.regs lw.out pn
    if !v.enable then d.onMx lw.out (fun m => { m with lastVid := Tab.put none m.lastVid pn none }) else
    let d := if v.fmtErr then d.sb (Reg.MX_VP_STAT lw.out pn) 0 else d
    let d := if v.bufErr d.lpSize then d.sb (Reg.MX_VP_STAT lw.out pn) 1 else d
    if v.scaleErr then d.sb (Reg.MX_VP_STAT lw.out pn) 2 else d) d

/-- The build start of line `line` in slice `s` (R149, R150): values latched, planes skipped, tile and video fetches begun.  Nothing
happens when the slice does not build that line, when the beam is not in the line of its build start, or when that build start has
been already. -/
def lineBuildStart (s line : Nat) (w : W) : W :=
  match w.d.buildsLine s line with
  | none => w
  | some n =>
    match (w.d.tgAt n).nxt <|> (w.d.tgAt n).cur, w.d.buildEdge n line with
    | some e, some edge =>
      let (width, height) := w.d.buildSize n
      if height ≤ line ∨ edge ≤ (w.d.sliceAt s).started then w else
      -- a line of the coming frame has the MX setting that this frame takes (R2, R13)
      let coming := (w.d.tgAt n).nxt.isSome
      let dl := if coming then w.d.frameUpdate (.mx n) else w.d
      let regs := (lineRegs n).foldl (fun t a => Tab.set Reg.resetWord t a (dl.fr a)) []
      let keys := w.d.regs.filter (fun (p : Nat × Word) => decide (0x300800 ≤ p.1) && decide (p.1 < 0x301000))
      let lw : LineWork := { line := line, out := n, width := width, epoch := e, regs := regs, keys := keys, cfg := w.d.sliceCfg n,
                             tbl := if coming then some (dl.mxAt n).tblNow else none }
      let lw := { lw with skipped := w.d.skippedPlanes lw }
      let w := w.dev (fun d => (d.planeErrors lw).add (Reg.SL_SKIP_CNT s) lw.skipCount)
      let lw := w.d.tilePlan lw
      let w := (w.dev (fun d => d.onSlice s (fun sl => { sl with lines := sl.lines ++ [lw], started := edge }))).tiles s
      let step := if (w.d.builderOf s).any (fun t => w.d.bt (Reg.SL_BIND t) 7) then 2 else 1
      let w := (w.vidFetch s lw 0 step).vidFetch s lw 1 step
      (w.scaleReady s 0).scaleReady s 1
    | _, _ => w

/-! ### Objects of a line (R152 to R155) -/

/-- An object that is drawn on a line: record, group offset, first and last output pixel within the active width, pattern row. -/
structure DrawObj where
  rec_ : ObjRec
  num : Nat
  /-- Output x of the object's first column. -/
  ox : Int
  first : Nat
  last : Nat
  row : Nat

/-- Pixels it covers on the line. -/
def DrawObj.count (o : DrawObj) : Nat := o.last + 1 - o.first

/-- Does setup meet an uncorrectable word of the object record or of its group entry (R554)? -/
def Dev.setupBad (d : Dev) (e : Entry) (g : Nat) : Bool :=
  d.ue.any (fun u => match u with
    | .obj n b _ => n == e.obj && b == e.oslot
    | .grp n b => n == g && b == e.gslot
    | _ => false)

/-- The object of an index entry as it is drawn on the line, if it is (R77, R153). -/
def Dev.drawOf (d : Dev) (lw : LineWork) (vp : VpLatch) (e : Entry) : Option DrawObj :=
  let ob := d.objAt e.obj
  let o := if e.oslot then ob.b else ob.a
  let gr := d.grpAt o.group
  let g := if e.gslot then gr.b else gr.a
  let (x0, y0) := originOf o g
  let yc : Int := vp.vy + lw.line
  let ox := x0 - vp.vx
  let first := max ox 0
  let last := min (ox + o.w * o.z - 1) ((lw.width : Int) - 1)
  if decide (y0 ≤ yc) && decide (yc < y0 + o.h * o.z) && decide (first ≤ last) && !lw.skipped.contains (4 + o.plane) &&
      !(decide (o.blend = 2) && decide (o.alpha = 0)) && !d.setupBad e o.group then
    let r := ((yc - y0) / o.z).toNat
    some { rec_ := o, num := e.obj, ox := ox, first := first.toNat, last := last.toNat, row := if o.flipv then o.h - 1 - r else r }
  else none

/-- Put an object into drawing order: ascending PRIORITY, then descending number (R100). -/
def insertDraw (o : DrawObj) : List DrawObj → List DrawObj
  | [] => [o]
  | x :: l =>
    if o.rec_.priority < x.rec_.priority ∨ (o.rec_.priority = x.rec_.priority ∧ x.num < o.num) then o :: x :: l
    else x :: insertDraw o l

/-- The part of an index that serves a line. -/
def Dev.lineIdx (d : Dev) (lw : LineWork) : OutIdx := Tab.at {} (d.pubIndex lw.epoch).outs lw.out

/-- The entries of the line's bin, in index order; those in error are skipped, all of them under a header in error (R554). -/
def Dev.lineEntries (d : Dev) (lw : LineWork) : List Entry :=
  let l := Tab.at [] (d.lineIdx lw).bins (lw.line / 16)
  if d.ue.isEmpty then l
  else if d.ue.contains (.bin lw.epoch lw.out (lw.line / 16)) then []
  else ((l.zip (List.range l.length)).filter (fun p => !d.ue.contains (.entry lw.epoch lw.out (lw.line / 16) p.2))).map (·.1)

/-- The drawn objects of a line in drawing order: those of S0, then those of S1 (R154). -/
def Dev.drawList (d : Dev) (lw : LineWork) : List DrawObj :=
  let l := (d.lineEntries lw).filterMap (fun e => d.drawOf lw (d.lineIdx lw).vp e)
  let srt := fun (l : List DrawObj) => l.foldl (fun acc o => insertDraw o acc) []
  srt (l.filter (fun o => o.rec_.plane == 0)) ++ srt (l.filter (fun o => o.rec_.plane == 1))

/-- Pattern column that output pixel `x` shows (R77). -/
def DrawObj.col (o : DrawObj) (x : Nat) : Nat :=
  let c := (((x : Int) - o.ox) / o.rec_.z).toNat
  if o.rec_.fliph then o.rec_.w - 1 - c else c

/-- First and last byte of the pattern pixel shown at `x`. -/
def DrawObj.bytesAt (o : DrawObj) (x : Nat) : Nat × Nat :=
  let (a, n) := pixelSpan o.rec_.format (o.rec_.rowAddr o.row) (o.col x)
  (a, a + n - 1)

/-- The 64-byte accesses of one object in the order its pixels need them, each with the 16-pixel group that first needs it (R154). -/
def DrawObj.accesses (o : DrawObj) : List (Nat × Nat) :=
  let px := (List.range o.count).flatMap (fun i =>
    let (a, b) := o.bytesAt (o.first + i)
    if a / 64 = b / 64 then [(a / 64, i / 16)] else [(a / 64, i / 16), (b / 64, i / 16)])
  px.foldl (fun acc p => if acc.any (fun q => q.1 == p.1) then acc else acc ++ [p]) []

/-- Elapsed CCLK since the build of a line began. -/
def Dev.elapsed (d : Dev) (lw : LineWork) : Nat := d.cclks - lw.startAt

/-- The stall so far: the rasterizer stands at the first pixels whose data is missing (R154). -/
def Dev.stallNow (d : Dev) (lw : LineWork) : Nat :=
  match lw.objWait with
  | [] => lw.stall
  | p :: l => max lw.stall (d.elapsed lw - l.foldl (fun m q => min m q.2) p.2)

/-- How far the rasterizer of a line has come, in cycles of its work (R154, R155). -/
def Dev.rasterAt (d : Dev) (lw : LineWork) : Nat := d.elapsed lw - d.stallNow lw

/-- Entries in the line's bin as its header gives them: E of R155. -/
def Dev.binEntries (d : Dev) (lw : LineWork) : Nat := (Tab.at [] (d.lineIdx lw).bins (lw.line / 16)).length

/-- Replace the work of one line of slice `s`. -/
def Dev.setLine (d : Dev) (s : Nat) (lw : LineWork) : Dev :=
  d.onSlice s (fun sl => { sl with lines := sl.lines.map (fun x => if x.line = lw.line then lw else x) })

/-- Take one line out of slice `s`. -/
def Dev.dropLine (d : Dev) (s line : Nat) : Dev :=
  d.onSlice s (fun sl => { sl with lines := sl.lines.filter (fun x => x.line != line) })

/-- The results of a build that ended or was abandoned after `t` CCLK (R155).  SL_STALL_CNT takes the stalled cycles of a line here, all at
once (DESIGN CHOICE, log entry 91: R154 names no moment); a count beyond the 16 bits of SL_BUILD_LAST and SL_BUILD_MAX
reads 65,535 (DESIGN CHOICE, log entry 76). -/
def Dev.buildDone (d : Dev) (s t entries drawn stall : Nat) : Dev :=
  (((d.sg (Reg.SL_BUILD_LAST s) (BitVec.ofNat 32 (min 65535 t))).raiseTo (Reg.SL_BUILD_MAX s) (min 65535 t)).add
    (Reg.SL_STALL_CNT s) stall).sg (Reg.SL_LINE_OBJ s) (packFields [(0, entries), (16, drawn)])

/-- An abandoned line of output `n` is counted with its cause (R161). -/
def Dev.slowLine (d : Dev) (s n line : Nat) (c : SlowCause) : Dev :=
  let code := match c with
    | .lateStart => 0
    | .work => 1
    | .stall => 2
  (((d.inc (Reg.SL_REPEAT_CNT s)).sb (Reg.SL_STAT s) 1).sg (Reg.SL_LAST_SLOW s) (packFields [(0, line), (16, code)])).onSlice s
    (fun sl => { sl with slowFrame := if sl.slowFrame.contains n then sl.slowFrame else sl.slowFrame ++ [n] })

/-- 128 bytes of an object pattern line in error: R554 states no value (log entry 18). -/
def W.freeLine (w : W) : W × List Byte :=
  (w.dev (fun d => { d with free := d.free + 128 }),
   (List.range 128).map (fun i => BitVec.ofNat 8 ((Config.freeWord (w.d.free + i)).toNat)))

/-- Cycles of a line's work before the rasterizer starts: header, setup and ordering (R152). -/
def setupCycles (entries : Nat) : Nat := 8 + ceilDiv entries 4 + 4

/-- The accesses of a line's drawn objects in drawing order: 128-byte line, the cycle of work at which the rasterizer needs it, and the
cycle from which it may be issued: the end of ordering, or when the rasterizer comes to the pixels of the access 64 places before (R154). -/
def lineAccesses (base : Nat) (draw : List DrawObj) : List (Nat × Nat × Nat) :=
  let l := (draw.foldl (fun (acc : List (Nat × Nat) × Nat) o =>
    (acc.1 ++ o.accesses.map (fun q => (q.1 / 2, acc.2 + q.2)), acc.2 + ceilDiv o.count 16)) ([], base)).1
  (l.zip (List.replicate 64 base ++ l.map (·.2))).map (fun p => (p.1.1, p.1.2, p.2))

/-- One access of the object rasterizer (R133, R154): counted, and its data there or awaited. -/
def W.objAccess (w : W) (lw : LineWork) (l need : Nat) : W × LineWork :=
  match (w.dev (fun d => d.inc (Reg.TP_OUT_ACCESS_CNT lw.out))).fetch lw.out true l with
  | (w, some b) =>
    let (w, b) := if w.d.ue.contains (.cache l) then w.freeLine else (w, b)
    (w, { lw with got := Tab.put [] lw.got l b })
  | (w, none) => (w, { lw with objWait := if lw.objWait.any (fun p => p.1 == l) then lw.objWait else Tab.insert lw.objWait l need })

/-- The rasterizer of one line brought up to the present: the accesses that its window has admitted are issued, in order, as far as its
pixels go (R154).  `fuel` bounds them by their number. -/
def W.issueDue (w : W) (lw : LineWork) : Nat → W × LineWork
  | 0 => (w, lw)
  | fuel + 1 =>
    match lw.toIssue with
    | [] => (w, lw)
    | (l, need, from_) :: rest =>
      if w.d.rasterAt lw < from_ then (w, lw)
      else
        let (w, lw) := w.objAccess { lw with toIssue := rest } l need
        w.issueDue lw fuel

/-- Drawn objects whose pixels the rasterizer has begun to write when it has come to cycle `at_`. -/
def drawnUpTo (base at_ : Nat) (draw : List DrawObj) : Nat :=
  (draw.foldl (fun (acc : Nat × Nat) o => (if acc.2 < at_ then acc.1 + 1 else acc.1, acc.2 + ceilDiv o.count 16)) (0, base)).1

/-- The look-ups of the objects that the rasterizer has come to: PAL_RANGE when one leaves the palette (R126). -/
def W.objLookUps (w : W) (lw : LineWork) : W × LineWork :=
  let draw := w.d.drawList lw
  let k := max lw.looked (drawnUpTo (setupCycles lw.entries) (w.d.rasterAt lw) draw)
  let bad := ((draw.take k).drop lw.looked).any (fun o => decide (o.rec_.format < 2) && w.d.palRange o.rec_.palette)
  (w.dev (fun d => if bad then d.tpStat 4 else d), { lw with looked := k })

/-- The rasterizer of slice `s` brought up to the present. -/
def W.raster (w : W) (s : Nat) : W :=
  match (w.d.sliceAt s).lines.find? (fun l => l.stage == .building) with
  | none => w
  | some lw =>
    let (w, lw) := w.issueDue lw lw.toIssue.length
    let (w, lw) := w.objLookUps lw
    w.dev (fun d => d.setLine s lw)

/-- Every rasterizer and tile fetcher brought up to the present. -/
def W.rasterAll (w : W) : W := (w.d.slice.map (·.1)).foldl (fun w s => (w.raster s).tiles s) w

/-- The pixel an object shows at `x`, premultiplied (R100, R122 to R126). -/
def W.objPixel (w : W) (lw : LineWork) (o : DrawObj) (x : Nat) : Px :=
  let r := o.rec_
  let raw := rawPixel (fun a => (lw.byte a).getD 0) r.format (r.rowAddr o.row) (o.col x)
  let keyed := keyMatch lw.keys r.format r.key raw
  if r.format < 2 then
    let col := w.palette (w.d.pubIndex lw.epoch).palPm r.palette raw
    premul col (effAlpha r.blend r.alpha col.a keyed)
  else
    let col := pxPacked r.format raw
    premul col (effAlpha r.blend r.alpha col.a keyed)

/-- Lay an object over a line buffer (R154). -/
def W.layObject (w : W) (lw : LineWork) (buf : List Px) (o : DrawObj) : List Px :=
  (buf.zip (List.range buf.length)).map (fun (b, x) =>
    if decide (o.first ≤ x) && decide (x ≤ o.last) then layOver (w.objPixel lw o x) b else b)

/-- A line buffer of one object plane. -/
def W.planeBuffer (w : W) (lw : LineWork) (plane : Nat) : List Px :=
  ((w.d.drawList lw).filter (fun o => o.rec_.plane == plane)).foldl (w.layObject lw) (List.replicate lw.width {})

/-- Has the object build of a line come to its end: every access issued and answered, and T(L) over (R155)? -/
def Dev.buildOver (d : Dev) (lw : LineWork) : Bool :=
  lw.stage == .building && lw.toIssue.isEmpty && lw.objWait.isEmpty && decide (lw.work + lw.stall ≤ d.elapsed lw)

/-- The object build of the line in progress ends (R155); not while pattern data is still awaited (R137). -/
def objectBuildEnd (s : Nat) (w : W) : W :=
  let w := w.raster s
  match (w.d.sliceAt s).lines.find? (fun l => l.stage == .building) with
  | none => w
  | some lw =>
    if !w.d.buildOver lw then w else
    let done := { lw with stage := .ended, s0 := w.planeBuffer lw 0, s1 := w.planeBuffer lw 1 }
    w.dev (fun d => (d.setLine s done).buildDone s (lw.work + lw.stall) lw.entries lw.drawn lw.stall)

/-- The object build of the next line of slice `s` begins (R152): once the line before has ended or been abandoned.  A line whose due
point has passed is abandoned with LATE_START. -/
def objectBuildBegin (s : Nat) (w : W) : W :=
  let w := objectBuildEnd s w
  let ls := (w.d.sliceAt s).lines
  if ls.any (fun l => l.stage == .building) then w else
  match ls.find? (fun l => l.stage == .waiting) with
  | none => w
  | some lw =>
    if lw.dueGone then w.dev (fun d => ((d.slowLine s lw.out lw.line .lateStart).buildDone s 0 0 0 0).dropLine s lw.line)
    else
      let e := w.d.binEntries lw
      let draw := w.d.drawList lw
      w.dev (fun d => d.setLine s { lw with
        stage := .building, startAt := w.d.cclks, entries := e, drawn := draw.length, toIssue := lineAccesses (setupCycles e) draw
        work := setupCycles e + (draw.map (fun o => ceilDiv o.count 16)).sum })

/-! ### Fills (R133, R136, R137) -/

/-- A filled line reaches one line of work. -/
def W.lineArrive (w : W) (s : Nat) (lw : LineWork) (line : Nat) (b : List Byte) : W :=
  let (w, lw) := if lw.tileWait.contains line then w.tileArrive lw line b else (w, lw)
  let lw := if lw.objWait.any (fun p => p.1 == line) then
      { lw with stall := w.d.stallNow lw, got := Tab.put [] lw.got line b, objWait := Tab.erase lw.objWait line }
    else lw
  w.dev (fun d => d.setLine s lw)

/-- A filled line reaches the lines of slice `s` that are past their due point (R136). -/
def W.afterArrive (w : W) (s line : Nat) (b : List Byte) : W :=
  let r := (w.d.sliceAt s).after.foldl (fun (acc : W × List LineWork) lw =>
    let (w, lw) := if lw.tileWait.contains line then acc.1.tileArrive lw line b else (acc.1, lw)
    (w, acc.2 ++ [lw])) (w, [])
  r.1.dev (fun d => d.onSlice s (fun sl => { sl with after := r.2 }))

/-- A line fill arrives (R133): into the cache unless it was invalidated in flight, and to every line that waits for it. -/
def cacheFill (line : Nat) (w : W) : W :=
  let w := w.rasterAll.dev Dev.invScan
  match w.d.tile.fills.find? (fun f => f.line == line) with
  | none => w
  | some f =>
    let b := w.fillData f
    let w := w.dev (fun d =>
      let s := d.cacheSets
      let d := d.onTile (fun t => { t with fills := t.fills.eraseP (fun x => x.line == line) })
      let d := if f.dropped || s == 0 then d else
        d.onTile (fun t =>
          let set := (Tab.at [] t.cache (line % s)).map (fun c => if c.line = line then { c with data := some b } else c)
          { t with cache := Tab.put [] t.cache (line % s) set })
      { d.useFree with ue := d.ue.filter (fun u => u != .cache line) })
    (w.d.slice.map (·.1)).foldl (fun (w : W) s =>
      let w := (w.d.sliceAt s).lines.foldl (fun (w : W) lw =>
        if lw.tileWait.contains line || lw.objWait.any (fun p => p.1 == line) then w.lineArrive s lw line b else w) w
      ((w.afterArrive s line b)).tiles s) w

/-! ### The due point (R152, R159, R187) -/

/-- The scaled line of a plane at the due point: complete, or dry with the last completed one shown (R187). -/
def Dev.vidDue (d : Dev) (s : Nat) (lw : LineWork) (pn : Nat) : Dev × Option (List Px) × Bool :=
  if !d.vidShown lw pn then (d, none, false) else
  match (d.vidAt s pn).scaled.find? (fun p => p.1 == lw.line) with
  | some p =>
    let d := d.onVid s pn (fun m => { m with scaled := m.scaled.filter (fun q => q.1 != lw.line) })
    (if d.bt (Reg.SL_BIND s) 6 then d.onMx lw.out (fun m => { m with lastVid := Tab.put none m.lastVid pn (some p.2) }) else d,
     some p.2, false)
  | none => (d, Tab.at none (d.mxAt lw.out).lastVid pn, true)

/-- A dry line is counted (R187). -/
def Dev.dryLine (d : Dev) (n pn line : Nat) : Dev :=
  ((d.inc (Reg.MX_VP_DRY_CNT n pn)).sg (Reg.MX_VP_LAST_DRY n pn) (BitVec.ofNat 32 line)).onMx n
    (fun m => { m with dryFrame := Tab.put false m.dryFrame pn true })

/-- Drawn objects that setup had found `t` CCLK after the build began (R153, R155). -/
def Dev.drawnBy (d : Dev) (lw : LineWork) (t : Nat) : Nat :=
  (((d.lineEntries lw).take (4 * (t - 8))).filterMap (fun e => d.drawOf lw (d.lineIdx lw).vp e)).length

/-- The due point of line `line` of slice `s` (R152), its object build brought up to the present: the line set is handed over, or the line
is abandoned and a repeat stands in its place, its video data discarded.  A slice that shadows hands its line to the checker (R557). -/
def Dev.dueNow (d : Dev) (s line : Nat) : Dev :=
  match (d.sliceAt s).lines.find? (fun l => l.line == line && !l.dueGone) with
  | none => d
  | some lw =>
    let shadow := !d.bt (Reg.SL_BIND s) 6
    let lw := { lw with stall := d.stallNow lw }
    let (d, v0, dry0) := d.vidDue s lw 0
    let (d, v1, dry1) := d.vidDue s lw 1
    let d := if shadow then d else
      let d := if dry0 then d.dryLine lw.out 0 line else d
      if dry1 then d.dryLine lw.out 1 line else d
    let t := d.elapsed lw
    let (d, ended) := match lw.stage with
      | .ended => (d.dropLine s line, true)
      | .building =>
        ((((d.slowLine s lw.out line (if lw.work ≤ t then .stall else .work)).buildDone s t lw.entries (d.drawnBy lw t) lw.stall)).dropLine s line,
          false)
      | _ => (d.setLine s { lw with dueGone := true, tileMaps := [], tileRows := [], tileWait := [], tileBack := [] }, false)
    -- its tile fetches go on (R135, R136)
    let d := if lw.tileLeft then d.onSlice s (fun sl => { sl with after := sl.after ++ [{ lw with toIssue := [], objWait := [] }] }) else d
    let kind := if ended then LineKind.mixed else if lw.cfg.getLsbD 1 then LineKind.black else LineKind.repeatLast
    let due : LineDue := { kind := kind, slice := s, work := lw, v0 := v0, v1 := v1, dry := dry0 || dry1 }
    d.onMx lw.out (fun m => if shadow then { m with shDue := some due } else { m with due := some due })

/-- LINE_DUE_POINT: nothing happens unless the beam is in the line that holds the due point (R149). -/
def lineDuePoint (s line : Nat) (w : W) : W :=
  match ((w.d.sliceAt s).lines.find? (fun l => l.line == line && !l.dueGone)).bind (fun lw => w.d.dueEdge lw.out line) with
  | none => w
  | some _ => (objectBuildEnd s w).dev (fun d => d.dueNow s line)

end Sys2Proof.Machine
end

