-- ==== Sys2Proof/Machine/Sluice.lean ====
section
/-!
DEFINITION. The sluice unit of an output (R162 to R173): its registers, staged alias, pin routes and pattern store, the sampling rule
and the pixels of plane L.
-/

namespace Sys2Proof.Machine

/-! ### Changes that reach the unit -/

/-- The place of a change among those of one CCLK (R169): register writes by source, Damsel, cores, host; SL_LCOMMIT; SL_LEN_SET and
SL_LEN_CLR; pin routes in ascending number. -/
def SlChange.rank (c : SlChange) : Nat :=
  16 * (if c.kind = 1 then (if c.src = 0 then 1 else if c.src < 15 then 2 else 3) else c.kind) + c.src

/-- Is change `e` applied after change `c` (R168, R169)?  Of two that take one place, the later command is. -/
def SlChange.after (c e : SlChange) : Bool :=
  decide (c.arrives < e.arrives) || (c.arrives == e.arrives && decide (c.rank < e.rank))

/-- A word of the sluice units: a register, or a word of a pattern store. -/
def Dev.slWord (d : Dev) (off : Nat) : Word := if off < 0x600000 then d.rg off else Tab.at 0 d.aux off

/-- Set such a word. -/
def Dev.slSet (d : Dev) (off : Nat) (v : Word) : Dev :=
  if off < 0x600000 then d.sg off v else { d with aux := Tab.put 0 d.aux off v }

/-- The word at `off` as change `c` finds it. -/
def Dev.slAsOf (d : Dev) (c : SlChange) (off : Nat) : Word :=
  match d.slLog.find? (fun e => e.off == off && c.after e) with
  | some e => e.old
  | none => d.slWord off

/-- What change `c` makes of the word `w`. -/
def Dev.slApply (d : Dev) (c : SlChange) (w : Word) : Word :=
  match c.act with
  | .put => mergeWord w c.val c.mask
  | .flip => w ^^^ c.mask
  | .copy src => mergeWord w (d.slAsOf c src) c.mask

/-- The changes of the word of `c` that are applied after it, over `w` as `c` leaves it: each with the word that it finds, and the word
that they leave. -/
def Dev.slReplay (d : Dev) (c : SlChange) : Word → List SlChange → List SlChange × Word
  | w, [] => ([], w)
  | w, e :: es =>
    if e.off = c.off ∧ c.after e = true then
      let r := d.slReplay c (d.slApply e w) es
      ({ e with old := w } :: r.1, r.2)
    else
      let r := d.slReplay c w es
      (e :: r.1, r.2)

/-- The list with `c` behind every change that is not applied after it. -/
def slInsert (c : SlChange) : List SlChange → List SlChange
  | [] => [c]
  | e :: es => if c.after e then c :: e :: es else e :: slInsert c es

/-- Change `c` leaves `w`: the changes of its word after it are applied to that. -/
def Dev.slSettle (d : Dev) (c : SlChange) (w : Word) : Dev :=
  let r := d.slReplay c w d.slLog
  ({ d with slLog := r.1 } : Dev).slSet c.off r.2

/-- What no group can still sample is forgotten: 3 PCLK last at most 120 ns (R167). -/
def Dev.slPruned (d : Dev) : Dev := { d with slLog := d.slLog.filter (fun e => decide (120 * d.tb ≤ e.arrives + 48000)) }

/-- A change reaches the unit.  It takes its place among the changes noted (R169); a copy that is applied after a change of its staged word
takes the new one (R170). -/
def Dev.slAdd (d : Dev) (c : SlChange) : Dev :=
  let d := d.slPruned
  let c := { c with old := d.slAsOf c c.off }
  let d := d.slSettle c (d.slApply c c.old)
  let d : Dev := { d with slLog := slInsert c d.slLog }
  (d.slLog.filter (fun e => e.off + 0x400 == c.off && e.act == .copy c.off && c.after e)).foldl
    (fun d e => d.slSettle e (d.slApply e e.old)) d

/-- A change by the host on the present CCLK edge. -/
def Dev.slChange (d : Dev) (c : SlChange) : Dev := d.slAdd { c with arrives := d.edgeTime d.cclks }

/-- The changes that took `d` to `d1`, which noted nothing else, reach the unit on CCLK edge `e` from source `src` (R168). -/
def Dev.slMerge (d d1 : Dev) (e src : Nat) : Dev :=
  d1.slLog.foldl (fun x c => x.slAdd { c with arrives := d.edgeTime e, src := if c.kind < 6 then src else c.src })
    (d1.slLog.foldl (fun x c => x.slSet c.off (d.slWord c.off)) { d1 with slLog := d.slLog })

/-- The changes that `f` makes reach the unit on CCLK edge `e` from source `src` (R168). -/
def Dev.slArriving (d : Dev) (e src : Nat) (f : Dev → Dev) : Dev := d.slMerge (f { d with slLog := [] }) e src

/-- The same for an effect on the machine. -/
def W.slArriving (w : W) (e src : Nat) (f : W → W) : W :=
  (f (w.dev (fun d => { d with slLog := [] }))).dev (fun d => w.d.slMerge d e src)

/-- Byte offset of word `i` of the pattern store of output `n`. -/
def slStore (n i : Nat) : Nat := 0x600000 + n * 0x4000 + 4 * i

/-- Store a word of the pattern store under a byte mask (R171). -/
def Dev.slStorePut (d : Dev) (off : Nat) (v mask : Word) : Dev := d.slChange { off := off, val := v, mask := mask }

/-- Bits of sluice register word `f` (POS, CTRL, PAT, KEY) that are fields. -/
def slMask : Nat → Word
  | 1 => 0x0FFFFF7F
  | 3 => 0x000000FF
  | _ => 0xFFFFFFFF

/-- A write of live word `i` (object i / 4, register i mod 4) of output `n` under a byte mask. -/
def Dev.slWrite (d : Dev) (n i : Nat) (v mask : Word) : Dev :=
  d.slChange { off := Reg.SL_LO_POS n 0 + 4 * i, val := v, mask := mask &&& slMask (i % 4) }

/-- A write of a staged alias (R170): the copy only. -/
def Dev.slStage (d : Dev) (n i : Nat) (v mask : Word) : Dev :=
  d.slChange { off := Reg.SL_STAGED n i, val := v, mask := mask &&& slMask (i % 4) }

/-- SL_LCOMMIT (R170): the staged registers of objects FIRST to LAST become live. -/
def Dev.slCommit (d : Dev) (n : Nat) (w : Word) : Dev :=
  let first := bits w.toNat 0 6
  let last := bits w.toNat 8 6
  (List.range (4 * (last + 1 - first))).foldl (fun d j =>
    let i := 4 * first + j
    d.slChange { kind := 4, off := Reg.SL_LO_POS n 0 + 4 * i, mask := 0xFFFFFFFF, act := .copy (Reg.SL_STAGED n i) }) d

/-- Set or clear EN of sluice object `k`. -/
def Dev.slEn (d : Dev) (n k kind src : Nat) (b : Bool) : Dev :=
  d.slChange { kind := kind, src := src, off := Reg.SL_LO_CTRL n k, mask := 1, val := if b then 1 else 0 }

/-- SL_LEN_SET and SL_LEN_CLR (R169): the named EN bits of objects 32 `h` upward. -/
def Dev.slLen (d : Dev) (n h : Nat) (w : Word) (b : Bool) : Dev :=
  (List.range 32).foldl (fun d i => if w.getLsbD i then d.slEn n (32 * h + i) 5 15 b else d) d

/-- The EN bits as SL_LEN_LO and SL_LEN_HI read them. -/
def Dev.slLenRead (d : Dev) (n h : Nat) : Word :=
  BitVec.ofNat 32 ((List.range 32).foldl (fun acc i => acc + if d.bt (Reg.SL_LO_CTRL n (32 * h + i)) 0 then 2 ^ i else 0) 0)

/-! ### Pin routes (R172) -/

/-- Raw value of pin `p` (R447). -/
def Dev.pinRaw (d : Dev) (p : Nat) : Bool := d.bt (Reg.GP_IN (p / 32)) (p % 32)

/-- Is pin `p` muxed to the sluice-event function (Table 15-1)? -/
def Dev.pinSluice (d : Dev) (p : Nat) : Bool := d.fd (Reg.GP_PIN_CFG p) 0 4 == 1

/-- The action of route `i`, holding `rt`, whose pin changed to `v` (Table 5-5). -/
def Dev.routeAct (d : Dev) (n i : Nat) (rt : Nat) (v : Bool) : Dev :=
  let k := bits rt 8 6
  let en := d.slEn n k 6 i
  match bits rt 16 3 with
  | 1 => en v
  | 2 => en !v
  | 3 => if v then en true else d
  | 4 => if v then en false else d
  | 5 => if v then d.slChange { kind := 6, src := i, off := Reg.SL_LO_CTRL n k, mask := 1, act := .flip } else d
  | 6 => if v then d else en true
  | 7 => if v then d else en false
  | _ => d

/-- A write of a route: RES bits stay 0; a route made valid on an unmuxed pin sets ROUTE_ERR, one in mode 1 or 2 acts at once.  A write to
a route that is valid already does neither. -/
def Dev.routeWrite (d : Dev) (n i : Nat) (w : Word) : Dev :=
  let w := w &&& 0x80073F7F
  let was := d.bt (Reg.SL_LROUTE n i) 31
  let d := d.sg (Reg.SL_LROUTE n i) w
  let pin := bits w.toNat 0 7
  if was || !w.getLsbD 31 then d
  else if !d.pinSluice pin then d.sb (Reg.SL_LSTAT n) 1
  else if bits w.toNat 16 3 = 1 ∨ bits w.toNat 16 3 = 2 then d.routeAct n i w.toNat (d.pinRaw pin)
  else d

/-- A write of a route by an agent: a core's reaches the unit 2 CCLK after it leaves the memory stage (R168), and the route becomes valid
then. -/
def Dev.routeBy (d : Dev) (ag : Agent) (n i : Nat) (v mask : Word) : Dev :=
  match ag with
  | .core _ => d.sendLater (d.cclkEdge d.tb 2) (.route n i v mask)
  | _ => d.routeWrite n i (mergeWord (d.rg (Reg.SL_LROUTE n i)) v mask)

/-- The output and number of the route whose register lies at BAR0 offset `a`. -/
def routeAt (a : Nat) : Option (Nat × Nat) :=
  let n := (a - 0x500000) / 0x1000
  let o := (a - 0x500000) % 0x1000
  if 0x500000 ≤ a ∧ n < 48 ∧ 0x820 ≤ o ∧ o < 0x840 then some (n, (o - 0x820) / 4) else none

/-- What was on its way arrives. -/
def Dev.arrive (d : Dev) (e : Nat) : Later → Dev
  | .route n i v mask => d.slArriving e 0 (fun d => d.routeWrite n i (mergeWord (d.rg (Reg.SL_LROUTE n i)) v mask))
  | .event x => d.damselEvent x

/-- All that has arrived by the present CCLK edge. -/
def Dev.arrivals (d : Dev) : Dev :=
  (d.later.filter (fun p => decide (p.1 ≤ d.cclks))).foldl (fun d p => d.arrive p.1 p.2)
    { d with later := d.later.filter (fun p => decide (d.cclks < p.1)) }

/-- A synchronised change of pin `p` to `v` reaches every route that names it, in ascending output and route number. -/
def Dev.routePin (d : Dev) (p : Nat) (v : Bool) : Dev :=
  if !d.pinSluice p then d else
  (List.range 48).foldl (fun d n => (List.range 8).foldl (fun d i =>
    let rt := d.raw (Reg.SL_LROUTE n i)
    if bits rt 31 1 = 1 ∧ bits rt 0 7 = p then d.routeAct n i rt v else d) d) d

/-! ### Sampling (R167) and pixels (R163 to R166) -/

/-- Is a change that reaches the unit at `t` seen by the group that enters the mixer at pixel `x` of the line: 3 PCLKn or more before
(R167)?  Both are reckoned in 1/120 ns. -/
def Dev.slSeen (d : Dev) (n x t : Nat) : Bool :=
  let g := d.tgAt n
  decide (t * g.pxNum + 3 * g.tm.ppc * g.pxDen ≤ 120 * g.lineTs * g.pxNum + x * g.pxDen)

/-- The word at `off` as the group at pixel `x` samples it. -/
def Dev.slSample (d : Dev) (n x off : Nat) : Word :=
  match d.slLog.find? (fun e => e.off == off && !d.slSeen n x e.arrives) with
  | some e => e.old
  | none => d.slWord off

/-- A byte of the pattern store as sampled. -/
def Dev.slByte (d : Dev) (n x a : Nat) : Byte :=
  BitVec.ofNat 8 (bits (d.slSample n x (slStore n (a / 4))).toNat (8 * (a % 4)) 8)

/-- A sluice object as sampled. -/
structure SlObj where
  pos : Nat
  ctrl : Nat
  pat : Nat
  key : Nat

/-- Sluice object `k` of output `n` as the group at pixel `x` samples it. -/
def Dev.slObj (d : Dev) (n x k : Nat) : SlObj :=
  { pos := (d.slSample n x (Reg.SL_LO_POS n k)).toNat, ctrl := (d.slSample n x (Reg.SL_LO_CTRL n k)).toNat,
    pat := (d.slSample n x (Reg.SL_LO_PAT n k)).toNat, key := (d.slSample n x (Reg.SL_LO_KEY n k)).toNat }

/-- Width in pattern pixels. -/
def SlObj.w (o : SlObj) : Nat := bits o.pat 16 8 + 1
/-- Height in pattern pixels. -/
def SlObj.h (o : SlObj) : Nat := bits o.pat 24 8 + 1
/-- Replication factor. -/
def SlObj.z (o : SlObj) : Nat := 2 ^ bits o.ctrl 3 2
/-- FORMAT. -/
def SlObj.format (o : SlObj) : Nat := bits o.pat 12 4
/-- Bytes from row to row (R164). -/
def SlObj.pitch (o : SlObj) : Nat := ceilDiv (o.w * fmtBits o.format) 32 * 4
/-- First byte of the pattern. -/
def SlObj.base (o : SlObj) : Nat := bits o.pat 0 12 * 4
/-- EN. -/
def SlObj.en (o : SlObj) : Bool := bits o.ctrl 0 1 == 1

/-- Is the pattern good: its format valid and its last row within the store (R164)? -/
def SlObj.patOk (o : SlObj) : Bool :=
  decide (fmtBits o.format ≠ 0) && decide (o.base + (o.h - 1) * o.pitch + ceilDiv (o.w * fmtBits o.format) 8 ≤ 16384)

/-- Does the object cover output pixel (x, line) (R163)? -/
def SlObj.covers (o : SlObj) (x line : Nat) : Bool :=
  let X := signed 16 o.pos
  let Y := signed 16 (o.pos / 2 ^ 16)
  decide (X ≤ x) && decide ((x : Int) < X + o.w * o.z) && decide (Y ≤ line) && decide ((line : Int) < Y + o.h * o.z)

/-- The premultiplied pixel the object shows at (x, line), and whether its look-up left the palette. -/
def W.slPixel (w : W) (n : Nat) (keys : Tab Word) (pages : Tab Nat) (o : SlObj) (x line : Nat) : Px × Bool :=
  let c0 := (((x : Int) - signed 16 o.pos) / o.z).toNat
  let r0 := (((line : Int) - signed 16 (o.pos / 2 ^ 16)) / o.z).toNat
  let c := if bits o.ctrl 1 1 = 1 then o.w - 1 - c0 else c0
  let r := if bits o.ctrl 2 1 = 1 then o.h - 1 - r0 else r0
  let raw := rawPixel (fun a => w.d.slByte n (x / 4 * 4) a) o.format (o.base + r * o.pitch) c
  let keyed := keyMatch keys o.format (bits o.key 0 8) raw
  let blend := bits o.ctrl 5 2
  let alpha := bits o.ctrl 8 8
  if o.format < 2 then
    let bank := bits o.ctrl 16 12
    let col := w.palette pages bank raw
    (premul col (effAlpha blend alpha col.a keyed), w.d.palRange bank)
  else
    let col := pxPacked o.format raw
    (premul col (effAlpha blend alpha col.a keyed), false)

/-- Plane L of a group (R166): the four composed pixels, and whether PAT_ERR and PAL_RANGE are set. -/
def W.sluiceGroup (w : W) (n line x width : Nat) (keys : Tab Word) (pages : Tab Nat) : List Px × Bool × Bool :=
  let xs := (List.range 4).map (fun i => x + i) |>.filter (fun x => decide (x < width))
  let objs := ((List.range 64).reverse.map (fun k => w.d.slObj n x k)).filter (fun o => o.en && xs.any (fun x => o.covers x line))
  let good := objs.filter (fun o => o.patOk)
  let px := xs.map (fun x => good.foldl (fun (b : Px) o =>
    if o.covers x line then layOver (w.slPixel n keys pages o x line).1 b else b) {})
  (px, objs.any (fun o => !o.patOk),
   good.any (fun o => decide (o.format < 2) && w.d.palRange (bits o.ctrl 16 12)))

end Sys2Proof.Machine
end

