-- ==== Sys2Proof/Machine/Damsel.lean ====
section
/-!
DEFINITION. The Damsel engines (R211 to R232): fetch, each operation, writes to the register space, events, faults and overruns.
-/

namespace Sys2Proof.Machine

/-! ### Time (R219) -/

/-- The CCLK edge at which the engine's next instruction begins. -/
def Dev.dmBegins (d : Dev) (n : Nat) : Nat := max (d.dmAt n).at_ d.cclks

/-- The instruction in hand takes `k` CCLK. -/
def Dev.dmTakes (d : Dev) (n k : Nat) : Dev := d.onDm n (fun m => { m with at_ := d.dmBegins n + k })

/-- Does a point lie in the program frame: before the take-up point (R220)? -/
def Dev.dmInFrame (d : Dev) (n : Nat) (line : Int) : Bool := decide (line < (d.tgAt n).tm.vTot - d.lead n)

/-! ### Fetch and faults (R225, R228) -/

/-- BAR0 offset of program word `a` of output `n`. -/
def dmWord (n a : Nat) : Nat := 0xA10000 + n * 0x4000 + 4 * a

/-- STATE codes of DM_STAT. -/
def Dev.dmState (d : Dev) (n st : Nat) : Dev := d.sf (Reg.DM_STAT n) 8 2 st

/-- Is the engine executing (STATE 1)? -/
def Dev.dmRunning (d : Dev) (n : Nat) : Bool := d.fd (Reg.DM_STAT n) 8 2 == 1

/-- The source that a Damsel event raises (R230). -/
def Dev.dmRaise (d : Dev) (n bit : Nat) : Dev := d.raiseIf (d.bt (Reg.DM_INT_EN n) bit) (156 + d.leadSlice n)

/-- A fault (R228) at program address `pc`: causes 0 reserved operation, 1 reserved mode, 2 uncorrectable, 3 beyond 0xFFF. -/
def Dev.dmFault (d : Dev) (n pc cause : Nat) : Dev :=
  ((((d.sb (Reg.DM_STAT n) 1).sg (Reg.DM_FAULT n) (packFields [(0, pc % 4096), (16, cause)])).inc (Reg.DM_FAULT_CNT n)).dmState n 3).onDm n
    (fun m => { m with wait := .none, at_ := d.dmBegins n + 1 }) |>.dmRaise n 0

/-- A program word, or the cause of the fault that its fetch is. -/
def Dev.dmFetch (d : Dev) (n a : Nat) : Except Nat Nat :=
  if 0xFFF < a then .error 3
  else if d.badWords.contains (dmWord n a) then .error 2
  else .ok (Tab.at (0 : Word) d.aux (dmWord n a)).toNat

/-- The engine executes operation `op`: it is running and the word at its PC is that operation; else nothing happens. -/
def Dev.dmOp (d : Dev) (n op : Nat) (f : Nat → Dev → Dev) : Dev :=
  if !d.dmRunning n then d else
  match d.dmFetch n (d.dmAt n).pc with
  | .ok w => if bits w 28 4 = op then f w d else d
  | .error _ => d

/-- Set the program counter. -/
def Dev.dmPc (d : Dev) (n pc : Nat) : Dev := d.onDm n (fun m => { m with pc := pc })

/-- Loop counter `i`. -/
def Dm.c (m : Dm) : Nat → Nat
  | 0 => m.c0
  | 1 => m.c1
  | 2 => m.c2
  | _ => m.c3

/-- Set loop counter `i` to 12 bits. -/
def Dm.setC (m : Dm) (i v : Nat) : Dm :=
  match i with
  | 0 => { m with c0 := v % 4096 }
  | 1 => { m with c1 := v % 4096 }
  | 2 => { m with c2 := v % 4096 }
  | _ => { m with c3 := v % 4096 }

/-! ### Operations (R219 to R225) -/

/-- STOP. -/
def dmStop (n : Nat) (d : Dev) : Dev := d.dmOp n 0x0 (fun _ d => (d.dmTakes n 1).dmState n 0)

/-- A fetch that faults: a reserved operation, a PC beyond the memory, or an uncorrectable word (R228). -/
def dmReserved (n : Nat) (d : Dev) : Dev :=
  if !d.dmRunning n then d else
  let pc := (d.dmAt n).pc
  match d.dmFetch n pc with
  | .error c => d.dmFault n pc c
  | .ok w => if 8 ≤ bits w 28 4 then d.dmFault n pc 0 else d

/-- WAIT (R221): the target line and the point by MODE; a point already reached is met at once. -/
def dmWait (n : Nat) (d : Dev) : Dev :=
  d.dmOp n 0x1 (fun w d =>
    let m := d.dmAt n
    let mode := bits w 26 2
    let line := bits w 13 13
    let x := bits w 0 13
    if mode = 3 then d.dmFault n m.pc 1
    else
      let lam : Int := d.lead n
      let d := d.dmTakes n 1
      let target : Int := if mode = 0 then line + lam + 1 else if mode = 1 then line else m.target + line
      let pl : Int := if mode = 0 then line else target - lam - 1
      let d := d.onDm n (fun m => { m with target := target, late := false, pc := m.pc + 1 })
      if d.beamReached n x pl (d.dmBegins n) then d
      else (d.onDm n (fun m => { m with wait := .point x pl.toNat })).dmState n 2)

/-- The edge on which the point (x, line) is reached, for an engine that waits for it (R220): a point at or after the take-up point is
never reached, and one of a line that has not begun lies ahead. -/
def Dev.dmEdge (d : Dev) (n x : Nat) (line : Int) : Option Nat :=
  if d.dmInFrame n line then d.beamEdge n x line else none

/-- The awaited point is reached (R220), on CCLK edge `e`: the next instruction begins there. -/
def dmPointReached (n : Nat) (d : Dev) : Dev :=
  match (d.dmAt n).wait with
  | .point x line =>
    match d.dmEdge n x line with
    | some e => if e ≤ d.cclks then (d.onDm n (fun m => { m with wait := .none, at_ := max m.at_ e })).dmState n 1 else d
    | none => d
  | _ => d

/-- WAITEV (R222). -/
def dmWaitEv (n : Nat) (d : Dev) : Dev :=
  d.dmOp n 0x2 (fun w d =>
    let wait := DmWait.event (bits w 25 3) (if bits w 24 1 = 1 then some (bits w 0 13) else none)
    ((d.dmTakes n 1).onDm n (fun m => { m with pc := m.pc + 1, wait := wait })).dmState n 2)

/-- A WAITEV completes (R222): an event is consumed, which wins over the timeout line. -/
def dmWaitEvComplete (n : Nat) (d : Dev) : Dev :=
  match (d.dmAt n).wait with
  | .event i tmo =>
    let cnt := d.fd (Reg.DM_EV_CNT n) (4 * i) 4
    if 1 ≤ cnt then
      ((d.sf (Reg.DM_EV_CNT n) (4 * i) 4 (cnt - 1)).onDm n
        (fun m => { m with wait := .none, timeout := false, at_ := max m.at_ d.cclks })).dmState n 1
    else
      match tmo.bind (fun l => d.dmEdge n 0 l) with
      | some e =>
        if e ≤ d.cclks then (d.onDm n (fun m => { m with wait := .none, timeout := true, at_ := max m.at_ e })).dmState n 1 else d
      | none => d
  | _ => d

/-- Bits that the fields of the register at `a` occupy with access RW. -/
def rwMask (a : Nat) : Word := BitVec.ofNat 32 (((RegTable.find a).map (·.rw)).getD 0)

/-- The byte mask that BE selects. -/
def beMask (be : Nat) : Word :=
  packFields ((List.range 4).map (fun i => (8 * i, if bits be i 1 = 1 then 0xFF else 0)))

/-- The register of Table 7-1 below index 0x050, with the fields that Damsel acts on. -/
def dmLiveTarget (n i : Nat) : Option (Nat × Word) :=
  if i < 0x20 then
    let p := i / 8
    match i % 8 with
    | 0 => some (Reg.TP_PL_CFG n p, rwMask (Reg.TP_PL_CFG n p))
    | 1 => some (Reg.TP_PL_SCROLL n p, 0xFFFFFFFF)
    | 2 => some (Reg.TP_PL_MAP n p, 0xFFFFFFFF)
    | 3 => some (Reg.TP_PL_TILE n p, 0xFFFFFFFF)
    | 4 => some (Reg.TP_PL_PAL n p, rwMask (Reg.TP_PL_PAL n p))
    | _ => none
  else match i with
    | 0x40 => some (Reg.MX_CFG n, rwMask (Reg.MX_CFG n))
    | 0x41 => some (Reg.MX_ORDER n, rwMask (Reg.MX_ORDER n))
    | 0x42 => some (Reg.MX_BG0 n, rwMask (Reg.MX_BG0 n))
    | 0x43 => some (Reg.MX_BG1 n, rwMask (Reg.MX_BG1 n))
    | 0x44 => some (Reg.MX_SALPHA n, rwMask (Reg.MX_SALPHA n))
    | 0x48 => some (Reg.MX_VP_CFG n 0, 0x301)
    | 0x4C => some (Reg.MX_VP_CFG n 1, 0x301)
    | 0x49 => some (Reg.MX_VP_ALPHA n 0, rwMask (Reg.MX_VP_ALPHA n 0))
    | 0x4D => some (Reg.MX_VP_ALPHA n 1, rwMask (Reg.MX_VP_ALPHA n 1))
    | _ => none

/-- One write to the Damsel register space (R215, Table 7-1), whose live value enters on CCLK edge `e` (R216); an index outside it sets
BAD_REG. -/
def Dev.dmWrite1 (d : Dev) (n e i : Nat) (v mask : Word) : Dev :=
  let vm := v &&& mask
  if i < 0x50 then
    match dmLiveTarget n i with
    | some (a, m) => d.liveWrite n e a v (mask &&& m)
    | none => d.sb (Reg.DM_STAT n) 4
  else if 0x100 ≤ i ∧ i < 0x200 then d.slWrite n (i - 0x100) v mask
  else if 0x200 ≤ i ∧ i < 0x300 then d.slStage n (i - 0x200) v mask
  else if 0xF00 ≤ i ∧ i < 0xF04 then
    d.onDm n (fun m => m.setC (i - 0xF00) (mergeWord (BitVec.ofNat 32 (m.c (i - 0xF00))) v mask).toNat)
  else match i with
    | 0x300 => d.slCommit n vm
    | 0x301 => d.slLen n 0 vm true
    | 0x302 => d.slLen n 1 vm true
    | 0x303 => d.slLen n 0 vm false
    | 0x304 => d.slLen n 1 vm false
    | 0xF10 => d.sg (Reg.DM_FLAGS n) (d.rg (Reg.DM_FLAGS n) ||| (vm &&& 0xFFFF))
    | 0xF11 => d.sg (Reg.DM_FLAGS n) (d.rg (Reg.DM_FLAGS n) &&& ~~~(vm &&& 0xFFFF))
    | 0xF20 => ((d.sg (Reg.DM_SIG_CODE n) (mergeWord (d.rg (Reg.DM_SIG_CODE n)) v mask &&& 0xFF)).sb (Reg.DM_STAT n) 6).dmRaise n 3
    | _ => d.sb (Reg.DM_STAT n) 4

/-- Is a write that issues in the CCLK that begins at edge `e` late for the target line (R217): at or after that line's build start? -/
def Dev.dmIsLate (d : Dev) (n e : Nat) : Bool := d.beamReached n 0 ((d.dmAt n).target - d.lead n) e

/-- A late instruction is counted, and signalled once in a program frame (R217, R230). -/
def Dev.dmLate (d : Dev) (n pc : Nat) : Dev :=
  let m := d.dmAt n
  let d := ((d.inc (Reg.DM_LATE_CNT n)).sg (Reg.DM_LAST_LATE n)
    (packFields [(0, (m.target % 8192).toNat), (16, pc % 4096)])).sb (Reg.DM_STAT n) 3
  let d := if m.lateOnce then d else d.dmRaise n 2
  d.onDm n (fun m => { m with late := true, lateOnce := true })

/-- Writes that issue together in the last of the instruction's `k` CCLK (R216, R217, R219, R223): the later of two words for one index
holds; the late test is made once, and a late write below index 0x050 that LATE_DROP discards sets no BAD_REG, whether or not its index is listed
(DESIGN CHOICE, log entry 92); what a sluice register gets reaches the unit 1 CCLK after the issue (R168, R169). -/
def Dev.dmIssue (d : Dev) (n pc k : Nat) (ws : List (Nat × Word)) (mask : Word) : Dev :=
  let ws := ws.foldl (fun (acc : List (Nat × Word)) p => acc.filter (fun q => q.1 != p.1) ++ [p]) []
  let edge := d.dmBegins n + k
  let d := d.dmTakes n k
  let late := ws.any (fun p => decide (p.1 < 0x50)) && d.dmIsLate n (edge - 1)
  let drop := late && d.fbt (Reg.DM_CFG n) 1
  let d := if late then d.dmLate n pc else d
  ws.foldl (fun d p =>
    if drop && decide (p.1 < 0x50) then d else d.slArriving edge 0 (fun d => d.dmWrite1 n edge p.1 p.2 mask)) d

/-- WRITE (R219). -/
def dmWrite (n : Nat) (d : Dev) : Dev :=
  d.dmOp n 0x3 (fun w d =>
    let pc := (d.dmAt n).pc
    match d.dmFetch n (pc + 1) with
    | .error c => d.dmFault n (pc + 1) c
    | .ok w1 =>
      let go := fun (k v : Nat) => (d.dmIssue n pc k [(bits w 0 12, BitVec.ofNat 32 v)] (beMask (bits w 24 4))).dmPc n (pc + 2)
      match bits w 22 2 with
      | 0 => go 2 w1
      | 1 => go 2 (d.fr (Reg.DM_DATA n (bits w1 0 4))).toNat
      | 2 =>
        let a := (bits w1 0 12 + (d.dmAt n).c (bits w 20 2)) % 4096
        match d.dmFetch n a with
        | .error c => d.dmFault n a c
        | .ok v => go 3 v
      | _ => d.dmFault n pc 1)

/-- The data words of a WRITEM, or the address and cause of the fetch that faults. -/
def Dev.dmWords (d : Dev) (n a : Nat) : Nat → Except (Nat × Nat) (List Nat)
  | 0 => .ok []
  | k + 1 =>
    match d.dmFetch n a with
    | .error c => .error (a, c)
    | .ok v =>
      match d.dmWords n (a + 1) k with
      | .error e => .error e
      | .ok l => .ok (v :: l)

/-- WRITEM (R223). -/
def dmWriteM (n : Nat) (d : Dev) : Dev :=
  d.dmOp n 0x4 (fun w d =>
    let pc := (d.dmAt n).pc
    let cnt := bits w 24 4 + 1
    match d.dmWords n (pc + 1) cnt with
    | .error (a, c) => d.dmFault n a c
    | .ok vs =>
      let ws := (vs.zip (List.range cnt)).map (fun p => ((bits w 0 12 + p.2) % 4096, (BitVec.ofNat 32 p.1 : Word)))
      (d.dmIssue n pc (cnt + 1) ws 0xFFFFFFFF).dmPc n (pc + 1 + cnt))

/-- The condition of a SKIPIF (Table 7-4). -/
def Dev.dmCond (d : Dev) (n kind operand : Nat) : Bool :=
  match kind with
  | 0 => d.bt (Reg.DM_FLAGS n) (bits operand 0 4)
  | 1 => decide (1 ≤ d.fd (Reg.DM_EV_CNT n) (4 * bits operand 0 3) 4)
  | 2 => decide (operand ≤ (d.beamSeen n (d.dmBegins n)).1)
  | 3 => decide (operand ≤ (d.beamSeen n (d.dmBegins n)).2)
  | _ =>
    match bits operand 0 3 with
    | 0 => (d.tgAt n).firstOfTick
    | 1 => (d.tgAt n).newEpoch
    | 2 => (d.dmAt n).timeout
    | 3 => (d.dmAt n).late
    | _ => false

/-- Words of the instruction that begins with `w` (Table 7-2); a reserved operation, to which the table gives no length, counts as one word
(DESIGN CHOICE, log entry 93). -/
def dmLength (w : Nat) : Nat :=
  match bits w 28 4 with
  | 3 => 2
  | 4 => 2 + bits w 24 4
  | _ => 1

/-- SKIPIF (R224). -/
def dmSkipIf (n : Nat) (d : Dev) : Dev :=
  d.dmOp n 0x5 (fun w d =>
    let pc := (d.dmAt n).pc
    let kind := bits w 24 3
    if 5 ≤ kind then d.dmFault n pc 1
    else if d.dmCond n kind (bits w 0 13) == (bits w 27 1 == 0) then
      match d.dmFetch n (pc + 1) with
      | .error c => d.dmFault n (pc + 1) c
      | .ok w1 => (d.dmTakes n 2).dmPc n (pc + 1 + dmLength w1)
    else (d.dmTakes n 1).dmPc n (pc + 1))

/-- JUMP. -/
def dmJump (n : Nat) (d : Dev) : Dev := d.dmOp n 0x6 (fun w d => (d.dmTakes n 2).dmPc n (bits w 0 12))

/-- LOOP. -/
def dmLoop (n : Nat) (d : Dev) : Dev :=
  d.dmOp n 0x7 (fun w d =>
    let i := bits w 26 2
    let m := d.dmAt n
    if m.c i ≠ 0 then (d.dmTakes n 2).onDm n (fun m => { m.setC i (m.c i - 1) with pc := bits w 0 12 })
    else (d.dmTakes n 1).dmPc n (m.pc + 1))

/-! ### Restart, overrun, events and the program memory -/

/-- The engine restarts at a frame start of its output, on the CCLK edge 2 CCLK after the beam reaches (0, 0) (R212, R232).  An output
that no slice serves has no engine (R211). -/
def Dev.dmRestart (d : Dev) (n : Nat) : Dev :=
  if d.fbt (Reg.DM_CFG n) 0 && d.bt (Reg.SL_OUT_BIND n) 16 then
    (d.onDm n (fun _ => { pc := d.ff (Reg.DM_ENTRY n) 0 12, target := d.lead n + 1, at_ := d.cclkEdge (d.tgAt n).lineTs 2 })).dmState n 1
  else d.dmState n 0

/-- The take-up point halts an engine that has not stopped (R229). -/
def Dev.dmOverrun (d : Dev) (n : Nat) : Dev :=
  let st := d.fd (Reg.DM_STAT n) 8 2
  if st = 1 ∨ st = 2 then
    (((d.inc (Reg.DM_OVR_CNT n)).sb (Reg.DM_STAT n) 2).onDm n (fun m => { m with wait := .none })).dmState n 3 |>.dmRaise n 1
  else d

/-- A write of DM_EV_TRIG (R226). -/
def dmEvTrig (n : Nat) (w : Word) (d : Dev) : Dev :=
  (List.range 8).foldl (fun d i => if w.getLsbD i then d.countEvent (Reg.DM_EV_CNT n) i (Reg.DM_EV_OVF n) i else d) d

/-- A write of DM_EV_SELi (R226): the count starts again at 0. -/
def dmEvSelWrite (n i : Nat) (w : Word) (d : Dev) : Dev :=
  (d.sg (Reg.DM_EV_SEL n i) (w &&& 0x7F7)).sf (Reg.DM_EV_CNT n) (4 * i) 4 0

/-- A host or core write to word `a` of the program memory (R231). -/
def dmPmWrite (n a : Nat) (v mask : Word) (d : Dev) : Dev :=
  if d.fbt (Reg.DM_CFG n) 0 then d.sb (Reg.DM_STAT n) 5
  else
    let off := dmWord n a
    let old : Word := Tab.at 0 d.aux off
    { d with aux := Tab.put 0 d.aux off (mergeWord old v mask), badWords := d.badWords.filter (fun x => x != off) }

end Sys2Proof.Machine
end

