-- ==== Sys2Proof/Machine/Flume.lean ====
section
/-!
DEFINITION. The Flume pixel link (R268 to R296): training, packets and their sending, the blanking queue, and the writes of a port.
-/

namespace Sys2Proof.Machine

/-! ### Training (R276) -/

/-- A training sequence of one port starts (R276): unless the PHY PLL has no lock. -/
def Dev.trainStart (d : Dev) (n : Nat) : Dev :=
  if (d.flAt n).pllLost then d else
  (((d.flLeave n).sf (Reg.FL_STAT n) 12 2 lstClock).inc (Reg.FL_RETRAIN_CNT n)).onFl n (fun f => { f with training := some d.tb })

/-- A training sequence ends (R276): its TRAIN groups and its ALIGN group have passed the scramblers, which were all ones at its start
(R272), and the lanes enter ACTIVE; marker count and SEQ begin anew (R279). -/
def Dev.trainDone (d : Dev) (n : Nat) : Dev :=
  match (d.flAt n).training with
  | none => d
  | some t =>
    let gs := d.trainGroups n 2048 ++ [d.alignBlocks n 0]
    let f : Fl := gs.foldl Fl.sendGroup { d.flAt n with scr := List.replicate 4 (2 ^ 58 - 1), wire := [] }
    (d.sf (Reg.FL_STAT n) 12 2 lstActive).onFl n (fun _ =>
      { f with training := none, marker := 1, seq := 0, t0 := t, groups := 1, alignAt := 16384, statusAt := d.tb, sent := gs.flatten,
               wire := d.wirePhysical n f.wire })

/-- The port goes OFF. -/
def Dev.flOff (d : Dev) (n : Nat) : Dev :=
  ((d.flLeave n).sf (Reg.FL_STAT n) 12 2 lstOff).onFl n (fun f => { f with training := none })

/-- The follower of a port gang takes its leader's FL_CTRL and FL_CFG in force (R291); FL_TX_EQ is its own at the expert level. -/
def Dev.flFollow (d : Dev) (n : Nat) : Dev :=
  let d := (d.sfr (Reg.FL_CTRL (n + 1)) (d.fr (Reg.FL_CTRL n))).sfr (Reg.FL_CFG (n + 1)) (d.fr (Reg.FL_CFG n))
  if d.fbt (Reg.FL_CTRL n) 0 then d else d.sfr (Reg.FL_TX_EQ (n + 1)) (d.fr (Reg.FL_TX_EQ n))

/-- The setting of a port reaches its update point (R276, R290, R295): ENABLE, RATE and LANES act, on both ports of a gang together (R291);
a follower's part is its leader's. -/
def Dev.flApply (d : Dev) (n : Nat) : Dev :=
  if d.portFollower n then { d with upds := Tab.put none d.upds (Reg.FL_CTRL n) none } else
  let on0 := d.fbt (Reg.FL_CTRL n) 1
  let rl0 := (d.ff (Reg.FL_CFG n) 0 3, d.ff (Reg.FL_CFG n) 4 2)
  let d := (d.reachUpdate (.fl n)).sfr (Reg.FL_CTRL n) (d.rg (Reg.FL_CTRL n))
  let gang := d.flGang n
  let d := if gang.length = 2 then d.flFollow n else d
  let on1 := d.fbt (Reg.FL_CTRL n) 1
  let rl1 := (d.ff (Reg.FL_CFG n) 0 3, d.ff (Reg.FL_CFG n) 4 2)
  if !on1 then gang.foldl Dev.flOff d
  else if !on0 || rl0 != rl1 then gang.foldl Dev.trainStart d
  else d

/-! ### Packets -/

/-- When the edge `k` PCLKn after the beam reaches (x, line) of the line in progress comes, in 1/120 ns: pixels pass PPC a PCLK. -/
def Dev.flEdge (d : Dev) (n x k : Nat) : Nat :=
  let g := d.tgAt n
  g.beamTime g.lineTs (x - x % g.tm.ppc + k * g.tm.ppc)

/-- When the LINE_START of the line in progress is formed: 20 PCLKn after the beam reaches its pixel 0 (R281). -/
def Dev.lineStartAt (d : Dev) (n : Nat) : Nat := d.flEdge n 0 20

/-- Form a packet at time `at_`, counted in the line's demand (R287). -/
def Dev.flForm (d : Dev) (n typ : Nat) (f : Word) (payload : List Byte) (at_ : Nat) : Dev :=
  let g := pktGroups (ceilDiv payload.length 8) (d.flLanes n)
  let d := d.onFl n (fun p => { p with
    queue := p.queue ++ [{ typ := typ, f := f, payload := payload, at_ := at_ }], demand := p.demand + g })
  let dm := (d.flAt n).demand
  if d.fd (Reg.FL_DEMAND n) 0 16 < dm then d.sf (Reg.FL_DEMAND n) 0 16 (min 65535 dm) else d

/-- An error bit of FL_STAT sets; newly set, it raises the source of the output at most once a tick (R293): `i` is its bit in
FL_INT_EN. -/
def Dev.flAlarm (d : Dev) (n bit i : Nat) : Dev :=
  let was := d.bt (Reg.FL_STAT n) bit
  let d := d.sb (Reg.FL_STAT n) bit
  if !was && d.bt (Reg.FL_INT_EN n) i && (d.flAt n).raised == 0 && d.bt (Reg.SL_OUT_BIND n) 16 then
    (d.onFl n (fun f => { f with raised := 1 })).raiseSlice true n
  else d

/-- Does the output send frames on its port at time `t`, in 1/120 ns: the port is ACTIVE then, and the output has a live slice (R289,
R290)? -/
def Dev.flRuns (d : Dev) (n t : Nat) : Bool := d.flActiveBy n t && d.bt (Reg.SL_OUT_BIND n) 16

/-- The LINE_START of line `line` is formed (R281, R288 to R290): packets of earlier lines that have not started by then are dropped. -/
def Dev.lineStartPacket (d : Dev) (n line : Nat) : Dev :=
  let at_ := d.lineStartAt n
  if !d.flRuns n at_ then (d.inc (Reg.FL_UNSENT_CNT n)).onFl n (fun f => { f with lineOff := true }) else
  let kept := d.startedBy n at_
  let lost := (d.flAt n).queue.length - kept.length
  let d := if lost = 0 then d else
    ((d.add (Reg.FL_DROP_CNT n) lost).onFl n (fun f => { f with queue := kept, capSince := true })).flAlarm n 2 0
  let g := d.tgAt n
  let d := d.onFl n (fun f => { f with demand := 0, lineOff := false, statusAt := ceilDiv (g.beamTime g.lineTs g.tm.hTot) 120 })
  let act := decide (line < g.tm.vAct)
  let repeats := fun (o : Option LineDue) => match o with
    | some due => decide (due.kind ≠ .mixed) && decide (due.work.line = line)
    | none => false
  let rep := act && (repeats (d.mxAt n).due || repeats (d.mxAt n).now)
  let f := packFields [(0, line), (13, if act then 1 else 0), (14, if rep then 1 else 0),
    (15, if decide (line = 0) && g.newEpoch then 1 else 0), (16, d.fd (Reg.TG_FRAME_CNT n) 0 8), (24, d.gangSide n)]
  d.flForm n 1 f (leBytes 8 (at_ / 120)) at_

/-- A PIXEL packet of `px`, components lists from pixel `x0` on, formed when its last pixel reaches the framer input (R282). -/
def Dev.pixelPacket (d : Dev) (n line x0 depth : Nat) (px : List (List Nat)) : Dev :=
  let at_ := d.flEdge n (x0 + px.length - 1) 20
  if (d.flAt n).lineOff || !d.flActiveBy n at_ then d else
  let bitsL := px.flatMap (fun c => c.flatMap (fun v => (List.range depth).map (fun i => bits v i 1)))
  let v := bitsL.foldr (fun b acc => b + 2 * acc) 0
  let pay := leBytes (8 * ceilDiv bitsL.length 64) v
  d.flForm n 2 (packFields [(0, line), (13, x0), (26, px.length - 1)]) pay at_

/-- The BLANK packet of the take-up line (R283): the timing and format that the next frame will use; `nxt` is the machine as that frame will
find the binding and the port. -/
def Dev.blankPacket (d : Dev) (n : Nat) (nxt : Dev) : Dev :=
  if (d.flAt n).lineOff || !d.flActiveBy n (d.lineStartAt n) then d else
  let t := d.comingTiming n
  let k := (t.kOf d.tick.num0 d.tick.den0).getD (d.tgAt n).k
  let m := d.mxAt n
  let fmt := (m.fmtArmed.getD m.fmt).toNat
  let b22 := (t.ppc - 1) + 2 * bits fmt 0 2 + 8 * bits fmt 2 2 + 32 * bits fmt 4 1 + 64 * bits fmt 5 1 + 128 * bits fmt 6 1
  let b23 := k % 16 + 16 * nxt.fd (Reg.SL_OUT_BIND n) 15 1 + 32 * nxt.gangSide n + 64 * nxt.ff (Reg.FL_CFG n) 8 2
  let pay := leBytes 2 t.hAct ++ leBytes 2 t.hTot ++ leBytes 2 t.vAct ++ leBytes 2 t.vTot ++ leBytes 2 t.hsS ++ leBytes 2 t.hsE ++
    leBytes 2 t.vsS ++ leBytes 2 t.vsE ++ leBytes 3 t.pNum ++ leBytes 3 t.pDen ++ leBytes 1 b22 ++ leBytes 1 b23
  d.flForm n 3 (d.rg (Reg.TG_FRAME_CNT n) + 1) pay (d.lineStartAt n)

/-- The STATUS packet formed at time `at_` (R284). -/
def Dev.statusPkt (d : Dev) (n at_ : Nat) : FlPkt :=
  { typ := 5, payload := leBytes 8 (at_ / 120), at_ := at_,
    f := packFields [(0, (d.tgAt n).st.code), (2, d.fd (Reg.SL_OUT_BIND n) 16 1), (3, if (d.flAt n).capSince then 1 else 0)] }

/-- A byte of AUX buffer `k` of port `n`. -/
def Dev.auxByte (d : Dev) (n k i : Nat) : Byte :=
  let off := 0x1000000 + n * 0x400 + 0x200 + k * 0x100 + i / 4 * 4
  BitVec.ofNat 8 (bits (Tab.at (0 : Word) d.aux off).toNat (8 * (i % 4)) 8)

/-- An armed AUX slot is formed now (R285): its SEQ rises, and MODE 0 disarms it. -/
def Dev.auxPacket (d : Dev) (n k : Nat) : Dev × FlPkt :=
  let c := Reg.FL_AUX_CTRL n k
  let w := d.rg c
  let len := bits w.toNat 0 5 + 1
  let f := packFields [(0, bits w.toNat 8 8), (8, bits w.toNat 24 8), (16, k)]
  let pkt : FlPkt := { typ := 4, f := f, payload := (List.range (8 * len)).map (fun i => d.auxByte n k i), at_ := 120 * d.tb }
  let d := d.sf c 24 8 (bits w.toNat 24 8 + 1)
  (if w.getLsbD 16 then d else d.cb c 17, pkt)

/-- The blanking queue of a frame is formed on line V_ACTIVE, and with it the STATUS packet, right after the line's LINE_START (R284, R285;
log entry 79). -/
def Dev.formBlanking (d : Dev) (n : Nat) : Dev :=
  if (d.flAt n).lineOff || !d.flActiveBy n (d.lineStartAt n) then d else
  let aux := (List.range 2).filter (fun k => d.bt (Reg.FL_AUX_CTRL n k) 17)
  d.onFl n (fun f => { f with
    capSince := false
    blank := [.status (d.statusPkt n (d.lineStartAt n))] ++ (if d.fbt (Reg.FL_CFG n) 6 then [.refresh] else []) ++ aux.map .aux })

/-- Put one packet on the wire, from place `p` on (R278, R286). -/
def Dev.sendPacket (d : Dev) (n p : Nat) (pkt : FlPkt) : Dev :=
  let bs := pkt.blocks (d.flAt n).seq
  let d := d.flSend n p bs (fun f => (slotGroups (d.flLanes n) bs).foldl (Fl.emit (d.alignBlocks n)) f)
  let d := (d.inc (Reg.FL_PKT_CNT n)).onFl n (fun f => { f with seq := (f.seq + 1) % 256 })
  if pkt.typ = 1 then d.inc (Reg.FL_LINE_CNT n) else d

/-- Slot groups of an item of the blanking queue. -/
def Dev.blankGroups (d : Dev) (n : Nat) : FlItem → Nat
  | .status _ => pktGroups 1 (d.flLanes n)
  | .aux k => pktGroups (d.fd (Reg.FL_AUX_CTRL n k) 0 5 + 1) (d.flLanes n)
  | .refresh => 65

/-- The place from which an item of the blanking queue may start now: a packet after its framer latency (R286). -/
def Dev.blankReady (d : Dev) (n : Nat) : FlItem → Nat
  | .status p => max (d.flReady n p.at_) (d.flPlaceFrom n (120 * d.tb))
  | .aux _ => d.flReady n (120 * d.tb)
  | .refresh => max (d.flAt n).groups (d.flPlaceFrom n (120 * d.tb))

/-- Can an item of the blanking queue that starts at place `p` end before the next LINE_START is formed (R285)? -/
def Dev.blankFits (d : Dev) (n p : Nat) (it : FlItem) : Bool :=
  let g := d.tgAt n
  let (s, e) := (d.flAt n).span p (d.blankGroups n it)
  let next := if d.flBefore n s (d.lineStartAt n) then d.lineStartAt n else d.flEdge n g.tm.hTot 20
  decide ((trainBlocks + e) * 7920000 ≤ (next - 120 * (d.flAt n).t0) * d.flRate n)

/-- The refresh burst of one port from place `p` on (R277): 64 TRAIN groups and an ALIGN group, from which the spacing restarts. -/
def Dev.sendRefresh (p : Nat) (d : Dev) (n : Nat) : Dev :=
  let gs := d.trainGroups n 64
  let d := d.onFl n (fun f => { f with blank := f.blank.drop 1 })
  d.flSend n p (gs.flatten ++ d.alignBlocks n (d.flAt n).marker) (fun f => (gs.foldl (Fl.emit (d.alignBlocks n)) f).sendAlign (d.alignBlocks n))

/-- Is the refresh burst what port `n` sends next? -/
def Dev.refreshNext (d : Dev) (n : Nat) : Bool :=
  d.flActive n && (d.flAt n).queue.isEmpty && (match (d.flAt n).blank with
    | .refresh :: _ => true
    | _ => false)

/-- The next packet of port `n` leaves (R286): the oldest formed one, else the next item of the blanking queue, if it can end in time.  The
ports of a gang send the refresh burst together (R291). -/
def packetSend (n : Nat) (d : Dev) : Dev :=
  if !d.flActive n then d else
  match (d.flAt n).queue with
  | p :: rest => (d.onFl n (fun f => { f with queue := rest })).sendPacket n (d.flReady n p.at_) p
  | [] =>
    match (d.flAt n).blank with
    | [] => d
    | it :: rest =>
      let gang := match it with
        | .refresh => d.flGang n
        | _ => [n]
      let place := gang.foldl (fun p m => max p (d.blankReady m it)) 0
      if !gang.all (fun m => d.blankFits m place it) then d else
      match it with
      | .status p => (d.onFl n (fun f => { f with blank := rest })).sendPacket n place p
      | .aux k =>
        let (d, p) := (d.onFl n (fun f => { f with blank := rest })).auxPacket n k
        d.sendPacket n place p
      | .refresh => if gang.all d.refreshNext then gang.foldl (Dev.sendRefresh place) d else d

/-- The ALIGN group of one port at its place (R275). -/
def Dev.alignPort (d : Dev) (n : Nat) : Dev :=
  if !d.flActive n then d else
  d.flSend n (d.flAt n).alignAt (d.alignBlocks n (d.flAt n).marker) (fun f => f.sendAlign (d.alignBlocks n))

/-- ALIGN_GROUP: the ports of a gang send theirs in the same group (R291). -/
def alignGroup (n : Nat) (d : Dev) : Dev := (d.flGang n).foldl Dev.alignPort d

/-- TRAINING_COMPLETE: the ports of a gang end their sequences together. -/
def trainingComplete (n : Nat) (d : Dev) : Dev := (d.flGang n).foldl Dev.trainDone d

/-- The STATUS packet of a port that sends idle (R284). -/
def idleStatusTimer (n : Nat) (d : Dev) : Dev :=
  if d.flActive n && !(d.runsFrame n && d.bt (Reg.SL_OUT_BIND n) 16) then
    d.onFl n (fun f => { f with queue := f.queue ++ [d.statusPkt n (120 * d.tb)], capSince := false, statusAt := d.tb })
  else d

/-! ### Writes (R276, R285, R287, R291, R295) and PHY events (R293) -/

/-- FL_CMD: RETRAIN starts a sequence at once on an enabled port. -/
def flCmdWrite (n : Nat) (w : Word) (d : Dev) : Dev :=
  if w.getLsbD 0 && d.fbt (Reg.FL_CTRL n) 1 then (d.flGang n).foldl Dev.trainStart d else d

/-- The follower of the port gang that `n` leads reads its leader's FL_CTRL and FL_CFG (R291); FL_TX_EQ stays its own, but that a change
of LEVEL copies or discards it (R13, R14).  Both take effect with the leader's. -/
def Dev.mirrorGang (d : Dev) (n : Nat) : Dev :=
  if !d.portLeader n then d else
  let b : Block := .fl (n + 1)
  let was := d.level b
  let d := d.sg b.ctrl (d.rg (Reg.FL_CTRL n))
  let d := if was && !d.level b then d.discardExpert b else if !was && d.level b then d.sgAll (d.derived b) else d
  d.sg (Reg.FL_CFG (n + 1)) (d.rg (Reg.FL_CFG n))

/-- An output that a binding change makes the follower of a port gang (R147, R291): its port reads and takes its leader's setting, and the two
train together, for their ALIGN groups are the same from then on (DEDUCED, log entry 94). -/
def Dev.joinGang (d : Dev) (was : Bool) (n : Nat) : Dev :=
  if was || !d.portFollower n then d else
  let d' := (d.mirrorGang (n - 1)).flFollow (n - 1)
  if d'.fbt (Reg.FL_CTRL n) 1 then (d'.flGang n).foldl Dev.trainStart d' else d'.flOff n

/-- A write of FL_CFG: at the basic level it is ignored (R12); reserved codes and settings that do not fit set CFG_ERR (R287). -/
def flCfgWrite (n : Nat) (w : Word) (d : Dev) : Dev :=
  if d.portFollower n || !d.level (.fl n) then d.sb (Reg.FL_STAT n) 0
  else
    let w := w &&& 0x377
    if laneMbps (bits w.toNat 0 3) = 0 ∨ laneCount (bits w.toNat 4 2) = 0 ∨ !d.flFits n w.toNat then d.sb (Reg.FL_STAT n) 1
    else ((d.sg (Reg.FL_CFG n) w).schedule (.fl n)).mirrorGang n

/-- A write of FL_CTRL (R13 to R15, R287, R291, R615). -/
def flCtrlWrite (n : Nat) (w : Word) (d : Dev) : Dev :=
  let b : Block := .fl n
  if d.portFollower n then d.sb (Reg.FL_STAT n) 0 else
  if d.fixedRefuse b w then d.sb (Reg.FL_STAT n) 0 else
  let (d1, reserved) := d.storeCtrl b (w &&& 0xF3)
  if !d.flFits n (d.flCfgOf n (d1.rg b.ctrl)) then d.sb (Reg.FL_STAT n) 1
  else
    let d2 := d1.flagReserved b reserved
    let d2 := if !d.level b && d2.level b then d2.sgAll (d2.derived b)
      else if d.level b && !d2.level b then d2.discardExpert b else d2
    let d2 := if d.rg b.ctrl = d2.rg b.ctrl then d2 else d2.schedule b
    d2.mirrorGang n

/-- A write of FL_AUX_CTRLk: ARM queues the slot for the next blanking queue. -/
def auxCtrlWrite (n k : Nat) (w : Word) (d : Dev) : Dev :=
  d.sg (Reg.FL_AUX_CTRL n k) ((d.rg (Reg.FL_AUX_CTRL n k) &&& 0xFF000000) ||| (w &&& 0x0003FF1F))

/-- A write to word `i` of AUX buffer `k` (R285). -/
def auxBufWrite (n k i : Nat) (v mask : Word) (d : Dev) : Dev :=
  if d.bt (Reg.FL_AUX_CTRL n k) 17 then d.sb (Reg.FL_STAT n) 3
  else
    let off := 0x1000000 + n * 0x400 + 0x200 + k * 0x100 + 4 * i
    let old : Word := Tab.at 0 d.aux off
    { d with aux := Tab.put 0 d.aux off ((old &&& ~~~mask) ||| (v &&& mask)) }

/-- The PHY PLL loses lock. -/
def flPllLoss (n : Nat) (d : Dev) : Dev :=
  (d.flGang n).foldl (fun d n => ((d.flOff n).onFl n (fun f => { f with pllLost := true })).flAlarm n 8 2) d

/-- The PHY PLL relocks: an enabled port trains. -/
def flPllRelock (n : Nat) (d : Dev) : Dev :=
  (d.flGang n).foldl (fun d n =>
    let d := d.onFl n (fun f => { f with pllLost := false })
    if d.fbt (Reg.FL_CTRL n) 1 then d.trainStart n else d) d

/-- A driver fault on a physical lane. -/
def laneFault (n lane : Nat) (d : Dev) : Dev := d.flAlarm n (4 + lane % 4) 1

end Sys2Proof.Machine
end

