-- ==== Sys2Proof/Machine/Mix.lean ====
section
/-!
DEFINITION. The output pipeline (R179 to R206): late spans, the mixer, tone mapping, output formats, region signatures, the freeze
detector, fallback and capture at stage 8, and the PIXEL packets.
-/

namespace Sys2Proof.Machine

/-! ### The mixer (R136, R189, R191) -/

/-- A latched register of the line. -/
def LineWork.reg (lw : LineWork) (a : Nat) : Nat := (Tab.get Reg.resetWord lw.regs a).toNat

/-- Span `k` of the four tile planes as the mixer takes them, from the spans it took last (R136): for each plane its pixels, transparent on
a line on which it has a map or format error (R113, R114), and the planes whose span is late. -/
def W.takeSpans (w : W) (lw : LineWork) (spans : Tab (Option (List Px))) (k : Nat) : Tab (Option (List Px)) × List Nat :=
  let clear : List Px := List.replicate 16 {}
  (List.range 4).foldl (fun (acc : Tab (Option (List Px)) × List Nat) pn =>
    let p := Plane.of lw.regs lw.out pn
    let take := fun (l : List Px) => Tab.put none acc.1 (pn * 256 + k) (some l)
    if !p.enable then (acc.1.filter (fun q => q.1 / 256 != pn), acc.2)
    else if lw.skipped.contains pn then acc
    else if !w.d.planeOk p then (take clear, acc.2)
    else
      match w.tileSpan lw pn k lw.width with
      | some l => (take l, acc.2)
      | none =>
        let fill := if Tab.at false w.d.tile.missFill lw.out then none else Tab.at none acc.1 (pn * 256 + k)
        (take (fill.getD clear), acc.2 ++ [pn])) (spans, [])

/-- The premultiplied pixel of plane code `c` at `x` (R189). -/
def planePx (lw : LineWork) (due : LineDue) (spans : Tab (Option (List Px))) (ok : Nat → Bool) (c x : Nat) : Px :=
  if c < 4 then
    if (Plane.of lw.regs lw.out c).enable && ok c then ((Tab.at none spans (c * 256 + x / 16)).getD []).getD (x % 16) {} else {}
  else if c < 6 then
    let b := (if c = 4 then lw.s0 else lw.s1).getD x {}
    let al := bits (lw.reg (Reg.MX_SALPHA lw.out)) (8 * (c - 4)) 8
    { r := mul255 b.r al, g := mul255 b.g al, b := mul255 b.b al, a := mul255 b.a al }
  else
    let v := Vp.of lw.regs lw.out (c - 6)
    let l := if c = 6 then due.v0 else due.v1
    match l with
    | none => {}
    | some px =>
      let i := (x : Int) - v.dx
      if decide (0 ≤ i) && decide (i < v.dw) && decide (i.toNat < px.length) then
        let q := px.getD i.toNat {}
        premul { q with hi := false } (effAlpha v.blend v.alpha q.a q.hi)
      else {}

/-- One premultiplied layer over an opaque colour. -/
def overOpaque (c : Px) (p : Px) : Px :=
  { p with r := min 4095 (c.r + mul255 p.r (255 - c.a)), g := min 4095 (c.g + mul255 p.g (255 - c.a)),
           b := min 4095 (c.b + mul255 p.b (255 - c.a)) }

/-- The mix of one pixel up to the Fantail tap (R191). -/
def mixPixel (lw : LineWork) (due : LineDue) (spans : Tab (Option (List Px))) (ok : Nat → Bool) (x : Nat) : Px :=
  let order := lw.reg (Reg.MX_ORDER lw.out)
  let h := max (posOf order 4) (posOf order 5)
  let hipri := bits (lw.reg (Reg.MX_CFG lw.out)) 0 1 == 1
  let bg : Px := { r := bits (lw.reg (Reg.MX_BG0 lw.out)) 0 12, g := bits (lw.reg (Reg.MX_BG0 lw.out)) 16 12,
                   b := bits (lw.reg (Reg.MX_BG1 lw.out)) 0 12, a := 255 }
  ((List.range 8).foldl (fun (acc : Px × List Px) pos =>
    let c := bits order (3 * pos) 3
    let acc :=
      if lw.skipped.contains c then acc
      else
        let px := planePx lw due spans ok c x
        if hipri && decide (c < 4) && px.hi && decide (pos < h) then (acc.1, acc.2 ++ [px])
        else (overOpaque px acc.1, acc.2)
    if pos = h then (acc.2.foldl (fun p c => overOpaque c p) acc.1, []) else acc) (bg, [])).1

/-! ### Tone mapping (R193) -/

/-- Look-up by the octave index. -/
def octave (t : Nat → Nat) (v : Nat) : Nat :=
  if v = 0 then t 0
  else
    let e := Nat.log2 v
    let q := (v - 2 ^ e) * 65536 / 2 ^ e
    let i := 32 * e + q / 2048
    let f := q % 2048
    (t i * (2048 - f) + t (i + 1) * f + 1024) / 2048

/-- The PROFILE whose derived words the registers and tables of a line all are, if there is one (R195). -/
def LineWork.toneProfile (lw : LineWork) (t : Tables) : Option Nat :=
  let bank := bits (lw.reg (Reg.MX_TBL_CFG lw.out)) 0 1
  let p := if bank = 0 then t.p0 else t.p1
  let clean := (if bank = 0 then t.w0 else t.w1).all (fun q => decide (0x5C00 ≤ q.1))
  if clean && (((Block.mx lw.out).profile p 0).getD []).all (fun q => lw.reg q.1 == q.2.toNat) then some p else none

/-- The four stages on one pixel, with the table bank and registers of its line. -/
def LineWork.stages (lw : LineWork) (t : Tables) (p : Px) : Nat × Nat × Nat :=
  let n := lw.out
  let bank := bits (lw.reg (Reg.MX_TBL_CFG n)) 0 1
  let en := lw.reg (Reg.MX_TM_EN n)
  let inp := fun (k c : Nat) =>
    if bits en 0 1 = 0 then c * 2048
    else
      let e := fun (i : Nat) => bits (t.word bank (0x1400 * k + 4 * i)).toNat 0 24
      (e (c / 4) * (4 - c % 4) + e (c / 4 + 1) * (c % 4) + 2) / 4
  let v : List Nat := [inp 0 p.r, inp 1 p.g, inp 2 p.b]
  let m : List Nat :=
    if bits en 1 1 = 0 then v
    else (List.range 3).map (fun r =>
      let s : Int := ((List.range 3).map (fun (c : Nat) => signed 16 (lw.reg (Reg.MX_TM_M n (3 * r + c))) * (v.getD c 0 : Nat))).sum
      (clampI 0 (2 ^ 24 - 1) ((s + 8192) / 16384)).toNat)
  let cu : List Nat :=
    if bits en 2 1 = 0 then m
    else
      let mm := if bits (lw.reg (Reg.MX_TM_CW1 n)) 16 1 = 0 then m.foldl max 0
        else (bits (lw.reg (Reg.MX_TM_CW0 n)) 0 16 * m.getD 0 0 + bits (lw.reg (Reg.MX_TM_CW0 n)) 16 16 * m.getD 1 0 +
              bits (lw.reg (Reg.MX_TM_CW1 n)) 0 16 * m.getD 2 0 + 16384) / 32768
      let g := octave (fun i => t.half bank 0x5400 i) mm
      m.map (fun v => min (2 ^ 24 - 1) ((v * g + 2048) / 4096))
  let out := fun (k v : Nat) =>
    if bits en 3 1 = 0 then min 4095 (v / 2048)
    else octave (fun i => bits (t.half bank (0x3C00 + 0x800 * k) i) 0 12) v
  (out 0 (cu.getD 0 0), out 1 (cu.getD 1 0), out 2 (cu.getD 2 0))

/-- Tone mapping of one pixel: a derived conversion agrees with the exact one to within 4 codes (R195). -/
def Dev.tone (d : Dev) (lw : LineWork) (p : Px) : Nat × Nat × Nat :=
  let t := d.lineTables lw
  let o := lw.stages t p
  match (lw.toneProfile t).bind (fun q => exactTone q [p.r, p.g, p.b]) with
  | some e => (within4 (e.getD 0 0) o.1, within4 (e.getD 1 0) o.2.1, within4 (e.getD 2 0) o.2.2)
  | none => o

/-! ### Output formats (R198, R199) -/

/-- KR and KB in ten-thousandths. -/
def lumaK (matrix : Nat) : Nat × Nat := if matrix = 0 then (2126, 722) else (2627, 593)

/-- Round `a / b` to the nearest integer. -/
def roundDiv (a : Int) (b : Nat) : Int := (2 * a + b) / (2 * b : Nat)

/-- A quotient with 16 fraction bits; R198 leaves its last bit open (log entry 13). -/
def frac16 (num : Int) (den : Nat) : Int := roundQ (num * 65536) den

/-- A normalised value scaled and rounded once. -/
def scale16 (k : Nat) (v : Int) : Int := roundDiv (k * v) 65536

/-- Y', Cb and Cr of a 12-bit R'G'B' pixel, normalised, with 16 fraction bits (R198). -/
def normYcc (fmt : Nat) (p : Nat × Nat × Nat) : Int × Int × Int :=
  let (kr, kb) := lumaK (bits fmt 5 1)
  let n := fun (c : Nat) => frac16 c 4095
  let y := roundQ (kr * n p.1 + (10000 - kr - kb : Nat) * n p.2.1 + kb * n p.2.2) 10000
  (y, roundQ ((n p.2.2 - y) * 10000) (2 * (10000 - kb)), roundQ ((n p.1 - y) * 10000) (2 * (10000 - kr)))

/-- 12-bit Y'CbCr of a pixel (R198). -/
def toYcc (fmt : Nat) (p : Nat × Nat × Nat) : Nat × Nat × Nat :=
  let (y, cb, cr) := normYcc fmt p
  let full := bits fmt 4 1 = 0
  let c := fun (v : Int) => (clampI 0 4095 (2048 + scale16 (if full then 4095 else 3584) v)).toNat
  ((clampI 0 4095 (if full then scale16 4095 y else 256 + scale16 3504 y)).toNat, c cb, c cr)

/-- R', G', B' at the chosen range. -/
def toRange (fmt v : Nat) : Nat := if bits fmt 4 1 = 0 then v else (256 + scale16 3504 (frac16 v 4095)).toNat

/-- The dither matrix (R199), by line and column. -/
def ditherAt (line x : Nat) : Nat :=
  ([0, 8, 2, 10, 12, 4, 14, 6, 3, 11, 1, 9, 15, 7, 13, 5] : List Nat).getD (line % 4 * 4 + x % 4) 0

/-- Reduction of a 12-bit component to the depth (R199). -/
def reduce (fmt line x v : Nat) : Nat :=
  let dp := fmtDepth fmt
  if 12 ≤ dp then v
  else
    let r := if bits fmt 6 1 = 0 then (v + 2 ^ (11 - dp)) / 2 ^ (12 - dp)
      else (16 * v + ditherAt line x * 2 ^ (12 - dp)) / 2 ^ (16 - dp)
    min r (2 ^ dp - 1)

/-- The components of the pixel at `x` in RGB or 4:4:4 (R198, R200). -/
def formatPixel (fmt line x : Nat) (cur : Nat × Nat × Nat) : List Nat :=
  if bits fmt 0 2 = 0 then [cur.1, cur.2.1, cur.2.2].map (fun v => reduce fmt line x (toRange fmt v))
  else
    let (y, cb, cr) := toYcc fmt cur
    [y, cb, cr].map (reduce fmt line x)

/-- The components of a group (R198): `before` is the pixel left of the group, if any.  In 4:2:2 both chroma values of a pair are
filtered at its even pixel. -/
def formatGroup (fmt line x : Nat) (before : Option (Nat × Nat × Nat)) (px : List (Nat × Nat × Nat)) : List (List Nat) :=
  (List.range px.length).map (fun i =>
    let cur := px.getD i (0, 0, 0)
    if bits fmt 0 2 ≠ 2 then formatPixel fmt line (x + i) cur
    else
      let e := i / 2 * 2
      let even := px.getD e (0, 0, 0)
      let left := if e = 0 then before.getD even else px.getD (e - 1) (0, 0, 0)
      let right := px.getD (e + 1) even
      let f := fun (sel : Nat × Nat × Nat → Nat) => (sel (toYcc fmt left) + 2 * sel (toYcc fmt even) + sel (toYcc fmt right) + 2) / 4
      let ch := if i % 2 = 0 then f (fun t => t.2.1) else f (fun t => t.2.2)
      [(toYcc fmt cur).1, ch].map (reduce fmt line (x + i)))

/-! ### Signatures (R200 to R205) -/

/-- Components as the 16-bit little-endian bytes that a signature covers. -/
def sigBytes (l : List Nat) : List Byte := l.flatMap (fun v => leBytes 2 v)

/-- A latched region register. -/
def Dev.latReg (d : Dev) (n a : Nat) : Nat := (Tab.get Reg.resetWord (d.mxAt n).lat a).toNat

/-- ACTION of a region or of the freeze detector (R202): fallback, or a Fantail check of the output's slice. -/
def Dev.takeAction (d : Dev) (n action r : Nat) : Dev :=
  match action with
  | 2 => d.onMx n (fun m => { m with fbWant := true, fbWhy := m.fbWhy ++ [r] })
  | 3 => if d.ftReq.contains (d.leadSlice n) then d else { d with ftReq := d.leadSlice n :: d.ftReq }
  | _ => d

/-- Region `r` does nothing in a frame of timing `t` (R201). -/
def Dev.rectBad (d : Dev) (n r : Nat) (t : Timing) : Bool :=
  let x := d.latReg n (Reg.MX_RG_X n r)
  let y := d.latReg n (Reg.MX_RG_Y n r)
  decide (bits x 16 13 ≤ bits x 0 13) || decide (bits y 16 13 ≤ bits y 0 13) || decide (t.hAct < bits x 16 13) ||
    decide (t.vAct < bits y 16 13)

/-- May the frame in progress compare: not the first in a new format (R203), not a fallback (R564)? -/
def Dev.mayCompare (d : Dev) (n : Nat) : Bool := !(d.mxAt n).fmtNew && !(d.mxAt n).fallback

/-- Region `r` has been measured with signature `sig` (R201, R202). -/
def Dev.regionEnd (d : Dev) (n r : Nat) (sig : Word) : Dev :=
  let cfg := d.latReg n (Reg.MX_RG_CFG n r)
  let d := d.sg (Reg.MX_RG_MEAS n r) sig
  match bits cfg 0 2 with
  | 3 =>
    let d := d.frameWrite n (Reg.MX_RG_EXP_A n r) sig 0xFFFFFFFF
    d.frameWrite n (Reg.MX_RG_CFG n r) 2 3
  | 2 =>
    if !d.mayCompare n then d else
    let ok := sig.toNat == d.latReg n (Reg.MX_RG_EXP_A n r) || (bits cfg 2 1 == 1 && sig.toNat == d.latReg n (Reg.MX_RG_EXP_B n r))
    if ok then (d.sg (Reg.MX_RG_RUN n r) 0).onMx n (fun m => { m with acted := Tab.put false m.acted r false })
    else
      let run := min 255 ((d.rg (Reg.MX_RG_RUN n r)).toNat + 1)
      let d := (d.inc (Reg.MX_RG_CNT n r)).sg (Reg.MX_RG_RUN n r) (BitVec.ofNat 32 run)
      if max 1 (bits cfg 8 4) ≤ run && !Tab.at false (d.mxAt n).acted r then
        let d := d.onMx n (fun m => { m with acted := Tab.put false m.acted r true })
        let action := bits cfg 4 2
        if action = 0 then d
        else
          let d := (d.sb (if r < 32 then Reg.MX_RG_ALM_LO n else Reg.MX_RG_ALM_HI n) (r % 32)).sb (Reg.MX_ALM_STAT n) 0
          let d : Dev := { d with av := { d.av with capBad := Tab.put false d.av.capBad n true } }
          (d.onMx n (fun m => { m with almRegion := true })).takeAction n action r
      else d
  | _ => d

/-- One formatted pixel passes stage 19: the running signature of every region that holds it, and of the frame. -/
def Dev.signPixel (d : Dev) (n line x : Nat) (comps : List Nat) : Dev :=
  let bs := sigBytes comps
  let put := fun (d : Dev) (k : Nat) (first : Bool) =>
    d.onMx n (fun m =>
      let c : Word := if first then 0xFFFFFFFF else BitVec.ofNat 32 (Tab.at 0 m.crc k)
      { m with crc := Tab.put 0 m.crc k (crcBytes c bs).toNat })
  let d := put d 64 (decide (line = 0) && decide (x = 0))
  (List.range 64).foldl (fun d r =>
    let cfg := d.latReg n (Reg.MX_RG_CFG n r)
    if bits cfg 0 2 = 0 ∨ d.rectBad n r (d.tgAt n).tm then d else
    let xr := d.latReg n (Reg.MX_RG_X n r)
    let yr := d.latReg n (Reg.MX_RG_Y n r)
    let (x0, x1, y0, y1) := (bits xr 0 13, bits xr 16 13, bits yr 0 13, bits yr 16 13)
    if x0 ≤ x ∧ x < x1 ∧ y0 ≤ line ∧ line < y1 then
      let d := put d r (decide (x = x0) && decide (line = y0))
      if x + 1 = x1 ∧ line + 1 = y1 then d.regionEnd n r (BitVec.ofNat 32 (Tab.at 0 (d.mxAt n).crc r) ^^^ 0xFFFFFFFF) else d
    else d) d

/-- The frame's last active pixel has passed (R204, R205). -/
def Dev.frameSigned (d : Dev) (n : Nat) : Dev :=
  let sig : Word := BitVec.ofNat 32 (Tab.at 0 (d.mxAt n).crc 64) ^^^ 0xFFFFFFFF
  let cfg := d.latReg n (Reg.MX_FRZ_CFG n)
  let wants := bits cfg 0 2 = 2 ∨ (bits cfg 0 2 = 1 ∧ bits cfg 2 1 = 1)
  let prev := (d.mxAt n).prevSig
  let d := (d.sg (Reg.MX_FRZ_SIG n) sig).onMx n (fun m => { m with prevSig := some sig.toNat })
  let d :=
    if wants ∧ d.mayCompare n = false then d
    else if wants ∧ prev = some sig.toNat then
      let run := min 65535 ((d.rg (Reg.MX_FRZ_RUN n)).toNat + 1)
      let d := d.sg (Reg.MX_FRZ_RUN n) (BitVec.ofNat 32 run)
      if max 1 (bits cfg 8 8) ≤ run && !Tab.at false (d.mxAt n).acted 64 then
        ((d.sb (Reg.MX_ALM_STAT n) 1).onMx n (fun m => { m with acted := Tab.put false m.acted 64 true, almFreeze := true })).takeAction n
          (bits cfg 4 2) 64
      else d
    else (d.sg (Reg.MX_FRZ_RUN n) 0).onMx n (fun m => { m with acted := Tab.put false m.acted 64 false })
  let m := d.mxAt n
  let d := d.raiseIf ((m.almRegion && d.bt (Reg.MX_ALM_EN n) 0) || (m.almFreeze && d.bt (Reg.MX_ALM_EN n) 1)) (108 + n)
  d.onMx n (fun m => { m with almRegion := false, almFreeze := false })

/-! ### Fallback and capture (R564, R565) -/

/-- AV_FB_COLOR as 12-bit components (R121, R564). -/
def Dev.fbColor (d : Dev) (n : Nat) : Px := { pxRgb10a2 (d.rg (Reg.AV_FB_COLOR n)).toNat with a := 255 }

/-- Byte address of the fallback image of output `n`, if its mode has one: the good capture, or the notice image. -/
def Dev.fbImage (d : Dev) (n : Nat) : Option Nat :=
  let size := 4 * (d.tgAt n).tm.hAct * (d.tgAt n).tm.vAct
  match (if (d.mxAt n).fbPlain then 0 else d.fd (Reg.AV_OUT_CFG n) 0 2) with
  | 1 => if d.bt (Reg.AV_OUT_STAT n) 2 then
      some ((d.rg (Reg.AV_CAP_BASE n)).toNat * 64 + (if d.bt (Reg.AV_OUT_STAT n) 3 then size else 0)) else none
  | 2 => some ((d.rg (Reg.AV_FB_BASE n)).toNat * 64)
  | _ => none

/-- The fallback pixel at (x, line). -/
def W.fbPixel (w : W) (n x line : Nat) : Px :=
  match w.d.fbImage n with
  | none => w.d.fbColor n
  | some base => { pxRgb10a2 (w.lpWord (base + 4 * (line * (w.d.tgAt n).tm.hAct + x))).toNat with a := 255 }

/-- A stage-8 pixel as the capture writes it: RGB10A2 with A 3, each component reduced without dither. -/
def capWord (p : Px) : Word :=
  let r := fun v => reduce 4 0 0 v
  packFields [(0, r p.b), (10, r p.g), (20, r p.r), (30, 3)]

/-! ### A group (R167, R179) -/

/-- The mixed pixels of a group, with the late planes, and the spans the mixer then holds. -/
def W.mixGroupPx (w : W) (due : LineDue) (spans : Tab (Option (List Px))) (x : Nat) : List Px × List Nat × Tab (Option (List Px)) :=
  let lw := due.work
  let (spans, late) := if x % 16 = 0 then w.takeSpans (w.d.tileData due) spans (x / 16) else (spans, [])
  let ok := fun (c : Nat) => w.d.planeOk (Plane.of lw.regs lw.out c)
  let xs := ((List.range 4).map (fun i => x + i)).filter (fun x => decide (x < lw.width))
  (xs.map (mixPixel lw due spans ok), late, spans)

/-- Late spans are counted (R138). -/
def Dev.countLate (d : Dev) (n line : Nat) (late : List Nat) : Dev :=
  late.foldl (fun d pn =>
    let d := (d.inc (Reg.TP_OUT_LATE_CNT n)).sg (Reg.TP_OUT_LAST_LATE n) (packFields [(0, line), (16, pn)])
    let d := if Tab.at false d.tile.lateLine n then d else d.inc (Reg.TP_OUT_LATE_LINES n)
    d.onTile (fun t => { t with lateLine := Tab.put false t.lateLine n true, lateFrame := Tab.put false t.lateFrame n true })) d

/-- The shadow's part of a group (R557): its own mix and running signature. -/
def W.shadowGroup (w : W) (n x : Nat) : W :=
  match (w.d.mxAt n).shNow with
  | none => w
  | some due =>
    if due.kind ≠ .mixed then w.dev (fun d => d.onMx n (fun m => { m with shBad := true }))
    else
      let (px, late, spans) := w.mixGroupPx due (w.d.mxAt n).shSpans x
      let crc := crcBytes (BitVec.ofNat 32 (w.d.mxAt n).shCrc) (px.flatMap (fun (p : Px) => sigBytes [p.r, p.g, p.b]))
      w.dev (fun d => d.onMx n (fun m => { m with shSpans := spans, shCrc := crc.toNat, shBad := m.shBad || !late.isEmpty }))

/-- The line of the target and of its shadow end: they are compared when both are comparable (R557, R558).  The result: `none` with no
shadow, else whether the line was comparable and whether the signatures differ. -/
def Dev.lineCompare (d : Dev) (n : Nat) : Option (Bool × Bool) :=
  let m := d.mxAt n
  m.shNow.map (fun _ => (!m.shBad, m.ftCrc != m.shCrc))

/-- The group at `x` begins the line that is due, or goes on with the line in progress. -/
def Dev.startMixLine (d : Dev) (n x : Nat) : Dev :=
  if x ≠ 0 then d else
  let d := d.onTile (fun t => { t with lateLine := Tab.put false t.lateLine n false })
  d.onMx n (fun m => { m with
    now := m.due, due := none, shNow := m.shDue, shDue := none, row := [], toned := [], outPx := []
    ftCrc := 0xFFFFFFFF, shCrc := 0xFFFFFFFF
    shBad := (match m.due with
      | some x => decide (x.kind ≠ .mixed) || x.dry
      | none => true) || (match m.shDue with
      | some x => x.dry
      | none => false) })

/-- One group of 4 pixels of output `n` enters the mixer at `x` and passes the pipeline (R167, R179).  Without a line handed over
nothing enters.  `miss`: the group's fallback pixels were not read in time (R564). -/
def mixGroup (n x : Nat) (miss : Bool) (w : W) : W :=
  let w := w.dev (fun d => d.startMixLine n x)
  match (w.d.mxAt n).now with
  | none => w
  | some due =>
    let lw := due.work
    if x % 4 ≠ 0 ∨ lw.width ≤ x then w else
    let line := lw.line
    -- stages 0 to 8: the mix, the Fantail tap, plane L
    let (px, w) : List Px × W := match due.kind with
      | .mixed =>
        let (px, late, spans) := w.mixGroupPx due (w.d.mxAt n).spans x
        let crc := crcBytes (BitVec.ofNat 32 (w.d.mxAt n).ftCrc) (px.flatMap (fun (p : Px) => sigBytes [p.r, p.g, p.b]))
        let (sl, patErr, palErr) := w.sluiceGroup n line x lw.width lw.keys (w.d.pubIndex lw.epoch).palPm
        let px := (px.zip sl).map (fun (p : Px × Px) => overOpaque p.2 p.1)
        (px, w.dev (fun d =>
          let d := d.countLate n line late
          let d := if patErr then d.sb (Reg.SL_LSTAT n) 0 else d
          let d := if palErr then d.tpStat 4 else d
          d.onMx n (fun m => { m with spans := spans, ftCrc := crc.toNat, row := px.reverse ++ m.row,
                                      shBad := m.shBad || !late.isEmpty })))
      | .repeatLast =>
        let blank : List Px := List.replicate lw.width {}
        let row := (w.d.mxAt n).last.getD blank
        ((row.drop x).take 4, w)
      | .black => (List.replicate (min 4 (lw.width - x)) {}, w)
    let w := w.shadowGroup n x
    -- stage 8: fallback (R564) and capture (R565)
    let fb : Bool := (w.d.mxAt n).fallback
    let xs := (List.range px.length).map (fun i => x + i)
    let px8 : List Px := if fb then xs.map (fun x => if miss then w.d.fbColor n else w.fbPixel n x line) else px
    let w : W := match (w.d.mxAt n).capBuf with
      | none => w
      | some b =>
        let base := (w.d.rg (Reg.AV_CAP_BASE n)).toNat * 64 + b * (4 * (w.d.tgAt n).tm.hAct * (w.d.tgAt n).tm.vAct)
        (px8.zip xs).foldl (fun (w : W) (p : Px × Nat) => w.lpWrite (base + 4 * (line * (w.d.tgAt n).tm.hAct + p.2)) (leBytes 4 (capWord p.1).toNat)) w
    -- stages 8 to 18: tone mapping and formatting
    let fmt := (w.d.mxAt n).fmt.toNat
    let toned := px8.map (w.d.tone lw)
    let comps := formatGroup fmt line x (w.d.mxAt n).toned.head? toned
    w.dev (fun (d : Dev) =>
      let d := (comps.zip xs).foldl (fun (d : Dev) (p : List Nat × Nat) => d.signPixel n line p.2 p.1) d
      let d := d.onMx n (fun m => { m with toned := toned.reverse.take 1, outPx := comps.reverse ++ m.outPx })
      -- stage 20: a PIXEL packet whose last pixel has reached the framer (R282)
      let p := pktPixels (d.ff (Reg.FL_CFG n) 8 2)
      let cnt := (d.mxAt n).outPx.length
      let endLine := decide (lw.width ≤ x + 4)
      let d := if cnt = p ∨ (endLine ∧ cnt ≠ 0) then
          (d.pixelPacket n line (x + px.length - cnt) (fmtDepth fmt) (d.mxAt n).outPx.reverse).onMx n (fun m => { m with outPx := [] })
        else d
      if endLine then
        let d := if due.kind = LineKind.mixed then d.onMx n (fun m => { m with last := some m.row.reverse }) else d
        if line + 1 = (d.tgAt n).tm.vAct then d.frameSigned n else d
      else d)

/-! ### Table window and format writes (R194, R197, R206) -/

/-- The free bank of output `n` (R194). -/
def Dev.freeBank (d : Dev) (n : Nat) : Nat := 1 - d.fd (Reg.MX_TBL_CFG n) 0 1

/-- Is a committed change of BANK not yet taken up: the free bank is still the bank in force? -/
def Dev.bankPending (d : Dev) (n : Nat) : Bool :=
  d.runsFrame n && decide (d.ff (Reg.MX_TBL_CFG n) 0 1 = d.freeBank n)

/-- A write to the table window: the free bank, unless a copy runs or a bank change waits; handled by R12 at the basic level. -/
def tableWrite (n off : Nat) (v mask : Word) (d : Dev) : Dev :=
  if !tableListed off then d
  else if !d.level (.mx n) then d.sb (Reg.MX_STAT n) 0
  else if d.bt (Reg.MX_TBL_CMD n) 1 || d.bankPending n then d.sb (Reg.MX_STAT n) 4
  else
    let b := d.freeBank n
    let new := mergeWord ((d.mxAt n).tbl.word b off) (v &&& tableMask off) mask
    d.onMx n (fun m => { m with tbl := m.tbl.put b off new })

/-- A read of the table window: the free bank. -/
def Dev.tableRead (d : Dev) (n off : Nat) : Word := 
  if tableListed off then (d.mxAt n).tbl.word (d.freeBank n) off else 0

/-- A write of MX_TBL_CMD.COPY. -/
def tableCopy (n : Nat) (w : Word) (d : Dev) : Dev :=
  if !w.getLsbD 0 then d
  else if d.bt (Reg.MX_TBL_CMD n) 1 || d.bankPending n then d.sb (Reg.MX_STAT n) 4
  else (d.sb (Reg.MX_TBL_CMD n) 1).onMx n (fun m => { m with copyAt := d.cclks + 848 })

/-- The copy ends: the free bank holds what the bank in use holds. -/
def tableCopyDone (n : Nat) (d : Dev) : Dev :=
  if !d.bt (Reg.MX_TBL_CMD n) 1 then d else
  let b := d.freeBank n
  (d.onMx n (fun m => { m with tbl := m.tbl.copyTo b })).cb (Reg.MX_TBL_CMD n) 1

/-- A write of MX_FMT (R197). -/
def mxFmtWrite (n : Nat) (w : Word) (d : Dev) : Dev :=
  if bits w.toNat 0 2 = 3 ∨ bits w.toNat 2 2 = 3 then d.sb (Reg.MX_STAT n) 3
  else
    let w := w &&& 0x7F
    (d.sg (Reg.MX_FMT n) w).onMx n (fun m => { m with fmtPend := some w })

end Sys2Proof.Machine
end

