-- ==== Sys2Proof/Machine/Bus.lean ====
section
/-!
DEFINITION. Writes to the registers of the content blocks (TG, OBJ, TP, SL, MX, DM, FL, AUD: the ranges of R244), by BAR0 offset.
Each register acts by its chapter's rule; a register with no rule of its own acts by its access codes (R8).  `mask` selects the bytes
written.
-/

namespace Sys2Proof.Machine

/-- The block's CTRL write (R13 to R15, R617). -/
def Dev.ctrlWrite (b : Block) (w : Word) (d : Dev) : Dev :=
  match b with
  | .tick => tickCtrlWrite w d
  | .tg n => tgCtrlWrite n w d
  | .fl n => flCtrlWrite n w d
  | .sl s =>
    -- the leading slice's registers govern a gang (R146)
    if d.bt (Reg.SL_BIND s) 7 && d.bt (Reg.SL_BIND s) 8 then d.sb (Reg.SL_STAT s) 0 else d.blockCtrl b 0xF1 w
  | .ring => d.blockCtrl b 0x1F1 w
  | _ => d.blockCtrl b 0xF1 w

/-- TG registers of output `n` (Table 2-6). -/
def Dev.tgWrite (d : Dev) (n a : Nat) (v mask : Word) : Dev :=
  let w := mergeWord (d.rg a) v mask
  if a = Reg.TG_CTRL n then d.ctrlWrite (.tg n) w
  else if (tgTiming n).contains a then
    if d.portFollower n then d.sb (Reg.TG_STAT n) 0 else tgTimingWrite n a (mergeWord (d.rg a) v (mask &&& rwMask a)) d
  else d.plainWrite a v mask

/-- Tick registers (Table 2-5). -/
def Dev.tickWrite (d : Dev) (a : Nat) (v mask : Word) : Dev :=
  let w := mergeWord (d.rg a) v mask
  if a = Reg.TG_TICK_CTRL then tickCtrlWrite w d
  else if a = Reg.TG_TICK_RATE_DEN then tickRateSubmit w d
  else if a = Reg.TG_AUD_CFG then audCfgWrite w d
  else if a = Reg.TG_TICK_RATE_NUM then (if d.level .tick then d.sg a w else d.sb Reg.TG_TICK_STAT 0)
  else if a = Reg.TG_TICK_OUT_CFG ∨ a = Reg.TG_TICK_SLEW then
    if d.level .tick then
      let x := mergeWord (d.rg a) v (mask &&& rwMask a)
      (d.sg a x).sfr a x
    else d.sb Reg.TG_TICK_STAT 0
  else d.plainWrite a v mask

/-- OBJ and BOL registers (Tables 3-6 to 3-8). -/
def Dev.objWrite (d : Dev) (a : Nat) (v mask : Word) : Dev :=
  let w := mergeWord (d.rg a) v mask
  if a = Reg.OBJ_CTRL then d.ctrlWrite .obj w
  else if a = Reg.OBJ_PEEK_SEL then objPeek w d
  else if a = Reg.OBJ_GPEEK_SEL then objGPeek w d
  else d.plainWrite a v mask

/-- TP registers (Tables 4-6 to 4-9): the plane registers have frame values (R118). -/
def Dev.tpWrite (d : Dev) (a : Nat) (v mask : Word) : Dev :=
  let w := mergeWord (d.rg a) v mask
  if a = Reg.TP_CTRL then d.ctrlWrite .tp w
  else if a = Reg.TP_INV_CMD then (if (v &&& mask).getLsbD 0 then cacheInvalidate d else d)
  else match frameOutput a with
    | some n => d.frameWrite n a v (mask &&& rwMask a)
    | none => d.plainWrite a v mask

/-- SL registers of slice blocks, and the sluice units (Tables 5-10 to 5-12). -/
def Dev.slBlockWrite (d : Dev) (a : Nat) (v mask : Word) : Dev :=
  if a < 0x440000 then
    let s := (a - 0x400000) / 0x1000
    let w := mergeWord (d.rg a) v mask
    if a = Reg.SL_CTRL s then d.ctrlWrite (.sl s) w
    else if (a == Reg.SL_CFG s || a == Reg.SL_LEAD s) && d.bt (Reg.SL_BIND s) 7 && d.bt (Reg.SL_BIND s) 8 then d.sb (Reg.SL_STAT s) 0
    else d.plainWrite a v mask
  else if a < 0x500000 then d
  else if a < 0x600000 then
    let n := (a - 0x500000) / 0x1000
    let o := (a - 0x500000) % 0x1000
    let vm := v &&& mask
    if 48 ≤ n then d
    else if o < 0x400 then d.slWrite n (o / 4) v mask
    else if o < 0x800 then d.slStage n ((o - 0x400) / 4) v mask
    else match o with
      | 0x800 => d.slCommit n vm
      | 0x80C => d.slLen n 0 vm true
      | 0x810 => d.slLen n 1 vm true
      | 0x814 => d.slLen n 0 vm false
      | 0x818 => d.slLen n 1 vm false
      | _ =>
        if 0x820 ≤ o ∧ o < 0x840 then d.routeWrite n ((o - 0x820) / 4) (mergeWord (d.rg a) v mask)
        else d.plainWrite a v mask
  else if a < 0x600000 + 48 * 0x4000 then d.slStorePut a v mask
  else d

/-- MX registers (Tables 6-7 to 6-10) and the table windows. -/
def Dev.mxWrite (d : Dev) (a : Nat) (v mask : Word) : Dev :=
  if 0x820000 ≤ a ∧ a < 0x9A0000 then tableWrite ((a - 0x820000) / 0x8000) ((a - 0x820000) % 0x8000) v mask d
  else if a < 0x820000 then
    let n := (a - 0x800000) / 0x800
    let w := mergeWord (d.rg a) v mask
    if 48 ≤ n then d
    else if a = Reg.MX_CTRL n then d.ctrlWrite (.mx n) w
    else if a = Reg.MX_FMT n then mxFmtWrite n w d
    else if a = Reg.MX_TBL_CMD n then tableCopy n (v &&& mask) d
    else match frameOutput a with
      | some k =>
        if ((RegTable.find a).map (·.expert)).getD false && !d.level (.mx n) then d.sb (Reg.MX_STAT n) 0
        else d.frameWrite k a v (mask &&& rwMask a)
      | none => d.plainWrite a v mask
  else match frameOutput a with
    | some k => d.frameWrite k a v (mask &&& rwMask a)
    | none => d.plainWrite a v mask

/-- DM registers (Table 7-9) and the program memories. -/
def Dev.dmBlockWrite (d : Dev) (a : Nat) (v mask : Word) : Dev :=
  if 0xA10000 ≤ a then
    if a < 0xA10000 + 48 * 0x4000 then dmPmWrite ((a - 0xA10000) / 0x4000) ((a - 0xA10000) % 0x4000 / 4) v mask d else d
  else
    let n := (a - 0xA00000) / 0x100
    let w := mergeWord (d.rg a) v mask
    let vm := v &&& mask
    if 48 ≤ n then d
    else if a = Reg.DM_CTRL n then d.ctrlWrite (.dm n) w
    else if a = Reg.DM_EV_TRIG n then dmEvTrig n vm d
    else if a = Reg.DM_FLAGS_SET n then d.sg (Reg.DM_FLAGS n) (d.rg (Reg.DM_FLAGS n) ||| (vm &&& 0xFFFF))
    else if a = Reg.DM_FLAGS_CLR n then d.sg (Reg.DM_FLAGS n) (d.rg (Reg.DM_FLAGS n) &&& ~~~(vm &&& 0xFFFF))
    else match (List.range 8).find? (fun i => a == Reg.DM_EV_SEL n i) with
      | some i => dmEvSelWrite n i w d
      | none =>
        match frameOutput a with
        | some k => d.frameWrite k a v (mask &&& rwMask a)
        | none => d.plainWrite a v mask

/-- FL registers (Table 9-10) and the AUX buffers. -/
def Dev.flWrite (d : Dev) (a : Nat) (v mask : Word) : Dev :=
  let n := (a - 0x1000000) / 0x400
  let o := (a - 0x1000000) % 0x400
  let w := mergeWord (d.rg a) v mask
  if 48 ≤ n then d
  else if 0x200 ≤ o then auxBufWrite n ((o - 0x200) / 0x100) (o % 0x100 / 4) v mask d
  else if a = Reg.FL_CTRL n then d.ctrlWrite (.fl n) w
  else if a = Reg.FL_CFG n then flCfgWrite n w d
  else if a = Reg.FL_TX_EQ n then
    -- FL_TX_EQ takes effect at once (R295)
    if d.level (.fl n) then
      let x := mergeWord (d.rg a) v (mask &&& rwMask a)
      (d.sg a x).sfr a (takenWord a x)
    else d.sb (Reg.FL_STAT n) 0
  else if a = Reg.FL_CMD n then flCmdWrite n (v &&& mask) d
  else if a = Reg.FL_AUX_CTRL n 0 then auxCtrlWrite n 0 w d
  else if a = Reg.FL_AUX_CTRL n 1 then auxCtrlWrite n 1 w d
  else d.plainWrite a v mask

/-- AUD registers (Tables 11-11 to 11-15) and the parameter memory. -/
def Dev.audWrite (d : Dev) (a : Nat) (v mask : Word) : Dev :=
  let w := mergeWord (d.rg a) v mask
  if 0x1220000 ≤ a then d
  else if 0x1210000 ≤ a then paramWrite ((a - 0x1210000) / 4) v mask d
  else if 0x1208000 ≤ a then
    let vo := (a - 0x1208000) / 0x20
    let k := (a - 0x1208000) % 0x20 / 4
    if 1024 ≤ vo then d
    else if k < 6 then voiceWrite vo k v mask d
    else if k = 6 then voiceCtrlWrite vo (v &&& mask) d
    else d
  else if 0x1203000 ≤ a then (if a < 0x1203200 then safeBufWrite a v mask d else d)
  else if a = Reg.AUD_CTRL then d.ctrlWrite .aud w
  else if a = Reg.AUD_SAFE_CTRL then safeCtrlWrite (mergeWord (d.rg a) v mask) d
  else if tdmPort a then tdmCfgWrite a w d
  else d.plainWrite a v mask

/-- Does R244 let REG_AT_TICK and REG_NOW name the register at `a`? -/
def regRange (a : Nat) : Bool :=
  (decide (0x100000 ≤ a) && decide (a ≤ 0xBFFFFF)) || (decide (0x1000000 ≤ a) && decide (a ≤ 0x100BFFF)) ||
  (decide (0x1200000 ≤ a) && decide (a ≤ 0x12FFFFF))

/-- Does `a` lie in a sluice unit or a pattern store, which no hopper record writes (Table 5-7; log entry 77)? -/
def sluiceRange (a : Nat) : Bool :=
  (decide (0x500000 ≤ a) && decide (a < 0x530000)) || (decide (0x600000 ≤ a) && decide (a < 0x6C0000))

/-- A write to the content blocks at BAR0 offset `a`, as the host's. -/
def Dev.contentWrite (d : Dev) (a : Nat) (v mask : Word) : Dev :=
  if a < 0x100000 then d
  else if a < 0x200000 then
    if a < 0x10C000 then d.tgWrite ((a - 0x100000) / 0x400) a v mask else d.tickWrite a v mask
  else if a < 0x300000 then d.objWrite a v mask
  else if a < 0x400000 then d.tpWrite a v mask
  else if a < 0x800000 then d.slBlockWrite a v mask
  else if a < 0xA00000 then d.mxWrite a v mask
  else if a < 0xC00000 then d.dmBlockWrite a v mask
  else if 0x1000000 ≤ a ∧ a < 0x100C000 then d.flWrite a v mask
  else if 0x1200000 ≤ a ∧ a < 0x1300000 then d.audWrite a v mask
  else d

/-- The slices of output `n`. -/
def Dev.slicesFor (d : Dev) (n : Nat) : List Nat :=
  if !d.bt (Reg.SL_OUT_BIND n) 16 then []
  else if d.bt (Reg.SL_OUT_BIND n) 14 then [d.fd (Reg.SL_OUT_BIND n) 0 6, d.fd (Reg.SL_OUT_BIND n) 8 6]
  else [d.fd (Reg.SL_OUT_BIND n) 0 6]

/-- The update points of an output that runs no frame are the tick itself (R15). -/
def Dev.idleOutputTick (d : Dev) (n : Nat) : Dev :=
  -- a port whose output has no live slice runs no frames either (R290, R295)
  let d := if (d.runsFrame n && d.bt (Reg.SL_OUT_BIND n) 16) || (Tab.at none d.upds (Reg.FL_CTRL n)).isNone then d else d.flApply n
  if d.runsFrame n then d else
  let d := if (Tab.at none d.upds (Reg.TG_CTRL n)).isSome then d.applyTiming n else d
  let d := (d.reachUpdate (.mx n)).reachUpdate (.dm n)
  let d := (d.slicesFor n).foldl (fun d s => d.reachUpdate (.sl s)) d
  let d := d.onMx n MxOut.takeFmt
  d.onTile (fun t => { t with missFill := Tab.put false t.missFill n (d.fbt Reg.TP_MISS_CFG 0) })

/-- TP_MISS_CFG at its update point, a tick: OBJ_WAYS above 12 is taken as 12 (R140). -/
def Dev.missCfgTick (d : Dev) : Dev :=
  let d := d.reachUpdate .tp
  d.onTile (fun t => { t with objWays := min 12 (d.ff Reg.TP_MISS_CFG 4 4) })

/-- A register write by a commit for which the tick of the commit is "the next mill tick" after it (R256): a change that it schedules has
seen its tick, and takes effect at once for an output that runs no frame. -/
def Dev.tickedWrite (d : Dev) (a : Nat) (v mask : Word) : Dev :=
  let d1 := ({ d with upds := [] } : Dev).contentWrite a v mask
  let fmt := (indexOf (Reg.MX_FMT 0) 0x800 48 a)
  let d1 := match fmt with
    | some n => d1.onMx n MxOut.armFmt
    | none => d1
  let idle := fmt.isNone && d1.upds.isEmpty
  let d1 := d1.tickUpdates.missCfgTick
  let d1 := if idle then d1 else (List.range 48).foldl Dev.idleOutputTick d1
  { d1 with upds := d1.upds.foldl (fun t (p : Nat × Option Upd) => Tab.put none t p.1 p.2) d.upds }

/-- A register write by a commit (R256): a frame value for the registers that have one, any other as a host write; no byte writes
nothing (R243). -/
def Dev.commitWrite (d : Dev) (a : Nat) (v mask : Word) : Dev :=
  if sluiceRange a || mask == 0 then d else
  match frameOutput a with
  | some n =>
    match (RegTable.find a).bind (fun r => r.block a) with
    | some b => if d.level b then d.commitFrame n a (mergeWord (d.rg a) v (mask &&& rwMask a)) else d.sb b.stat 0
    | none => d.commitFrame n a (mergeWord (d.rg a) v (mask &&& rwMask a))
  | none => d.tickedWrite a v mask

end Sys2Proof.Machine
end

