-- ==== Sys2Proof/Machine/Port.lean ====
section
/-!
DEFINITION. Port B of the SRAM banks (R87, R132, R372, R469, R524): what a write through it changes and what a read returns.
-/

namespace Sys2Proof.Machine

/-- What a requester of port B may do beside the rest. -/
structure PortRight where
  /-- It is KC3, or a unit that works for it: it reaches bank 95 (R372). -/
  secure : Bool := false
  /-- It is the host's load of R512 into banks 90 to 93. -/
  hostLoad : Bool := false
  /-- It is a copy of the boot sequencer, IMAGE_VERIFY or arming (R524). -/
  stager : Bool := false

/-- SRAM byte of a core address in 0x2000_0000 to 0x2BFF_FFFF. -/
def sramOfCore (a : Nat) : Nat := a - 0x20000000

/-- Does SRAM byte `a` lie in the staging region?  Before the first load the region is banks 90 to 93. -/
def Dev.inStage (d : Dev) (a : Nat) : Bool :=
  if d.loaded then
    let b := (d.rg Reg.UPD_STAGE_BASE).toNat
    decide (b ≤ a) && decide (a < b + (d.rg Reg.UPD_STAGE_SIZE).toNat)
  else decide (bankBase 90 ≤ a) && decide (a < bankBase 94)

/-- Bytes of each image area of core `c` (R392). -/
def Dev.areaLen (d : Dev) (c : Nat) : Nat := (d.fd (Reg.KC_IMG_LEN c) 0 16 + d.fd (Reg.KC_IMG_LEN c) 16 16) * 64

/-- Does SRAM byte `a` lie in an image area of a core? -/
def Dev.inArea (d : Dev) (a : Nat) : Bool :=
  (List.range 4).any (fun c => [Reg.KC_IMG_A c, Reg.KC_IMG_B c].any (fun r =>
    let b := (d.rg r).toNat
    decide (0x20000000 ≤ b) && decide (sramOfCore b ≤ a) && decide (a < sramOfCore b + d.areaLen c)))

/-- Is SRAM byte `a` protected by R524 against this requester? -/
def Dev.staged (d : Dev) (r : PortRight) (a : Nat) : Bool :=
  !r.stager && !(r.hostLoad && decide (bankBase 90 ≤ a) && decide (a < bankBase 94)) && (d.inStage a || d.inArea a)

/-- Does a port B write of the requester change byte `a`? -/
def Dev.portTakes (d : Dev) (r : PortRight) (a : Nat) : Bool :=
  let b := a / 2 ^ 21
  !(decide (b < 32)) && !(decide (72 ≤ b) && decide (b ≤ 81)) && (b != 95 || (r.secure && !d.bt Reg.SEC_STAT 1)) && !d.staged r a

/-! ### Partitions that the device does not guard (R469)

The spec gives no byte layout for the index, the cache, the line buffers, the signal and state memories of the audio partition and the
pond.  A port B write that falls in one leaves each number held there free, and a port B read of it returns free bytes (log entry 37). -/

/-- A number at a place becomes free. -/
def Dev.scr (d : Dev) (place : List Nat) (v : Nat) : Nat := Config.scribble d.free place v

/-- A list with a free value at each place. -/
def scrList {α : Type} (l : List α) (f : Nat → α → α) : List α := (l.zip (List.range l.length)).map (fun p => f p.2 p.1)

/-- The entries of a bin: headers give their number. -/
def Dev.scrBin (d : Dev) (key : List Nat) (l : List Entry) : List Entry :=
  (List.range (d.scr (0 :: key) l.length % 16384)).map (fun i =>
    Entry.ofWord (BitVec.ofNat 32 (d.scr ((i + 1) :: key) (l.getD i {}).word.toNat)))

/-- An index: bin table with its viewports, and chunks (R90). -/
def Dev.scrIndex (d : Dev) (ix : Index) : Index :=
  { ix with outs := ix.outs.map (fun (p : Nat × OutIdx) =>
      let s := fun k v => d.scr [32, ix.epoch, p.1, k] v
      let v := p.2.vp
      (p.1, { p.2 with
        vp := { v with enable := s 0 v.enable.toNat % 2 == 1, canvas := s 1 v.canvas % 256, vx := s 2 v.vx % 65536, vy := s 3 v.vy % 65536 }
        bins := p.2.bins.map (fun (q : Nat × List Entry) => (q.1, d.scrBin [32, ix.epoch, p.1, q.1, 4] q.2)) })) }

/-- A pixel of a line buffer. -/
def Dev.scrPx (d : Dev) (key : List Nat) (p : Px) : Px :=
  { r := d.scr (0 :: key) p.r % 4096, g := d.scr (1 :: key) p.g % 4096, b := d.scr (2 :: key) p.b % 4096, a := d.scr (3 :: key) p.a % 256
    hi := p.hi }

/-- Line sets of a line. -/
def Dev.scrLine (d : Dev) (key : List Nat) (l : LineWork) : LineWork :=
  { l with s0 := scrList l.s0 (fun i => d.scrPx (0 :: i :: key)), s1 := scrList l.s1 (fun i => d.scrPx (1 :: i :: key)) }

/-- Line sets and scaled lines handed to an output. -/
def Dev.scrDue (d : Dev) (key : List Nat) (l : LineDue) : LineDue :=
  { l with work := d.scrLine key l.work, v0 := l.v0.map (fun v => scrList v (fun i => d.scrPx (2 :: i :: key)))
           v1 := l.v1.map (fun v => scrList v (fun i => d.scrPx (3 :: i :: key))) }

/-- The partition of bank `b` is overwritten where nothing guards it. -/
def Dev.scribble (d : Dev) (b : Nat) : Dev :=
  if !d.loaded then d
  else if 32 ≤ b ∧ b < 40 then
    d.onObj (fun s => { s with indexes := s.indexes.map d.scrIndex
                               build := s.build.map (fun x => { x with idx := d.scrIndex x.idx }) })
  else if 40 ≤ b ∧ b < 72 then
    let bytes := fun (key : List Nat) (l : List Byte) => scrList l (fun i x => BitVec.ofNat 8 (d.scr (i :: key) x.toNat))
    { d with tile := { d.tile with
        cache := d.tile.cache.map (fun p => (p.1, p.2.map (fun c => { c with data := c.data.map (bytes [40, c.line]) })))
        locked := d.tile.locked.map (fun p => (p.1, bytes [41, p.1] p.2)) } }
  else if 82 ≤ b ∧ b < 86 then
    { d with
      slice := d.slice.map (fun p => (p.1, { p.2 with lines := p.2.lines.map (fun l => d.scrLine [82, p.1, l.line] l) }))
      vid := d.vid.map (fun p => (p.1, { p.2 with
        scaled := p.2.scaled.map (fun q => (q.1, scrList q.2 (fun i => d.scrPx [83, i, p.1, q.1]))) }))
      mx := d.mx.map (fun p => (p.1, { p.2 with
        due := p.2.due.map (d.scrDue [84, p.1]), now := p.2.now.map (d.scrDue [85, p.1])
        shDue := p.2.shDue.map (d.scrDue [86, p.1]), shNow := p.2.shNow.map (d.scrDue [87, p.1]) })) }
  else if 86 ≤ b ∧ b < 90 then
    { d with aud := { d.aud with sig := d.aud.sig.map (fun p => (p.1, signed 24 (d.scr [88, p.1] p.2.toNat)))
                                 env := d.aud.env.map (fun p => (p.1, signed 32 (d.scr [89, p.1] p.2.toNat))) } }
  else if b = 94 then
    { d with hop := { d.hop with pond := d.hop.pond.map (fun r =>
        { r with words := scrList r.words (fun i v => BitVec.ofNat 32 (d.scr [94, r.order, i] v.toNat)) }) } }
  else d

/-- Is SRAM byte `a` one whose meaning the spec gives no byte layout for? -/
def Dev.rawByte (d : Dev) (a : Nat) : Bool :=
  let b := a / 2 ^ 21
  d.loaded && ((decide (32 ≤ b) && decide (b < 72)) || (decide (82 ≤ b) && decide (b < 86)) || b == 94 ||
    (decide (86 ≤ b) && decide (b < 90) && decide (bankBase 86 + d.aud.sampleBytes ≤ a)))

/-- The partition of SRAM byte `a` among those of no stated layout. -/
def rawPartOf (a : Nat) : Nat :=
  let b := a / 2 ^ 21
  if b < 40 then 0 else if b < 72 then 1 else if b < 86 then 2 else if b < 90 then 3 else 4

/-- What the engines hold in it. -/
def Dev.rawHeld (d : Dev) : Nat → RawPart
  | 0 => .index d.obj.indexes d.obj.build
  | 1 => .cache d.tile.cache d.tile.locked
  | 2 => .line d.slice d.vid d.mx
  | 3 => .audio d.aud.sig d.aud.env
  | _ => .pond d.hop.pond

/-- Does byte `a` still hold what port B stored in it: has the engine that serves port A changed nothing in the partition since? -/
def Dev.rawStored (d : Dev) (a : Nat) : Bool :=
  match Tab.at none d.rawKeep (rawPartOf a) with
  | some k => k.addrs.contains a && k.held == d.rawHeld (rawPartOf a)
  | none => false

/-- Port B has stored bytes at addresses `l` of partition `p`; `old` is the device before. -/
def Dev.rawStore (old d : Dev) (p : Nat) (l : List Nat) : Dev :=
  let kept := match Tab.at none old.rawKeep p with
    | some k => if k.held == old.rawHeld p then k.addrs.filter (fun a => !l.contains a) else []
    | none => []
  { d with rawKeep := Tab.put none d.rawKeep p (some { addrs := l ++ kept, held := d.rawHeld p }) }

/-- A port B write of bytes at SRAM address `a` (R469): the object store, tile maps and palettes ignore it (R87, R132), as do the
staging region and the image areas (R524). -/
def W.portWriteBy (w : W) (r : PortRight) (a : Nat) (l : List Byte) : W :=
  let bs := banksOf a l.length
  let idx := List.range l.length
  let d := w.d
  let w := if bs.any (fun b => decide (b < 32)) then w.dev (fun d => d.objStat 1) else w
  let w := if bs.any (fun b => decide (72 ≤ b) && decide (b ≤ 81)) then w.dev (fun d => d.tpStat 1) else w
  let w := if idx.any (fun i => d.staged r (a + i)) then w.dev (fun d => d.sb Reg.UPD_STAT 3) else w
  let raw := (idx.map (· + a)).filter (fun x => d.portTakes r x && d.rawByte x)
  let touched := bs.filter (fun b => raw.any (fun x => x / 2 ^ 21 == b))
  let w := if raw.isEmpty then w else
    (w.dev (fun d => (touched.foldl Dev.scribble d).useFree)).dev (fun d1 =>
      (raw.map rawPartOf).eraseDups.foldl (fun d1 p => Dev.rawStore d d1 p (raw.filter (fun x => rawPartOf x == p))) d1)
  (l.zip idx).foldl (fun w (p : Byte × Nat) => if d.portTakes r (a + p.2) then w.wr .sram (a + p.2) p.1 else w) w

/-- A port B write of a requester with no right beside the rest. -/
def W.portWrite (w : W) (a : Nat) (l : List Byte) : W := w.portWriteBy {} a l

/-- A port B read (R87, R469): the object store returns the slots as they stand, object n in 64 bytes with slot A first; a partition of no
stated layout returns free bytes, but what port B itself stored as long as no engine has written there since; every other the bytes
stored. -/
def W.portByte (w : W) (a : Nat) : Byte :=
  if a < 2 ^ 26 then
    let o := w.d.objAt (a / 64)
    let r := if a % 64 < 32 then o.a else o.b
    BitVec.ofNat 8 ((r.word (a % 32 / 4)).toNat / 2 ^ (8 * (a % 4)))
  else if w.d.rawByte a && !w.d.rawStored a then BitVec.ofNat 8 (Config.scribble w.d.free [a] (w.rd .sram a).toNat)
  else w.rd .sram a

/-- `n` bytes through port B. -/
def W.portRead (w : W) (a n : Nat) : List Byte := (List.range n).map (fun i => w.portByte (a + i))

end Sys2Proof.Machine
end

