-- ==== Sys2Proof/Machine/Hopper.lean ====
section
/-!
DEFINITION. The hopper (chapter 08): descriptors, service, ingest, stamps and cuts, the pond, fences, markers and trackers; with the
ring time, the injection queue and the posted writes to host memory that it uses.
-/

namespace Sys2Proof.Machine

/-- Change the hopper. -/
def Dev.onHop (d : Dev) (f : Hop → Hop) : Dev := { d with hop := f d.hop }

/-- Change the ring node. -/
def Dev.onRing (d : Dev) (f : Ring → Ring) : Dev := { d with ring := f d.ring }

/-! ### Writes to host memory (R483, R484) -/

/-- Bus Master Enable. -/
def Dev.bme (d : Dev) : Bool := d.bt Reg.MEM_PCIE_STAT 9 && d.bt Reg.MEM_PCIE_STAT 0

/-- May a posted write leave at once (R483)? -/
def Dev.hostFree (d : Dev) : Bool := d.bme && d.hostq.isEmpty

/-- A posted write of the device to host memory; without Bus Master Enable it waits (R483). -/
def W.hostWrite (w : W) (kind id a : Nat) (l : List Byte) : W :=
  if w.d.hostFree then w.wrBytes .host a l
  else w.dev (fun d => { d with hostq := d.hostq ++ [{ kind := kind, id := id, addr := a, bytes := l }] })

/-- Bytes of SRAM: the 96 banks. -/
def sramBytes : Nat := 96 * 2 ^ 21

/-- The byte at the cores' SRAM window address `a` (Table 12-1); outside the window, and in bank 95, which the hopper does not reach (R36), a
free value. -/
def W.rdWin (w : W) (a : Nat) : Byte :=
  if 0x20000000 ≤ a ∧ a < 0x20000000 + bankBase 95 then w.portByte (a - 0x20000000) else Config.hostByte w.d.free a

/-! ### Ring time, the node and injection (R246, R298, R306, R314) -/

/-- Ring time, ns. -/
def Dev.ringTime (d : Dev) : Nat := ((d.tb : Int) + d.ring.rtOff).toNat

/-- Is the node standalone (R298)? -/
def Dev.standalone (d : Dev) : Bool := decide (d.fd Reg.RING_CFG 0 7 ≤ 1)

/-- This node's ID. -/
def Dev.nodeId (d : Dev) : Nat := d.fd Reg.RING_NODE 0 6

/-- NSTATE (Table 10-4). -/
def Dev.nstate (d : Dev) : Nat := if d.standalone then 3 else d.ring.nst

/-- Does the node tap and inject (R306)? -/
def Dev.tapping (d : Dev) : Bool := d.nstate == 3 && d.loaded && d.bt Reg.RING_CTRL 8

/-- The horizon in force, ns (R247, R321). -/
def Dev.horizon (d : Dev) : Nat := d.fd Reg.RING_HORIZON 0 19

/-- The horizon for tick `n`. -/
def Dev.horizonFor (d : Dev) (n : Nat) : Nat :=
  match d.ring.hzPend with
  | some (ns, at_) => if at_ ≤ n then ns else d.horizon
  | none => d.horizon

/-- Two words as one data block. -/
def pack64 (lo hi : Word) : BitVec 64 := BitVec.ofNat 64 (lo.toNat + hi.toNat * 2 ^ 32)

/-- The data blocks of a word list. -/
def packWords : List Word → List (BitVec 64)
  | a :: b :: l => pack64 a b :: packWords l
  | [a] => [pack64 a 0]
  | [] => []

/-- The words of data blocks. -/
def unpackWords (l : List (BitVec 64)) : List Word :=
  l.flatMap (fun v => [BitVec.ofNat 32 v.toNat, BitVec.ofNat 32 (v.toNat / 2 ^ 32)])

/-- A frame enters the injection queue of 64 frames (R305).  The hopper fetches no record that would find it full (R251); a mailbox message
or a notice waits for a place (DESIGN CHOICE, log entry 89). -/
def Dev.inject (d : Dev) (kind : Nat) (ds : List (BitVec 64)) : Dev :=
  let f : RFrame := { origin := d.nodeId, ds := ds }
  d.onRing (fun r =>
    if r.injq.length < 64 then { r with injq := r.injq ++ [(d.tb, kind, f)] } else { r with injWait := r.injWait ++ [(kind, f)] })

/-! ### Cuts and assigned ticks (R246 to R248, R620) -/

/-- n0: the smallest tick whose cut lies above stamp `s`. -/
def Dev.n0 (d : Dev) (s : Nat) : Nat :=
  match (d.hop.cuts.filter (fun c => decide (s < c.2))).getLast? with
  | some c => c.1
  | none => match d.hop.cuts.head? with
    | some c => c.1 + 1
    | none => d.tick.num + 1

/-- TYPE of a record. -/
def recType (ws : List Word) : Nat := bits (ws.getD 0 0).toNat 0 5
/-- TARGET. -/
def recTarget (ws : List Word) : Nat := bits (ws.getD 0 0).toNat 5 2
/-- SHARED. -/
def recShared (ws : List Word) : Bool := (ws.getD 0 0).getLsbD 7
/-- Body word b0 to b5. -/
def recB (ws : List Word) (i : Nat) : Word := ws.getD (2 + i) 0

/-- The explicit target tick (R247, R618). -/
def Dev.recTick (d : Dev) (ws : List Word) : Nat := serialTick d.tick.num (ws.getD 1 0).toNat

/-- The assigned tick (R247). -/
def Dev.assigned (d : Dev) (r : Rec) : Nat :=
  let n0 := d.n0 r.stamp
  if recTarget r.words = 1 then max (d.recTick r.words) n0 else n0

/-- Is the record late (R248)? -/
def Dev.isLate (d : Dev) (r : Rec) : Bool := recTarget r.words == 1 && decide (d.recTick r.words < d.n0 r.stamp)

/-! ### The pond (R250 to R253) -/

/-- Pond places of a record: two for an OBJ_WRITE pair. -/
def Rec.size (r : Rec) : Nat := r.words.length / 8

/-- Places in use by local records, or by records from the ring. -/
def Dev.pondPlaces (d : Dev) (fromRing : Bool) : Nat := ((d.hop.pond.filter (fun r => r.fromRing == fromRing)).map Rec.size).sum

/-- Room for local records (R250). -/
def Dev.localRoom (d : Dev) : Nat := d.fd Reg.HOP_POND_CAP 0 17 - d.fd Reg.HOP_POND_RES 0 17 - d.pondPlaces false

/-- The intake is paused (R251): the local share or the injection queue is full. -/
def Dev.hopPaused (d : Dev) : Bool := decide (d.localRoom = 0) || (!d.standalone && decide (64 ≤ d.ring.injq.length))

/-- WM_PCT in force (R264). -/
def Dev.wmPct (d : Dev) : Nat :=
  let p := d.ff Reg.HOP_CFG 20 7
  if p = 0 ∨ 100 < p then 100 else p

/-- Show HOP_POND_USED and its watermark (R253). -/
def Dev.pondShow (d : Dev) : Dev :=
  let used := (d.hop.pond.map Rec.size).sum
  let d := d.sf Reg.HOP_POND_USED 0 17 used
  let above := decide (d.wmPct * d.fd Reg.HOP_POND_CAP 0 17 < used * 100)
  let d := if above && !d.hop.above then (d.sb Reg.HOP_STAT 2).raiseIf (d.bt Reg.HOP_INT_EN 7) 223 else d
  d.onHop (fun h => { h with above := above })

/-- Raise source `s`, at most once per tick (Table 8-5). -/
def Dev.hopOnce (d : Dev) (s : Nat) : Dev :=
  if d.hop.once.contains s then d
  else (d.onHop (fun h => { h with once := s :: h.once })).raiseIf (d.bt Reg.HOP_INT_EN (s - 216)) s

/-- An event of a ring that sets its group's bit and raises the group source (R262). -/
def Dev.groupEvent (d : Dev) (r : Nat) : Dev :=
  if d.bt (Reg.HOP_RD_CFG r) 10 then
    let g := d.fd (Reg.HOP_RD_CFG r) 11 3
    (d.sb Reg.HOP_GRP_STAT g).raise (208 + g)
  else d

/-- A refusal (R245). -/
def Dev.refuseRec (d : Dev) (ring : Nat) (fromRing : Bool) (typ cause : Nat) : Dev :=
  let d := ((d.inc Reg.HOP_REFUSE_CNT).sb Reg.HOP_STAT 8).sg Reg.HOP_LAST_REFUSE
    (packFields [(0, ring), (14, fromRing.toNat), (16, typ), (24, cause)])
  let d := if cause = 6 then d.objStat 5 else d
  let d := if fromRing then d else (((d.sb (Reg.HOP_RD_STAT ring) 2).sf (Reg.HOP_RD_STAT ring) 8 4 cause).groupEvent ring)
  d.hopOnce 222

/-- A record is late (R248). -/
def Dev.countLateRec (d : Dev) : Dev := (d.inc Reg.HOP_LATE_CNT).sb Reg.HOP_STAT 6

/-- A record enters the pond. -/
def Dev.stage (d : Dev) (r : Rec) : Dev :=
  let late := d.isLate r
  let arrived := r.fromRing && decide (d.assigned r ≤ d.hop.decided)
  let r := { r with order := d.hop.order, late := late, arrivedLate := arrived }
  let d := if late then d.countLateRec else d
  let d := if arrived then (d.inc Reg.HOP_LATE_ARR_CNT).sb Reg.HOP_STAT 7 else d
  (d.onHop (fun h => { h with pond := h.pond ++ [r], order := h.order + 1 })).pondShow

/-! ### Ingest checks (Table 8-4) -/

/-- Words of a record that an OBJ_PATCH may not touch on a shared canvas (R103). -/
def geomMask : Nat → Word
  | 0 => 0xFFFFFFFF
  | 1 => 0x00FFFFFF
  | 2 => 0x03FFFFFF
  | _ => 0

/-- The byte mask of BE. -/
def beBytes (be : Nat) : Word :=
  (if bits be 0 1 = 1 then 0xFF else 0) ||| (if bits be 1 1 = 1 then 0xFF00 else 0) |||
  (if bits be 2 1 = 1 then 0xFF0000 else 0) ||| (if bits be 3 1 = 1 then 0xFF000000 else 0)

/-- The register offset of a REG_AT_TICK or REG_NOW. -/
def recOffset (ws : List Word) : Nat := bits (recB ws 0).toNat 2 24 * 4

/-- The cause for which ingest refuses a record, 0 for none. -/
def Dev.ingestCause (d : Dev) (ws : List Word) : Nat :=
  let t := recType ws
  let tgt := recTarget ws
  let free := t == 0 || t == 8 || t == 9
  let content := decide (1 ≤ t) && decide (t ≤ 7)
  let b0 := (recB ws 0).toNat
  if 12 ≤ t || (tgt == 3 && !free) then 1
  else if content && tgt == 2 then 2
  else if recShared ws && (t == 6 || t == 8 || t == 9 || t == 10) then 3
  else if !free && tgt == 1 && decide (d.tick.num + d.ff Reg.HOP_CFG 8 12 < d.recTick ws) then 4
  else if (t == 7 || t == 8) && !regRange (recOffset ws) then 5
  else if t == 2 && recShared ws &&
      (decide (geomMask (bits (recB ws 1).toNat 0 3) &&& recB ws 2 ≠ 0) ||
       ((recB ws 1).getLsbD 8 && decide (geomMask (bits (recB ws 1).toNat 4 3) &&& recB ws 4 ≠ 0))) then 6
  else if t == 4 && (decide (4 < bits b0 22 3) || decide (d.fd Reg.TP_MAP_SPACE 0 15 * 256 < bits b0 0 22 + bits b0 22 3 + 1)) then 7
  else if t == 5 && (decide (4 < bits b0 20 3) || decide (256 < bits b0 12 8 + bits b0 20 3 + 1) ||
      decide (d.fd Reg.TP_PAL_SPACE 0 13 ≤ bits b0 0 12)) then 7
  else if t == 6 && decide (47 < bits b0 0 6) then 7
  else 0

/-- Is the global ID mapped in the shared pool (R101)? -/
def Dev.mappedTo (d : Dev) (gid : Nat) : Option Nat := (d.obj.pool.find? (fun p => p.1 == gid)).map (·.2)

/-- Does this device keep a shared record (R102)? -/
def Dev.keeps (d : Dev) (ws : List Word) : Bool :=
  match recType ws with
  | 1 => (d.mappedTo (recB ws 0).toNat).isSome || d.inKeep (ObjRec.ofWords (ws.drop 8))
  | 2 => (d.mappedTo (recB ws 0).toNat).isSome
  | _ => true

/-! ### HEAD (R236, R238) -/

/-- WB_EVERY in force (R264). -/
def Dev.wbEvery (d : Dev) : Nat := max 1 (d.ff Reg.HOP_CFG 0 8)

/-- A 64-bit register pair. -/
def Dev.pair (d : Dev) (lo hi : Nat) : Nat := (d.rg lo).toNat + (d.rg hi).toNat * 2 ^ 32

/-- A write at the cores' SRAM window address is made; a marker's group source follows it (R258). -/
def W.winWr (w : W) (h : HostWr) : W :=
  let w := if 0x20000000 ≤ h.addr ∧ h.addr + h.bytes.length ≤ 0x20000000 + sramBytes then w.portWrite (h.addr - 0x20000000) h.bytes else w
  if h.irq then w.dev (fun d => d.groupEvent h.id) else w

/-- The hopper writes through the window; the write waits for a bank in retention, which wakes (R471). -/
def W.wrWin (w : W) (h : HostWr) : W :=
  let banks := if 0x20000000 ≤ h.addr ∧ h.addr + h.bytes.length ≤ 0x20000000 + sramBytes then banksOf (h.addr - 0x20000000) h.bytes.length else []
  if w.d.banksReady banks then w.winWr h else w.dev (fun d => { d.wakeBanks banks with winq := d.winq ++ [h] })

/-- HEAD passes `n` records of ring `r`, with its write-back.  The write-back of a LOC 1 ring goes to the SRAM window; its count starts anew
at each write-back, whatever made it, and runs while WB_EN is 0 (DESIGN CHOICE, log entry 86). -/
def W.passHead (w : W) (r n : Nat) : W :=
  let w := w.dev (fun d => (d.add (Reg.HOP_RD_HEAD r) n).onHop (fun h => { h with wbSince := Tab.upd 0 h.wbSince r (· + n) }))
  let d := w.d
  if d.bt (Reg.HOP_RD_CFG r) 9 &&
      (decide (d.wbEvery ≤ Tab.at 0 d.hop.wbSince r) || d.rg (Reg.HOP_RD_HEAD r) == d.rg (Reg.HOP_RD_TAIL r)) then
    let w := w.dev (fun d => d.onHop (fun h => { h with wbSince := Tab.put 0 h.wbSince r 0 }))
    let a := d.pair (Reg.HOP_RD_WB_LO r) (Reg.HOP_RD_WB_HI r)
    let l := leBytes 4 (d.rg (Reg.HOP_RD_HEAD r)).toNat
    if d.bt (Reg.HOP_RD_CFG r) 1 then w.wrWin { kind := 4, id := r, addr := a, bytes := l } else w.hostWrite 4 r a l
  else w

/-- The records fetched of ring `r`. -/
def Dev.fetchedOf (d : Dev) (r : Nat) : List (List Word) := Tab.at [] d.hop.fetched r

/-- Replace them. -/
def Dev.setFetched (d : Dev) (r : Nat) (l : List (List Word)) : Dev :=
  d.onHop (fun h => { h with fetched := Tab.put [] h.fetched r l })

/-- Take the oldest fetched record of ring `r` away and pass HEAD over it. -/
def W.popRec (w : W) (r : Nat) : W :=
  match w.d.fetchedOf r with
  | [] => w
  | x :: rest => (w.dev (fun d => d.setFetched r rest)).passHead r (x.length / 8)

/-- Records of a reserved TYPE at the head are refused (Table 8-4, cause 1). -/
def W.skipReserved (r : Nat) : Nat → W → W
  | 0, w => w
  | n + 1, w =>
    match w.d.fetchedOf r with
    | x :: _ =>
      if 12 ≤ recType x && !d_fenced w then
        W.skipReserved r n ((w.popRec r).dev (fun d => d.refuseRec r false (recType x) 1))
      else w
    | [] => w
where
  /-- Is the ring fenced? -/
  d_fenced (w : W) : Bool := (Tab.at none w.d.hop.fence r).isSome

/-! ### Service (R237) -/

/-- Rings whose descriptor has ever been configured. -/
def Dev.ringsInUse (d : Dev) : List Nat :=
  d.regs.filterMap (fun (p : Nat × Word) =>
    if 0xC00000 ≤ p.1 ∧ p.1 < 0xC80000 ∧ p.1 % 0x20 = 8 then some ((p.1 - 0xC00000) / 0x20) else none)

/-- Published records of ring `r`. -/
def Dev.published (d : Dev) (r : Nat) : Nat := (d.rg (Reg.HOP_RD_TAIL r) - d.rg (Reg.HOP_RD_HEAD r)).toNat

/-- May ring `r` be served (R237)?  A lone OBJ_WRITE head waits for its body, and its requests to host memory wait for Bus Master Enable (R483). -/
def Dev.ringEligible (d : Dev) (r : Nat) : Bool :=
  d.bt (Reg.HOP_RD_STAT r) 0 && (Tab.at none d.hop.fence r).isNone && decide (d.published r ≠ 0) && (d.fetchedOf r).isEmpty &&
  Tab.at none d.hop.noBody r != some (d.rg (Reg.HOP_RD_TAIL r)).toNat &&
  (d.bt (Reg.HOP_RD_CFG r) 1 || d.bme)

/-- The ring that the next service takes: descending CLASS, then round robin. -/
def Dev.nextRing (d : Dev) : Option Nat :=
  let el := d.ringsInUse.filter d.ringEligible
  let inClass := fun (c : Nat) =>
    let l := el.filter (fun r => d.fd (Reg.HOP_RD_CFG r) 7 2 == c)
    (l.find? (fun r => decide (Tab.at 0 d.hop.after c ≤ r))) <|> l.head?
  inClass 3 <|> inClass 2 <|> inClass 1 <|> inClass 0

/-- Records from their words: an OBJ_WRITE head takes the next record as its body, and waits without it. -/
def pairUp : List (List Word) → List (List Word)
  | [] => []
  | [x] => if recType x = 1 then [] else [x]
  | x :: y :: l => if recType x = 1 then (x ++ y) :: pairUp l else x :: pairUp (y :: l)

/-- The records up to the first FENCE, at which fetching stops (R257). -/
def toFence : List (List Word) → List (List Word)
  | [] => []
  | x :: l => if recType x = 9 then [x] else x :: toFence l

/-- SRAM banks that the service of a LOC 1 ring reads: `n` records from `head` of its buffer. -/
def Dev.ringBanks (d : Dev) (r head n : Nat) : List Nat :=
  if !d.bt (Reg.HOP_RD_CFG r) 1 then [] else
  let base := d.pair (Reg.HOP_RD_BASE_LO r) (Reg.HOP_RD_BASE_HI r)
  let size := 2 ^ d.fd (Reg.HOP_RD_CFG r) 2 5
  ((List.range n).map (fun i => base + (head + i) % size * 32)).flatMap (fun a =>
    if 0x20000000 ≤ a ∧ a < 0x20000000 + bankBase 95 then banksOf (a - 0x20000000) 32 else [])

/-- One service (R237, R251): up to 64 records, as far as the local share has room, and a pair in any case, which then waits for its room;
`data` are the words that host memory returns, missing ones free. -/
def ringService (data : List Word) (w : W) : W :=
  if w.d.hopPaused then w else
  match w.d.nextRing with
  | none => w
  | some r =>
    let d := w.d
    let n := min (min 64 (max 2 d.localRoom)) (d.published r)
    let base := d.pair (Reg.HOP_RD_BASE_LO r) (Reg.HOP_RD_BASE_HI r)
    let size := 2 ^ d.fd (Reg.HOP_RD_CFG r) 2 5
    let head := (d.rg (Reg.HOP_RD_HEAD r)).toNat
    let banks := d.ringBanks r head n
    if !d.banksReady banks then w.dev (fun d => d.wakeBanks banks) else
    let word := fun (i k : Nat) =>
      let a := base + (head + i) % size * 32 + 4 * k
      if d.bt (Reg.HOP_RD_CFG r) 1 then BitVec.ofNat 32 (leNat ((List.range 4).map (fun j => w.rdWin (a + j))))
      else match data[8 * i + k]? with
        | some x => x
        | none => w.rd32 .host a
    let recs := (List.range n).map (fun i => (List.range 8).map (word i))
    let l := toFence (pairUp recs)
    if l.isEmpty && decide (d.published r = 1) then
      w.dev (fun d => d.useFree.onHop (fun h => { h with noBody := Tab.put none h.noBody r (some (d.rg (Reg.HOP_RD_TAIL r)).toNat) }))
    else
    let d := (d.setFetched r l).onHop (fun h => { h with after := Tab.put 0 h.after (d.fd (Reg.HOP_RD_CFG r) 7 2) (r + 1),
                                                         noBody := Tab.put none h.noBody r none })
    W.skipReserved r 64 { w with d := d.useFree }

/-! ### Records met in a ring -/

/-- The node's share of a local shared record: it goes into the injection queue (R242, R306). -/
def Dev.sendShared (d : Dev) (ws : List Word) (stamp ring cls : Nat) : Dev :=
  if d.standalone || !d.tapping then d else
  let pair := decide (16 ≤ ws.length)
  d.inject (if pair then 2 else 1) (BitVec.ofNat 64 stamp :: BitVec.ofNat 64 (ring + cls * 2 ^ 14) :: packWords ws)

/-- Does SEG_POLICY 1 discard this node's own shared records (R311)? -/
def Dev.segDiscards (d : Dev) : Bool := d.ring.seg && d.fbt Reg.RING_POLICY 0 && !d.ring.head

/-- Can the ring node take another frame into the injection queue (R251, R305)? -/
def Dev.queueRoom (d : Dev) : Bool := d.standalone || decide (d.ring.injq.length < 64)

/-- Can the record be accepted now (R250, R251)? -/
def Dev.hasRoom (d : Dev) (ws : List Word) : Bool := decide (ws.length / 8 ≤ d.localRoom) && (!recShared ws || d.queueRoom)

/-- A record is accepted, stamped and staged (R246). -/
def Dev.acceptLocal (d : Dev) (r : Nat) (ws : List Word) : Dev :=
  let cls := d.fd (Reg.HOP_RD_CFG r) 7 2
  let d := d.add Reg.HOP_INGEST_CNT (ws.length / 8)
  let st := d.ringTime
  if recShared ws && d.segDiscards then d.inc Reg.RING_SEG_DROP_CNT else
  let d := if recShared ws then d.sendShared ws st r cls else d
  if recShared ws && !d.keeps ws then d
  else d.stage { words := ws, stamp := st, node := d.nodeId, ring := r, cls := cls }

/-- A marker takes its place in its ring's order (R258). -/
def Dev.queueMarker (d : Dev) (r : Nat) (m : Marker) : Dev :=
  d.onHop (fun h => { h with markers := Tab.upd [] h.markers r (· ++ [m]) })

/-- Outputs that run frames, which a MODE 1 marker waits for. -/
def Dev.runningOutputs (d : Dev) : List Nat := (d.tg.filter (fun p => p.2.cur.isSome || p.2.nxt.isSome)).map (·.1)

/-- The marker that a record describes. -/
def markerOf (ws : List Word) (order : Nat) : Marker :=
  { order := order, addr := ((recB ws 0).toNat + (recB ws 1).toNat * 2 ^ 32) / 16 * 16,
    value := (recB ws 2).toNat + (recB ws 3).toNat * 2 ^ 32, mode := (recB ws 4).getLsbD 0, irq := (recB ws 4).getLsbD 1 }

/-- The oldest fetched record of ring `r`, when it has TYPE `t` and the ring is not fenced. -/
def Dev.frontRec (d : Dev) (r t : Nat) : Option (List Word) :=
  if (Tab.at none d.hop.fence r).isSome then none
  else match d.fetchedOf r with
    | x :: _ => if recType x = t then some x else none
    | [] => none

/-- The device meets a record of TYPE `t` in ring `r`: ingest refuses it, or `f` deals with it and HEAD passes it. -/
def W.meet (w : W) (r t : Nat) (f : List Word → Dev → Dev) : W :=
  match w.d.frontRec r t with
  | none => w
  | some ws =>
    let c := w.d.ingestCause ws
    if c ≠ 0 then W.skipReserved r 64 ((w.popRec r).dev (fun d => d.refuseRec r false t c))
    else W.skipReserved r 64 ((w.dev (f ws)).popRec r)

/-- A record that is staged (R246), or waits in its ring while the pond has no room (R251). -/
def W.meetStaged (w : W) (r t : Nat) : W :=
  match w.d.frontRec r t with
  | none => w
  | some ws => if w.d.ingestCause ws = 0 && !w.d.hasRoom ws then w else w.meet r t (fun ws d => d.acceptLocal r ws)

/-- NOP (R241). -/
def hopNop (r : Nat) (w : W) : W := w.meet r 0 (fun _ d => d)

/-- OBJ_WRITE (R86, R246). -/
def hopObjWrite (r : Nat) (w : W) : W := w.meetStaged r 1
/-- OBJ_PATCH. -/
def hopObjPatch (r : Nat) (w : W) : W := w.meetStaged r 2
/-- GROUP_SET. -/
def hopGroupSet (r : Nat) (w : W) : W := w.meetStaged r 3
/-- TILE_RUN. -/
def hopTileRun (r : Nat) (w : W) : W := w.meetStaged r 4
/-- PAL_WRITE. -/
def hopPalWrite (r : Nat) (w : W) : W := w.meetStaged r 5
/-- PLANE_FLIP. -/
def hopPlaneFlip (r : Nat) (w : W) : W := w.meetStaged r 6
/-- REG_AT_TICK. -/
def hopRegAtTick (r : Nat) (w : W) : W := w.meetStaged r 7

/-- REG_NOW (R259): a host write, at once; no byte writes nothing (R243), and the sluice takes no record (Table 5-7). -/
def hopRegNow (r : Nat) (w : W) : W :=
  w.meet r 8 (fun ws d =>
    let be := beBytes (bits (recB ws 0).toNat 28 4)
    if sluiceRange (recOffset ws) || be == 0 then d else d.contentWrite (recOffset ws) (recB ws 1) be)

/-- MARKER (R258): staged for its tick, or queued for its write at once.  An immediate one of MODE 1 waits for the outputs that run frames
when it is met (DESIGN CHOICE, log entry 87). -/
def hopMarker (r : Nat) (w : W) : W :=
  match w.d.frontRec r 10 with
  | none => w
  | some ws =>
    if recTarget ws = 2 then
      w.meet r 10 (fun ws d => (d.queueMarker r { markerOf ws d.hop.order with epoch := some d.obj.epoch, outs := d.runningOutputs }).onHop
        (fun h => { h with order := h.order + 1 }))
    else if w.d.ingestCause ws = 0 && !w.d.hasRoom ws then w
    else w.meet r 10 (fun ws d => (d.queueMarker r (markerOf ws d.hop.order)).acceptLocal r ws)

/-- AUD_CMD (R259, R357): staged for its tick, or handed to Tailrace at once; a shared one is sent first, waits for room in the injection
queue (R251), and is discarded where SEG_POLICY 1 says so (R311). -/
def hopAudCmd (r : Nat) (w : W) : W :=
  match w.d.frontRec r 11 with
  | none => w
  | some ws =>
    if recTarget ws = 2 then
      if w.d.ingestCause ws = 0 && recShared ws && !w.d.segDiscards && !w.d.queueRoom then w else
      w.meet r 11 (fun ws d =>
        if recShared ws && d.segDiscards then d.inc Reg.RING_SEG_DROP_CNT else
        let d := if recShared ws then d.sendShared ws d.ringTime r (d.fd (Reg.HOP_RD_CFG r) 7 2) else d
        d.handOverNow (ws.drop 2))
    else w.meetStaged r 11

/-! ### Fences (R257) -/

/-- Does the fence's condition hold? -/
def Dev.fenceHolds (d : Dev) (r : Nat) (f : Fence) : Bool :=
  if f.mode then decide (serialTick d.tick.num f.tick ≤ d.tick.num)
  else !d.hop.pond.any (fun p => !p.fromRing && p.ring == r && decide (p.order < f.order)) &&
    !d.hop.inflight.any (fun p => p.1 == r && decide (p.2 < f.order))

/-- The fence's condition comes to hold: the ring is served again and HEAD passes the FENCE. -/
def fenceRelease (r : Nat) (w : W) : W :=
  match Tab.at none w.d.hop.fence r with
  | none => w
  | some f =>
    if w.d.fenceHolds r f then
      W.skipReserved r 64 ((w.dev (fun d => (d.onHop (fun h => { h with fence := Tab.put none h.fence r none })).cb (Reg.HOP_RD_STAT r) 3)).passHead r 1)
    else w

/-- FENCE: fetching from the ring stops until the condition holds. -/
def hopFence (r : Nat) (w : W) : W :=
  match w.d.frontRec r 9 with
  | none => w
  | some ws =>
    if w.d.ingestCause ws ≠ 0 then w.meet r 9 (fun _ d => d) else
    let d := w.d.setFetched r ((w.d.fetchedOf r).drop 1)
    let f : Fence := { mode := (recB ws 0).getLsbD 0, tick := (recB ws 1).toNat, order := d.hop.order }
    fenceRelease r { w with d := (d.onHop (fun h => { h with fence := Tab.put none h.fence r (some f) })).sb (Reg.HOP_RD_STAT r) 3 }

/-! ### Markers (R258) -/

/-- Has output `n` latched epoch `e` or later, or left LOCKED? -/
def Dev.outputShows (d : Dev) (n e : Nat) : Bool :=
  (d.tgAt n).st != .locked || (match (d.tgAt n).lastFlip with
    | some l => decide (e ≤ l)
    | none => false)

/-- May the marker be written: its epoch's flip has ended, and in MODE 1 every output that ran frames shows it? -/
def Dev.markerReady (d : Dev) (m : Marker) : Bool :=
  match m.epoch with
  | none => false
  | some e => decide (d.obj.flip ≠ some e) && (!m.mode || m.outs.all (fun n => d.outputShows n e))

/-- The oldest marker of ring `r` is written; the group source follows the write, which may wait for Bus Master Enable (R483). -/
def markerWrite (r : Nat) (w : W) : W :=
  match Tab.at [] w.d.hop.markers r with
  | [] => w
  | m :: rest =>
    if w.d.markerReady m then
      let l := leBytes 8 m.value ++ leBytes 8 (m.epoch.getD 0)
      let w := w.dev (fun d => d.onHop (fun h => { h with markers := Tab.put [] h.markers r rest }))
      if !w.d.bt (Reg.HOP_RD_CFG r) 1 && !w.d.hostFree then
        w.dev (fun d => { d with hostq := d.hostq ++ [{ kind := 3, id := r, addr := m.addr, bytes := l, irq := m.irq }] })
      else if w.d.bt (Reg.HOP_RD_CFG r) 1 then w.wrWin { kind := 3, id := r, addr := m.addr, bytes := l, irq := m.irq }
      else
        let w := w.wrBytes .host m.addr l
        if m.irq then w.dev (fun d => d.groupEvent r) else w
    else w

/-! ### Descriptors (R235, R236, R239) -/

/-- Does the agent act as owner code `o`: 0 the host, 1 to 4 KC0 to KC3?  The debug bus master acts as every owner (R578). -/
def ownerIs (ag : Agent) (o : Nat) : Bool :=
  match ag with
  | .host => o == 0
  | .core c => o == c + 1
  | .dbg => true
  | .device => false

/-- HOP_STAT.OWN_ERR. -/
def Dev.hopOwnErr (d : Dev) : Dev := (d.sb Reg.HOP_STAT 3).hopOnce 222
/-- HOP_STAT.CFG_ERR. -/
def Dev.hopCfgErr (d : Dev) : Dev := (d.sb Reg.HOP_STAT 4).hopOnce 222

/-- Do HEAD and TAIL lie within the ring size? -/
def Dev.tailOk (d : Dev) (r : Nat) : Bool := decide (d.published r ≤ 2 ^ d.fd (Reg.HOP_RD_CFG r) 2 5)

/-- The ring stops with TAIL_ERR, and HEAD stays (R236).  What was fetched and not passed, a pending FENCE with it, is given up, and the ring
fetches it anew when it runs again (DESIGN CHOICE, log entry 88). -/
def Dev.tailErr (d : Dev) (r : Nat) : Dev :=
  ((((d.cb (Reg.HOP_RD_STAT r) 0).sb (Reg.HOP_RD_STAT r) 1).cb (Reg.HOP_RD_STAT r) 3).setFetched r []
    |>.onHop (fun h => { h with fence := Tab.put none h.fence r none })).groupEvent r

/-- A write of HOP_RD_CFG by the owner. -/
def Dev.ringCfgWrite (d : Dev) (r : Nat) (w : Word) : Dev :=
  let a := Reg.HOP_RD_CFG r
  let w := (w &&& 0x3FFF) ||| (d.rg a &&& 0x38000)
  let was := d.bt a 0
  let on := w.getLsbD 0
  let size := bits w.toNat 2 5
  if was && decide ((w ^^^ d.rg a) &&& 0x7E ≠ 0) then d.hopCfgErr
  else if on && (decide (size < 4) || decide (20 < size)) then d.hopCfgErr
  else
    let d := d.sg a w
    match was, on with
    | false, true => if d.tailOk r then d.sb (Reg.HOP_RD_STAT r) 0 else d.tailErr r
    | true, false => d.cb (Reg.HOP_RD_STAT r) 0
    | _, _ => d

/-- A write of HOP_RD_TAIL by the owner. -/
def Dev.ringTailWrite (d : Dev) (r : Nat) (w : Word) : Dev :=
  let d := d.sg (Reg.HOP_RD_TAIL r) w
  if d.tailOk r then d else d.tailErr r

/-- A write of a descriptor register (Table 8-8) by an agent. -/
def descWrite (ag : Agent) (a : Nat) (v mask : Word) (d : Dev) : Dev :=
  let r := (a - 0xC00000) / 0x20
  if !ownerIs ag (d.fd (Reg.HOP_RD_CFG r) 15 3) then d.hopOwnErr else
  let w := mergeWord (d.rg a) v mask
  -- whatever the descriptor becomes, the ring's first record is looked at anew
  let d := d.onHop (fun h => { h with noBody := Tab.put none h.noBody r none })
  match a % 0x20 with
  | 0x08 => d.ringCfgWrite r w
  | 0x10 => d.ringTailWrite r w
  | 0x00 =>
    if d.bt (Reg.HOP_RD_CFG r) 0 && d.rg a != (w &&& 0xFFFFFFC0) then d.hopCfgErr else d.sg a (w &&& 0xFFFFFFC0)
  | 0x04 => if d.bt (Reg.HOP_RD_CFG r) 0 && d.rg a != w then d.hopCfgErr else d.sg a w
  | _ => d.plainWrite a v mask

/-! ### Trackers (R261, R620) -/

/-- Each tracker latches for the newest cut. -/
def trackerLatch (d : Dev) : Dev :=
  if d.hop.latched then d else
  ((List.range 64).foldl (fun d t => d.sg (Reg.HOP_TRK_CUT t) (d.rg (Reg.HOP_TRK_DONE t))) d).onHop (fun h => { h with latched := true })

/-- HOP_TRK_DONE_WRITE (R261).  A command takes effect when it is executed, so every earlier BAR2 write has reached LPDDR5X. -/
def trkDoneWrite (t : Nat) (v : Word) (d : Dev) : Dev := d.sg (Reg.HOP_TRK_DONE t) (v &&& 0xFFFF)

/-! ### The tick (R252, R262, R321, R620) -/

/-- Does the node fix TICKTIME itself (R620): standalone, a tick source, or a node that follows none? -/
def Dev.fixesTick (d : Dev) : Bool := d.standalone || d.ring.source || d.ring.followed.isNone

/-- cut(n) is fixed, or fixed anew. -/
def Hop.setCut (h : Hop) (n c : Nat) : Hop := { h with cuts := ((n, c) :: h.cuts.filter (fun p => decide (p.1 < n))).take 16 }

/-- cut(n) becomes the lower of its value and `c` (a jump, R620). -/
def Hop.lowerCut (h : Hop) (n c : Nat) : Hop :=
  { h with cuts := h.cuts.map (fun p => if p.1 = n then (n, min p.2 c) else p) }

/-- A node that becomes the source, or ceases to follow one, fixes the cut of the coming tick from its own flywheel, unless a TICK frame has
given it (R620). -/
def Dev.fixCut (d : Dev) : Dev :=
  let n := d.tick.num + 1
  let tt := ((d.tick.next : Int) + d.ring.rtOff).toNat
  d.onHop (fun h =>
    { (if h.cuts.any (fun c => decide (n ≤ c.1)) then h else h.setCut n (tt - d.horizonFor n)) with tickTime := tt })

/-- Does the horizon in force break H ≥ RING_LOOP + 8 µs (R322)?  It is judged with each loop measured and each horizon applied. -/
def Dev.judgeHorizon (d : Dev) : Dev :=
  if (d.horizon : Int) * 10 < (d.rg Reg.RING_LOOP).toInt + 80000 then
    (d.sb Reg.RING_STAT 12).raiseIf (d.bt Reg.RING_INT_EN 9) 233
  else d

/-- The horizon `ns` comes into force (R321): source 234. -/
def Dev.applyHorizon (d : Dev) (ns : Nat) : Dev :=
  (((d.sf Reg.RING_HORIZON 0 19 ns).sg Reg.HOP_HORIZON (BitVec.ofNat 32 ns)).raiseIf (d.bt Reg.RING_INT_EN 10) 234).judgeHorizon

/-- HOP_TICK_RT (R266). -/
def Dev.showTickRt (d : Dev) (rt : Nat) : Dev :=
  (d.sg Reg.HOP_TICK_RT_LO (BitVec.ofNat 32 rt)).sg Reg.HOP_TICK_RT_HI (BitVec.ofNat 32 (rt / 2 ^ 32))

/-- The source's TICK frame of tick `n`, with the TICKTIME issued and that of the next tick as fixed (R620): the cut of tick n + 1 is
fixed, and a jump lowers the cut of tick n. -/
def Dev.sourceTick (d : Dev) (n issued next : Nat) : Dev :=
  let d := (d.onHop (fun h => (h.lowerCut n (issued - d.horizonFor n)).setCut (n + 1) (next - d.horizonFor (n + 1)))).onRing
    (fun r => { r with srcTick := some (n, issued) })
  if d.coreUp && d.tick.num == n then d.showTickRt issued else d

/-- What the issue of a mill tick does to cuts and the hopper.  A node that follows a source takes the cut of the next tick from its TICK
frame; where the frame of a tick has not come by the tick itself, its cut is the node's own (DESIGN CHOICE, log entry 78). -/
def Dev.hopTick (d : Dev) : Dev :=
  let n := d.tick.num
  let rt := ((d.tick.ts : Int) + d.ring.rtOff).toNat
  -- a jump that issues the tick early lowers its cut
  let d := if !d.hop.cuts.any (fun c => decide (n ≤ c.1)) then d.onHop (fun h => h.setCut n (rt - d.horizonFor n))
    else if d.fixesTick && decide (rt < d.hop.tickTime) then d.onHop (fun h => h.lowerCut n (rt - d.horizonFor n))
    else d
  let d := trackerLatch d
  -- a follower shows the common TICKTIME: as issued, when the source's frame of this tick has come, else as fixed
  let common := if d.fixesTick then none
    else ([d.ring.srcTick, d.ring.srcNext].filterMap id).find? (fun p => p.1 == n)
  let d := d.showTickRt ((common.map (·.2)).getD rt)
  -- a horizon change applies from its tick
  let d := match d.ring.hzPend with
    | some (ns, at_) =>
      if at_ ≤ n then
        (d.onRing (fun r => { r with hzPend := none })).applyHorizon ns
      else d
    | none => d
  -- the next cut is fixed with the next tick
  let tt := ((d.tick.next : Int) + d.ring.rtOff).toNat
  let d := if d.fixesTick then d.onHop (fun h => { h.setCut (n + 1) (tt - d.horizonFor (n + 1)) with tickTime := tt }) else d
  d.onHop (fun h => { h with latched := false, once := [] })

end Sys2Proof.Machine
end

