-- ==== Sys2Proof/Machine/Commit.lean ====
section
/-!
DEFINITION. The commit (R27, R31, R67, R68, R85 to R88, R95, R96, R101 to R105, R127 to R130, R254 to R260): the decision, the batch
in service order, what each record does, shared releases and the test of pending flips.
-/

namespace Sys2Proof.Machine

/-! ### Order (R254) -/

/-- The service key of a record committed at tick `n`: assigned tick, class, origin ring, origin node, ring order. -/
def Dev.serviceKey (d : Dev) (n : Nat) (r : Rec) : List Nat :=
  [if r.arrivedLate then n else d.assigned r, r.cls, r.ring, r.node, r.order]

/-- Lexicographic order of keys. -/
def keyLt : List Nat → List Nat → Bool
  | a :: l, b :: m => decide (a < b) || (a == b && keyLt l m)
  | _, _ => false

/-- Put a record before the first one with a larger key. -/
def insertRec (k : List Nat) (r : Rec) : List (List Nat × Rec) → List (List Nat × Rec)
  | [] => [(k, r)]
  | (j, q) :: l => if keyLt k j then (k, r) :: (j, q) :: l else (j, q) :: insertRec k r l

/-- The records of a batch in service order. -/
def Dev.serviceOrder (d : Dev) (n : Nat) (l : List Rec) : List Rec :=
  (l.foldl (fun acc r => insertRec (d.serviceKey n r) r acc) []).map (·.2)

/-! ### Pages (R127 to R130) -/

/-- Physical page `p` of a space lies in bank 72 or 80 onward, 1 KiB each. -/
def pageBase (pal : Bool) (p : Nat) : Nat := bankBase (if pal then 80 else 72) + p * 1024

/-- The page space of map entries or palettes. -/
def TileSt.space (t : TileSt) (pal : Bool) : PageSpace := if pal then t.pal else t.map

/-- Change a page space. -/
def TileSt.onSpace (t : TileSt) (pal : Bool) (f : PageSpace → PageSpace) : TileSt :=
  if pal then { t with pal := f t.pal } else { t with map := f t.map }

/-- Logical pages of a space. -/
def Dev.logicalPages (d : Dev) (pal : Bool) : Nat := if pal then d.fd Reg.TP_PAL_SPACE 0 13 else d.fd Reg.TP_MAP_SPACE 0 15

/-- Is physical page `p` on the free list?  After a load every page above the logical ones is. -/
def Dev.pageFree (d : Dev) (pal : Bool) (p : Nat) : Bool :=
  Tab.get (fun p => decide (d.logicalPages pal ≤ p)) (d.tile.space pal).free p

/-- Put page `p` on the free list of a space or take it off. -/
def Dev.setPageFree (d : Dev) (pal : Bool) (p : Nat) (b : Bool) : Dev :=
  let dflt := fun (p : Nat) => decide (d.logicalPages pal ≤ p)
  { d with tile := d.tile.onSpace pal (fun s => { s with free := Tab.set dflt s.free p b }) }

/-- The register that reads the length of a free list. -/
def freeReg (pal : Bool) : Nat := if pal then Reg.TP_PAL_FREE else Reg.TP_MAP_FREE

/-- At the start of a commit retired pages return to the free list, and the next page map begins as the current one (R128, R130). -/
def Dev.openPages (d : Dev) (pal : Bool) : Dev :=
  let rt := (d.tile.space pal).retired
  let d := (rt.foldl (fun d p => d.setPageFree pal p true) d).add (freeReg pal) rt.length
  { d with tile := d.tile.onSpace pal (fun s => { s with retired := [], fresh := [], next := s.cur }) }

/-- The physical page that takes writes to logical page `q` in this commit, copied on its first write; `none` when no page is free. -/
def W.freshPage (w : W) (pal : Bool) (q : Nat) : W × Option Nat :=
  let s := w.d.tile.space pal
  if s.fresh.contains q then (w, some (Tab.get id s.next q)) else
  match (List.range (if pal then 4096 else 16384)).find? (fun p => w.d.pageFree pal p) with
  | none => (w.dev (fun d => (d.inc Reg.TP_PAGE_DROP_CNT).tpStat 2), none)
  | some ph =>
    let old := Tab.get id s.cur q
    let w := w.wrBytes .sram (pageBase pal ph) (w.rdBytes .sram (pageBase pal old) 1024)
    (w.dev (fun d =>
      let d := (d.setPageFree pal ph false).sg (freeReg pal) (d.rg (freeReg pal) - 1)
      { d with tile := d.tile.onSpace pal (fun s =>
          { s with retired := old :: s.retired, fresh := q :: s.fresh, next := Tab.set id s.next q ph }) }), some ph)

/-- Write entry words from logical entry `first` on: each page is copied first, and entries of a page that cannot be are lost (R129). -/
def W.runWrite (w : W) (pal : Bool) (first : Nat) (l : List Word) : W :=
  let idx := List.range l.length
  let pages := [first / 256, first / 256 + 1].filter (fun q => decide (q * 256 < first + l.length))
  pages.foldl (fun w q =>
    let es := (l.zip idx).filter (fun (p : Word × Nat) => (first + p.2) / 256 == q)
    match w.freshPage pal q with
    | (w, none) => w
    | (w, some ph) => es.foldl (fun w p => w.wr32 .sram (pageBase pal ph + (first + p.2) % 256 * 4) p.1) w) w

/-! ### Objects (R86, R88, R101 to R105) -/

/-- What one commit counts. -/
structure Tally where
  applied : Nat := 0
  late : Bool := false
  arrived : Bool := false
  /-- Pool numbers that shared records of this commit wrote. -/
  touched : List Nat := []
  /-- Ring and order of the local records that the commit takes. -/
  done : List (Nat × Nat) := []

/-- Does pool hold local number `n`? -/
def Dev.inPool (d : Dev) (n : Nat) : Bool :=
  decide (d.fd Reg.OBJ_POOL_BASE 0 20 ≤ n) && decide (n < d.fd Reg.OBJ_POOL_BASE 0 20 + d.fd Reg.OBJ_POOL_SIZE 0 21)

/-- Is canvas `c` shared over the ring? -/
def Dev.sharedCanvas (d : Dev) (c : Nat) : Bool := d.bt (Reg.OBJ_CANVAS_CFG c) 0

/-- Apply the words of an OBJ_PATCH to an object record (R243). -/
def patchRec (ws : List Word) (o : ObjRec) : ObjRec :=
  let b1 := recB ws 1
  let o := o.merge (bits b1.toNat 0 3) (recB ws 3) (recB ws 2)
  if b1.getLsbD 8 then o.merge (bits b1.toNat 4 3) (recB ws 5) (recB ws 4) else o

/-- Is a local object record refused (R88, R101)?  `o` is the record that would result. -/
def Dev.refusesObj (d : Dev) (n : Nat) (o : ObjRec) : Bool :=
  decide (d.fd Reg.OBJ_CEIL 0 21 ≤ n) || d.inPool n || d.sharedCanvas o.canvas

/-- A commit refuses an object record (R88, R245). -/
def Dev.refuseObj (d : Dev) (r : Rec) : Dev :=
  (((d.inc Reg.OBJ_REF_ERR_CNT).objStat 2).refuseRec r.ring r.fromRing (recType r.words) 8)

/-- The lowest free pool number (R104, R105). -/
def Dev.freePool (d : Dev) : Option Nat :=
  let base := d.fd Reg.OBJ_POOL_BASE 0 20
  ((List.range (d.fd Reg.OBJ_POOL_SIZE 0 21)).map (· + base)).find? (fun n => !d.obj.pool.any (fun p => p.2 == n))

/-- A shared object record (R104): the mapped number takes it, or an OBJ_WRITE of an unmapped ID takes the lowest free number; `none` where
neither happens.  An OBJ_PATCH whose ID was mapped when it was staged and is mapped no more is ignored and counted nowhere: no rule names
it (DESIGN CHOICE, log entry 74). -/
def Dev.applyShared (d : Dev) (gid : Nat) (isWrite : Bool) (f : Dev → Nat → Obj) : Dev × Option Nat :=
  match d.mappedTo gid with
  | some n => ((d.setObj n (f d n)).slotWritten n, some n)
  | none =>
    if !isWrite then (d, none) else
    match d.freePool with
    | none => ((d.inc Reg.OBJ_SHR_DROP_CNT).objStat 6, none)
    | some n =>
      let d := d.onObj (fun s => { s with pool := (gid, n) :: s.pool })
      let o := d.objAt n
      let d := d.setObj n { o with a := {}, b := {}, pending := false }
      ((d.setObj n (f d n)).slotWritten n, some n)

/-- The noncurrent slot holds the result of this commit when the pending bit is set. -/
def Obj.result (o : Obj) : ObjRec := if o.pending then o.noncurrent else o.current

/-- Shared releases at the end of the records (R105): numbers marked at the commit before are zeroed and unmapped unless a shared
record has brought them back; objects left outside the keep region are marked. -/
def Dev.sharedRelease (d : Dev) (touched : List Nat) : Dev :=
  let back := fun (n : Nat) => touched.contains n && d.inKeep (d.objAt n).result
  let gone := d.obj.release.filter (fun n => !back n)
  let d := gone.foldl (fun d n => d.setObj n { d.objAt n with a := {}, b := {} }) d
  let d := d.onObj (fun s => { s with pool := s.pool.filter (fun p => !gone.contains p.2) })
  let marks := (touched.filter (fun n => !gone.contains n && !d.inKeep (d.objAt n).result)).eraseDups
  d.onObj (fun s => { s with release := marks })

/-! ### What each record does at the commit of tick `n` (R255) -/

/-- A PLANE_FLIP becomes the plane's pending flip (R260). -/
def Dev.pendFlip (d : Dev) (ws : List Word) : Dev :=
  let b0 := (recB ws 0).toNat
  let n := bits b0 0 6
  let p := bits b0 6 1
  let d := if d.bt (Reg.HOP_VP_PEND n p) 31 then d.inc (Reg.HOP_VP_SUPER_CNT n p) else d
  (d.sg (Reg.HOP_VP_PEND_BUF n p) (recB ws 1)).sg (Reg.HOP_VP_PEND n p)
    (packFields [(0, (recB ws 2).toNat % 65536), (16, bits b0 8 6), (22, bits b0 7 1), (31, 1)])

/-- A staged MARKER takes the epoch of its commit (R258). -/
def Dev.markEpoch (d : Dev) (r : Rec) (n : Nat) : Dev :=
  let outs := d.runningOutputs
  d.onHop (fun h => { h with markers := Tab.upd [] h.markers r.ring (fun l =>
    l.map (fun m => if m.order = r.order then { m with epoch := some n, outs := outs } else m)) })

/-- The words of a TILE_RUN or PAL_WRITE. -/
def runWords (ws : List Word) (count : Nat) : List Word := (List.range count).map (fun i => recB ws (1 + i))

/-- Apply one record of the commit of tick `n`; the flag says whether it was applied and not refused. -/
def W.applyRec (w : W) (n : Nat) (r : Rec) : W × Bool × Option Nat :=
  let ws := r.words
  let b0 := (recB ws 0).toNat
  match recType ws with
  | 1 =>
    let o := ObjRec.ofWords (ws.drop 8)
    if recShared ws then
      let (d, k) := w.d.applyShared b0 true (fun d n => (d.objAt n).write o)
      ({ w with d := d }, k.isSome, k)
    else
      let k := bits b0 0 20
      if w.d.refusesObj k o then (w.dev (fun d => d.refuseObj r), false, none)
      else (w.dev (fun d => (d.setObj k ((d.objAt k).write o)).slotWritten k), true, none)
  | 2 =>
    if recShared ws then
      let (d, k) := w.d.applyShared b0 false (fun d n => d.patchObj n (patchRec ws))
      ({ w with d := d }, k.isSome, k)
    else
      let k := bits b0 0 20
      let x := w.d.objAt k
      if w.d.refusesObj k (patchRec ws x.result) then (w.dev (fun d => d.refuseObj r), false, none)
      else (w.dev (fun d => (d.setObj k (d.patchObj k (patchRec ws))).slotWritten k), true, none)
  | 3 =>
    let k := bits b0 0 12
    let m := (recB ws 4).toNat
    let f := fun (g : GrpRec) =>
      { g with w0 := if bits m 0 1 = 1 then recB ws 1 &&& 0xFFFFFF else g.w0
               w1 := if bits m 1 1 = 1 then recB ws 2 &&& 0xFFFFFF else g.w1
               w2 := if bits m 2 1 = 1 then recB ws 3 &&& 1 else g.w2 }
    (w.dev (fun d => d.setGrp k ((d.grpAt k).patch f)), true, none)
  | 4 => (w.runWrite false (bits b0 0 22) (runWords ws (bits b0 22 3 + 1)), true, none)
  | 5 => (w.runWrite true (bits b0 0 12 * 256 + bits b0 12 8) (runWords ws (bits b0 20 3 + 1)), true, none)
  | 6 => (w.dev (fun d => d.pendFlip ws), true, none)
  | 7 => (w.dev (fun d => d.commitWrite (recOffset ws) (recB ws 1) (beBytes (bits b0 28 4))), true, none)
  | 10 => (w.dev (fun d => d.markEpoch r n), true, none)
  -- a commit held by R31 makes it late (R357)
  | 11 => (w.dev (fun d => d.handOverTick (r.heldFor.getD n) (ws.drop 2)), true, none)
  | _ => (w, true, none)

/-- The pending flips at the end of a commit (R260): complete ones are written for the epoch, the others are counted. -/
def Dev.pendingFlips (d : Dev) : Dev :=
  let step := fun (acc : Dev × Bool) (i : Nat) =>
    let d := acc.1
    let n := i / 2
    let p := i % 2
    let v := (d.rg (Reg.HOP_VP_PEND n p)).toNat
    if bits v 31 1 = 0 then acc else
    let cut := d.fd (Reg.HOP_TRK_CUT (bits v 16 6)) 0 16
    if bits v 22 1 = 0 ∨ (cut + 65536 - bits v 0 16) % 65536 < 32768 then
      ((d.commitFrame n (Reg.MX_VP_BUF n p) (d.rg (Reg.HOP_VP_PEND_BUF n p))).sg (Reg.HOP_VP_PEND n p) 0 |>.sg (Reg.HOP_VP_PEND_BUF n p) 0,
       acc.2)
    else ((d.inc (Reg.HOP_VP_FIF_CNT n p)).sb Reg.HOP_STAT 9, true)
  let (d, fif) := (List.range 96).foldl step (d, false)
  d.raiseIf (fif && d.bt Reg.HOP_INT_EN 2) 218

/-- Does the commit of tick `n` take the record? -/
def Dev.inBatch (d : Dev) (n : Nat) (r : Rec) : Bool := r.arrivedLate || decide (d.assigned r ≤ n)

/-- The records of the batch are applied in service order. -/
def W.applyBatch (w : W) (n : Nat) (l : List Rec) : W × Tally :=
  l.foldl (fun (acc : W × Tally) r =>
    let (w, t) := acc
    -- a record that became late only through a lowered cut or a restaged tick is counted now (R248)
    let lateNow := w.d.isLate r
    let w := if lateNow && !r.late then w.dev Dev.countLateRec else w
    let (w, ok, k) := w.applyRec n r
    (w, { t with
          applied := if ok then t.applied + 1 else t.applied
          late := t.late || (ok && (lateNow || r.late))
          arrived := t.arrived || r.arrivedLate
          touched := match k with
            | some k => k :: t.touched
            | none => t.touched
          -- a refused record is dealt with at once; any other counts as committed once the flip has ended (R257)
          done := if r.fromRing || (!ok && !recShared r.words) then t.done else (r.ring, r.order) :: t.done })) (w, {})

/-- A commit that proceeds at tick `n` (R255).  The flip that follows ends with FLIP_END. -/
def W.commit (w : W) (n : Nat) : W :=
  let w := w.dev (fun d =>
    let d := d.reachUpdate .hop
    let d := d.openFrames d.obj.epoch
    (d.openPages false).openPages true)
  let inBatch := w.d.inBatch n
  let batch := w.d.serviceOrder n (w.d.hop.pond.filter inBatch)
  let w := w.dev (fun d => (d.onHop (fun h => { h with pond := h.pond.filter (fun r => !inBatch r) })).pondShow)
  let (w, t) := w.applyBatch n batch
  w.dev (fun d =>
    let d := d.sharedRelease t.touched
    let d := d.sg Reg.OBJ_SHR_USED (BitVec.ofNat 32 d.obj.pool.length)
    let d := d.pendingFlips
    let d := (d.sg Reg.HOP_COMMIT_LAST (BitVec.ofNat 32 t.applied)).add Reg.HOP_COMMIT_CNT t.applied
    let d := d.raiseTo Reg.HOP_COMMIT_MAX t.applied
    let d := d.raiseIf (t.late && d.bt Reg.HOP_INT_EN 0) 216
    let d := d.raiseIf (t.arrived && d.bt Reg.HOP_INT_EN 1) 217
    let d := (d.raiseNews 220).raiseNews 221
    let d := if d.bt Reg.HOP_STAT 1 && decide (d.hop.lastDrop + 1 < n) then d.cb Reg.HOP_STAT 1 else d
    -- 4 records per CCLK, 128 CCLK for each page copied (R128), then 1,024 CCLK over the pending bitmap (R27)
    let copies := d.tile.map.fresh.length + d.tile.pal.fresh.length
    (d.onHop (fun h => { h with inflight := t.done })).onObj (fun s => { s with
      flip := some n, flipAt := d.cclks + ceilDiv batch.length 4 + 128 * copies + 1024 }))

/-! ### The decision (R27, R31, R68, R95, R96) -/

/-- Does an output run a frame on an index older than the current epoch (R31)? -/
def Dev.olderFrame (d : Dev) : Bool :=
  d.tg.any (fun p =>
    (match p.2.cur with
     | some e => decide (e < d.obj.epoch)
     | none => false) ||
    (match p.2.nxt with
     | some e => decide (e < d.obj.epoch)
     | none => false))

/-- Source 4, at most once in a tick (R68). -/
def Dev.raiseOverrun (d : Dev) : Dev :=
  if d.hop.once.contains 4 then d else (d.onHop (fun h => { h with once := 4 :: h.once })).raise 4

/-- The tick counts a held commit. -/
def Dev.countHeld (d : Dev) : Dev := (d.inc Reg.TG_TICK_HELD_CNT).sb Reg.TG_TICK_STAT 5

/-- The tick counts a Bolter overrun. -/
def Dev.countOverrun (d : Dev) : Dev := (d.inc Reg.TG_TICK_OVR_CNT).sb Reg.TG_TICK_STAT 6

/-- The commit decision's own part: whether it was made now and whether the commit proceeds. -/
inductive Decision where
  /-- no decision is due, or it waits for the flip in progress (R27) -/
  | none
  /-- the commit is held (R31) -/
  | held
  /-- the commit proceeds -/
  | proceed
deriving DecidableEq, Repr

/-- The decision of the tick in force.  A flip that ends after the decision's own edge has delayed it, and the tick counts as held (R27);
HELD and BOLT_OVR show with the decision, and source 4 follows it (R68).  Before the first full load no commit is made (R514, R619). -/
def Dev.commitDecide (d : Dev) : Dev × Decision :=
  if !d.loaded || decide (d.tick.num ≤ d.hop.decided) then (d, .none)
  else if d.obj.flip.isSome then (d.onObj (fun s => { s with waiting := true }), .none)
  else
    let delayed := d.obj.waiting || decide (d.cclkEdge d.tick.ts 2 < d.obj.flipDone)
    let older := d.olderFrame
    let building := d.obj.build.isSome
    let d := (d.onObj (fun s => { s with waiting := false })).onHop (fun h => { h with decided := d.tick.num })
    let d := if building then d.countOverrun else d
    let d := if delayed || older then d.countHeld else d
    let d := if building || delayed || older then d.raiseOverrun else d
    if older then
      let due := d.inBatch d.tick.num
      (d.onHop (fun h => { h with pond := h.pond.map (fun r => if due r && r.heldFor.isNone then { r with heldFor := some d.tick.num } else r) }), .held)
    else if building then
      (((d.onObj (fun s => { s with build := none, lastLatch := [] })).inc Reg.OBJ_BOL_ABORT_CNT).cb Reg.OBJ_BOL_STATE 0, .proceed)
    else (d, .proceed)

end Sys2Proof.Machine
end

