-- ==== Sys2Proof/Machine/Pins.lean ====
section
/-!
DEFINITION. General pins (chapter 15, R442 to R451, R462, R463): ownership, outputs, filters, pattern groups and the hold of the
pads.
-/

namespace Sys2Proof.Machine

/-- Change the GP state. -/
def Dev.onPins (d : Dev) (f : Pins → Pins) : Dev := { d with pins := f d.pins }

/-- GP_STAT.OWN_ERR. -/
def Dev.gpOwnErr (d : Dev) : Dev := d.sb Reg.GP_STAT 1

/-- GP_STAT.CFG_ERR. -/
def Dev.gpCfgErr (d : Dev) : Dev := d.sb Reg.GP_STAT 2

/-- Owner of pin `p` (R442). -/
def Dev.pinOwner (d : Dev) (p : Nat) : Nat := d.fd (Reg.GP_PIN_OWN p) 0 3

/-- Does the agent own pin `p`? -/
def Dev.ownsPin (d : Dev) (ag : Agent) (p : Nat) : Bool := ownerIs ag (d.pinOwner p)

/-! ### Outputs (R445, R446, R450) -/

/-- Bit `p` of the output latch. -/
def Dev.pinLatch (d : Dev) (p : Nat) : Bool := d.bt (Reg.GP_OUT (p / 32)) (p % 32)

/-- VSYNC of output `n`: the beam line lies from TG_VSYNC.START to END − 1 (Table 15-1). -/
def Dev.vsyncPin (d : Dev) (n : Nat) : Bool :=
  let g := d.tgAt n
  g.cur.isSome && decide (g.tm.vsS ≤ g.line) && decide (g.line < g.tm.vsE)

/-- The output of a pin's function; `none` for one that drives nothing (Table 15-1). -/
def Dev.pinFunction (d : Dev) (p : Nat) : Option Bool :=
  let fsel := d.fd (Reg.GP_PIN_CFG p) 4 6
  match d.fd (Reg.GP_PIN_CFG p) 0 4 with
  | 2 => some (d.zonePin fsel)
  | 3 => some (Tab.at false d.pins.tcmp p)
  | 4 => some (d.vsyncPin fsel)
  | _ => none

/-- PIO engine `e`. -/
def Dev.pioAt (d : Dev) (e : Nat) : PioEng := Tab.at {} d.pio e

/-- The values of the sources whose enables are 1. -/
def Dev.pinSources (d : Dev) (p : Nat) : List Bool :=
  let c := Reg.GP_PIN_CFG p
  let e := d.pioAt (d.fd c 13 3)
  (if d.bt c 10 && d.bt c 11 then [d.pinLatch p] else []) ++
  (if d.bt c 12 && Tab.at false e.dir p then [Tab.at false e.out p] else []) ++
  (if d.bt c 16 then (d.pinFunction p).toList else [])

/-- What the registers make of the pad (R445); code 3 of PULL is taken as 0. -/
def Dev.pinLive (d : Dev) (p : Nat) : PadHold :=
  let l := d.pinSources p
  let v := l.any id
  let pull := d.fd (Reg.GP_PIN_CFG p) 17 2
  { drive := !l.isEmpty && !(d.bt (Reg.GP_PIN_CFG p) 21 && v), value := v, pull := if pull = 3 then 0 else pull }

/-- The pad of pin `p`: driven by its boundary cell while EXTEST or CLAMP is in force, at high impedance under HIGHZ (R588); else held by
the always-on latch, or live (R450). -/
def Dev.pad (d : Dev) (p : Nat) : PadHold :=
  let own := if d.pins.held then Tab.at {} d.pins.hold p else d.pinLive p
  if d.dbg.ir = 0 ∨ d.dbg.ir = 3 then { (Tab.at {} d.dbg.cells p : PadHold) with pull := own.pull }
  else if d.dbg.ir = 4 then { drive := false, value := false, pull := own.pull }
  else own

/-- The pads begin to hold what they show (R450). -/
def Dev.holdPads (d : Dev) : Dev :=
  if d.pins.held then d else
  d.onPins (fun s => { s with held := true, hold := (List.range 128).foldl (fun t p => Tab.put {} t p (d.pinLive p)) [] })

/-- A structure load ends the hold (R450). -/
def Dev.releasePads (d : Dev) : Dev := d.onPins (fun s => { s with held := false, hold := [] })

/-- The pins muxed to timer channel `c` toggle at its fire (Table 15-1). -/
def Dev.tcmpFire (d : Dev) (c : Nat) : Dev :=
  (List.range 128).foldl (fun d p =>
    if d.fd (Reg.GP_PIN_CFG p) 0 4 = 3 ∧ d.fd (Reg.GP_PIN_CFG p) 4 6 = c then
      d.onPins (fun s => { s with tcmp := Tab.upd false s.tcmp p (fun b => !b) })
    else d) d

/-- Set latch bit `p`. -/
def Dev.setLatch (d : Dev) (p : Nat) (b : Bool) : Dev := d.pb (Reg.GP_OUT (p / 32)) (p % 32) b

/-- A word write of latch word `j` (R446): owned bits change, and OWN_ERR is set when another bit would. -/
def gpOutWrite (ag : Agent) (j : Nat) (new : Word) (d : Dev) : Dev :=
  let own : Word := packFields ((List.range 32).map (fun i => (i, (d.ownsPin ag (32 * j + i)).toNat)))
  let old := d.rg (Reg.GP_OUT j)
  let d1 := d.sg (Reg.GP_OUT j) (mergeWord old new own)
  if (old ^^^ new) &&& ~~~own = 0 then d1 else d1.gpOwnErr

/-- Is FUNC, with its FSEL, one that Table 15-1 allows? -/
def pinFuncOk (func fsel : Nat) : Bool :=
  match func with
  | 0 => true
  | 1 => true
  | 2 => decide (fsel < 32)
  | 3 => decide (fsel < 16)
  | 4 => decide (fsel < 48)
  | _ => false

/-- A write of GP_PIN_CFG (R442, R445). -/
def pinCfgWrite (ag : Agent) (p : Nat) (v mask : Word) (d : Dev) : Dev :=
  let a := Reg.GP_PIN_CFG p
  let w := mergeWord (d.rg a) v (mask &&& 0x3FFFFF)
  if !d.ownsPin ag p then d.gpOwnErr
  else if !pinFuncOk (bits w.toNat 0 4) (bits w.toNat 4 6) then d.gpCfgErr
  else
    let sel := bits w.toNat 0 10 != d.fd a 0 10
    let d := d.sg a w
    if sel then d.onPins (fun s => { s with tcmp := Tab.put false s.tcmp p false }) else d

/-- A write of GP_PIN_OWN (R443). -/
def pinOwnWrite (ag : Agent) (p : Nat) (v mask : Word) (d : Dev) : Dev :=
  let a := Reg.GP_PIN_OWN p
  if !d.ownsPin ag p || d.bt a 3 then d.gpOwnErr else d.sg a (mergeWord (d.rg a) v (mask &&& 7))

/-! ### Inputs and filters (R447 to R449) -/

/-- The timebase at the first CCLK edge at which a pad had changed whose raw value becomes valid on the present one, the second after it
(R411, R447). -/
def Dev.padEdgeTb (d : Dev) : Nat := d.edgeTime (d.cclks - 2) / 120

/-- PIN_CHANGE: the raw value of pin `p` becomes `v`, valid on the present CCLK edge (R447). -/
def pinChange (p : Nat) (v : Bool) (d : Dev) : Dev :=
  if d.pinRaw p = v then d else
  let d := d.pb (Reg.GP_IN (p / 32)) (p % 32) v
  let d := d.onPins (fun s => { s with rawAt := Tab.put 0 s.rawAt p d.cclks })
  (d.routePin p v).event (if v then .pinRise p else .pinFall p) d.padEdgeTb

/-- Filtered values of group `g`. -/
def Dev.groupBits (d : Dev) (g : Nat) : Nat := d.fd (Reg.GP_FILT_IN (g / 4)) (8 * (g % 4)) 8

/-- Does `f` match under the group's MASK and VALUE? -/
def Dev.groupMatches (d : Dev) (g f : Nat) : Bool :=
  (f ^^^ d.fd (Reg.GP_GRP_MATCH g) 8 8) &&& d.fd (Reg.GP_GRP_MATCH g) 0 8 == 0

/-- The present match state is shown again. -/
def Dev.showMatch (d : Dev) (g : Nat) : Dev := d.pb (Reg.GP_GRP_STAT g) 8 (d.groupMatches g (d.groupBits g))

/-- The filtered values of group `g` become `f`: a pattern event by MODE (R449). -/
def Dev.setGroupBits (d : Dev) (g f : Nat) : Dev :=
  let old := d.groupBits g
  if old = f then d else
  let d := (d.sf (Reg.GP_FILT_IN (g / 4)) (8 * (g % 4)) 8 f).showMatch g
  let ev := match d.fd (Reg.GP_GRP_CFG g) 8 2 with
    | 1 => !d.groupMatches g old && d.groupMatches g f
    | 2 => (old ^^^ f) &&& d.fd (Reg.GP_GRP_MATCH g) 0 8 != 0
    | _ => false
  if ev then
    (((d.sf (Reg.GP_GRP_STAT g) 0 8 f).inc (Reg.GP_GRP_EV_CNT g)).raiseIf (d.bt (Reg.GP_GRP_CFG g) 10) (340 + g))
  else d

/-- Glitch-filtered values of group `g`. -/
def Dev.glitchBits (d : Dev) (g : Nat) : Nat :=
  (List.range 8).foldl (fun acc i => acc + if Tab.at false d.pins.glitch (8 * g + i) then 2 ^ i else 0) 0

/-- GLITCH in force: 0 is taken as 1 (R448). -/
def Dev.glitchLen (d : Dev) : Nat := max 1 (d.ff Reg.GP_FILT 0 12)

/-- The pins of group `g` whose raw value differs from the glitch-filtered one, with the CCLK edge on which each has held for GLITCH. -/
def Dev.glitchDue (d : Dev) (g : Nat) : List (Nat × Nat) :=
  (((List.range 8).map (· + 8 * g)).filter (fun p => d.pinRaw p != Tab.at false d.pins.glitch p)).map (fun p =>
    (p, Tab.at 0 d.pins.rawAt p + d.glitchLen))

/-- The pins of group `g` whose glitch-filtered value differs from the filtered one, with the time at which each has held for DEB_MS. -/
def Dev.debounceDue (d : Dev) (g : Nat) : List (Nat × Nat) :=
  (((List.range 8).map (· + 8 * g)).filter (fun p => Tab.at false d.pins.glitch p != (d.groupBits g).testBit (p % 8))).map (fun p =>
    (p, Tab.at 0 d.pins.glAt p + d.fd (Reg.GP_GRP_CFG g) 0 8 * 1000000))

/-- The earliest time of a list, if any. -/
def firstDue (l : List (Nat × Nat)) : Option Nat := (l.map (·.2)).min?

/-- The pins of a group that are due first settle together, in one event (R449); `fuel` of 8 serves all of them that are due by now, in
the order of their times. -/
def Dev.settle (due : Dev → List (Nat × Nat)) (f : Dev → List Nat → Nat → Dev) (now : Nat) : Nat → Dev → Dev
  | 0, d => d
  | fuel + 1, d =>
    match firstDue (due d) with
    | some t => if t ≤ now then Dev.settle due f now fuel (f d (((due d).filter (fun x => x.2 == t)).map (·.1)) t) else d
    | none => d

/-- GLITCH_FILTER_SETTLE of group `g`: each pin whose raw value has held its new level for GLITCH CCLK. -/
def glitchSettle (g : Nat) (d : Dev) : Dev :=
  Dev.settle (fun d => d.glitchDue g) (fun d ps _ =>
    let d := ps.foldl (fun d p => d.onPins (fun s =>
      { s with glitch := Tab.put false s.glitch p (d.pinRaw p), glAt := Tab.put 0 s.glAt p d.tb })) d
    if d.fd (Reg.GP_GRP_CFG g) 0 8 = 0 then d.setGroupBits g (d.glitchBits g) else d) d.cclks 8 d

/-- DEBOUNCE_SETTLE of group `g`: each pin whose glitch-filtered level has held for DEB_MS ms. -/
def debounceSettle (g : Nat) (d : Dev) : Dev :=
  if d.fd (Reg.GP_GRP_CFG g) 0 8 = 0 then d else
  Dev.settle (fun d => d.debounceDue g) (fun d ps _ =>
    d.setGroupBits g (ps.foldl (fun f p => f ^^^ 2 ^ (p % 8)) (d.groupBits g))) d.tb 8 d

/-- What new settings of group `g` show at once; with DEB_MS 0 the filtered values follow the glitch-filtered ones. -/
def Dev.settleGroup (d : Dev) (g : Nat) : Dev :=
  let d := d.showMatch g
  if d.fd (Reg.GP_GRP_CFG g) 0 8 = 0 then d.setGroupBits g (d.glitchBits g) else d

/-- A write of GP_GRP_CFG or GP_GRP_MATCH by the group's owner (R444, R448, R449): no event comes of the new MODE, MASK or VALUE; with
DEB_MS 0 the filtered values follow the glitch-filtered ones at once. -/
def grpWrite (ag : Agent) (g a : Nat) (v mask : Word) (d : Dev) : Dev :=
  let c := Reg.GP_GRP_CFG g
  if !ownerIs ag (d.fd c 12 3) then d.gpOwnErr
  else if a = c then
    let w := mergeWord (d.rg a) v (mask &&& 0x7FF)
    if bits w.toNat 8 2 = 3 then d.gpCfgErr else
    let d := d.sg a w
    let d := if mask &&& 0xFF = 0 then d else
      d.onPins (fun s => { s with glAt := (List.range 8).foldl (fun t i => Tab.put 0 t (8 * g + i) d.tb) s.glAt })
    d.settleGroup g
  else if a = Reg.GP_GRP_MATCH g then (d.plainWrite a v mask).showMatch g
  else d.plainWrite a v mask

/-- At the release of CORE_RST_N every filtered and glitch-filtered value takes the raw value (R448). -/
def Dev.filtersTakeRaw (d : Dev) : Dev :=
  let d := (List.range 4).foldl (fun d j => d.sg (Reg.GP_FILT_IN j) (d.rg (Reg.GP_IN j))) d
  d.onPins (fun s => { s with glitch := (List.range 128).foldl (fun t p => Tab.put false t p (d.pinRaw p)) [], rawAt := [], glAt := [] })

/-- A write to the GP block. -/
def Dev.gpWrite (d : Dev) (ag : Agent) (a : Nat) (v mask : Word) : Dev :=
  let vm := v &&& mask
  if a = Reg.GP_CTRL then d.blockCtrl .gp 0xF1 (mergeWord (d.rg a) v mask)
  else if Reg.GP_OUT 0 ≤ a ∧ a ≤ Reg.GP_OUT 3 then
    gpOutWrite ag ((a - Reg.GP_OUT 0) / 4) (mergeWord (d.rg a) v mask) d
  else if Reg.GP_OUT_SET 0 ≤ a ∧ a ≤ Reg.GP_OUT_SET 3 then
    let j := (a - Reg.GP_OUT_SET 0) / 4
    gpOutWrite ag j (d.rg (Reg.GP_OUT j) ||| vm) d
  else if Reg.GP_OUT_CLR 0 ≤ a ∧ a ≤ Reg.GP_OUT_CLR 3 then
    let j := (a - Reg.GP_OUT_CLR 0) / 4
    gpOutWrite ag j (d.rg (Reg.GP_OUT j) &&& ~~~vm) d
  else if Reg.GP_PIN_CFG 0 ≤ a ∧ a < Reg.GP_PIN_CFG 128 then
    let p := (a - Reg.GP_PIN_CFG 0) / 8
    if a % 8 = 0 then pinCfgWrite ag p v mask d else pinOwnWrite ag p v mask d
  else if Reg.GP_GRP_CFG 0 ≤ a ∧ a < Reg.GP_GRP_CFG 16 then grpWrite ag ((a - Reg.GP_GRP_CFG 0) / 16) a v mask d
  else d.plainWrite a v mask

/-- A GP register as it reads: the set and clear registers read the latch. -/
def Dev.gpRead (d : Dev) (a : Nat) : Word :=
  if Reg.GP_OUT_SET 0 ≤ a ∧ a ≤ Reg.GP_OUT_SET 3 then d.rg (Reg.GP_OUT ((a - Reg.GP_OUT_SET 0) / 4))
  else if Reg.GP_OUT_CLR 0 ≤ a ∧ a ≤ Reg.GP_OUT_CLR 3 then d.rg (Reg.GP_OUT ((a - Reg.GP_OUT_CLR 0) / 4))
  else d.rg a

end Sys2Proof.Machine
end

