-- ==== Sys2Proof/Machine/Log.lean ====
section
/-!
DEFINITION. The availability log and its ring notices (R569 to R571).
-/

namespace Sys2Proof.Machine

/-- An entry enters the log of 64, or is lost with LOG_OVF (R569). -/
def Dev.logPush (d : Dev) (e : List Word) : Dev :=
  if 64 ≤ d.avlog.length then d.sb Reg.AV_STAT 4 else { d with avlog := d.avlog ++ [e] }

/-- The slice that Table 19-5's entry names, and its enable bit in AV_INT_EN (R571). -/
def logSlice (kind detail info : Nat) : Option (Nat × Nat) :=
  match kind with
  | 10 => some (detail, 0)
  | 11 => some (bits info 8 6, 1)
  | 12 => some (detail, 2)
  | 14 => some (bits info 0 6, 3)
  | _ => none

/-- An availability event is logged, sent as a ring notice (R570) and raised (R571). -/
def Dev.logEntry (d : Dev) (kind detail info : Nat) : Dev :=
  let w0 := packFields [(0, kind), (8, d.nodeId), (16, detail % 65536)]
  let w1 := BitVec.ofNat 32 d.tick.num
  let w2 := BitVec.ofNat 32 d.ringTime
  let w3 := BitVec.ofNat 32 info
  let d := d.logPush [w0, w1, w2, w3]
  let d :=
    if decide (9 ≤ kind) && decide (kind ≤ 17) && d.fbt Reg.AV_CFG 26 && d.tapping && !d.standalone then
      d.inject 6 [BitVec.ofNat 64 d.ringTime, BitVec.ofNat 64 (64 + kind * 256), pack64 w0 w1, pack64 w2 w3, 0, 0]
    else d
  match logSlice kind detail info with
  | some (s, b) => d.raiseIf (d.bt Reg.AV_INT_EN b) (56 + s)
  | none => d

/-- A notice received from the ring: logged with FROM_RING and the sender's node (R570). -/
def Dev.logNotice (d : Dev) (origin code : Nat) (ws : List Word) : Dev :=
  let old := ws.getD 0 0
  let w0 := packFields [(0, code), (8, origin), (14, 1)] ||| (old &&& 0xFFFF0000)
  d.logPush [w0, ws.getD 1 0, ws.getD 2 0, ws.getD 3 0]

/-- LOG_POP (R569): the oldest entry is removed. -/
def logPop (d : Dev) : Dev := { d with avlog := d.avlog.drop 1 }

/-- The word of the oldest entry that AV_LOG_W `i` reads, and 0 on an empty log. -/
def Dev.logWord (d : Dev) (i : Nat) : Word := (d.avlog.head?.getD []).getD i 0

/-- A correctable error of bank `b`, or of core `b - 96`, joins the entry of the tick (R569). -/
def Dev.ceNote (d : Dev) (b addr : Nat) : Dev :=
  { d with ceLog := Tab.upd (0, 0) d.ceLog b (fun p => if p.1 = 0 then (1, addr) else (p.1 + 1, p.2)) }

/-- At the end of a tick period its SRAM_CE and TCM_CE entries are logged. -/
def Dev.flushCe (d : Dev) : Dev :=
  let l := d.ceLog
  l.foldl (fun d (p : Nat × Nat × Nat) =>
    if p.1 < 96 then d.logEntry 1 p.1 (p.2.2 % 2048 + min 65535 p.2.1 * 65536)
    else d.logEntry 6 (p.1 - 96 + min 255 p.2.1 * 256) p.2.2) { d with ceLog := [] }

end Sys2Proof.Machine
end

