-- ==== Sys2Proof/Machine/Ring.lean ====
section
/-!
DEFINITION. The Ihlo ring node (chapter 10): taking and forwarding frames, leat switchover, segment mode, joining, ring time, the
tick source, the horizon, injection, mailboxes and notices.
-/

namespace Sys2Proof.Machine

/-! ### Block streams of the outputs (R299, R301)

A link is a port of 4 lanes at 16 Gb/s: its blocks, scramblers, slot groups, ALIGN groups and training sequence are those of chapter 09. -/

/-- Bytes 1 and 2 of a TRAIN or ALIGN block of a link: lane, link bit, node ID (R299). -/
def Dev.linkBytes (d : Dev) (leat : Bool) (lane : Nat) : List Byte :=
  [BitVec.ofNat 8 (lane + 128 * leat.toNat), BitVec.ofNat 8 d.nodeId]

/-- A TRAIN group of a link with countdown `c`. -/
def Dev.linkTrain (d : Dev) (leat : Bool) (c : Nat) : List FlBlock :=
  (List.range 4).map (fun lane =>
    let b := d.linkBytes leat lane ++ leBytes 2 c ++ [0xA5, 0x5A]
    { control := true, bytes := 0x2D :: b ++ [xorBytes b] })

/-- An ALIGN group of a link with marker count `m`. -/
def Dev.linkAlign (d : Dev) (leat : Bool) (m : Nat) : List FlBlock :=
  (List.range 4).map (fun lane =>
    let b := d.linkBytes leat lane ++ leBytes 3 m ++ [0]
    { control := true, bytes := 0x4B :: b ++ [xorBytes b] })

/-- The blocks of a frame: the header, the data blocks, and a last one with the CRC over header bytes 1 to 7 and every data byte before it
(R301). -/
def frameBlocks (k : Nat) (f : RFrame) : List FlBlock :=
  let head : List Byte := [BitVec.ofNat 8 k, BitVec.ofNat 8 f.origin, BitVec.ofNat 8 f.hops] ++ leBytes 4 f.seq
  let data := f.ds.map (fun x => leBytes 8 x.toNat)
  let crc := crc32 (head ++ data.flatten ++ List.replicate 4 0)
  [{ control := true, bytes := 0x66 :: head }] ++ data.map (fun b => { control := false, bytes := b }) ++
    [{ control := false, bytes := List.replicate 4 0 ++ leBytes 4 crc.toNat }]

/-- Lane order and polarity of a link output, as RING_LINK has them in force. -/
def Dev.linkPhysical (d : Dev) (leat : Bool) (w : List (List (Bool × Nat))) : List (List (Bool × Nat)) :=
  let o := if leat then 8 else 0
  let w := if d.fbt Reg.RING_LINK (o + 4) then w.reverse else w
  (w.zip (List.range w.length)).map (fun p =>
    if d.fbt Reg.RING_LINK (o + p.2) then p.1.map (fun b => (!b.1, 2 ^ 64 - 1 - b.2)) else p.1)

/-- A training sequence that has lasted its 34,817 block times is over: its groups have passed the scramblers (R276). -/
def Dev.linkTrained (d : Dev) (leat : Bool) (f : Fl) : Fl :=
  match f.training with
  | none => f
  | some t =>
    if (d.tb - t) * 16000 < (trainBlocks + 1) * 66000 then f else
    let gs := (List.range 2048).map (fun i => d.linkTrain leat (2047 - i)) ++ [d.linkAlign leat 0]
    { gs.foldl (fun f g => (Fl.scramble f g).1) { f with scr := List.replicate 4 (2 ^ 58 - 1) } with
      training := none, marker := 1, t0 := t, groups := 1, alignAt := 16384, sent := [], wire := [] }

/-- The first place of a stream whose slot group begins at or after time `t`, in 1/120 ns. -/
def linkPlace (f : Fl) (t : Nat) : Nat := ceilDiv ((t - 120 * f.t0) * 16000) 7920000 - trainBlocks

/-- A frame's blocks leave on one output in whole slot groups, from the first boundary at or after `t`, in 1/120 ns (R304). -/
def Dev.linkSend (d : Dev) (leat : Bool) (t : Nat) (bs : List FlBlock) (f : Fl) : Fl :=
  let f := d.linkTrained leat f
  if f.training.isSome then f else
  let f := f.idleTo (d.linkAlign leat) (List.replicate 4 idleBlock) (linkPlace f t)
  let f := (slotGroups 4 bs).foldl (Fl.emit (d.linkAlign leat)) { f with wire := [] }
  { f with sent := bs, wire := d.linkPhysical leat f.wire }

/-- RING_TX_EQ takes effect: at the basic level the word that PROFILE derives, which it reads from now on (R15, R330). -/
def Dev.linkEq (d : Dev) : Dev :=
  let d := if d.level .ring then d else d.sgAll ((d.derived .ring).filter (fun p => p.1 == Reg.RING_TX_EQ))
  d.sfr Reg.RING_TX_EQ (takenWord Reg.RING_TX_EQ (d.rg Reg.RING_TX_EQ))

/-- Both outputs train: the leat output of a ring of 2 stays OFF (R297, R299).  RING_LINK and RING_TX_EQ take effect (R330). -/
def Dev.trainLinks (d : Dev) : Dev :=
  let d := (d.sfr Reg.RING_LINK (d.rg Reg.RING_LINK)).linkEq
  d.onRing (fun r => { r with tx := { r.tx with training := some d.tb }, txl := { r.txl with training := some d.tb } })

/-- Have the outputs trained? -/
def Dev.linksUp (d : Dev) : Bool :=
  match d.ring.tx.training with
  | some t => decide ((trainBlocks + 1) * 66000 ≤ (d.tb - t) * 16000)
  | none => true

/-! ### Identity and flags -/

/-- M: the ring size. -/
def Dev.ringSize (d : Dev) : Nat := d.fd Reg.RING_CFG 0 7

/-- Raise ring source `s` when enabled (R328). -/
def Dev.ringRaise (d : Dev) (s : Nat) : Dev := d.raiseIf (d.bt Reg.RING_INT_EN (s - 224)) s

/-- The flags of Table 10-3 as they stand. -/
def Dev.stateFlags (d : Dev) : Nat :=
  let b := fun (i : Nat) (x : Bool) => if x then 2 ^ i else 0
  let r := d.ring
  b 0 (r.nst == 3) + b 1 d.tapping + b 2 (d.bt Reg.HOP_STAT 1) + b 3 r.seg + b 4 r.head + b 5 r.source + b 6 (r.nst == 5) +
    b 7 (r.sel == 2) + b 8 (r.nst == 4) + b 9 (d.bt Reg.RING_STAT 11)

/-- Tick period in ns, at least 1. -/
def Dev.tickNs (d : Dev) : Nat := max 1 d.tick.periodNs

/-- Nodes whose STATE frames were taken within the last 2 tick periods, and the node itself (R312). -/
def Dev.membersNow (d : Dev) : Nat :=
  (List.range 64).foldl (fun acc o =>
    let heard := match Tab.at none d.ring.heard o with
      | some t => decide (d.tb ≤ t + 2 * d.tickNs)
      | none => false
    if heard || o == d.nodeId then acc + 2 ^ o else acc) 0

/-- Show a 64-node bitmap in a register pair. -/
def Dev.sgMap (d : Dev) (lo hi m : Nat) : Dev := (d.sg lo (BitVec.ofNat 32 m)).sg hi (BitVec.ofNat 32 (m / 2 ^ 32))

/-- RING_MEMBERS follows the nodes heard; a change raises source 226. -/
def Dev.updateMembers (d : Dev) : Dev :=
  let m := d.membersNow
  if m = d.pair Reg.RING_MEMBERS_LO Reg.RING_MEMBERS_HI then d
  else (d.sgMap Reg.RING_MEMBERS_LO Reg.RING_MEMBERS_HI m).ringRaise 226

/-- A STATE frame is originated, with `more` set beside the flags as they stand (R312). -/
def Dev.sendState (d : Dev) (more : Nat := 0) : Dev :=
  let fl := d.stateFlags
  let f : RFrame := { origin := d.nodeId, ds := [BitVec.ofNat 64 d.ringTime, BitVec.ofNat 64 (fl ||| more), BitVec.ofNat 64 d.membersNow,
    BitVec.ofNat 64 (d.rg Reg.HOP_RING_DROP_CNT).toNat, 0, 0] }
  d.onRing (fun r => { r with ctlq := r.ctlq ++ [(4, f)], flags := fl, ownSent := some (r.ownSent.getD d.tb) })

/-- May the node originate STATE frames (Table 10-4)? -/
def Dev.mayState (d : Dev) : Bool := d.ring.nst == 2 || d.ring.nst == 3 || d.ring.nst == 4

/-- A change of the flags is sent at once (R312). -/
def Dev.stateIfChanged (d : Dev) : Dev :=
  if !d.standalone && d.mayState && d.stateFlags != d.ring.flags then d.sendState else d

/-- A PROBE frame is originated, unless in segment mode (R310, R318). -/
def Dev.sendProbe (d : Dev) : Dev :=
  if d.ring.seg || !(d.ring.nst == 2 || d.ring.nst == 3) then d
  else d.onRing (fun r => { r with ctlq := r.ctlq ++ [(5, { origin := d.nodeId, ds := [0, 0, 0, 0, 0, 0] })] })

/-- The flywheel runs in holdover: no reference is in use (R41, R313, R319). -/
def Dev.holdoverRun (d : Dev) : Dev :=
  ((((d.sb Reg.TG_TICK_STAT 2).cb Reg.TG_TICK_STAT 3).sf Reg.TG_TICK_STAT 7 2 0)).onTick
    (fun t => { t with edges := [], jump := false, corrNum := 0, corrDen := 1 })

/-- The node becomes ISOLATED (R313), and its flywheel runs in holdover; DEPARTED ends only at POR_N (R309). -/
def Dev.goIsolated (d : Dev) : Dev :=
  if d.ring.nst = 5 then d else (d.onRing (fun r => { r with nst := 4, source := false, headSource := false, headTick := false })).holdoverRun

/-- It does so for NUM_ERR or DUP_ID. -/
def Dev.isolate (d : Dev) (bit : Nat) : Dev := ((d.sb Reg.RING_STAT bit).goIsolated).ringRaise 229

/-! ### The tick source (R319) and segment mode (R310) -/

/-- Does the ring select the references of this node's flywheel (R39)? -/
def Dev.ringRefs (d : Dev) : Bool := d.fd Reg.TG_TICK_CTRL 8 2 == 2

/-- Does a TICK_IN edge correct this node's flywheel?  HEAD_TICK rules a head until segment mode ends on it, SRC_IN any other source. -/
def Dev.ringUsesTickIn (d : Dev) : Bool :=
  d.ring.source && (if d.ring.headTick then d.fbt Reg.RING_POLICY 1 else d.bt Reg.RING_CFG 9)

/-- The flywheel of a source runs as internal (R39, R319): without corrections, at the programmed period. -/
def Dev.internalRun (d : Dev) : Dev :=
  if !d.ringRefs then d else
  (((d.cb Reg.TG_TICK_STAT 2).cb Reg.TG_TICK_STAT 3).sf Reg.TG_TICK_STAT 7 2 0).onTick
    (fun t => ({ t with edges := [], jump := false, misses := 0, corrNum := 0, corrDen := 1 } : Tick).program)

/-- The node is a tick source from now on; in LISTEN it forms the ring JOINED, unless its SRC is not 2 (R313).  Its ring time keeps its
offset from the timebase (R314), and it fixes the coming cut (R620). -/
def Dev.formSource (d : Dev) : Dev :=
  (d.onRing (fun r => { r with source := true, rtSet := true, rtWant := r.rtOff, nst := if r.nst = 2 && d.ringRefs then 3 else r.nst,
                               tickAt := some d.tb })).fixCut

/-- The node becomes a tick source: its flywheel runs as internal until TICK_IN corrects it. -/
def Dev.becomeSource (d : Dev) : Dev := d.formSource.internalRun

/-- Segment mode is entered: no PROBE is sent in it. -/
def Dev.enterSegment (d : Dev) : Dev :=
  if d.ring.seg then d else
  let d := (d.onRing (fun r => { r with seg := true, backRun := 0, ctlq := r.ctlq.filter (fun p => p.1 != 5) })).inc Reg.RING_SEG_CNT
  let d := if d.ring.source && !d.ring.head then d.onRing (fun r => { r with source := false, wasSource := true }) else d
  d.ringRaise 225

/-- A head is a tick source whatever TICK_SRC_EN is, in holdover unless TICK_IN corrects it. -/
def Dev.headSourceOn (d : Dev) : Dev :=
  if !d.ring.head || d.ring.headTick || !(d.ring.nst == 2 || d.ring.nst == 3) then d else
  let goesOn := d.ring.source && d.bt Reg.RING_CFG 9 && d.fbt Reg.RING_POLICY 1
  let d := d.onRing (fun r => { r with headTick := true })
  let d := if d.ring.source then d else d.formSource.onRing (fun r => { r with headSource := true })
  if goesOn || !d.ringRefs then d else d.holdoverRun

/-- Segment mode ends on the node. -/
def Dev.leaveSegment (d : Dev) : Dev :=
  let wasHead := d.ring.headTick
  let d := d.onRing (fun r => { r with seg := false, headOf := none, headTick := false })
  let d := if d.ring.headSource then d.onRing (fun r => { r with source := false, headSource := false, tickAt := some d.tb })
    else if wasHead && d.ring.source && !(d.bt Reg.RING_CFG 9 && d.fbt Reg.RING_POLICY 1) then d.internalRun
    else d
  let d := if d.ring.wasSource && d.bt Reg.RING_CFG 8 then d.becomeSource else d
  (d.onRing (fun r => { r with wasSource := false })).ringRaise 225

/-- None of the STATE frames originated in the last 2 tick periods has come back. -/
def Dev.noReturn (d : Dev) : Bool :=
  match d.ring.ownSent with
  | none => false
  | some t0 => decide (t0 + 2 * d.tickNs ≤ d.tb) &&
      (match d.ring.ownBack with
       | none => true
       | some t => decide (t + 2 * d.tickNs < d.tb))

/-- A STATE frame with SEGMENT was taken within the last 2 tick periods. -/
def Dev.segRecent (d : Dev) : Bool :=
  match d.ring.segHeard with
  | some t => decide (d.tb ≤ t + 2 * d.tickNs)
  | none => false

/-- Enter or leave segment mode as R310 says; a departed node originates no STATE frame that could come back. -/
def Dev.segEval (d : Dev) : Dev :=
  if d.ring.nst < 2 then d else
  let want := d.ring.head || d.segRecent || (d.mayState && d.noReturn)
  let d := if want && !d.ring.seg then d.enterSegment
    else if d.ring.seg && !d.ring.head && !d.segRecent && decide (2 ≤ d.ring.backRun) then d.leaveSegment else d
  d.headSourceOn.stateIfChanged

/-! ### Forwarding (R304) -/

/-- A frame leaves on both outputs at time `t`, in 1/120 ns. -/
def Dev.sendOut (d : Dev) (k : Nat) (f : RFrame) (t : Nat) : Dev :=
  d.onRing (fun r => { r with
    sent := ((k, f) :: r.sent).take 64
    tx := d.linkSend false t (frameBlocks k f) r.tx
    txl := if d.ringSize ≤ 2 then r.txl else d.linkSend true t (frameBlocks k f) r.txl })

/-- The forwarded frames that leave by time `t`, in 1/120 ns, leave. -/
def Dev.linkFlush (d : Dev) (t : Nat) : Dev :=
  let go := d.ring.dues.filter (fun p => decide (p.1 ≤ t))
  if go.isEmpty then d else
  go.foldl (fun d p => d.sendOut p.2.1 p.2.2 p.1) (d.onRing (fun r => { r with dues := r.dues.filter (fun p => decide (t < p.1)) }))

/-- Declared board delay of an input, ps (R315). -/
def Dev.boardPs (d : Dev) (leat : Bool) : Int := ((d.fd (if leat then Reg.RING_BOARD_LEAT else Reg.RING_BOARD_PRI) 0 16) * 10 : Nat)

/-- Data block `i` (1 for D1). -/
def dblk (f : RFrame) (i : Nat) : BitVec 64 := f.ds.getD (i - 1) 0

/-- The position of CORR: D3 of a TICK, D2 of a PROBE. -/
def corrIx (k : Nat) : Nat := if k = 3 then 3 else 2

/-- CORR of a timing frame, ps. -/
def corrOf (k : Nat) (f : RFrame) : Int := (dblk f (corrIx k)).toInt

/-- The frame with CORR set. -/
def setCorr (k : Nat) (f : RFrame) (c : Int) : RFrame := { f with ds := f.ds.set (corrIx k - 1) (BitVec.ofInt 64 c) }

/-- Forward a frame taken at `arrival` ps: HOPS rises, CORR of TICK and PROBE takes the residence and the board delay, and the frame leaves
after its residence of 112 ns. -/
def Dev.forward (d : Dev) (k : Nat) (f : RFrame) (arrival : Nat) : Dev :=
  if d.ringSize ≤ f.hops + 1 then d else
  let f := { f with hops := f.hops + 1 }
  let (f, d) :=
    if k = 3 ∨ k = 5 then
      (setCorr k f (corrOf k f + (109900 + (Config.residenceVar d.free % 4201 : Nat)) + d.boardPs (d.ring.sel == 2)), d.useFree)
    else (f, d)
  let d := d.linkFlush (120 * d.tb)
  (d.onRing (fun r => { r with dues := r.dues ++ [((arrival + 112000) * 120 / 1000, k, f)] })).inc Reg.RING_FWD_CNT

/-! ### What taking a frame does -/

/-- A record from the ring goes to the hopper (R102, R242, R252, R306, R311). -/
def Dev.tapRecord (d : Dev) (f : RFrame) : Dev :=
  let segOk := !(d.ring.seg && d.fbt Reg.RING_POLICY 0) || d.ring.headOf == some f.origin
  if !d.tapping || !segOk then d else
  let ws := unpackWords (f.ds.drop 2)
  let ring := bits (dblk f 2).toNat 0 14
  let c := d.ingestCause ws
  if c ≠ 0 then d.refuseRec ring true (recType ws) c
  else if recType ws = 11 ∧ recTarget ws = 2 then d.handOverNow (ws.drop 2)
  else if !d.keeps ws then d
  else if d.fd Reg.HOP_POND_RES 0 17 < d.pondPlaces true + ws.length / 8 then
    let d := ((d.inc Reg.HOP_RING_DROP_CNT).sb Reg.HOP_STAT 5).sb Reg.HOP_STAT 1
    (d.onHop (fun h => { h with lastDrop := d.tick.num })).hopOnce 219
  else
    (d.stage { words := ws, stamp := (dblk f 1).toNat, node := f.origin, ring := ring, cls := bits (dblk f 2).toNat 14 2,
               fromRing := true }).add Reg.HOP_RING_IN_CNT (ws.length / 8)

/-- A STATE frame is taken (R310, R312, R325). -/
def Dev.takeState (d : Dev) (f : RFrame) : Dev :=
  let fl := (dblk f 2).toNat
  let o := f.origin
  let d := d.onRing (fun r => { r with heard := Tab.put none r.heard o (some d.tb) })
  let d := if bits fl 3 1 = 1 then d.onRing (fun r => { r with segHeard := some d.tb, headOf := if bits fl 4 1 = 1 then some o else r.headOf }) else d
  let lag := d.pair Reg.RING_LAG_LO Reg.RING_LAG_HI
  let was := bits lag o 1
  let now := bits fl 2 1
  let d := d.sgMap Reg.RING_LAG_LO Reg.RING_LAG_HI (setBits lag o 1 now)
  let d := if was = 0 ∧ now = 1 then d.ringRaise 232 else d
  d.updateMembers.segEval

/-- Refresh the mailbox receive registers (R327). -/
def Dev.mbxShow (d : Dev) : Dev :=
  let q := d.ring.mbx
  let (o, st, ws) := q.head?.getD (0, 0, [])
  let d := (List.range 8).foldl (fun d i => d.sg (Reg.RING_MBX_RX i) (ws.getD i 0)) d
  let d := d.sg Reg.RING_MBX_RX_INFO (packFields [(0, o), (8, if q.isEmpty then 0 else 1), (16, q.length)])
  (d.sg Reg.RING_MBX_RX_TS_LO (BitVec.ofNat 32 st)).sg Reg.RING_MBX_RX_TS_HI (BitVec.ofNat 32 (st / 2 ^ 32))

/-- An EVENT frame is taken: a mailbox message or a notice for this node (R326, R327, R570). -/
def Dev.takeEvent (d : Dev) (f : RFrame) : Dev :=
  let d2 := (dblk f 2).toNat
  let mine := bits d2 6 1 == 1 || bits d2 0 6 == d.nodeId
  if !d.tapping || !mine then d else
  let code := bits d2 8 8
  let ws := unpackWords (f.ds.drop 2)
  if code ≠ 0 then d.logNotice f.origin code ws
  else if 16 ≤ d.ring.mbx.length then (d.sb Reg.RING_MBX_TX_CTRL 10).ringRaise 231
  else ((d.onRing (fun r => { r with mbx := r.mbx ++ [(f.origin, (dblk f 1).toNat, ws)] })).mbxShow).ringRaise 230

/-- A node in LISTEN whose SRC is not 2 sets ALIGN_ERR (R313). -/
def Dev.alignCheck (d : Dev) : Dev :=
  if d.ring.nst = 2 ∧ d.ringRefs = false ∧ d.bt Reg.RING_STAT 16 = false then (d.sb Reg.RING_STAT 16).ringRaise 228 else d

/-- RING_TICK_ERR of a tick, and what 8 ticks in a row mean (R313, R317): ALIGN_ERR is set again while the error lasts. -/
def Dev.tickError (d : Dev) (num : Nat) (tsrcPs : Int) : Dev :=
  let own := if num = d.tick.num + 1 then d.tick.next else d.tick.ts
  let err : Int := ((own * 1000 : Nat) - tsrcPs) / 100
  let d := d.sg Reg.RING_TICK_ERR (wordOfInt err)
  let nearNow := decide (num = d.tick.num ∨ num = d.tick.num + 1) && decide (err.natAbs ≤ 40)
  let d := d.onRing (fun r => if nearNow then { r with near := r.near + 1, far := 0 } else { r with near := 0, far := r.far + 1 })
  let d := d.alignCheck
  let d := if d.ring.nst = 2 ∧ d.ringRefs = true ∧ 8 ≤ d.ring.near then d.onRing (fun r => { r with nst := 3 }) else d
  if 8 ≤ d.ring.far ∧ (d.ring.far = 8 ∨ d.bt Reg.RING_STAT 16 = false) then (d.sb Reg.RING_STAT 16).ringRaise 228 else d

/-- The pending horizon change that a TICK frame carries (R321). -/
def Dev.takeHorizon (d : Dev) (f : RFrame) : Dev :=
  if bits (dblk f 5).toNat 32 1 = 1 then
    d.onRing (fun r => { r with hzPend := some ((dblk f 4).toNat / 2 ^ 32 % 2 ^ 19, serialTick (dblk f 1).toNat ((dblk f 5).toNat % 2 ^ 32)) })
  else d

/-- The horizon in force that the TICK frame of tick `num` carries: every node uses the same (R321). -/
def Dev.sameHorizon (d : Dev) (num : Nat) (f : RFrame) : Dev :=
  let hz := (dblk f 4).toNat % 2 ^ 19
  if d.tick.num < num ∨ hz = d.horizon then d
  else (d.onRing (fun r => { r with hzPend := r.hzPend.filter (fun p => decide (num < p.2)) })).applyHorizon hz

/-- A TICK frame is taken at `arrival` ps at the balls of an input (R298, R313, R314, R316, R319, R320, R620). -/
def Dev.takeTick (d : Dev) (f : RFrame) (arrival : Nat) (leat : Bool) : Dev :=
  if d.ring.nst = 4 then d else
  if d.ring.source && decide (d.nodeId < f.origin) then d else
  let d := d.onRing (fun r => { r with source := false, headSource := false, headTick := false })
  let num := (dblk f 1).toNat
  let tsrcPs : Int := (arrival : Int) - corrOf 3 f - d.boardPs leat
  let tsrc : Nat := (tsrcPs / 1000).toNat
  let want : Int := ((dblk f 2).toNat : Int) - tsrc
  let first := d.ring.nst == 2 && d.ring.ticks == 0 && d.ring.followed.isNone
  if first then
    let d := d.onRing (fun r => { r with rtSet := true, rtOff := want, rtWant := want, rtMark := d.tb, ticks := 1, followed := some f.origin,
                                         tickAt := some d.tb, srcNext := some (num + 1, (dblk f 6).toNat) })
    let d := (d.onTick (fun t => { t with num := num, edges := [] })).onHop (fun h => { h with cuts := [] })
    let hz := (dblk f 4).toNat % 2 ^ 19
    let d := (((d.sf Reg.RING_HORIZON 0 19 hz).sg Reg.HOP_HORIZON (BitVec.ofNat 32 hz)).judgeHorizon).sf Reg.TG_TICK_STAT 7 2 0
    let d := (d.takeHorizon f).onHop (fun h => h.setCut num ((dblk f 2).toNat - hz))
    ((d.sourceTick num (dblk f 2).toNat (dblk f 6).toNat).tickError num tsrcPs).refEdge tsrc 2
  else
    let change := d.ring.followed != some f.origin
    let ownAt := if num = d.tick.num + 1 then d.tick.next else d.tick.ts
    let agrees := decide (num = d.tick.num ∨ num = d.tick.num + 1) && decide (2 * ((ownAt : Int) - tsrc).natAbs < d.tickNs)
    if change && !agrees then d.isolate 13 else
    let d := if change then (d.onTick (fun t => { t with edges := [] })).sf Reg.TG_TICK_STAT 7 2 0 else d
    let second := d.ring.nst == 2 && d.ring.ticks == 1
    let d := d.onRing (fun r => { r with rtWant := want, ticks := r.ticks + 1, followed := some f.origin, tickAt := some d.tb,
                                         srcNext := some (num + 1, (dblk f 6).toNat) })
    let d := ((d.takeHorizon f).sameHorizon num f).sourceTick num (dblk f 2).toNat (dblk f 6).toNat
    let d := if second then d.sendProbe else d
    (d.tickError num tsrcPs).refEdge tsrc 2

/-- A node's own frame has come back and is removed (R302, R310, R313, R318). -/
def Dev.ownFrame (d : Dev) (k : Nat) (f : RFrame) (arrival : Nat) : Dev :=
  if (f.seq + 2 ^ 32 - d.ring.seq % 2 ^ 32) % 2 ^ 32 < 2 ^ 31 then d.isolate 14
  else if k = 4 then (d.onRing (fun r => { r with ownBack := some d.tb, backNow := true })).segEval
  else if k = 5 then
    let left := (dblk f 1).toNat
    if !d.ring.probes.contains left then d else
    let d := d.onRing (fun r => { r with probes := r.probes.filter (fun x => x != left) })
    if left + 1000000000 < arrival then d else
    let loop : Int := ((arrival : Int) - left) / 100
    let res : Int := loop - (corrOf 5 f + d.boardPs (d.ring.sel == 2)) / 100
    let d := (d.sg Reg.RING_LOOP (wordOfInt loop)).sg Reg.RING_LOOP_RES (wordOfInt res)
    let d := if d.ff Reg.RING_POLICY 8 8 * 10 < res.natAbs then (d.sb Reg.RING_STAT 11).ringRaise 227 else d
    d.judgeHorizon
  else d

/-! ### Taking (R302, R303) -/

/-- Is the frame new? -/
def Dev.isNew (d : Dev) (f : RFrame) : Bool :=
  match Tab.at none d.ring.last f.origin with
  | none => true
  | some (l, at_) =>
    let δ := (f.seq + 2 ^ 32 - l) % 2 ^ 32
    (decide (1 ≤ δ) && decide (δ < 2 ^ 31)) || (f.seq == 0 && decide (at_ + 1000000 < d.tb))

/-- Frames that come between LAST(o) and the frame. -/
def Dev.gapOf (d : Dev) (f : RFrame) : Nat :=
  match Tab.at none d.ring.last f.origin with
  | none => 0
  | some (l, _) =>
    let δ := (f.seq + 2 ^ 32 - l) % 2 ^ 32
    if 1 ≤ δ ∧ δ < 2 ^ 31 then δ - 1 else 0

/-- Take one frame that came in on an input: LAST(o) moves and the frame has its effect. -/
def Dev.take1 (d : Dev) (k : Nat) (f : RFrame) (arrival : Nat) (leat : Bool) : Dev :=
  let d := d.onRing (fun r => { r with last := Tab.put none r.last f.origin (some (f.seq, d.tb)) })
  match k with
  | 1 => d.tapRecord f
  | 2 => d.tapRecord f
  | 3 => d.takeTick f arrival leat
  | 4 => d.takeState f
  | 6 => d.takeEvent f
  | _ => d

/-- Is it a unicast EVENT whose destination this node is (R327)? -/
def Dev.endsHere (d : Dev) (k : Nat) (f : RFrame) : Bool :=
  k == 6 && bits (dblk f 2).toNat 6 1 == 0 && bits (dblk f 2).toNat 0 6 == d.nodeId

/-- A new frame of the selected input: taken and forwarded. -/
def Dev.takeForward (d : Dev) (k : Nat) (f : RFrame) (arrival : Nat) : Dev :=
  let fwd := !d.endsHere k f
  let d := if fwd then d.forward k f arrival else d
  d.take1 k f arrival (d.ring.sel == 2)

/-- The leat buffer as it stands: the frames of the last 4,096 slot groups, 16,896 ns (R303). -/
def Dev.leatNow (d : Dev) : List (Nat × Nat × RFrame) := d.ring.leatBuf.filter (fun p => decide (d.tb ≤ p.1 + 16896))

/-- The lowest SEQ after LAST(o) and below `f`'s that the leat buffer holds is taken, at most `n` times; with the frames so taken. -/
def Dev.repair (d : Dev) (f : RFrame) : Nat → Dev × Nat
  | 0 => (d, 0)
  | n + 1 =>
    let l := match Tab.at none d.ring.last f.origin with
      | some p => p.1
      | none => f.seq
    let dist := fun (g : RFrame) => (g.seq + 2 ^ 32 - l) % 2 ^ 32
    let lim := dist f
    let cands := d.leatNow.filter (fun (p : Nat × Nat × RFrame) =>
      p.2.2.origin == f.origin && p.2.2.crcOk && decide (1 ≤ dist p.2.2) && decide (dist p.2.2 < lim))
    match cands.foldl (fun (b : Option (Nat × Nat × RFrame)) p =>
        match b with
        | none => some p
        | some q => if dist p.2.2 < dist q.2.2 then some p else b) none with
    | none => (d, 0)
    | some p =>
      let r := (d.take1 p.2.1 p.2.2 (p.1 * 1000) true).repair f n
      (r.1, r.2 + 1)

/-- A frame of the primary input may show a gap: the leat buffer fills it, and what stays missing counts (R303). -/
def Dev.fillGap (d : Dev) (f : RFrame) : Dev :=
  let gap := d.gapOf f
  let r := d.repair f (min gap 4096)
  r.1.add Reg.RING_GAP_CNT (gap - r.2)

/-- A frame of the selected input (R301 to R304). -/
def Dev.onSelected (d : Dev) (k : Nat) (f : RFrame) (arrival : Nat) : Dev :=
  if !f.crcOk then d.inc Reg.RING_CRC_CNT
  else if f.origin = d.nodeId then d.ownFrame k f arrival
  else if !d.isNew f then d
  else
    (if d.ring.sel = 1 then d.fillGap f else d).takeForward k f arrival

/-! ### Input selection (R307, R308) -/

/-- Another input is selected: source 224, and a PROBE (R318). -/
def Dev.selectInput (d : Dev) (i : Nat) : Dev := ((d.onRing (fun r => { r with sel := i })).ringRaise 224).sendProbe

/-- The node switches to its leat input and takes the new frames of the leat buffer in order. -/
def Dev.toLeat (d : Dev) : Dev :=
  let d := (d.onRing (fun r => { r with priJoined := false })).inc Reg.RING_SWITCH_CNT |>.selectInput 2
  (d.leatNow.filter (fun p => p.2.2.crcOk)).foldl (fun d (p : Nat × Nat × RFrame) => d.onSelected p.2.1 p.2.2 (p.1 * 1000)) d

/-- The primary neighbour. -/
def Dev.priNeighbour (d : Dev) : Nat := (d.nodeId + d.ringSize - 1) % max 1 d.ringSize

/-- Both inputs dead make a head (R310). -/
def Dev.headEval (d : Dev) : Dev :=
  let h := !d.ring.priAlive && !d.ring.leatAlive
  (d.onRing (fun r => { r with head := h, headOf := if h then some d.nodeId else r.headOf })).segEval

/-- With both inputs dead none is selected. -/
def Dev.noInput (d : Dev) : Dev := if d.ring.priAlive || d.ring.leatAlive then d else d.onRing (fun r => { r with sel := 0 })

/-- RING_INPUT_DEAD (R307): a dead leat input changes the selection only where it leaves no input alive. -/
def ringInputDead (leat : Bool) (d : Dev) : Dev :=
  if d.standalone || decide (d.ring.nst < 2) then d else
  if leat then
    (d.onRing (fun r => { r with leatAlive := false })).noInput.headEval
  else
    let d := d.onRing (fun r => { r with priAlive := false, priJoined := false })
    let d := if d.ring.sel = 1 ∧ d.ring.leatAlive = true then d.toLeat else d
    d.noInput.headEval

/-- RING_INPUT_RETURN (R308). -/
def ringInputReturn (d : Dev) : Dev :=
  if d.ring.sel = 2 ∧ d.ring.priAlive = true ∧ d.ring.priSince + 100000 ≤ d.tb ∧ d.ring.priJoined = true then
    ((d.inc Reg.RING_BACK_CNT).selectInput 1).stateIfChanged
  else d

/-- An input is alive: a node in TRAIN enters LISTEN, and a node without a selected input selects it (R307, R313). -/
def Dev.inputAlive (d : Dev) (leat : Bool) : Dev :=
  let d := d.onRing (fun r => if leat then { r with leatAlive := true } else { r with priAlive := true, priSince := d.tb, priJoined := false })
  let sel := if leat then 2 else 1
  let d :=
    if d.ring.nst = 1 then (d.onRing (fun r => { r with nst := 2, seq := 0, listenAt := d.tb, sel := sel })).sendState.alignCheck
    else if d.ring.sel = 0 then d.selectInput sel
    else d
  d.headEval.stateIfChanged

/-- A frame arrives on an input (`leat` or primary) at `sub` ps after the timebase. -/
def ringFrame (k : Nat) (leat : Bool) (f : RFrame) (sub : Nat) (d : Dev) : Dev :=
  if d.standalone || !(if leat then d.ring.leatWired && decide (2 < d.ringSize) else d.ring.priWired) then d else
  -- an input that carries a frame is alive again (R307)
  let d := if (if leat then d.ring.leatAlive else d.ring.priAlive) then d else d.inputAlive leat
  let arrival := d.tb * 1000 + sub % 1000
  let d := if leat then d.onRing (fun r => { r with leatBuf := d.leatNow ++ [(d.tb, k, f)] }) else d
  let d :=
    if d.ring.sel = (if leat then 2 else 1) then d.onSelected k f arrival
    else if !leat && d.ring.sel == 2 && k == 4 && f.crcOk && f.origin == d.priNeighbour then
      -- a STATE frame of the neighbour is awaited before the primary input is selected again (R308)
      let d := if bits (dblk f 2).toNat 0 1 = 1 then d.onRing (fun r => { r with priJoined := true }) else d
      if d.isNew f then (d.fillGap f).take1 k f arrival false else d
    else d
  -- a departing neighbour: the leat input is selected at once (R309)
  let d := if k == 4 && !leat && f.crcOk && f.origin == d.priNeighbour && bits (dblk f 2).toNat 6 1 == 1 && d.ring.sel == 1 && d.ring.leatAlive
    then d.toLeat else d
  d.stateIfChanged

/-- RECORD. -/
def ringRecord (leat : Bool) (f : RFrame) (d : Dev) : Dev := ringFrame 1 leat f 0 d
/-- RECORD_PAIR. -/
def ringRecordPair (leat : Bool) (f : RFrame) (d : Dev) : Dev := ringFrame 2 leat f 0 d
/-- TICK_FRAME. -/
def ringTickFrame (leat : Bool) (f : RFrame) (sub : Nat) (d : Dev) : Dev := ringFrame 3 leat f sub d
/-- STATE. -/
def ringState (leat : Bool) (f : RFrame) (d : Dev) : Dev := ringFrame 4 leat f 0 d
/-- PROBE. -/
def ringProbe (leat : Bool) (f : RFrame) (sub : Nat) (d : Dev) : Dev := ringFrame 5 leat f sub d
/-- EVENT. -/
def ringEvent (leat : Bool) (f : RFrame) (d : Dev) : Dev := ringFrame 6 leat f 0 d

/-- RING_LINK_TRAINED (R299, R300, R313): the TRAIN blocks of an input carry node `id` and a link bit. -/
def ringLinkTrained (leat : Bool) (id : Nat) (linkBit : Bool) (d : Dev) : Dev :=
  let m := d.ringSize
  if d.standalone || d.ring.nst == 0 || (leat && decide (m ≤ 2)) then d else
  let want := (d.nodeId + 2 * m - (if leat then 2 else 1)) % m
  if id ≠ want ∨ linkBit ≠ leat then
    ((ringInputDead leat (d.onRing (fun r => if leat then { r with leatWired := false } else { r with priWired := false }))).sb
      Reg.RING_STAT 15).ringRaise 229
  else (d.onRing (fun r => if leat then { r with leatWired := true } else { r with priWired := true })).inputAlive leat

/-- A node that is not standalone leaves OFF once the PLL of its links has locked, and trains its outputs; one whose strap is M or more
becomes ISOLATED (R297 to R299, R313). -/
def Dev.ringStart (d : Dev) : Dev :=
  if d.standalone then d else
  let d := if d.ringSize ≤ d.nodeId && d.ring.nst < 2 then d.goIsolated else d
  if !d.ring.pllLocked then d
  else (d.onRing (fun r => if r.nst = 0 then { r with nst := 1 } else r)).trainLinks

/-- RING_PLL_LOCK: the PLL of the ring links locks or relocks, and the outputs train (R299). -/
def ringPllLock (d : Dev) : Dev := (d.onRing (fun r => { r with pllLocked := true })).ringStart

/-! ### Injection (R305, R323) -/

/-- Slot groups of a frame kind (Table 10-2). -/
def frameGroups (k : Nat) : Nat := if k = 2 then 3 else 2

/-- When a frame of `len` slot groups that the node originates leaves, in 1/120 ns: at the first place from now on in which it fits whole
between the forwarded frames (R305). -/
def Dev.departAt (d : Dev) (len : Nat) : Nat :=
  let f := d.linkTrained false d.ring.tx
  let s := d.ring.dues.foldl (fun (s : Nat) p =>
    let q := f.span (linkPlace f p.1) (frameGroups p.2.1)
    let o := f.span s len
    if o.2 ≤ q.1 ∨ q.2 ≤ o.1 then s else q.2) (max f.groups (linkPlace f (120 * d.tb)))
  120 * f.t0 + ((f.span s len).1 + trainBlocks) * 495

/-- An originated frame leaves with the node's next SEQ at time `t`, in 1/120 ns. -/
def Dev.depart (d : Dev) (k : Nat) (f : RFrame) (t : Nat) : Dev :=
  ((d.linkFlush t).sendOut k { f with seq := d.ring.seq % 2 ^ 32, origin := d.nodeId, hops := 0 } t).onRing (fun r => { r with seq := (r.seq + 1) % 2 ^ 32 })

/-- The frame that may leave next, by the order of R305: its KIND. -/
def Dev.nextInject (d : Dev) : Option Nat :=
  (d.ring.tickq.head?.map (·.1)) <|> (d.ring.ctlq.head?.map (·.1)) <|> (d.ring.injq.head?.map (·.2.1))

/-- FRAME_INJECT (R305, R323): the next originated frame leaves. -/
def frameInject (d : Dev) : Dev :=
  if d.standalone || decide (d.ring.nst < 2) || !d.linksUp then d else
  let d := d.stateIfChanged
  match d.ring.tickq with
  | (k, f) :: l =>
    let t := d.departAt 2
    (d.onRing (fun r => { r with tickq := l })).depart k (setCorr 3 f ((t * 25 / 3 : Nat) - (d.tick.ts * 1000 : Nat))) t
  | [] =>
    match d.ring.ctlq with
    | (k, f) :: l =>
      let d := d.onRing (fun r => { r with ctlq := l })
      let t := d.departAt 2
      if k = 5 then
        (d.onRing (fun r => { r with probes := r.probes ++ [t * 25 / 3] })).depart 5
          { f with ds := [BitVec.ofNat 64 (t * 25 / 3), 0, 0, 0, 0, 0] } t
      else d.depart k f t
    | [] =>
      match d.ring.injq with
      | (t0, k, f) :: l =>
        let recent := d.ring.injected.filter (fun p => decide (d.tb < p.1 + 4000))
        let used := (recent.map (·.2)).sum
        if !d.tapping || decide (4 * d.fd Reg.RING_INJ_RATE 0 8 < used + frameGroups k) then d else
        let d := d.onRing (fun r => { r with
          injq := l ++ (r.injWait.take 1).map (fun p => (d.tb, p)), injWait := r.injWait.drop 1
          injected := (d.tb, frameGroups k) :: recent })
        let d := ((d.depart k f (d.departAt (frameGroups k))).inc Reg.RING_INJ_CNT).raiseTo Reg.RING_INJ_WAIT_MAX (d.tb - t0)
        if k = 6 ∧ bits (dblk f 2).toNat 8 8 = 0 then d.cb Reg.RING_MBX_TX_CTRL 8 else d
      | [] => d

/-! ### Commands of software and timeouts -/

/-- DEPART (R309): the node stops tapping and injecting, and a STATE frame says so.  An isolated node, whose state ends only at POR_N (R313),
sends it too and stays ISOLATED (DESIGN CHOICE, log entry 89). -/
def ringDepart (d : Dev) : Dev :=
  if d.standalone || d.ring.nst == 5 then d
  else if d.ring.nst = 4 then d.sendState 64
  else (d.onRing (fun r => { r with nst := 5, source := false, headSource := false, headTick := false })).sendState

/-- PROBE_CMD (R318). -/
def ringProbeCmd (d : Dev) : Dev := if d.standalone then d else d.sendProbe

/-- PROBE_TIMEOUT (R318). -/
def ringProbeTimeout (d : Dev) : Dev :=
  d.onRing (fun r => { r with probes := r.probes.filter (fun t => decide (d.tb * 1000 < t + 1000000000)) })

/-- SEGMENT_TIMEOUT (R310). -/
def ringSegmentTimeout (d : Dev) : Dev := if d.standalone then d else d.segEval

/-- SOURCE_TIMEOUT (R319). -/
def ringSourceTimeout (d : Dev) : Dev :=
  let n := d.nodeId
  let late := match d.ring.tickAt with
    | some t => decide (t + (4 + n) * d.tickNs ≤ d.tb)
    | none => decide (d.ring.listenAt + 100000000 + n * 10000000 ≤ d.tb)
  if !d.standalone && !d.ring.source && d.bt Reg.RING_CFG 8 && late && (d.ring.nst == 2 || d.ring.nst == 3) then
    d.becomeSource.stateIfChanged
  else d

/-- HORIZON_REQUEST (R321). -/
def horizonRequest (w : Word) (d : Dev) : Dev :=
  let d := d.sg Reg.RING_HZ_AT w
  let ns := d.fd Reg.RING_HZ_NS 0 19
  let at_ := serialTick d.tick.num w.toNat
  if (d.standalone || d.ring.source) && d.ring.hzPend.isNone && decide (20000 ≤ ns) && decide (ns ≤ 500000) && decide (d.tick.num + 4 ≤ at_) then
    d.onRing (fun r => { r with hzPend := some (ns, at_) })
  else (d.sb Reg.RING_STAT 17).ringRaise 233

/-- MBX_SEND: a write of RING_MBX_TX_CTRL (R327). -/
def mbxSend (w : Word) (d : Dev) : Dev :=
  let a := Reg.RING_MBX_TX_CTRL
  let clr := (d.rg a &&& ~~~ (w &&& 0x600)) &&& 0x700
  -- a GO that cannot be taken changes nothing else
  if w.getLsbD 7 && (d.bt a 8 || !d.tapping) then d.sb a 9 else
  let d := d.sg a (clr ||| (w &&& 0x7F))
  if !w.getLsbD 7 then d
  else
    let ws := (List.range 8).map (fun i => d.rg (Reg.RING_MBX_TX i))
    (d.sb a 8).inject 6 ([BitVec.ofNat 64 d.ringTime, BitVec.ofNat 64 (w.toNat % 128)] ++ packWords ws)

/-- MBX_POP (R327). -/
def mbxPop (w : Word) (d : Dev) : Dev :=
  if w.getLsbD 31 then (d.onRing (fun r => { r with mbx := r.mbx.drop 1 })).mbxShow else d

/-- A write of RING_CMD. -/
def ringCmdWrite (w : Word) (d : Dev) : Dev :=
  let d := if w.getLsbD 1 then ringProbeCmd d else d
  if w.getLsbD 0 then ringDepart d else d

/-! ### References and the tick -/

/-- TICK_IN_EDGE: on a ring node with SRC 2 it corrects a source that uses TICK_IN (R40, R319). -/
def tickInCmd (d : Dev) : Dev :=
  if d.fd Reg.TG_TICK_CTRL 8 2 = 2 ∧ d.standalone = false then
    (if d.ringUsesTickIn then d.tickInPin.refEdge (d.tb - 3) 2 else d.tickInPin)
  else tickInEdge d

/-- TICK_WINDOW_CLOSE: SRC 2 acts as internal on a standalone node and on a source without TICK_IN (R298, R319). -/
def tickWindowCmd (d : Dev) : Dev :=
  if d.fd Reg.TG_TICK_CTRL 8 2 = 2 ∧ (d.standalone = true ∨ (d.ring.source = true ∧ d.ringUsesTickIn = false)) then d
  else
    let lost := d.bt Reg.TG_TICK_STAT 2
    let d := tickWindowClose d
    -- a source whose TICK_IN has given no valid edge for 8 ticks runs as internal again, a head in holdover (log entry 89)
    if d.ringRefs && d.ring.source && !d.ring.headTick && !lost && d.bt Reg.TG_TICK_STAT 2 then
      (d.cb Reg.TG_TICK_STAT 2).onTick Tick.program
    else d

/-- The ring's work at a mill tick (R310, R312, R313, R316, R318, R330): RING_POLICY takes effect. -/
def Dev.ringTick (d : Dev) : Dev :=
  let d := d.reachUpdate .ring
  if d.standalone then d else
  let d := d.alignCheck
  let d := if d.ring.source && d.ring.nst == 3 then
      let (ns, at_, p) := match d.ring.hzPend with
        | some (ns, t) => (ns, t, 1)
        | none => (0, 0, 0)
      let f : RFrame := { origin := d.nodeId, ds := [BitVec.ofNat 64 d.tick.num, BitVec.ofNat 64 d.ringTime, 0,
        BitVec.ofNat 64 (d.horizon + ns * 2 ^ 32), BitVec.ofNat 64 (at_ % 2 ^ 32 + p * 2 ^ 32), BitVec.ofNat 64 d.hop.tickTime] }
      d.onRing (fun r => { r with tickq := r.tickq ++ [(3, f)], tickAt := some d.tb, near := r.near + 1 })
    else d
  let d := d.onRing (fun r => { r with backRun := if r.backNow then r.backRun + 1 else 0, backNow := false })
  let d := d.updateMembers.segEval
  let d := if d.ring.nst = 3 ∨ d.ring.nst = 4 ∨ (d.ring.nst = 2 ∧ 0 < d.ring.ticks) then d.sendState else d
  if d.tick.num % 1024 = 0 then d.sendProbe else d

/-- RING_STAT as it reads (Table 10-9). -/
def Dev.ringStatRead (d : Dev) : Word :=
  let b := fun (i : Nat) (x : Bool) => (i, x.toNat)
  (d.rg Reg.RING_STAT &&& 0x3F801) ||| packFields [b 10 (!d.standalone && !d.ring.leatAlive), (1, d.nstate), (4, if d.standalone then 0 else d.ring.sel), b 6 d.ring.seg,
    b 7 d.ring.head, b 8 (d.standalone || d.ring.source), b 9 d.tapping]

/-- A write to the ring registers (Table 10-9). -/
def Dev.ringWrite (d : Dev) (a : Nat) (v mask : Word) : Dev :=
  let w := mergeWord (d.rg a) v mask
  if a = Reg.RING_CTRL then (d.ctrlWrite .ring w).stateIfChanged
  else if a = Reg.RING_HZ_AT then horizonRequest w d
  else if a = Reg.RING_CMD then (ringCmdWrite (v &&& mask) d).stateIfChanged
  else if a = Reg.RING_MBX_TX_CTRL then mbxSend (mergeWord (d.rg a &&& 0x7F) v mask) d
  else if a = Reg.RING_MBX_RX_INFO then mbxPop (v &&& mask) d
  else (d.plainWrite a v mask).stateIfChanged

end Sys2Proof.Machine
end

