-- ==== Sys2Proof/Machine/Intc.lean ====
section
/-!
DEFINITION. Interrupt controllers, host delivery and timer channels (chapter 13, R395 to R413, R421 to R424).
-/

namespace Sys2Proof.Machine

/-! ### Controllers (R397 to R402) -/

/-- INTC_CLAIM read by an agent (R399): the owning core claims the lowest eligible source. -/
def intcClaim (ag : Agent) (c : Nat) (d : Dev) : Dev :=
  if ag ≠ .core c ∨ (d.intcAt c).active.isSome = true then { d with rdata := 0 } else
  match d.bestSource c with
  | none => { d with rdata := 0 }
  | some s =>
    let n := Tab.at 0 (d.intcAt c).count s
    let d := d.onIntc c (fun i => { i with count := Tab.put 0 i.count s 0, active := some s })
    { d with rdata := packFields [(0, s), (12, n), (31, 1)] }

/-- A write of INTC_COMPLETE (R400). -/
def intcComplete (ag : Agent) (c : Nat) (w : Word) (d : Dev) : Dev :=
  if !ownerIs ag (c + 1) then d else
  if (d.intcAt c).active = some (w.toNat % 1024) then d.onIntc c (fun i => { i with active := none })
  else d.sb (Reg.INTC_STAT c) 2

/-- A write of word `j` of INTC_PEND (R397): each 1 zeroes a count. -/
def intcPendClear (c j : Nat) (w : Word) (d : Dev) : Dev :=
  d.onIntc c (fun i => { i with count := (List.range 32).foldl (fun t k => if w.getLsbD k then Tab.put 0 t (32 * j + k) 0 else t) i.count })

/-- Word `j` of INTC_PEND. -/
def Dev.pendWord (d : Dev) (c j : Nat) : Word :=
  packFields ((List.range 32).map (fun k => (k, if Tab.at 0 (d.intcAt c).count (32 * j + k) = 0 then 0 else 1)))

/-- A group that its setting no longer holds, or holds for a time that has passed, is released, and HELD is shown again (R402, R421). -/
def Dev.settleGroups (d : Dev) (c : Nat) : Dev :=
  (List.range 32).foldl (fun d g =>
    let m := Tab.at {} (d.intcAt c).groups g
    let n := d.fd (Reg.INTC_MOD c g) 16 4
    if m.held && (decide (m.since + d.fd (Reg.INTC_MOD c g) 0 16 * 1000 ≤ d.tb) || d.fd (Reg.INTC_MOD c g) 0 16 == 0 || (decide (n ≠ 0) && decide (n ≤ m.events))) then d.setGroup c g {}
    else d.setGroup c g m) d

/-- MODERATION_RELEASE (R402): MOD_US microseconds have passed since the hold began. -/
def moderationRelease (c g : Nat) (d : Dev) : Dev :=
  let m := Tab.at {} (d.intcAt c).groups g
  if m.held && decide (m.since + d.fd (Reg.INTC_MOD c g) 0 16 * 1000 ≤ d.tb) then d.setGroup c g {} else d

/-- INTC_ACTIVE. -/
def Dev.activeWord (d : Dev) (c : Nat) : Word :=
  match (d.intcAt c).active with
  | some s => packFields [(0, s), (31, 1)]
  | none => 0

/-- A write to the controller of core `c`. -/
def Dev.intcWrite (d : Dev) (ag : Agent) (c a : Nat) (v mask : Word) : Dev :=
  let vm := v &&& mask
  if c = 3 ∧ ag ≠ .core 3 then d
  else if a = Reg.INTC_CTRL c then (d.ctrlWrite (.intc c) (mergeWord (d.rg a) v mask)).settleGroups c
  else if a = Reg.INTC_COMPLETE c then intcComplete ag c vm d
  else if Reg.INTC_PEND c 0 ≤ a ∧ a ≤ Reg.INTC_PEND c 15 then intcPendClear c ((a - Reg.INTC_PEND c 0) / 4) vm d
  else if Reg.INTC_MOD c 0 ≤ a then (d.plainWrite a v mask).settleGroups c
  else d.plainWrite a v mask

/-! ### Routes, the host and software sources (R396, R404 to R406) -/

/-- A write of INT_ROUTE of source `s`: the fixed fields of sources 0, 2 and 3 keep their values (R396). -/
def Dev.routeWrite' (d : Dev) (s : Nat) (v mask : Word) : Dev :=
  let a := Reg.INT_ROUTE s
  d.sg a (mergeWord (d.rg a) v (mask &&& 0x1FF1F &&& ~~~routeFixed s))

/-- INT_SW_RAISE (R406). -/
def intSwRaise (w : Word) (d : Dev) : Dev :=
  let s := w.toNat % 512
  if s < 384 then d.sb Reg.INT_GSTAT 0 else d.raise s

/-- Control word of MSI-X vector `v`; bit 0 masks it and is 1 after reset. -/
def msixCtrl (v : Nat) : Nat := 0x1680000 + 16 * v + 12

/-- A word of the MSI-X table as it reads. -/
def Dev.msixWord (d : Dev) (a : Nat) : Word :=
  let w := Tab.at 0 d.aux a
  if a % 16 = 12 then w ^^^ 1 else w

/-- A write of the MSI-X table. -/
def Dev.msixWrite (d : Dev) (a : Nat) (v mask : Word) : Dev :=
  let w := mergeWord (d.msixWord a) v (if a % 16 = 12 then mask &&& 1 else if a % 16 = 0 then mask &&& 0xFFFFFFFC else mask)
  { d with aux := Tab.put 0 d.aux a (if a % 16 = 12 then w ^^^ 1 else w) }

/-- A word of the pending-bit array. -/
def Dev.pbaWord (d : Dev) (a : Nat) : Word :=
  let j := (a - 0x1682000) / 4
  packFields ((List.range 32).map (fun k => (k, (Tab.at false d.msixPend (32 * j + k)).toNat)))

/-- MSIX_SEND (R404, R405, R483): the message leaves after every earlier write of the device. -/
def msixSend (v : Nat) (w : W) : W :=
  let d := w.d
  if Tab.at false d.msixPend v && d.msixEn && !(d.msixWord (msixCtrl v)).getLsbD 0 && d.bme && d.hostq.isEmpty then
    let a := (d.msixWord (0x1680000 + 16 * v)).toNat + (d.msixWord (0x1680000 + 16 * v + 4)).toNat * 2 ^ 32
    (w.dev (fun d => { d with msixPend := Tab.put false d.msixPend v false })).hostWrite 5 v a (leBytes 4 (d.msixWord (0x1680000 + 16 * v + 8)).toNat)
  else w

/-! ### Timers (R407 to R413) -/

/-- The clock a channel compares with: the timebase, or ring time once it has been set (R410). -/
def Dev.tmrClock (d : Dev) (c : Nat) : Option Nat :=
  if d.bt (Reg.TMR_CH_CTRL c) 2 then
    if d.standalone || d.ring.rtSet then some d.ringTime else none
  else some d.tb

/-- How far the value that a synchroniser of 2 CCLK shows lies behind the timebase (R22, R614): the value shown is the last of which the
second CCLK edge after it has come. -/
def Dev.tbLag (d : Dev) : Nat := d.tb - (d.edgeTime (d.cclks - 1) - 1) / 120

/-- The channel's clock as its synchroniser shows it (R408). -/
def Dev.tmrSeen (d : Dev) (c : Nat) : Option Nat := (d.tmrClock c).map (fun now => now - d.tbLag)

/-- A write of TMR_CMP_HI arms the compare (R408). -/
def cmpArm (c : Nat) (w : Word) (d : Dev) : Dev :=
  let d := d.sg (Reg.TMR_CMP_HI c) w
  (d.onTmr c (fun t => { t with armed := true, cmp := d.pair (Reg.TMR_CMP_LO c) (Reg.TMR_CMP_HI c) })).sb (Reg.TMR_CH_CTRL c) 0

/-- The compare takes a new value, which its registers read. -/
def Dev.setCmp (d : Dev) (c v : Nat) : Dev :=
  ((d.onTmr c (fun t => { t with cmp := v })).sg (Reg.TMR_CMP_LO c) (BitVec.ofNat 32 v)).sg (Reg.TMR_CMP_HI c) (BitVec.ofNat 32 (v / 2 ^ 32))

/-- CMP_FIRE (R408, R409). -/
def cmpFire (c : Nat) (d : Dev) : Dev :=
  match d.tmrSeen c with
  | none => d
  | some now =>
    let t := d.tmrAt c
    if !t.armed || decide (now < t.cmp) then d else
    let d := (d.sb (Reg.TMR_CH_STAT c) 0).inc (Reg.TMR_FIRE_CNT c)
    let p := (d.rg (Reg.TMR_PERIOD c)).toNat
    let d :=
      if d.bt (Reg.TMR_CH_CTRL c) 1 && p != 0 then
        let v := t.cmp + p
        let extra := if v ≤ now then (now - v) / p + 1 else 0
        (d.setCmp c (v + extra * p)).add (Reg.TMR_SKIP_CNT c) extra
      else (d.onTmr c (fun t => { t with armed := false })).cb (Reg.TMR_CH_CTRL c) 0
    ((d.raiseIf (d.bt (Reg.TMR_CH_CTRL c) 3) (308 + 2 * c)).tcmpFire c).event (.tmrFire c) d.tb

/-- TMR_CAP_LO read (R412). -/
def tmrCapRead (c : Nat) (d : Dev) : Dev :=
  match (d.tmrAt c).caps with
  | [] => { (d.sg (Reg.TMR_CAP_HI c) 0) with rdata := 0 }
  | v :: l =>
    let d := (d.onTmr c (fun t => { t with caps := l })).sf (Reg.TMR_CH_STAT c) 2 3 l.length
    { (d.sg (Reg.TMR_CAP_HI c) (BitVec.ofNat 32 (v / 2 ^ 32))) with rdata := BitVec.ofNat 32 v }

/-- A write to the timer block. -/
def Dev.tmrWrite (d : Dev) (a : Nat) (v mask : Word) : Dev :=
  let w := mergeWord (d.rg a) v mask
  if a = Reg.TMR_CTRL then d.ctrlWrite .tmr w
  else if 0x1400100 ≤ a ∧ a < 0x1400500 ∧ (a - 0x1400100) % 0x40 = 0x0C then cmpArm ((a - 0x1400100) / 0x40) w d
  else d.plainWrite a v mask

end Sys2Proof.Machine
end

