-- ==== Sys2Proof/Machine/Host.lean ====
section
/-!
DEFINITION. Memories as their requesters reach them, bank retention, and the PCI Express endpoint (chapter 16).
-/

namespace Sys2Proof.Machine

/-- Raise memory source `s` when enabled (R487). -/
def Dev.memRaise (d : Dev) (s : Nat) : Dev := d.raiseIf (d.bt Reg.MEM_INT_EN (s - 364)) s

/-! ### Banks (R465, R469 to R471) -/

/-- Entry size of a TLI format. -/
def tliSize (f : Nat) : Nat := [1, 1, 2, 2, 4].getD f 1

/-- Addresses of the two entries. -/
def tliAddrs (base index f : Nat) : Nat × Nat :=
  let s := tliSize f
  ((base + index / 65536 * s) % 2 ^ 32, (base + (index / 65536 + 1) * s) % 2 ^ 32)

/-- Is an access to bank `b` outstanding: a core's load or store that waits (R373, R470)? -/
def Dev.bankUsed (d : Dev) (b : Nat) : Bool :=
  let hits := fun (a n : Nat) => decide (0x20000000 ≤ a) && (banksOf (a - 0x20000000) n).contains b
  d.core.any (fun p =>
    p.2.posted.any (fun x => hits x.addr x.size) ||
    (match p.2.wait with
     | .load _ a k => hits a k.size
     | .tli _ x i f => hits (tliAddrs x i f).1 (tliSize f)
     | .tli2 _ x i f _ _ => hits (tliAddrs x i f).2 (tliSize f)
     | .store a n _ => hits a n
     | _ => false))

/-- A bank whose RET is set goes into retention once no access to it is outstanding (R470). -/
def Dev.retainBank (d : Dev) (b : Nat) : Dev :=
  if d.bt (Reg.MEM_BANK_CTRL b) 0 && d.bankState b == 0 && !d.bankUsed b then d.sf (Reg.MEM_BANK_CTRL b) 1 2 1 else d

/-- An access has ended: the banks that waited for it go into retention. -/
def Dev.retainDue (d : Dev) : Dev := (List.range 8).foldl (fun d i => d.retainBank (86 + i)) d

/-- BANK_RETAIN: a write of MEM_BANK_CTRL (R470, R471). -/
def bankCtrlWrite (b : Nat) (w : Word) (d : Dev) : Dev :=
  if w.getLsbD 0 then
    if b < 86 ∨ 93 < b then (d.sb Reg.MEM_STAT 3).memRaise 370
    else if d.bankState b = 0 then (d.sb (Reg.MEM_BANK_CTRL b) 0).retainBank b else d
  else if d.bankState b = 0 then d.cb (Reg.MEM_BANK_CTRL b) 0 else d.wakeBank b

/-- BANK_WAKE_DONE (R471): 2 µs after the wake began, by the always-on retention control; a core domain that is down counts and raises
nothing. -/
def bankWakeDone (b : Nat) (d : Dev) : Dev :=
  if d.bankState b = 2 ∧ Tab.at 0 d.wakeAt b + 1999 ≤ d.tb then
    let d := (({ d with wakeAt := Tab.put 0 d.wakeAt b 0 } : Dev).sf (Reg.MEM_BANK_CTRL b) 1 2 0).cb (Reg.MEM_BANK_CTRL b) 0
    if d.coreUp then (d.inc Reg.MEM_WAKE_CNT).memRaise 369 else d
  else d

/-! ### The paged window and BAR2 (R480 to R482) -/

/-- A refused access size of a register (R480). -/
def Dev.sizeErr (d : Dev) : Dev := (d.sb Reg.MEM_STAT 1).memRaise 370

/-- Does an access of `n` bytes at window offset `o` keep to one 64-byte block (R480)? -/
def winSizeOk (o n : Nat) : Bool := decide (1 ≤ n) && decide (n ≤ 64) && decide (o % 64 + n ≤ 64)

/-- SRAM byte that window offset `o` (from 0x0200_0000) reaches. -/
def Dev.winAddr (d : Dev) (o : Nat) : Nat := d.fd Reg.MEM_WIN_PAGE 0 3 * 2 ^ 25 + o

/-- Banks that a host access of `n` bytes at window offset `o` reaches. -/
def Dev.winBanks (d : Dev) (o n : Nat) : List Nat :=
  if winSizeOk o n && decide (d.winAddr o < sramBytes) && d.winAddr o / 2 ^ 21 != 95 then banksOf (d.winAddr o) n else []

/-- A write of bytes through the paged window. -/
def winWrite (o : Nat) (l : List Byte) (w : W) : W :=
  if !winSizeOk o l.length then w.dev Dev.sizeErr else
  let a := w.d.winAddr o
  if sramBytes ≤ a then w
  else if a / 2 ^ 21 = 95 then w.dev (fun d => (d.sb Reg.MEM_STAT 2).memRaise 370)
  else w.portWriteBy { hostLoad := w.d.bt Reg.SYS_BOOT_STAT 5 } a l

/-- A read of `n` bytes through the paged window, low 32 bits into the data of the last read. -/
def winRead (o n : Nat) (w : W) : W × List Byte :=
  if !winSizeOk o n then (w.dev Dev.sizeErr, List.replicate n 0) else
  let a := w.d.winAddr o
  if sramBytes ≤ a then (w, List.replicate n 0)
  else if a / 2 ^ 21 = 95 then (w.dev (fun d => (d.sb Reg.MEM_STAT 2).memRaise 370), List.replicate n 0)
  else w.deliver 1 a (w.portRead a n)

/-- LPDDR5X byte of BAR2 offset `o` (R481). -/
def Dev.bar2Addr (d : Dev) (o : Nat) : Nat := d.fd Reg.MEM_BAR2_BASE 0 4 * 2 ^ 32 + o

/-- MEM_STAT.BAR2_RANGE. -/
def Dev.bar2Range (d : Dev) : Dev := (d.sb Reg.MEM_STAT 4).memRaise 379

/-- BAR2_WRITE: bytes beyond the installed size are discarded. -/
def bar2Write (o : Nat) (l : List Byte) (w : W) : W :=
  let a := w.d.bar2Addr o
  if w.d.lpSize < a + l.length then w.dev Dev.bar2Range else w.lpWrite a l

/-- BAR2_READ of `n` bytes. -/
def bar2Read (o n : Nat) (w : W) : W :=
  let a := w.d.bar2Addr o
  let out := fun (w : W) (l : List Byte) => w.dev (fun d => { d with rdata := BitVec.ofNat 32 (leNat (l.take 4)), rbytes := l })
  if w.d.lpSize < a + n then out (w.dev Dev.bar2Range) (List.replicate n 0)
  else
    let (w, l) := w.deliver 0 a (w.lpRead a n)
    out w l

/-- BAR2_FLUSH: a read of MEM_BAR2_FLUSH; every earlier BAR2 write has taken effect, and it reads 0. -/
def bar2Flush (d : Dev) : Dev := { d with rdata := 0 }

/-! ### Device requests and link events (R479, R483 to R486) -/

/-- Identity of the endpoint (Table 16-5): Device ID, Revision ID, class code, and the Device Serial Number, OTP bytes 0x128 to 0x12F. -/
def W.endpointId (w : W) : Nat × Nat × Nat × Nat := (0x4852, 0xA0, 0x048000, w.rdN .otp 0x128 8)

/-- Limits of Table 16-5: maximum payload and read request sizes in bytes, non-posted requests outstanding. -/
def endpointLimits : Nat × Nat × Nat := (512, 4096, 256)

/-- The host sets Bus Master Enable, and with `msix` the MSI-X enable: writes that waited leave in order. -/
def busMasterEnable (msix : Bool) (w : W) : W :=
  let w := w.dev (fun d => { (d.sb Reg.MEM_PCIE_STAT 9) with msixEn := d.msixEn || msix })
  if !w.d.bme then w else
  let q := w.d.hostq
  q.foldl (fun w h =>
    let w := w.wrBytes .host h.addr h.bytes
    if h.irq then w.dev (fun d => d.groupEvent h.id) else w) (w.dev (fun d => { d with hostq := [] }))

/-- The writes through the SRAM window that waited for a bank and find it usable now are made, in order (R471). -/
def W.winFlush (w : W) : W :=
  let ready := fun (h : HostWr) => w.d.banksReady (banksOf (h.addr - 0x20000000) h.bytes.length)
  (w.d.winq.filter ready).foldl W.winWr (w.dev (fun d => { d with winq := d.winq.filter (fun h => !ready h) }))

/-- A failed request is counted and recorded (R484). -/
def Dev.failNote (d : Dev) (kind id status : Nat) : Dev :=
  ((d.inc Reg.MEM_PCIE_FAIL_CNT).sg Reg.MEM_PCIE_ERR (packFields [(0, kind), (4, id), (20, status)])).memRaise 376

/-- A posted request is discarded. -/
def Dev.dropNote (d : Dev) : Dev := (d.inc Reg.MEM_PCIE_DROP_CNT).memRaise 377

/-- MSI-X and configuration space at their defaults (R485, R486). -/
def Dev.configReset (d : Dev) : Dev :=
  let d := d.cb Reg.MEM_PCIE_STAT 9
  { d with pcie := {}, msixEn := false, msixPend := [], aux := d.aux.filter (fun p => !(decide (0x1680000 ≤ p.1) && decide (p.1 < 0x1682000))) }

/-- Waiting posted writes fail at a link event. -/
def Dev.failWaiting (d : Dev) : Dev :=
  d.hostq.foldl (fun d h => (d.failNote h.kind h.id 5).dropNote) { d with hostq := [] }

/-- AER_ERROR (R485).  A poisoned write received on BAR2 comes as this command, `uncorrectable`: it is discarded, so no memory changes
(R484). -/
def aerError (uncorrectable : Bool) (d : Dev) : Dev :=
  ({ d with pcie := { d.pcie with aer := d.pcie.aer ++ [uncorrectable] } } : Dev).memRaise (if uncorrectable then 375 else 374)

/-- LINK_UP (R485): the width and speed that the link came up with. -/
def linkUp (speed width : Nat) (d : Dev) : Dev :=
  (((d.sb Reg.MEM_PCIE_STAT 0).sf Reg.MEM_PCIE_STAT 1 3 speed).sf Reg.MEM_PCIE_STAT 4 5 width).memRaise 373

/-- MR4_REPORT (R478): the code that a channel's device reports; the refresh rate follows it. -/
def mr4Report (ch code : Nat) (d : Dev) : Dev := (d.sf (Reg.MEM_CH_STAT ch) 1 3 code).memRaise 368

/-- A write to the MEM block and the endpoint's registers. -/
def Dev.memWrite (d : Dev) (a : Nat) (v mask : Word) : Dev :=
  let w := mergeWord (d.rg a) v mask
  if a = Reg.MEM_CTRL then d.ctrlWrite .mem w
  else if Reg.MEM_BANK_CTRL 0 ≤ a ∧ a ≤ Reg.MEM_BANK_CTRL 95 then bankCtrlWrite ((a - Reg.MEM_BANK_CTRL 0) / 4) w d
  else d.plainWrite a v mask

end Sys2Proof.Machine
end

