-- ==== Sys2Proof/Machine/Dma.lean ====
section
/-!
DEFINITION. DMA channels (R414 to R421, R425).
-/

namespace Sys2Proof.Machine

/-- Change DMA channel `ch`. -/
def Dev.onDma (d : Dev) (ch : Nat) (f : DmaCh → DmaCh) : Dev := { d with dma := Tab.upd {} d.dma ch f }

/-- DMA channel `ch`. -/
def Dev.dmaAt (d : Dev) (ch : Nat) : DmaCh := Tab.at {} d.dma ch

/-- OWNER of a channel: 0 host, 1 to 4 cores. -/
def Dev.dmaOwner (d : Dev) (ch : Nat) : Nat := d.fd (Reg.DMA_CH_STAT ch) 8 3

/-- Size of a memory space: LPDDR5X, SRAM, host memory; none for the reserved code (R415). -/
def Dev.spaceSize (d : Dev) : Nat → Nat
  | 0 => d.lpSize
  | 1 => sramBytes
  | 2 => 2 ^ 64
  | _ => 0

/-- Does a range keep inside its space and off bank 95? -/
def Dev.rangeOk (d : Dev) (space a n : Nat) : Bool :=
  decide (a + n ≤ d.spaceSize space) && decide (space < 3) && !(space == 1 && decide (n ≠ 0) && decide (95 * 2 ^ 21 < a + n))

/-- Element size of SWAP (R416). -/
def swapSize : Nat → Nat
  | 0 => 1
  | 1 => 2
  | _ => 4

/-- One element reordered by SWAP. -/
def swapElem (s : Nat) (l : List Byte) : List Byte :=
  match s, l with
  | 1, [a, b] => [b, a]
  | 2, [a, b, c, e] => [e, c, b, a]
  | 3, [a, b, c, e] => [c, e, a, b]
  | _, l => l

/-- A run of bytes reordered by SWAP, element by element; `n` bounds the elements. -/
def swapRun (s : Nat) : Nat → List Byte → List Byte
  | 0, _ => []
  | n + 1, l => if l.isEmpty then [] else swapElem s (l.take (swapSize s)) ++ swapRun s n (l.drop (swapSize s))

/-- The cause for which START is refused, 0 for none (R415, R416): the checks in the order of R415. -/
def Dev.dmaCause (d : Dev) (ch src dst n : Nat) : Nat :=
  let c := (d.rg (Reg.DMA_CH_CFG ch)).toNat
  let e := swapSize (bits c 4 2)
  if !d.rangeOk (bits c 0 2) src n || !d.rangeOk (bits c 2 2) dst n then 2
  else if src % e ≠ 0 ∨ dst % e ≠ 0 ∨ n % e ≠ 0 then 1
  else if bits c 0 2 = bits c 2 2 ∧ src < dst ∧ dst < src + n then 5
  else 0

/-- Show BUSY, the next addresses to be read and to be written, and the bytes not yet written (R414). -/
def Dev.dmaShow (d : Dev) (ch : Nat) : Dev :=
  let c := d.dmaAt ch
  let d := (d.pb (Reg.DMA_CH_STAT ch) 0 c.busy).pb Reg.DMA_BUSY ch c.busy
  let put := fun (d : Dev) (lo hi v : Nat) => (d.sg lo (BitVec.ofNat 32 v)).sg hi (BitVec.ofNat 32 (v / 2 ^ 32))
  (put (put d (Reg.DMA_SRC_LO ch) (Reg.DMA_SRC_HI ch) (c.src + c.buf.length)) (Reg.DMA_DST_LO ch) (Reg.DMA_DST_HI ch) c.dst).sg (Reg.DMA_REMAIN ch)
    (BitVec.ofNat 32 c.remain)

/-- Source 272 + ch, when INT_EN is 1. -/
def Dev.dmaRaise (d : Dev) (ch : Nat) : Dev := d.raiseIf (d.bt (Reg.DMA_CH_CFG ch) 6) (272 + ch)

/-- DONE sets, the tracker is written and the source raised (R418). -/
def Dev.dmaDone (d : Dev) (ch : Nat) : Dev :=
  let d := (d.onDma ch (fun c => { c with busy := false })).dmaShow ch
  let d := (d.sb (Reg.DMA_CH_STAT ch) 1).sb Reg.DMA_DONE ch
  let c := (d.rg (Reg.DMA_CH_CFG ch)).toNat
  let d := if bits c 7 1 = 1 then trkDoneWrite (bits c 8 6) (BitVec.ofNat 32 (bits c 16 16)) d else d
  d.dmaRaise ch

/-- A channel stops where it is: what it has read and not written is discarded, and the registers show where it stopped (R419). -/
def Dev.dmaHalt (d : Dev) (ch : Nat) : Dev :=
  (d.onDma ch (fun c => { c with busy := false, src := c.src + c.buf.length, buf := [] })).dmaShow ch

/-- DMA_START: a write of START by the owner to a channel that is not busy. -/
def Dev.dmaStart (d : Dev) (ch : Nat) : Dev :=
  let src := d.pair (Reg.DMA_SRC_LO ch) (Reg.DMA_SRC_HI ch)
  let dst := d.pair (Reg.DMA_DST_LO ch) (Reg.DMA_DST_HI ch)
  let n := (d.rg (Reg.DMA_COUNT ch)).toNat
  let cause := d.dmaCause ch src dst n
  if cause ≠ 0 then ((d.sb (Reg.DMA_CH_STAT ch) 3).sf (Reg.DMA_CH_STAT ch) 4 3 cause).dmaRaise ch
  else
    let d := (d.sf (Reg.DMA_CH_STAT ch) 4 3 0).onDma ch (fun _ => { busy := true, src := src, dst := dst, remain := n, startAt := d.cclks })
    if n = 0 then d.dmaDone ch else d.dmaShow ch

/-- Bytes of a space as a channel reads them; `data` are the bytes that host memory returns, missing ones free. -/
def W.spaceRead (w : W) (space a n : Nat) (data : List Byte) : List Byte :=
  match space with
  | 0 => w.lpRead a n
  | 1 => w.portRead a n
  | _ => (List.range n).map (fun i => data.getD i (w.rd .host (a + i)))

/-- A channel writes bytes to a space. -/
def W.spaceWrite (w : W) (space id a : Nat) (l : List Byte) : W :=
  match space with
  | 0 => w.lpWrite a l
  | 1 => w.portWrite a l
  | _ => w.hostWrite 2 id a l

/-- A busy channel moves its next `k` bytes, its read beats going on until `ahead` bytes have been read; `data` are the bytes that host
memory returns from its present source address on. -/
def W.dmaMove (w : W) (ch k ahead : Nat) (data : List Byte) : W :=
  let c := w.d.dmaAt ch
  let cfg := (w.d.rg (Reg.DMA_CH_CFG ch)).toNat
  let have_ := c.buf.length
  let buf := c.buf ++ w.spaceRead (bits cfg 0 2) (c.src + have_) (min c.remain (max k ahead) - have_) (data.drop have_)
  let w := w.dev Dev.useFree
  let w := w.spaceWrite (bits cfg 2 2) ch c.dst (swapRun (bits cfg 4 2) k (buf.take k))
  w.dev (fun d => (d.onDma ch (fun c => { c with src := c.src + k, dst := c.dst + k, remain := c.remain - k, buf := buf.drop k })).dmaShow ch)

/-- Does the channel wait: for Bus Master Enable (R483), or for a bank to wake (R471)? -/
def Dev.dmaWaits (d : Dev) (ch : Nat) : Bool :=
  let c := d.dmaAt ch
  let cfg := (d.rg (Reg.DMA_CH_CFG ch)).toNat
  let host := bits cfg 0 2 == 2 || bits cfg 2 2 == 2
  let banks := (if bits cfg 0 2 = 1 then banksOf c.src c.remain else []) ++ (if bits cfg 2 2 = 1 then banksOf c.dst c.remain else [])
  (host && !d.bme) || !d.banksReady banks

/-- The banks that the rest of a transfer touches are woken. -/
def Dev.dmaWake (d : Dev) (ch : Nat) : Dev :=
  let c := d.dmaAt ch
  let cfg := (d.rg (Reg.DMA_CH_CFG ch)).toNat
  d.wakeBanks ((if bits cfg 0 2 = 1 then banksOf c.src c.remain else []) ++ (if bits cfg 2 2 = 1 then banksOf c.dst c.remain else []))

/-- Beats that a channel requests from memory at once: DMA_CFG.BURST in force. -/
def Dev.dmaBurst (d : Dev) : Nat :=
  match d.ff Reg.DMA_CFG 0 3 with
  | 0 => 1
  | 1 => 2
  | 2 => 4
  | 3 => 8
  | _ => 16

/-- The channel that the arbiter serves at a beat boundary: a ready one of DMA0 to DMA7, else a ready one of the others, round-robin by
number within the class (R417). -/
def Dev.dmaPick (d : Dev) (ready : Nat → Bool) : Option Nat :=
  let turn := fun (lo n after : Nat) => ((List.range n).map (fun i => lo + (after - lo + i) % n)).find? ready
  turn 0 8 d.dmaHi <|> turn 8 24 d.dmaLo

/-- Bytes from the next address to be written on that a channel has read or can read before it meets a word in error (R468). -/
def Dev.dmaGood (d : Dev) (ch : Nat) : Nat :=
  let c := d.dmaAt ch
  c.buf.length + d.goodRun (d.fd (Reg.DMA_CH_CFG ch) 0 2) (c.src + c.buf.length) (c.remain - c.buf.length)

/-- An error stops a channel at the beat that meets it (R419): CAUSE 3 READ or 4 WRITE.  The read beats before the one that fails have
been issued, so DMA_SRC shows the one that failed. -/
def Dev.dmaFail (d : Dev) (ch cause : Nat) : Dev :=
  let ahead := if cause = 3 && decide (d.dmaGood ch < (d.dmaAt ch).remain) then d.dmaGood ch / 64 * 64 - (d.dmaAt ch).buf.length else 0
  let d := (d.onDma ch (fun c => { c with src := c.src + ahead })).dmaHalt ch
  ((d.sb (Reg.DMA_CH_STAT ch) 3).sf (Reg.DMA_CH_STAT ch) 4 3 cause).dmaRaise ch

/-- One beat of channel `ch`: at most 64 bytes are written, and reads run ahead by the burst, up to 256 bytes; a read that meets a word
in error stops the channel (R419, R468).  A setting of DMA_CFG that waits takes effect (R421). -/
def W.dmaBeat (w : W) (ch : Nat) (data : List Byte) : W :=
  let w := w.dev (fun d => d.reachUpdate .dma)
  let c := w.d.dmaAt ch
  let k := min 64 c.remain
  let ahead := min 256 (64 * w.d.dmaBurst)
  let w := if w.d.dmaGood ch < min c.remain (max k ahead) then w.dev (fun d => d.dmaFail ch 3) else w.dmaMove ch k ahead data
  w.dev (fun d => if ch < 8 then { d with dmaHi := (ch + 1) % 8 } else { d with dmaLo := 8 + (ch - 7) % 24 })

/-- The next `n` beats of channel `ch`, as long as it is busy. -/
def W.dmaBeats (ch : Nat) : Nat → List Byte → W → W
  | 0, _, w => w
  | n + 1, data, w => if (w.d.dmaAt ch).busy then W.dmaBeats ch n (data.drop 64) (w.dmaBeat ch data) else w

/-- Beats that a channel can have made before it is stopped: one a CCLK since its START (R417), and none beyond a word in error. -/
def Dev.dmaPace (d : Dev) (ch : Nat) : Nat :=
  let c := d.dmaAt ch
  let ahead := min 256 (64 * d.dmaBurst)
  let good := d.dmaGood ch
  let clean := if c.remain ≤ good then ceilDiv c.remain 64 else if good < ahead then 0 else (good - ahead) / 64 + 1
  if d.dmaWaits ch then 0 else min clean (d.cclks - c.startAt - ceilDiv ((d.rg (Reg.DMA_COUNT ch)).toNat - c.remain) 64)

/-- What a channel that is stopped from outside has moved until then: a free number of its beats (log entry 36). -/
def W.dmaProgress (w : W) (ch : Nat) (data : List Byte) : W :=
  W.dmaBeats ch ((Config.freeWord w.d.free).toNat % (w.d.dmaPace ch + 1)) data (w.dev Dev.useFree)

/-- A read or write error stops a channel at that beat (R419): the one that takes the word in error, where its source holds one; else
which beat failed is free. -/
def dmaError (ch cause : Nat) (w : W) : W :=
  if !(w.d.dmaAt ch).busy then w
  else if cause = 3 ∧ w.d.dmaGood ch < (w.d.dmaAt ch).remain ∧ !w.d.dmaWaits ch then W.dmaBeats ch ((w.d.dmaAt ch).remain / 64 + 1) [] w
  else (w.dmaProgress ch []).dev (fun d => d.dmaFail ch cause)

/-- Is channel `x` ready while the engine works towards the end of channel `ch`?  Another channel takes part while the data it needs are at
hand: none from host memory, which come with its own DMA_COMPLETE (log entry 43). -/
def Dev.dmaReady (d : Dev) (ch x : Nat) : Bool :=
  (d.dmaAt x).busy && !d.dmaWaits x && (x == ch || d.fd (Reg.DMA_CH_CFG x) 0 2 != 2)

/-- A beat of a channel that the arbiter serves meanwhile; its last one completes it (R418). -/
def W.dmaServe (w : W) (x : Nat) : W :=
  (w.dmaBeat x []).dev (fun d => if (d.dmaAt x).busy && (d.dmaAt x).remain == 0 then d.dmaDone x else d)

/-- The engine's beats until channel `ch` has moved all its data; `fuel` bounds them. -/
def W.dmaRun (ch : Nat) : Nat → List Byte → W → W
  | 0, _, w => w
  | fuel + 1, data, w =>
    if !(w.d.dmaAt ch).busy ∨ (w.d.dmaAt ch).remain = 0 then w else
    match w.d.dmaPick (w.d.dmaReady ch) with
    | none => w
    | some x => if x = ch then W.dmaRun ch fuel (data.drop 64) (w.dmaBeat ch data) else W.dmaRun ch fuel data (w.dmaServe x)

/-- Beats that the busy channels still have to make. -/
def Dev.beatsLeft (d : Dev) : Nat := ((List.range 32).map (fun x => (d.dmaAt x).remain / 64 + 1)).sum

/-- DMA_COMPLETE: the last write takes effect (R418), after the beats of the other channels that the arbiter serves meanwhile (R417); a
channel that met a word in error has stopped. -/
def dmaComplete (ch : Nat) (data : List Byte) (w : W) : W :=
  if !(w.d.dmaAt ch).busy then w else
  if w.d.dmaWaits ch then w.dev (fun d => d.dmaWake ch) else
  (W.dmaRun ch w.d.beatsLeft data w).dev (fun d => if (d.dmaAt ch).busy then d.dmaDone ch else d)

/-- DMA_ABORT of a busy channel. -/
def dmaAbort (ch : Nat) (data : List Byte) (w : W) : W :=
  if !(w.d.dmaAt ch).busy then w else (w.dmaProgress ch data).dev (fun d => (d.dmaHalt ch).sb (Reg.DMA_CH_STAT ch) 2)

/-- A write to the registers of channel `ch` by an agent (R414). -/
def chWrite (ag : Agent) (ch a : Nat) (v mask : Word) (w : W) : W :=
  if !ownerIs ag (w.d.dmaOwner ch) then w.dev (fun d => d.sb Reg.DMA_STAT 1) else
  let busy := (w.d.dmaAt ch).busy
  let vm := v &&& mask
  if a = Reg.DMA_CH_CMD ch then
    let w := if vm.getLsbD 0 then w.dev (fun d => if busy then d.sb Reg.DMA_STAT 2 else d.dmaStart ch) else w
    if vm.getLsbD 1 then dmaAbort ch [] w else w
  else if a = Reg.DMA_CH_STAT ch then
    w.dev (fun d => (if vm.getLsbD 1 then d.cb Reg.DMA_DONE ch else d).plainWrite a v mask)
  else if busy && decide (a < Reg.DMA_CH_CMD ch) then w.dev (fun d => d.sb Reg.DMA_STAT 2)
  else w.dev (fun d => d.plainWrite a v mask)

/-- A write to the DMA block. -/
def W.dmaWrite (w : W) (ag : Agent) (a : Nat) (v mask : Word) : W :=
  if 0x1410100 ≤ a ∧ a < 0x1410900 then chWrite ag ((a - 0x1410100) / 0x40) a v mask w
  else if a = Reg.DMA_CTRL then w.dev (fun d => d.ctrlWrite .dma (mergeWord (d.rg a) v mask))
  else if a = Reg.DMA_DONE then
    w.dev (fun d =>
      let vm := v &&& mask
      let d := (List.range 32).foldl (fun d ch => if vm.getLsbD ch then d.cb (Reg.DMA_CH_STAT ch) 1 else d) d
      d.plainWrite a v mask)
  else w.dev (fun d => d.plainWrite a v mask)

end Sys2Proof.Machine
end

