-- ==== Sys2Proof/Machine/Blit.lean ====
section
/-!
DEFINITION. Blitters (chapter 14), and the endpoint events that stop host transfers, rings and blitters (R484, R485).
-/

namespace Sys2Proof.Machine

/-! ### Operands (R428 to R431) -/

/-- The ROP in force: COPY takes 0xCC and FILL 0xF0. -/
def Dev.bltRop (d : Dev) (e : Nat) : Nat :=
  match d.fd (Reg.BLT_OP e) 0 2 with
  | 0 => 0xCC
  | 1 => 0xF0
  | _ => d.fd (Reg.BLT_OP e) 8 8

/-- Does a ROP depend on its operand of selector `m`, at shift `k`? -/
def ropDepends (rop m k : Nat) : Bool := (rop &&& m) / 2 ^ k != (rop &&& (0xFF - m))

/-- BLEND. -/
def Dev.bltBlend (d : Dev) (e : Nat) : Bool := d.fd (Reg.BLT_OP e) 0 2 == 3
/-- Depends on S. -/
def Dev.bltUsesS (d : Dev) (e : Nat) : Bool := d.bltBlend e || ropDepends (d.bltRop e) 0xCC 2
/-- Depends on D. -/
def Dev.bltUsesD (d : Dev) (e : Nat) : Bool := d.bltBlend e || ropDepends (d.bltRop e) 0xAA 1
/-- Depends on P. -/
def Dev.bltUsesP (d : Dev) (e : Nat) : Bool := !d.bltBlend e && ropDepends (d.bltRop e) 0xF0 4

/-- A surface (R427). -/
structure Surf where
  space : Nat
  base : Nat
  stride : Nat
  fmt : Nat

/-- The surface of a base and a configuration register. -/
def Dev.surf (d : Dev) (base cfg : Nat) : Surf :=
  let c := (d.rg cfg).toNat
  { space := bits c 4 1, base := (d.rg base).toNat + (if bits c 4 1 = 0 then bits c 0 4 * 2 ^ 32 else 0), stride := bits c 16 16, fmt := bits c 8 4 }

/-- Source surface of engine `e`. -/
def Dev.bltSrcSurf (d : Dev) (e : Nat) : Surf := d.surf (Reg.BLT_SRC_BASE e) (Reg.BLT_SRC_CFG e)
/-- Destination surface. -/
def Dev.bltDstSurf (d : Dev) (e : Nat) : Surf := d.surf (Reg.BLT_DST_BASE e) (Reg.BLT_DST_CFG e)
/-- Width in pixels. -/
def Dev.bltW (d : Dev) (e : Nat) : Nat := d.fd (Reg.BLT_SIZE e) 0 13 + 1
/-- Height in pixels. -/
def Dev.bltH (d : Dev) (e : Nat) : Nat := d.fd (Reg.BLT_SIZE e) 16 13 + 1

/-- Bytes of a pixel. -/
def Surf.bpp (s : Surf) : Nat := fmtBits s.fmt / 8

/-- Bytes of the span (R434). -/
def Surf.len (s : Surf) (w h : Nat) : Nat := (h - 1) * s.stride + w * s.bpp

/-- The pattern operand at (x, y) (R430). -/
def Dev.bltPat (d : Dev) (e x y : Nat) : Nat :=
  if d.fd (Reg.BLT_OP e) 4 2 = 0 then (d.rg (Reg.BLT_COLOR e)).toNat else
  let i := (y + d.fd (Reg.BLT_PAT_ORG e) 8 3) % 8 * 8 + (x + d.fd (Reg.BLT_PAT_ORG e) 0 3) % 8
  let p := d.pair (Reg.BLT_PAT_LO e) (Reg.BLT_PAT_HI e)
  (d.rg (if bits p i 1 = 1 then Reg.BLT_COLOR e else Reg.BLT_BGCOLOR e)).toNat

/-- Bit by bit: ROP bit 4p + 2s + d. -/
def ropPixel (rop n p s dd : Nat) : Nat :=
  ((List.range n).map (fun i => bits rop (4 * bits p i 1 + 2 * bits s i 1 + bits dd i 1) 1 * 2 ^ i)).sum

/-- A component of `m` bits reduced to `n` (R431). -/
def narrow (m n v : Nat) : Nat := if m ≤ n then v else min (2 ^ n - 1) ((v + 2 ^ (m - 1 - n)) / 2 ^ (m - n))

/-- A colour packed into a destination format (R431). -/
def packPx (fmt : Nat) (p : Px) : Nat :=
  match fmt with
  | 2 => narrow 12 5 p.r * 2 ^ 11 + narrow 12 6 p.g * 2 ^ 5 + narrow 12 5 p.b
  | 3 => narrow 8 1 p.a * 2 ^ 15 + narrow 12 5 p.r * 2 ^ 10 + narrow 12 5 p.g * 2 ^ 5 + narrow 12 5 p.b
  | 4 => narrow 12 8 p.r * 2 ^ 16 + narrow 12 8 p.g * 2 ^ 8 + narrow 12 8 p.b
  | 5 => narrow 8 8 p.a * 2 ^ 24 + narrow 12 8 p.r * 2 ^ 16 + narrow 12 8 p.g * 2 ^ 8 + narrow 12 8 p.b
  | _ => narrow 8 2 p.a * 2 ^ 30 + narrow 12 10 p.r * 2 ^ 20 + narrow 12 10 p.g * 2 ^ 10 + narrow 12 10 p.b

/-- BLEND of one pixel (R431). -/
def Dev.blendPixel (d : Dev) (e sf df s dd : Nat) : Nat :=
  let S := pxPacked sf s
  let D := pxPacked df dd
  let al := d.fd (Reg.BLT_OP e) 16 8
  let a := if d.bt (Reg.BLT_OP e) 6 then mul255 S.a al else al
  let c := fun (x y : Nat) => min 4095 (mul255 x a + mul255 y (255 - a))
  packPx df { r := c S.r D.r, g := c S.g D.g, b := c S.b D.b, a := min 255 (a + mul255 D.a (255 - a)) }

/-! ### Starting (R433, R434) -/

/-- Is a surface out of its space or on bank 95? -/
def Dev.surfBad (d : Dev) (s : Surf) (w h : Nat) : Bool :=
  !d.rangeOk (if s.space = 0 then 0 else 1) s.base (s.len w h)

/-- Do source and destination overlap (R434)? -/
def Dev.bltOverlap (d : Dev) (e : Nat) : Bool :=
  let s := d.bltSrcSurf e
  let t := d.bltDstSurf e
  let w := d.bltW e
  let h := d.bltH e
  d.bltUsesS e && s.space == t.space && decide (s.base < t.base + t.len w h) && decide (t.base < s.base + s.len w h)

/-- The first cause of Table 14-2 that applies at START, 0 for none. -/
def Dev.bltCause (d : Dev) (e : Nat) : Nat :=
  let s := d.bltSrcSurf e
  let t := d.bltDstSurf e
  let bad := fun (f : Nat) => f == 0 || decide (6 < f)
  let us := d.bltUsesS e
  if bad t.fmt || (us && bad s.fmt) || (!d.bltBlend e && us && s.fmt != t.fmt) ||
      (d.bltBlend e && (decide (t.fmt < 2) || decide (s.fmt < 2))) then 1
  else if d.surfBad t (d.bltW e) (d.bltH e) || (us && d.surfBad s (d.bltW e) (d.bltH e)) then 2
  else if d.bltOverlap e && s.stride != t.stride then 3
  else if d.bltUsesP e && decide (2 ≤ d.fd (Reg.BLT_OP e) 4 2) then 4
  else 0

/-- Is engine `e` busy? -/
def Dev.bltBusy (d : Dev) (e : Nat) : Bool := d.bt (Reg.BLT_ESTAT e) 0

/-- Store BUSY. -/
def Dev.bltSetBusy (d : Dev) (e : Nat) (b : Bool) : Dev := (d.pb (Reg.BLT_ESTAT e) 0 b).pb Reg.BLT_BUSY e b

/-- BLT_START (R433, R434). -/
def Dev.bltStart (d : Dev) (e : Nat) : Dev :=
  let c := d.bltCause e
  if c ≠ 0 then ((d.sb (Reg.BLT_ESTAT e) 4).sf (Reg.BLT_ESTAT e) 5 3 c).raiseIf (d.bt (Reg.BLT_OP e) 24) (304 + e)
  else
    let rev := d.bltOverlap e && decide ((d.bltSrcSurf e).base < (d.bltDstSurf e).base)
    let d := ((d.sf (Reg.BLT_ESTAT e) 5 3 0).pb (Reg.BLT_ESTAT e) 8 rev).bltSetBusy e true
    let d := d.sg (Reg.BLT_ROWS e) 0
    { d with bltWm := Tab.put false d.bltWm e false, bltSrc := Tab.put none d.bltSrc e none, bltAt := Tab.put 0 d.bltAt e d.cclks }

/-! ### Rows -/

/-- A pixel of a surface. -/
def W.surfPixel (w : W) (s : Surf) (x y : Nat) : Nat :=
  rawPixel (fun a => if s.space = 0 then w.lpByte a else w.portByte a) s.fmt (s.base + y * s.stride) x

/-- The source pixels of the whole rectangle, row by row. -/
def W.srcPixels (w : W) (e : Nat) : List Nat :=
  let s := w.d.bltSrcSurf e
  (List.range (w.d.bltH e)).flatMap (fun y => (List.range (w.d.bltW e)).map (fun x => w.surfPixel s x y))

/-- The bytes of a row of the destination. -/
def Dev.bltRowBytes (d : Dev) (e : Nat) : Nat := d.bltW e * (d.bltDstSurf e).bpp

/-- The first `m` bytes of a row, in processing order, are read, combined and written; a setting of BLT_CFG that waits takes effect
(R440). -/
def W.bltPart (w : W) (e y m : Nat) : W :=
  if m = 0 then w else
  let w := w.dev (fun d => d.reachUpdate .blt)
  let d := w.d
  let s := d.bltSrcSurf e
  let t := d.bltDstSurf e
  let held := Tab.at none d.bltSrc e
  let us := d.bltUsesS e
  let ud := d.bltUsesD e
  let px := (List.range (d.bltW e)).map (fun x =>
    let S := if us then (match held with
      | some l => l.getD (y * d.bltW e + x) 0
      | none => w.surfPixel s x y) else 0
    let D := if ud then w.surfPixel t x y else 0
    if d.bltBlend e then d.blendPixel e s.fmt t.fmt S D
    else ropPixel (d.bltRop e) (fmtBits t.fmt) (if d.bltUsesP e then d.bltPat e x y else 0) S D)
  let bytes := px.flatMap (fun v => leBytes t.bpp v)
  let off := if d.bt (Reg.BLT_ESTAT e) 8 then d.bltRowBytes e - m else 0
  let bytes := (bytes.drop off).take m
  let a := t.base + y * t.stride + off
  if t.space = 0 then w.lpWrite a bytes else w.portWrite a bytes

/-- One row is read, combined and written. -/
def W.bltRow (w : W) (e y : Nat) : W := w.bltPart e y (w.d.bltRowBytes e)

/-- The rows in processing order. -/
def Dev.bltOrder (d : Dev) (e : Nat) : List Nat :=
  let l := List.range (d.bltH e)
  if d.bt (Reg.BLT_ESTAT e) 8 then l.reverse else l

/-- Process `k` further rows. -/
def W.bltRows (w : W) (e k : Nat) : W :=
  let w := if w.d.bltOverlap e && (Tab.at none w.d.bltSrc e).isNone then
      w.dev (fun d => { d with bltSrc := Tab.put none d.bltSrc e (some (w.srcPixels e)) }) else w
  let n := w.d.fd (Reg.BLT_ROWS e) 0 14
  let w := ((w.d.bltOrder e).drop n |>.take k).foldl (fun w y => w.bltRow e y) w
  w.dev (fun d => d.sg (Reg.BLT_ROWS e) (BitVec.ofNat 32 (min (d.bltH e) (n + k))))

/-- Rows that must be complete for the watermark, in processing order; `none` when it never fires (R438). -/
def Dev.wmRows (d : Dev) (e : Nat) : Option Nat :=
  let l := d.fd (Reg.BLT_WM e) 0 14
  if d.bltH e ≤ l then none else some (if d.bt (Reg.BLT_ESTAT e) 8 then d.bltH e - l else l + 1)

/-- The watermark fires: WM and the time. -/
def Dev.wmFire (d : Dev) (e : Nat) : Dev :=
  let d := ((d.sb (Reg.BLT_ESTAT e) 2).sg (Reg.BLT_WM_TS_LO e) (BitVec.ofNat 32 d.tb)).sg (Reg.BLT_WM_TS_HI e) (BitVec.ofNat 32 (d.tb / 2 ^ 32))
  { d with bltWm := Tab.put false d.bltWm e true }

/-- CCLK that row `y` lasts at least (R436): its beats at the destination, or its groups of 4 pixels on the BLEND path. -/
def Dev.bltRowCost (d : Dev) (e y : Nat) : Nat :=
  let t := d.bltDstSurf e
  let a := t.base + y * t.stride
  4 + if d.bltBlend e then ceilDiv (d.bltW e) 4 else (a + d.bltW e * t.bpp - 1) / 64 + 1 - a / 64

/-- CCLK that `k` rows of the operation last at least, from its START (R436). -/
def Dev.bltCost (d : Dev) (e k : Nat) : Nat := 8 + (((d.bltOrder e).take k).map (d.bltRowCost e)).sum

/-- The CCLK edge before which `k` rows of the operation cannot be complete. -/
def Dev.bltEdge (d : Dev) (e k : Nat) : Nat := Tab.at 0 d.bltAt e + d.bltCost e k

/-- Banks that the operation touches. -/
def Dev.bltBanks (d : Dev) (e : Nat) : List Nat :=
  let f := fun (s : Surf) => if s.space = 1 then banksOf s.base (s.len (d.bltW e) (d.bltH e)) else []
  f (d.bltDstSurf e) ++ (if d.bltUsesS e then f (d.bltSrcSurf e) else [])

/-- Does pixel `x` of row `y` of a surface come with a read beat that takes a word in error?  Beats are the aligned 64-byte blocks of the
row. -/
def Dev.bltBeatBad (d : Dev) (e x y : Nat) (s : Surf) : Bool :=
  let r := s.base + y * s.stride
  let a := r + x * s.bpp
  let lo := max r (a / 64 * 64)
  d.meetsBad (if s.space = 0 then 0 else 1) lo (min (r + d.bltW e * s.bpp) (ceilDiv (a + s.bpp) 64 * 64) - lo)

/-- The same for the pixels that the operation reads there: of the source, or of the destination (R437). -/
def Dev.bltPixelBad (d : Dev) (e x y : Nat) : Bool :=
  (d.bltUsesS e && d.bltBeatBad e x y (d.bltSrcSurf e)) || (d.bltUsesD e && d.bltBeatBad e x y (d.bltDstSurf e))

/-- Pixels of row `y` that are processed before one in error. -/
def Dev.bltGoodPixels (d : Dev) (e y : Nat) : Nat :=
  let xs := List.range (d.bltW e)
  ((if d.bt (Reg.BLT_ESTAT e) 8 then xs.reverse else xs).takeWhile (fun x => !d.bltPixelBad e x y)).length

/-- Bytes of row `y` that its first `j` write beats have written, in processing order (R436). -/
def Dev.bltBeatBytes (d : Dev) (e y j : Nat) : Nat :=
  let t := d.bltDstSurf e
  let a := t.base + y * t.stride
  let n := d.bltRowBytes e
  if d.bltBlend e then min n (4 * j * t.bpp)
  else if d.bt (Reg.BLT_ESTAT e) 8 then min n (a + n - (ceilDiv (a + n) 64 - j) * 64)
  else min n ((a / 64 + j) * 64 - a)

/-- Write beats of row `y` that precede the first that needs a pixel in error. -/
def Dev.bltGoodBeats (d : Dev) (e y : Nat) : Nat :=
  let g := d.bltGoodPixels e y * (d.bltDstSurf e).bpp
  ((List.range (d.bltRowCost e y - 4)).takeWhile (fun j => decide (d.bltBeatBytes e y (j + 1) ≤ g))).length

/-- Does row `y` read a word in error? -/
def Dev.bltRowBad (d : Dev) (e y : Nat) : Bool :=
  let f := fun (s : Surf) => d.meetsBad (if s.space = 0 then 0 else 1) (s.base + y * s.stride) (d.bltW e * s.bpp)
  (d.bltUsesS e && f (d.bltSrcSurf e)) || (d.bltUsesD e && f (d.bltDstSurf e))

/-- The rows still to process that precede the first row in error. -/
def Dev.bltGoodRows (d : Dev) (e : Nat) : List Nat :=
  ((d.bltOrder e).drop (d.fd (Reg.BLT_ROWS e) 0 14)).takeWhile (fun y => !d.bltRowBad e y)

/-- How many of a list of rows' costs fit into `n` CCLK, and what is left over. -/
def rowsWithin : List Nat → Nat → Nat × Nat
  | [], n => (0, n)
  | c :: l, n => if c ≤ n then ((rowsWithin l (n - c)).1 + 1, (rowsWithin l (n - c)).2) else (0, n)

/-- Rows that can be complete by now, from START on, and the beats of the next one (R436). -/
def Dev.bltPace (d : Dev) (e : Nat) : Nat × Nat :=
  let r := rowsWithin ((d.bltOrder e).map (d.bltRowCost e)) (d.cclks - Tab.at 0 d.bltAt e - 8)
  (r.1, r.2 - 4)

/-- A busy engine processes `k` further rows and `j` beats of the row after them, then stops; rows that reach the watermark fire it. -/
def W.bltHalt (w : W) (e k j : Nat) : W :=
  let w := w.bltRows e k
  let w := match ((w.d.bltOrder e).drop (w.d.fd (Reg.BLT_ROWS e) 0 14)).head? with
    | some y => w.bltPart e y (w.d.bltBeatBytes e y j)
    | none => w
  w.dev (fun d =>
    let fire := !Tab.at false d.bltWm e && ((d.wmRows e).map (fun m => decide (m ≤ d.fd (Reg.BLT_ROWS e) 0 14))).getD false
    let d := if fire then (d.wmFire e).raiseIf (d.bt (Reg.BLT_OP e) 25) (304 + e) else d
    { (d.bltSetBusy e false) with bltSrc := Tab.put none d.bltSrc e none })

/-- Write beats of row `y` that leave it not complete: the row is the one in progress. -/
def Dev.bltPartBeats (d : Dev) (e y : Nat) : Nat := min (d.bltRowCost e y - 5) (d.bltGoodBeats e y)

/-- A busy engine stops after the beat in progress: how far it had come is free (log entry 36), but no further than the CCLK since START
allow (R436) and not beyond a word in error. -/
def W.bltStop (w : W) (e : Nat) : W :=
  let d := w.d
  let n := d.fd (Reg.BLT_ROWS e) 0 14
  let good := (d.bltGoodRows e).length
  let p := d.bltPace e
  let free := fun (i m : Nat) => (Config.freeWord (d.free + i)).toNat % (m + 1)
  let k := if d.banksReady (d.bltBanks e) then free 0 (min good (p.1 - n)) else 0
  let room := match ((d.bltOrder e).drop (n + k)).head? with
    | some y => if p.1 < n + k then 0 else min (d.bltPartBeats e y) (if n + k < p.1 then d.bltW e else p.2)
    | none => 0
  let j := if d.banksReady (d.bltBanks e) then free 1 room else 0
  ((w.dev Dev.useFree).dev Dev.useFree).bltHalt e k j

/-- An uncorrectable error on a read stops the operation at that beat (R437): the rows before it are complete, and the row in progress has
what its beats before that one wrote.  Where no word that the operation still reads is in error, which beat failed is free. -/
def bltReadError (e : Nat) (w : W) : W :=
  if !w.d.bltBusy e then w else
  let good := (w.d.bltGoodRows e).length
  let w := match ((w.d.bltOrder e).drop (w.d.fd (Reg.BLT_ROWS e) 0 14 + good)).head? with
    | some y => if w.d.banksReady (w.d.bltBanks e) then w.bltHalt e good (w.d.bltGoodBeats e y) else w.bltStop e
    | none => w.bltStop e
  w.dev (fun d => ((d.sb (Reg.BLT_ESTAT e) 4).sf (Reg.BLT_ESTAT e) 5 3 5).raiseIf (d.bt (Reg.BLT_OP e) 24) (304 + e))

/-- BLT_WATERMARK (R438); a row in error before it stops the operation (R437). -/
def bltWatermark (e : Nat) (w : W) : W :=
  if !w.d.bltBusy e || Tab.at false w.d.bltWm e then w else
  if !w.d.banksReady (w.d.bltBanks e) then w.dev (fun d => d.wakeBanks (d.bltBanks e)) else
  match w.d.wmRows e with
  | none => w
  | some k =>
    if (w.d.bltGoodRows e).length < k - w.d.fd (Reg.BLT_ROWS e) 0 14 then bltReadError e w else
    let w := w.bltRows e (k - w.d.fd (Reg.BLT_ROWS e) 0 14)
    w.dev (fun d => (d.wmFire e).raiseIf (d.bt (Reg.BLT_OP e) 25) (304 + e))

/-- BLT_COMPLETE (R437); a watermark that has not fired fires with it, and the source takes one event.  A row in error stops the
operation instead. -/
def bltComplete (e : Nat) (w : W) : W :=
  if !w.d.bltBusy e then w else
  if !w.d.banksReady (w.d.bltBanks e) then w.dev (fun d => d.wakeBanks (d.bltBanks e)) else
  if (w.d.bltGoodRows e).length < w.d.bltH e - w.d.fd (Reg.BLT_ROWS e) 0 14 then bltReadError e w else
  let w := w.bltRows e (w.d.bltH e)
  w.dev (fun d =>
    let fire := (d.wmRows e).isSome && !Tab.at false d.bltWm e
    let d := if fire then d.wmFire e else d
    let d := ((d.bltSetBusy e false).sb (Reg.BLT_ESTAT e) 1).sb Reg.BLT_BUSY (4 + e)
    let d := { d with bltSrc := Tab.put none d.bltSrc e none }
    let t := (d.rg (Reg.BLT_TRK e)).toNat
    let d := if d.bt (Reg.BLT_OP e) 26 then trkDoneWrite (bits t 0 6) (BitVec.ofNat 32 (bits t 16 16)) d else d
    d.raiseIf (d.bt (Reg.BLT_OP e) 24 || (fire && d.bt (Reg.BLT_OP e) 25)) (304 + e))

/-- BLT_ABORT of a busy engine. -/
def bltAbort (e : Nat) (w : W) : W :=
  if !w.d.bltBusy e then w else (w.bltStop e).dev (fun d => d.sb (Reg.BLT_ESTAT e) 3)

/-- OWNER of an engine. -/
def Dev.bltOwner (d : Dev) (e : Nat) : Nat := d.fd (Reg.BLT_ESTAT e) 9 3

/-- A write to the registers of engine `e` by an agent (R426, R432). -/
def engWrite (ag : Agent) (e a : Nat) (v mask : Word) (w : W) : W :=
  if !ownerIs ag (w.d.bltOwner e) then w.dev (fun d => d.sb Reg.BLT_STAT 1) else
  let busy := w.d.bltBusy e
  let vm := v &&& mask
  if a = Reg.BLT_CMD e then
    if vm.getLsbD 1 then bltAbort e w
    else if vm.getLsbD 0 then w.dev (fun d => if busy then d.sb Reg.BLT_STAT 2 else d.bltStart e)
    else w
  else if a = Reg.BLT_ESTAT e then
    w.dev (fun d => (if vm.getLsbD 1 then d.cb Reg.BLT_BUSY (4 + e) else d).plainWrite a v mask)
  else if busy && decide (a ≤ Reg.BLT_TRK e) then w.dev (fun d => d.sb Reg.BLT_STAT 2)
  else w.dev (fun d => d.plainWrite a v mask)

/-- A write to the BLT block. -/
def W.bltWrite (w : W) (ag : Agent) (a : Nat) (v mask : Word) : W :=
  if 0x1420100 ≤ a ∧ a < 0x1420300 then engWrite ag ((a - 0x1420100) / 0x80) a v mask w
  else if a = Reg.BLT_CTRL then w.dev (fun d => d.ctrlWrite .blt (mergeWord (d.rg a) v mask))
  else if a = Reg.BLT_BUSY then
    w.dev (fun d =>
      let vm := v &&& mask
      let d := (List.range 4).foldl (fun d e => if vm.getLsbD (4 + e) then d.cb (Reg.BLT_ESTAT e) 1 else d) d
      d.plainWrite a v mask)
  else w.dev (fun d => d.plainWrite a v mask)

/-! ### Failed requests and link events (R484, R485) -/

/-- The effect of a failed request of KIND `k` and ID `i` (R484). -/
def W.failRequest (w : W) (k i status : Nat) : W :=
  let w := w.dev (fun d => d.failNote k i status)
  match k with
  | 0 => w.dev (fun d => d.setFetched i [])
  | 1 => dmaError i 3 w
  | 2 => dmaError i 4 w
  | _ => w.dev Dev.dropNote

/-- PCIE_REQUEST_FAIL: a request outstanding fails with STATUS. -/
def pcieRequestFail (k i status : Nat) (w : W) : W := w.failRequest k i status

/-- DMA channels with a host side that are busy: channel and KIND. -/
def Dev.hostDma (d : Dev) : List (Nat × Nat) :=
  (List.range 32).filterMap (fun ch =>
    let c := (d.rg (Reg.DMA_CH_CFG ch)).toNat
    if !(d.dmaAt ch).busy then none
    else if bits c 0 2 = 2 then some (ch, 1) else if bits c 2 2 = 2 then some (ch, 2) else none)

/-- Waiting and outstanding requests fail at a link event; an unfinished service of a LOC 0 ring is forgotten. -/
def W.failAll (w : W) : W :=
  let w := w.dev Dev.failWaiting
  w.d.hostDma.foldl (fun w p => w.failRequest p.2 p.1 5) w

/-- LINK_DOWN: link down, hot reset or PCIE_PERST_N low. -/
def linkDown (w : W) : W :=
  (w.failAll).dev (fun d => (((d.configReset.cb Reg.MEM_PCIE_STAT 0).sf Reg.MEM_PCIE_STAT 1 8 0).sb Reg.MEM_PCIE_STAT 10).memRaise 372)

/-- Does no DMA channel and no blitter run? -/
def Dev.noEngine (d : Dev) : Bool := (List.range 32).all (fun ch => !(d.dmaAt ch).busy) && (List.range 4).all (fun e => !d.bltBusy e)

/-- A reset stops every channel and every engine at once and leaves its destination partly written (R420, R439). -/
def W.stopEngines (w : W) : W :=
  if !w.d.coreUp then w else
  let w := (List.range 32).foldl (fun w ch => if (w.d.dmaAt ch).busy then (w.dmaProgress ch []).dev (fun d => d.dmaHalt ch) else w) w
  (List.range 4).foldl (fun w e => if w.d.bltBusy e then w.bltStop e else w) w

/-- FUNCTION_LEVEL_RESET. -/
def functionLevelReset (w : W) : W :=
  let w := w.failAll
  let w := (List.range 32).foldl (fun w ch => if w.d.dmaOwner ch = 0 then dmaAbort ch [] w else w) w
  let w := (List.range 4).foldl (fun w e => if w.d.bltOwner e = 0 then bltAbort e w else w) w
  w.dev (fun d =>
    let d := d.ringsInUse.foldl (fun d r =>
      if d.fd (Reg.HOP_RD_CFG r) 15 3 = 0 then (d.cb (Reg.HOP_RD_CFG r) 0).cb (Reg.HOP_RD_STAT r) 0 else d) d
    let d := (List.range 16).foldl (fun d j => d.sg (Reg.INT_HOST_PEND j) 0) d
    (d.configReset.sb Reg.MEM_PCIE_STAT 11).memRaise 378)

end Sys2Proof.Machine
end

