-- ==== Sys2Proof/Machine/Pio.lean ====
section
/-!
DEFINITION. Programmable I/O (chapter 15, R452 to R464): engine ticks, the ten instructions, faults, FIFOs, flags, start and stop.
-/

namespace Sys2Proof.Machine

/-- Change engine `e`. -/
def Dev.onPio (d : Dev) (e : Nat) (f : PioEng → PioEng) : Dev := { d with pio := Tab.upd {} d.pio e f }

/-- Context `c` of engine `e`. -/
def Dev.ctxAt (d : Dev) (e c : Nat) : PioCtx := Tab.at {} (d.pioAt e).ctx c

/-- PIO_C_STATE.STATE codes. -/
def PioSt.code : PioSt → Nat
  | .disabled => 0
  | .running => 1
  | .waiting => 2
  | .halted => 3

/-- Put context `c` of engine `e` in a state and show it in PIO_C_FSTAT and PIO_C_STATE. -/
def Dev.setCtx (d : Dev) (e c : Nat) (x : PioCtx) : Dev :=
  let d := d.onPio e (fun g => { g with ctx := Tab.put {} g.ctx c x })
  let d := (d.sf (Reg.PIO_C_FSTAT e c) 0 3 x.tx.length).sf (Reg.PIO_C_FSTAT e c) 4 3 x.rx.length
  d.sg (Reg.PIO_C_STATE e c) (packFields [(0, x.pc), (10, x.st.code), (12, x.f.toNat), (13, x.sc)])

/-- Offset of instruction word `a` of engine `e`. -/
def pioWord (e a : Nat) : Nat := 0x1520000 + e * 0x1000 + 4 * a

/-- Flag `i` of engine `e` takes a value; flag 0 rising is Damsel's event (R456). -/
def Dev.setFlag (d : Dev) (e i : Nat) (b : Bool) : Dev :=
  let was := d.bt (Reg.PIO_E_FLAGS e) i
  let d := d.pb (Reg.PIO_E_FLAGS e) i b
  if i = 0 && b && !was then d.eventNow (.pioFlag e) d.tb else d

/-! ### Clock (R452, R460) -/

/-- Slots of engine `e`. -/
def Dev.pioSlots (d : Dev) (e : Nat) : Nat :=
  match d.fd (Reg.PIO_E_CFG e) 1 3 with
  | 0 => 1
  | 1 => 2
  | 2 => 4
  | 3 => 8
  | _ => 16

/-- DIV in 1/256; below 1.0 it is taken as 1.0. -/
def Dev.pioDiv (d : Dev) (e : Nat) : Nat := max 256 (d.fd (Reg.PIO_E_DIV e) 0 24)

/-- The CCLK edge of the next tick, floor(n × DIV) from the clock restart, has come. -/
def Dev.pioDue (d : Dev) (e : Nat) : Bool :=
  let g := d.pioAt e
  d.bt (Reg.PIO_E_CFG e) 0 && decide (g.t0 + g.n * d.pioDiv e / 256 ≤ d.cclks)

/-- The engine's clock restarts. -/
def Dev.pioRestart (d : Dev) (e : Nat) : Dev := d.onPio e (fun g => { g with t0 := d.cclks, n := 0 })

/-- STOP. -/
def pioStop (e : Nat) (d : Dev) : Dev := d.cb (Reg.PIO_E_CFG e) 0

/-- Context `c` starts at PIO_C_ENTRY with its registers at 0; its FIFOs keep their contents (R459). -/
def Dev.ctxStart (d : Dev) (e c : Nat) : Dev :=
  let x := d.ctxAt e c
  d.setCtx e c { tx := x.tx, rx := x.rx, st := .running, pc := d.fd (Reg.PIO_C_ENTRY e c) 0 10 }

/-- START: every enabled context resumes at its PC, or starts if it has never run, as one that an image enabled (R460). -/
def pioStart (e : Nat) (d : Dev) : Dev :=
  (List.range 16).foldl (fun d c => if d.bt (Reg.PIO_E_CTXEN e) c && (d.ctxAt e c).st == .disabled then d.ctxStart e c else d)
    ((d.sb (Reg.PIO_E_CFG e) 0).pioRestart e)

/-- CLKRST. -/
def pioClkRst (e : Nat) (d : Dev) : Dev := d.pioRestart e

/-! ### The ten instructions (R453 to R455) -/

/-- What an instruction does to its context. -/
inductive PioRes where
  /-- it completes at this address; `x` is the context after it, PC apart -/
  | done (d : Dev) (x : PioCtx) (pc : Nat)
  /-- it stays -/
  | stay
  /-- R457 -/
  | fault

/-- First pin of the shift window, its width, first pin of the drive window, its width, and MSB first. -/
def Dev.shPin (d : Dev) (e c i : Nat) : Nat := (d.fd (Reg.PIO_C_PINS0 e c) 0 7 + i) % 128
def Dev.shWidth (d : Dev) (e c : Nat) : Nat := d.fd (Reg.PIO_C_PINS0 e c) 8 5 + 1
def Dev.drvPin (d : Dev) (e c i : Nat) : Nat := (d.fd (Reg.PIO_C_PINS0 e c) 16 7 + i) % 128
def Dev.drvCount (d : Dev) (e c : Nat) : Nat := min 8 (d.fd (Reg.PIO_C_PINS0 e c) 24 4)
def Dev.shMsb (d : Dev) (e c : Nat) : Bool := d.bt (Reg.PIO_C_PINS1 e c) 8

/-- Set the engine's output or direction latch of a pin. -/
def Dev.pioPin (d : Dev) (e p : Nat) (dir b : Bool) : Dev :=
  d.onPio e (fun g => if dir then { g with dir := Tab.put false g.dir p b } else { g with out := Tab.put false g.out p b })

/-- GO. -/
def pioGo (w e c : Nat) (d : Dev) : PioRes :=
  let x := d.ctxAt e c
  let pin := d.pinRaw (d.fd (Reg.PIO_C_PINS1 e c) 0 7)
  let goTo := fun (x : PioCtx) (b : Bool) => PioRes.done d x (if b then bits w 0 10 else (x.pc + 1) % 1024)
  match bits w 20 4 with
  | 0 => goTo x true
  | 1 => let v := (x.l0 + 65535) % 65536; goTo { x with l0 := v } (v != 0)
  | 2 => let v := (x.l1 + 65535) % 65536; goTo { x with l1 := v } (v != 0)
  | 3 => goTo x (x.a == 0)
  | 4 => goTo x (x.a != 0)
  | 5 => goTo x x.f
  | 6 => goTo x (!x.f)
  | 7 => goTo x pin
  | 8 => goTo x (!pin)
  | 9 => goTo x (x.sc == 0)
  | _ => .fault

/-- Next address of a context. -/
def PioCtx.next (x : PioCtx) : Nat := (x.pc + 1) % 1024

/-- AWAIT. -/
def pioAwait (w e c : Nat) (d : Dev) : PioRes :=
  let x := d.ctxAt e c
  let level := bits w 23 1 == 1
  match bits w 21 2 with
  | 0 => if d.pinRaw (bits w 0 7) = level then .done d x x.next else .stay
  | 1 =>
    let i := bits w 0 4
    if d.bt (Reg.PIO_E_FLAGS e) i = level then .done (if bits w 20 1 = 1 then d.setFlag e i false else d) x x.next else .stay
  | 2 =>
    let i := bits w 0 2
    let n := d.fd (Reg.PIO_E_EV_CNT e) (4 * i) 4
    if n = 0 then .stay else .done (d.sf (Reg.PIO_E_EV_CNT e) (4 * i) 4 (n - 1)) x x.next
  | _ => .fault

/-- Shift one bit into SR. -/
def srIn (msb b : Bool) (sr : Word) : Word :=
  if msb then (sr <<< 1) ||| (if b then 1 else 0) else (sr >>> 1) ||| (if b then 0x80000000 else 0)

/-- SHIN. -/
def pioShin (w e c : Nat) (d : Dev) : PioRes :=
  let x := d.ctxAt e c
  let n := bits w 0 5 + 1
  let go := fun (f : Nat → Bool) =>
    PioRes.done d { x with sr := (List.range n).foldl (fun sr i => srIn (d.shMsb e c) (f i) sr) x.sr, sc := min 32 (x.sc + n) } x.next
  match bits w 20 3 with
  | 0 => go (fun i => decide (i < d.shWidth e c) && d.pinRaw (d.shPin e c i))
  | 1 => go (fun i => x.a.getLsbD i)
  | 2 => go (fun _ => false)
  | 3 => go (fun _ => true)
  | _ => .fault

/-- The next bit that SR gives, and SR after it. -/
def srOut (msb : Bool) (sr : Word) : Bool × Word := if msb then (sr.getLsbD 31, sr <<< 1) else (sr.getLsbD 0, sr >>> 1)

/-- The first `n` bits out of SR, in the order shifted, and SR after them. -/
def srTake (msb : Bool) : Nat → Word → List Bool × Word
  | 0, sr => ([], sr)
  | n + 1, sr =>
    let (b, sr1) := srOut msb sr
    let (l, sr2) := srTake msb n sr1
    (b :: l, sr2)

/-- The number whose bit i is the i-th of a list. -/
def bitsToNat : List Bool → Nat
  | [] => 0
  | b :: l => b.toNat + 2 * bitsToNat l

/-- Bits of a list go to the shift window's pins. -/
def Dev.shiftToPins (d : Dev) (e c : Nat) (dir : Bool) (l : List Bool) : Dev :=
  ((l.zip (List.range l.length)).filter (fun (p : Bool × Nat) => decide (p.2 < d.shWidth e c))).foldl
    (fun d (p : Bool × Nat) => d.pioPin e (d.shPin e c p.2) dir p.1) d

/-- SHOUT. -/
def pioShout (w e c : Nat) (d : Dev) : PioRes :=
  let x := d.ctxAt e c
  let n := bits w 0 5 + 1
  let (l, sr) := srTake (d.shMsb e c) n x.sr
  let x' := { x with sr := sr, sc := x.sc - n }
  match bits w 20 3 with
  | 0 => .done (d.shiftToPins e c false l) x' x.next
  | 1 => .done (d.shiftToPins e c true l) x' x.next
  | 2 => .done d { x' with a := BitVec.ofNat 32 (bitsToNat l) } x.next
  | 3 => .done d x' x.next
  | _ => .fault

/-- DRIVE. -/
def pioDrive (w e c : Nat) (d : Dev) : PioRes :=
  let x := d.ctxAt e c
  .done ((List.range (d.drvCount e c)).foldl (fun d i =>
    if bits w (8 + i) 1 = 1 then d.pioPin e (d.drvPin e c i) (bits w 16 1 == 1) (bits w i 1 == 1) else d) d) x x.next

/-- LOAD. -/
def pioLoad (w e c : Nat) (d : Dev) : PioRes :=
  let x := d.ctxAt e c
  match x.tx with
  | v :: l =>
    let x := { x with tx := l, f := true }
    .done d (if bits w 21 1 = 0 then { x with sr := v, sc := 32 } else { x with a := v }) x.next
  | [] => if bits w 20 1 = 1 then .stay else .done d { x with f := false } x.next

/-- STORE. -/
def pioStore (w e c : Nat) (d : Dev) : PioRes :=
  let x := d.ctxAt e c
  let fromA := bits w 21 1 == 1
  let v := if fromA then x.a else x.sr
  let clr := fun (x : PioCtx) => if fromA then x else { x with sr := 0, sc := 0 }
  if x.rx.length < 4 then .done d (clr { x with rx := x.rx ++ [v], f := true }) x.next
  else if bits w 20 1 = 1 then .stay
  else .done (d.sb (Reg.PIO_C_FSTAT e c) 10) (clr { x with f := false }) x.next

/-- LDI. -/
def pioLdi (w e c : Nat) (d : Dev) : PioRes :=
  let x := d.ctxAt e c
  let v := bits w 0 16
  match bits w 20 3 with
  | 0 => .done d { x with a := BitVec.ofNat 32 v } x.next
  | 1 => .done d { x with a := BitVec.ofNat 32 (x.a.toNat % 65536 + v * 65536) } x.next
  | 2 => .done d { x with l0 := v } x.next
  | 3 => .done d { x with l1 := v } x.next
  | _ => .fault

/-- Bits of the shift window's pins as a value. -/
def Dev.shValue (d : Dev) (e c : Nat) : Word :=
  packFields (((List.range 32).filter (fun i => decide (i < d.shWidth e c))).map (fun i => (i, (d.pinRaw (d.shPin e c i)).toNat)))

/-- FN of XFER. -/
def xferFn (fn : Nat) (v : Word) : Word :=
  match fn with
  | 0 => v
  | 1 => ~~~v
  | 2 => v.reverse
  | _ => v + 1

/-- XFER. -/
def pioXfer (w e c : Nat) (d : Dev) : PioRes :=
  let x := d.ctxAt e c
  let src : Option Word := match bits w 16 3 with
    | 0 => some x.a
    | 1 => some x.sr
    | 2 => some (BitVec.ofNat 32 x.l0)
    | 3 => some (BitVec.ofNat 32 x.l1)
    | 4 => some (d.shValue e c)
    | 5 => some 0
    | _ => none
  match src with
  | none => .fault
  | some s =>
    let v := xferFn (bits w 14 2) s
    match bits w 20 3 with
    | 0 => .done d { x with a := v } x.next
    | 1 => .done d { x with sr := v, sc := 32 } x.next
    | 2 => .done d { x with l0 := v.toNat % 65536 } x.next
    | 3 => .done d { x with l1 := v.toNat % 65536 } x.next
    | 4 => .done (d.shiftToPins e c false ((List.range 32).map (fun i => v.getLsbD i))) x x.next
    | _ => .fault

/-- SIGNAL. -/
def pioSignal (w e c : Nat) (d : Dev) : PioRes :=
  let x := d.ctxAt e c
  match bits w 20 2 with
  | 0 => .done (d.setFlag e (bits w 0 4) true) x x.next
  | 1 => .done (d.setFlag e (bits w 0 4) false) x x.next
  | 2 => .done (d.raiseIf (d.bt (Reg.PIO_E_INT_EN e) 0) (356 + e)) x x.next
  | _ => .fault

/-! ### A step -/

/-- A fault halts the context (R457). -/
def Dev.pioFault (d : Dev) (e c : Nat) : Dev :=
  let x := d.ctxAt e c
  let d := d.setCtx e c { x with st := .halted }
  let d := (d.sb (Reg.PIO_E_FAULT e) c).sg (Reg.PIO_E_LAST_FAULT e) (packFields [(0, x.pc), (12, c)])
  let d := if d.fbt Reg.PIO_GCFG 0 then pioStop e d else d
  d.raiseIf (d.bt (Reg.PIO_E_INT_EN e) 1) (356 + e)

/-- The slot's context of the engine's next tick. -/
def Dev.pioSlot (d : Dev) (e : Nat) : Nat := (d.pioAt e).n % d.pioSlots e

/-- The tick is counted. -/
def Dev.pioCount (d : Dev) (e : Nat) : Dev := d.onPio e (fun g => { g with n := g.n + 1 })

/-- Does context `c` execute an instruction in its step? -/
def PioCtx.active (x : PioCtx) : Bool := (x.st == .running || x.st == .waiting) && x.hold == 0

/-- The instruction word of context `c`, `none` when it holds an uncorrectable error. -/
def Dev.pioFetch (d : Dev) (e c : Nat) : Option Nat :=
  let o := pioWord e (d.ctxAt e c).pc
  if d.badWords.contains o then none else some (Tab.at 0 d.aux o : Word).toNat

/-- The meaning of operation `op` of Table 15-2; `none` for a reserved one. -/
def pioOp : Nat → Option (Nat → Nat → Nat → Dev → PioRes)
  | 0 => some pioGo
  | 1 => some pioAwait
  | 2 => some pioShin
  | 3 => some pioShout
  | 4 => some pioDrive
  | 5 => some pioLoad
  | 6 => some pioStore
  | 7 => some pioLdi
  | 8 => some pioXfer
  | 9 => some pioSignal
  | _ => none

/-- Context `c` executes instruction word `w`. -/
def Dev.pioExec (d : Dev) (e c w : Nat) : Dev :=
  match pioOp (w / 2 ^ 28) with
  | none => d.pioFault e c
  | some f =>
    match f w e c d with
    | .fault => d.pioFault e c
    | .stay => d.setCtx e c { d.ctxAt e c with st := .waiting }
    | .done d x pc =>
      d.setCtx e c { x with st := if d.bt (Reg.PIO_E_CTXEN e) c then .running else .disabled, pc := pc, hold := bits w 24 4 }

/-- PIO_TICK: the slot's context takes its step, one instruction or an idle HOLD step. -/
def pioTick (e : Nat) (d : Dev) : Dev :=
  if !d.pioDue e then d else
  let c := d.pioSlot e
  let d := d.pioCount e
  let x := d.ctxAt e c
  if x.active then
    match d.pioFetch e c with
    | none => d.pioFault e c
    | some w => d.pioExec e c w
  else if x.hold ≠ 0 ∧ (x.st = .running ∨ x.st = .waiting) then d.setCtx e c { x with hold := x.hold - 1 }
  else d

/-- The tick whose step executes an instruction of operation `op`; no effect when the step is another. -/
def pioTickOp (op e : Nat) (d : Dev) : Dev :=
  let c := d.pioSlot e
  if (d.ctxAt e c).active && (d.pioFetch e c).map (fun w => w / 2 ^ 28) == some op then pioTick e d else d

/-! ### Register writes (R444, R456, R459 to R461) -/

/-- Does the agent own engine `e`? -/
def Dev.ownsEng (d : Dev) (ag : Agent) (e : Nat) : Bool := ownerIs ag (d.fd (Reg.PIO_E_CFG e) 4 3)

/-- PIO_STAT.OWN_ERR. -/
def Dev.pioOwnErr (d : Dev) : Dev := d.sb Reg.PIO_STAT 1

/-- A write of PIO_SYNC. -/
def pioSync (ag : Agent) (w : Word) (d : Dev) : Dev :=
  (List.range 8).foldl (fun d e =>
    let st := w.getLsbD e
    let sp := w.getLsbD (8 + e)
    let ck := w.getLsbD (16 + e)
    if !(st || sp || ck) then d
    else if !d.ownsEng ag e then d.pioOwnErr
    else
      let d := if ck then pioClkRst e d else d
      if sp then pioStop e d else if st then pioStart e d else d) d

/-- A context stops after the instruction in progress (R459): one that waits in an AWAIT, a LOAD or a STORE when that completes, a halted or
running one at once. -/
def Dev.ctxStop (d : Dev) (e c : Nat) : Dev :=
  let x := d.ctxAt e c
  if x.st = .waiting then d else d.setCtx e c { x with st := .disabled }

/-- A write of PIO_E_CTXEN (R459). -/
def ctxEnable (e : Nat) (w : Word) (d : Dev) : Dev :=
  let old := d.rg (Reg.PIO_E_CTXEN e)
  let d := d.sg (Reg.PIO_E_CTXEN e) (w &&& 0xFFFF)
  (List.range 16).foldl (fun d c =>
    match old.getLsbD c, w.getLsbD c with
    | false, true => d.ctxStart e c
    | true, false => d.ctxStop e c
    | _, _ => d) d

/-- An image has set PIO_E_CTXEN: contexts that it does not enable stop; those it enables start with the engine (R460, log entry 96). -/
def Dev.ctxFollow (d : Dev) (e : Nat) : Dev :=
  (List.range 16).foldl (fun d c => if d.bt (Reg.PIO_E_CTXEN e) c then d else d.ctxStop e c) d

/-- PIO_TXF_WRITE (R456). -/
def txfWrite (e c : Nat) (w : Word) (d : Dev) : Dev :=
  let x := d.ctxAt e c
  if 4 ≤ x.tx.length then d.sb (Reg.PIO_C_FSTAT e c) 8 else d.setCtx e c { x with tx := x.tx ++ [w] }

/-- PIO_RXF_READ (R456). -/
def rxfRead (e c : Nat) (d : Dev) : Dev :=
  let x := d.ctxAt e c
  match x.rx with
  | [] => { (d.sb (Reg.PIO_C_FSTAT e c) 9) with rdata := 0 }
  | v :: l => { (d.setCtx e c { x with rx := l }) with rdata := v }

/-- A write to instruction word `a` of engine `e` (R444, R461). -/
def pioImWrite (ag : Agent) (e a : Nat) (v mask : Word) (d : Dev) : Dev :=
  if !d.ownsEng ag e then d.pioOwnErr
  else if d.bt (Reg.PIO_E_CFG e) 0 then d.sb Reg.PIO_STAT 3
  else
    let o := pioWord e a
    { d with aux := Tab.put 0 d.aux o (mergeWord (Tab.at 0 d.aux o) v mask), badWords := d.badWords.filter (fun x => x != o) }

/-- Flags set or cleared by an agent that may. -/
def Dev.pioFlags (d : Dev) (e : Nat) (w : Word) (b : Bool) : Dev :=
  (List.range 16).foldl (fun d i => if w.getLsbD i then d.setFlag e i b else d) d

/-- A write to the engine registers of engine `e` by its owner. -/
def engRegWrite (e a : Nat) (v mask : Word) (d : Dev) : Dev :=
  let w := mergeWord (d.rg a) v mask
  let vm := v &&& mask
  if a = Reg.PIO_E_CFG e then
    let d := d.sf a 1 3 (bits w.toNat 1 3)
    if !mask.getLsbD 0 then d else if w.getLsbD 0 then pioStart e d else pioStop e d
  else if a = Reg.PIO_E_CTXEN e then ctxEnable e w d
  else if a = Reg.PIO_E_FLAGS_SET e then d.pioFlags e vm true
  else if a = Reg.PIO_E_FLAGS_CLR e then d.pioFlags e vm false
  else if Reg.PIO_E_EV_SEL e 0 ≤ a ∧ a ≤ Reg.PIO_E_EV_SEL e 3 then
    (d.plainWrite a v mask).sf (Reg.PIO_E_EV_CNT e) (4 * ((a - Reg.PIO_E_EV_SEL e 0) / 4)) 4 0
  else d.plainWrite a v mask

/-- A write to the registers of context `c` of engine `e` by the owner. -/
def ctxRegWrite (e c a : Nat) (v mask : Word) (d : Dev) : Dev :=
  if a = Reg.PIO_C_ENTRY e c then
    if d.bt (Reg.PIO_E_CTXEN e) c then d.sb Reg.PIO_STAT 2 else d.plainWrite a v mask
  else if a = Reg.PIO_C_TXF e c then txfWrite e c (v &&& mask) d
  else d.plainWrite a v mask

/-- A write to the PIO block. -/
def Dev.pioWrite (d : Dev) (ag : Agent) (a : Nat) (v mask : Word) : Dev :=
  if a = Reg.PIO_CTRL then d.blockCtrl .pio 0xF1 (mergeWord (d.rg a) v mask)
  else if a = Reg.PIO_SYNC then pioSync ag (v &&& mask) d
  else if 0x1510100 ≤ a ∧ a < 0x1510300 then
    let e := (a - 0x1510100) / 0x40
    if !d.ownsEng ag e then d.pioOwnErr else engRegWrite e a v mask d
  else if 0x1511000 ≤ a ∧ a < 0x1513000 then
    let e := (a - 0x1511000) / 0x400
    let c := (a - 0x1511000) % 0x400 / 0x40
    if !d.ownsEng ag e then d.pioOwnErr else ctxRegWrite e c a v mask d
  else if 0x1520000 ≤ a ∧ a < 0x1528000 then pioImWrite ag ((a - 0x1520000) / 0x1000) ((a - 0x1520000) % 0x1000 / 4) v mask d
  else d.plainWrite a v mask

/-- A PIO register as it reads. -/
def Dev.pioRead (d : Dev) (a : Nat) : Word :=
  if 0x1520000 ≤ a ∧ a < 0x1528000 then Tab.at 0 d.aux a
  else if 0x1510100 ≤ a ∧ a < 0x1510300 ∧ ((a - 0x1510100) % 0x40 = 0x18 ∨ (a - 0x1510100) % 0x40 = 0x1C) then
    d.rg (Reg.PIO_E_FLAGS ((a - 0x1510100) / 0x40))
  else d.rg a

end Sys2Proof.Machine
end

