-- ==== Sys2Proof/Machine/CoreState.lean ====
section
/-!
DEFINITION. The Krytesh cores' state (chapter 12, R371 to R394): registers, stack, exception entry, interrupts, the bit space, core
status registers, watchdog and restart, with the run control of chapter 20 that acts on them (R581 to R585).
-/

namespace Sys2Proof.Machine

/-- Core `c`. -/
def Dev.coreAt (d : Dev) (c : Nat) : Core := Tab.at {} d.core c

/-- Change core `c`. -/
def Dev.onCore (d : Dev) (c : Nat) (f : Core → Core) : Dev := { d with core := Tab.upd {} d.core c f }

/-- KC_STAT.STATE. -/
inductive KState where
  | reset | loading | running | idle | halted | double
deriving DecidableEq, Repr

/-- The codes of KC_STAT.STATE (Table 12-13). -/
def KState.code : KState → Nat
  | .reset => 0
  | .loading => 1
  | .running => 2
  | .idle => 3
  | .halted => 4
  | .double => 5

/-- Is core `c` in a state? -/
def Dev.kIs (d : Dev) (c : Nat) (k : KState) : Bool := d.fd (Reg.KC_STAT c) 1 3 == k.code

/-- Put core `c` in a state. -/
def Dev.kSet (d : Dev) (c : Nat) (k : KState) : Dev := d.sf (Reg.KC_STAT c) 1 3 k.code

/-! ### General registers and the slot (R376 to R378) -/

/-- A register's value: g0 reads as 0. -/
def Core.reg (k : Core) (r : Nat) : Word := if r = 0 then 0 else Tab.at 0 k.g r

/-- A write of a register: g0 discards it. -/
def Core.setReg (k : Core) (r : Nat) (v : Word) : Core := if r = 0 then k else { k with g := Tab.put 0 k.g r v }

/-- A source operand: a slot instruction reads the old value of the load's destination (R377). -/
def Core.src (k : Core) (r : Nat) : Word :=
  match k.slot with
  | some (rd, old) => if r = rd then old else k.reg r
  | none => k.reg r

/-- The next sequential address. -/
def nextPc (pc : Nat) : Nat := (pc + 4) % 2 ^ 32

/-- Where a jump of `off` words from `pc` goes. -/
def jumpPc (pc : Nat) (off : Int) : Nat := (((pc : Int) + 4 * off) % (2 ^ 32 : Nat)).toNat

/-! ### The tightly coupled memories -/

/-- TCM bytes of a core: 128 KiB of ITCM, then 128 KiB of DTCM. -/
def tcmSize : Nat := 0x40000

/-- Cell of byte `a` of the TCMs of core `c`. -/
def tcmAddr (c a : Nat) : Nat := c * 2 ^ 20 + a

/-- Key in `badWords` of the TCM word at `a`. -/
def tcmKey (c a : Nat) : Nat := 2 ^ 40 + tcmAddr c (a / 4 * 4)

/-- A word of the TCMs. -/
def W.tcmWord (w : W) (c a : Nat) : Word := w.rd32 .tcm (tcmAddr c a)

/-! ### Exceptions (R387, R389) -/

/-- Their codes. -/
def Cause.code : Cause → Nat
  | .illegal => 1
  | .fetch => 2
  | .align => 3
  | .load => 4
  | .store => 5
  | .stack => 6
  | .syscall => 7
  | .brk => 8
  | .memerr => 9
  | .interrupt => 10

/-- Does a cause write FADDR? -/
def Cause.hasAddr : Cause → Bool
  | .fetch => true
  | .align => true
  | .stack => true
  | .load => true
  | .store => true
  | .memerr => true
  | _ => false

/-- The check of a push or pop address (R382). -/
def Core.stackCheck (k : Core) (a : Nat) : Option Cause :=
  if a % 4 ≠ 0 then some .align
  else if decide (0x20000 ≤ a) && decide (a < 0x40000) && decide (k.slimLo.toNat ≤ a) && decide (a < k.slimHi.toNat) then none
  else some .stack

/-- The core stops in DOUBLE (R389). -/
def Dev.doubleFault (d : Dev) (c : Nat) (cause : Cause) : Dev :=
  let d := d.onCore c (fun k => { k with wait := .none, stepping := false })
  ((d.kSet c .double).sb (Reg.KC_STAT c) 4).sg (Reg.KC_LAST_FAULT c) (BitVec.ofNat 32 cause.code)

/-- The address that a push takes below `a`. -/
def below (a n : Nat) : Nat := (a + 2 ^ 32 - n) % 2 ^ 32

/-- The saved status word (R387). -/
def Core.statusWord (k : Core) (cause : Cause) : Word :=
  packFields ([(0, k.ien.toNat), (1, k.hnd.toNat), (8, cause.code)] ++
    match k.slot with
    | some (r, _) => [(2, 1), (3, r)]
    | none => [])

/-- The handler address in the word at XBASE + 4 × cause; outside the ITCM the word is free. -/
def W.handler (w : W) (c : Nat) (cause : Cause) : Nat :=
  let a := (w.d.coreAt c).xbase.toNat + 4 * cause.code
  let v := if a < 0x20000 then w.tcmWord c a else Config.freeWord w.d.free
  v.toNat / 4 * 4

/-- Taking an exception: the one operation of R387, with the double faults of R389.  `ret` is the return address, `code` goes to
ECAUSE.CODE, `addr` to FADDR where the cause writes it. -/
def W.enter (w : W) (c : Nat) (cause : Cause) (ret code addr : Nat) : W :=
  let w := if cause.hasAddr then w.dev (fun d => d.onCore c (fun k => { k with faddr := BitVec.ofNat 32 addr })) else w
  let k := w.d.coreAt c
  if k.hnd then w.dev (fun d => d.doubleFault c cause) else
  let sp := (k.reg 30).toNat
  let a1 := below sp 4
  let a2 := below sp 8
  match k.stackCheck a1, k.stackCheck a2 with
  | some e, _ => w.dev (fun d => (d.onCore c (fun k => { k with faddr := BitVec.ofNat 32 a1 })).doubleFault c e)
  | none, some e => w.dev (fun d => (d.onCore c (fun k => { k with faddr := BitVec.ofNat 32 a2 })).doubleFault c e)
  | none, none =>
    let w := (w.wr32 .tcm (tcmAddr c a1) (k.statusWord cause)).wr32 .tcm (tcmAddr c a2) (BitVec.ofNat 32 ret)
    let pc := w.handler c cause
    w.dev (fun d => (if k.xbase.toNat + 4 * cause.code < 0x20000 then d else d.useFree).onCore c (fun k =>
      { k.setReg 30 (BitVec.ofNat 32 a2) with
        ecause := packFields [(0, cause.code), (16, code % 2 ^ 15)]
        slotOld := match k.slot with
          | some (_, old) => old
          | none => k.slotOld
        slot := none, wait := .none, ien := false, hnd := true, ienHold := false, skipBp := false, pc := pc }))

/-- The instruction at PC raises an exception. -/
def W.raiseExc (w : W) (c : Nat) (cause : Cause) (addr : Nat) : W := w.enter c cause (w.d.coreAt c).pc 0 addr

/-! ### Run control (R581, R582, R584) -/

/-- A debugger is attached. -/
def Dev.attached (d : Dev) : Bool := d.bt Reg.DBG_ATTACH 0

/-- The core halts with a reason; its watchdog stops counting while a debugger is attached (R391, R585). -/
def Dev.haltCore (d : Dev) (c reason : Nat) : Dev :=
  (d.kSet c .halted).onCore c (fun k =>
    { k with reason := reason, haltReq := false, stepping := false, skipBp := false,
             wdtPaused := if d.attached then some d.tb else none })

/-- The watchdog counts again. -/
def Core.unpause (k : Core) (now : Nat) : Core :=
  match k.wdtPaused with
  | some t => { k with wdtPaused := none, wdtAt := k.wdtAt + (now - t) }
  | none => k

/-- A halted core resumes at its PC; the instruction there runs without a breakpoint test. -/
def Dev.resumeCore (d : Dev) (c : Nat) : Dev :=
  (d.kSet c .running).onCore c (fun k => { k.unpause d.tb with skipBp := true, reason := 0 })

/-- An instruction boundary is reached: a waiting HALT or the end of a STEP acts, never between a load and its slot. -/
def Dev.boundary (d : Dev) (c : Nat) : Dev :=
  let k := d.coreAt c
  if k.slot.isSome || k.wait != .none || !d.kIs c .running then d
  else if k.haltReq then d.haltCore c 1
  else if k.stepping then d.haltCore c 4
  else d

/-- Does an enabled breakpoint stop core `c` before the instruction at PC (R582)? -/
def Dev.bpHit (d : Dev) (c : Nat) : Bool :=
  let k := d.coreAt c
  !k.skipBp && (List.range 4).any (fun i => let b := Tab.at 0 k.bp i; b.getLsbD 0 && decide (b.toNat / 4 * 4 = k.pc))

/-- BREAKPOINT_HIT. -/
def breakpointHit (c : Nat) (d : Dev) : Dev :=
  if d.kIs c .running && (d.coreAt c).wait == .none && d.bpHit c then d.haltCore c 2 else d

/-- An instruction completes: the next one is at `pc`, `slot` says whether it is a slot instruction. -/
def Dev.completeAt (d : Dev) (c pc : Nat) (slot : Option (Nat × Word)) : Dev :=
  (d.onCore c (fun k =>
    { k with pc := pc, slot := slot, wait := .none, ienHold := false, skipBp := false, instret := k.instret + 1 })).boundary c

/-- The instruction completes and the next in order follows. -/
def Dev.complete (d : Dev) (c : Nat) : Dev := d.completeAt c (nextPc (d.coreAt c).pc) none

/-! ### Interrupts (R388, R390) -/

/-- The core takes INTERRUPT at this boundary. -/
def Dev.interruptDue (d : Dev) (c : Nat) : Bool :=
  let k := d.coreAt c
  d.kIs c .running && k.wait == .none && k.slot.isNone && !k.ienHold && k.ien && !k.hnd && d.requestLine c &&
    !(k.stepping && !k.rcCfg.getLsbD 1)

/-- INTERRUPT_TAKE: a halt or a breakpoint at the same boundary prevails (R582). -/
def interruptTake (c : Nat) (w : W) : W :=
  if w.d.interruptDue c && !w.d.bpHit c && !(w.d.coreAt c).haltReq then
    let w := w.enter c .interrupt (w.d.coreAt c).pc 0 0
    w.dev (fun d => d.boundary c)
  else w

/-- The core goes to sleep; emulated while a debugger is attached (R390, R586). -/
def Dev.sleepCore (d : Dev) (c : Nat) : Dev :=
  let d := (d.kSet c .idle).releaseGroups c
  if d.attached then { d with emuIdle := Tab.put false d.emuIdle c true } else d

/-- The core leaves its sleep. -/
def Dev.wakeCore (d : Dev) (c : Nat) : Dev :=
  { (d.kSet c .running) with emuIdle := Tab.put false d.emuIdle c false }

/-- IDLE_WAKE: the request line is high, so that the WFI completes and the next instruction follows (R390). -/
def idleWake (c : Nat) (d : Dev) : Dev :=
  if d.kIs c .idle && d.requestLine c then (d.wakeCore c).complete c else d

/-! ### The bit space (R384, R385, Table 12-7) -/

/-- Bit `b` of the bit space as core `c` reads it. -/
def Dev.readBit (d : Dev) (c b : Nat) : Bool :=
  if b < 0x80 then d.pinLatch b
  else if b < 0x100 then d.pinRaw (b - 0x80)
  else if b < 0x180 then d.bt (Reg.GP_FILT_IN ((b - 0x100) / 32)) (b % 32)
  else if 0x200 ≤ b ∧ b < 0x400 then decide (Tab.at 0 (d.intcAt c).count (b - 0x200) ≠ 0)
  else if 0x400 ≤ b ∧ b < 0x500 then Tab.at false d.coreFlags (b - 0x400)
  else if 0x500 ≤ b ∧ b < 0x580 then d.bt (Reg.PIO_E_FLAGS ((b - 0x500) / 16)) (b % 16)
  else if 0x600 ≤ b ∧ b < 0x900 then d.bt (Reg.DM_FLAGS ((b - 0x600) / 16)) (b % 16)
  else if 0x1000 ≤ b ∧ b < 0x1C00 then d.bt (Reg.SL_LO_CTRL ((b - 0x1000) / 64) (b % 64)) 0
  else if 0x8000 ≤ b then Tab.at false (d.coreAt c).user (b - 0x8000)
  else false

/-- A write of bit `b` by core `c`. -/
def Dev.writeBit (d : Dev) (c b : Nat) (v : Bool) : Dev :=
  if b < 0x80 then
    -- R385 names BIT_DENIED, R442 OWN_ERR for a pin of another owner
    if d.ownsPin (.core c) b && d.bt (Reg.GP_PIN_CFG b) 10 then d.setLatch b v
    else (if d.ownsPin (.core c) b then d else d.gpOwnErr).sb (Reg.KC_STAT c) 5
  else if 0x400 ≤ b ∧ b < 0x500 then { d with coreFlags := Tab.put false d.coreFlags (b - 0x400) v }
  else if 0x500 ≤ b ∧ b < 0x580 then d.setFlag ((b - 0x500) / 16) (b % 16) v
  else if 0x600 ≤ b ∧ b < 0x900 then d.pb (Reg.DM_FLAGS ((b - 0x600) / 16)) (b % 16) v
  else if 0x1000 ≤ b ∧ b < 0x1C00 then
    d.slArriving (d.cclkEdge d.tb 2) (1 + c) (fun d => d.slEn ((b - 0x1000) / 64) (b % 64) 1 15 v)
  else if 0x8000 ≤ b then d.onCore c (fun k => { k with user := Tab.put false k.user (b - 0x8000) v })
  else d

/-! ### Core status registers (R386, Table 12-8) -/

/-- CSR `n` as it reads, `none` where it raises ILLEGAL. -/
def Core.csr (k : Core) (c n : Nat) : Option Word :=
  match n with
  | 0 => some (packFields [(0, k.ien.toNat), (1, k.hnd.toNat)])
  | 1 => some k.ecause
  | 2 => some k.faddr
  | 3 => some k.xbase
  | 4 => some k.slotOld
  | 6 => some (packFields [(0, k.ba.toNat)])
  | 7 => some k.slimLo
  | 8 => some k.slimHi
  | 9 => some (BitVec.ofNat 32 (k.cycle / 2000))
  | 10 => some k.cycleHi
  | 11 => some (BitVec.ofNat 32 k.instret)
  | 12 => some k.instretHi
  | 13 => some (BitVec.ofNat 32 c)
  | 14 => some k.scratch0
  | 15 => some k.scratch1
  | _ => none

/-- A read of a LO counter shadows its HI half. -/
def Core.csrShadow (k : Core) (n : Nat) : Core :=
  match n with
  | 9 => { k with cycleHi := BitVec.ofNat 32 (k.cycle / 2000 / 2 ^ 32) }
  | 11 => { k with instretHi := BitVec.ofNat 32 (k.instret / 2 ^ 32) }
  | _ => k

/-- A write of CSR `n`: RO registers and RES fields keep their values. -/
def Core.setCsr (k : Core) (n : Nat) (v : Word) : Core :=
  match n with
  | 0 => { k with ien := v.getLsbD 0, hnd := v.getLsbD 1, ienHold := k.ienHold || (v.getLsbD 0 && !k.ien) }
  | 1 => { k with ecause := v &&& 0x7FFF000F }
  | 3 => { k with xbase := v &&& 0xFFFFFFC0 }
  | 4 => { k with slotOld := v }
  | 6 => { k with ba := v.getLsbD 0 }
  | 7 => { k with slimLo := v &&& 0xFFFFFFFC }
  | 8 => { k with slimHi := v &&& 0xFFFFFFFC }
  | 14 => { k with scratch0 := v }
  | 15 => { k with scratch1 := v }
  | _ => k

/-! ### Watchdog (R391, R393) -/

/-- PERIOD in ns; 0 is taken as 1 µs. -/
def Dev.wdtPeriod (d : Dev) (c : Nat) : Nat := max 1 (d.ff (Reg.KC_WDT_CFG c) 0 24) * 1000

/-- The watchdog is reloaded. -/
def Dev.wdtReload (d : Dev) (c : Nat) (warned : Bool) : Dev :=
  d.onCore c (fun k => { k with wdtAt := d.tb, wdtWarned := warned, wdtPaused := k.wdtPaused.map (fun _ => d.tb) })

/-- WDT_KICK. -/
def wdtKick (c : Nat) (v : Word) (d : Dev) : Dev := if v = 0xC0DE then d.wdtReload c false else d.sb (Reg.KC_STAT c) 8

/-! ### Restart (R392, Table 12-10) -/

/-- A permitted restart of core `c` begins: LOADING, a debug halt ends, done or still waiting (R392, R582), an emulated sleep ends. -/
def Dev.beginRestart (d : Dev) (c : Nat) (areaB dkeep : Bool) : Dev :=
  let d := (d.kSet c .loading).onCore c (fun k =>
    { k.unpause d.tb with restart := some { areaB := areaB, dkeep := dkeep, at_ := d.cclks }, stepping := false, haltReq := false, reason := 0 })
  ({ d with emuIdle := Tab.put false d.emuIdle c false } : Dev).retainDue

/-- The image area in use: that of the last restart. -/
def Dev.areaB (d : Dev) (c : Nat) : Bool := d.bt (Reg.KC_STAT c) 10

/-- WDT_EXPIRY: at the first expiry a warning, at the second a restart. -/
def wdtExpiry (c : Nat) (d : Dev) : Dev :=
  let k := d.coreAt c
  if !d.fbt (Reg.KC_WDT_CFG c) 31 || d.kIs c .reset || d.kIs c .loading || k.wdtPaused.isSome ||
      decide (d.tb < k.wdtAt + d.wdtPeriod c) then d
  else if !k.wdtWarned then ((d.raiseAt c).sb (Reg.KC_STAT c) 7).wdtReload c true
  else ((d.beginRestart c (d.areaB c) false).wdtReload c false).inc (Reg.KC_WDT_CNT c)

/-- May the agent request a restart of core `c`? -/
def restartAllowed (ag : Agent) (c : Nat) : Bool :=
  match ag with
  | .host => decide (c < 3)
  | .dbg => decide (c < 3)
  | .core k => k == c || (k == 0 && (c == 1 || c == 2))
  | .device => false

/-- Would a start of core `c` now break the order of R36 and R513: KC0 first, and KC3 before KC1 and KC2? -/
def Dev.startEarly (d : Dev) (c : Nat) : Bool :=
  d.kIs c .reset && (c == 1 || c == 2) && [0, 3].any (fun k => d.kIs k .reset || d.kIs k .loading)

/-- CORE_RESTART: a write of KC_RESTART.  R392 refuses a request by its sender or in LOADING.  No rule says what a request does for a core
still in RESET; it starts the core, as for one that runs, but not before its turn in the order of R36 (DESIGN CHOICE, log entry 47). -/
def coreRestart (ag : Agent) (c : Nat) (v : Word) (d : Dev) : Dev :=
  if !v.getLsbD 0 then d
  else if !restartAllowed ag c || d.kIs c .loading || d.startEarly c then d.sb (Reg.KC_STAT c) 6
  else d.beginRestart c (v.getLsbD 1) (v.getLsbD 2)

/-- Registers, bits and CSRs at their reset values; what run control and the watchdog hold stays. -/
def Core.fresh (k : Core) : Core :=
  { wdtAt := k.wdtAt, rcCfg := k.rcCfg, bp := k.bp, haltReq := k.haltReq, vtTx := k.vtTx, vtRx := k.vtRx }

/-- The image is copied and the rest of the DTCM zeroed unless DKEEP is 1. -/
def W.copyImage (w : W) (c : Nat) (r : Restart) : W :=
  let base := sramOfCore (w.d.rg (if r.areaB then Reg.KC_IMG_B c else Reg.KC_IMG_A c)).toNat
  let il := w.d.fd (Reg.KC_IMG_LEN c) 0 16 * 64
  let dl := w.d.fd (Reg.KC_IMG_LEN c) 16 16 * 64
  let w := w.wrBytes .tcm (tcmAddr c 0) (w.rdBytes .sram base il)
  if r.dkeep then w
  else w.wrBytes .tcm (tcmAddr c 0x20000) (w.rdBytes .sram (base + il) dl ++ List.replicate (0x20000 - dl) 0)

/-- A series of restarts begins with its first core (R531, R533). -/
def Dev.beginSeries (d : Dev) (l : List (Nat × Bool)) : Dev :=
  match l with
  | (c, b) :: _ => ({ d with restartQ := l } : Dev).beginRestart c b false
  | [] => { d with restartQ := [] }

/-- The next restart of a series begins when the core before it reaches RUNNING (R531). -/
def Dev.nextRestart (d : Dev) (c : Nat) : Dev :=
  match d.restartQ with
  | (x, _) :: l => if x = c then d.beginSeries l else d
  | [] => d

/-- May the copy of core `c` end now: earlier copies of its start have ended, and its stores have drained or the limit has come? -/
def Dev.restartReady (d : Dev) (c : Nat) (r : Restart) : Bool :=
  let k := d.coreAt c
  (!d.startQ.contains c || d.startQ.head? == some c) &&
    ((k.posted.isEmpty && k.wait == .none) || decide (r.at_ + 8192 ≤ d.cclks))

/-- SRAM banks that the copy reads. -/
def Dev.imageBanks (d : Dev) (c : Nat) (r : Restart) : List Nat :=
  banksOf (sramOfCore (d.rg (if r.areaB then Reg.KC_IMG_B c else Reg.KC_IMG_A c)).toNat)
    (d.fd (Reg.KC_IMG_LEN c) 0 16 * 64 + if r.dkeep then 0 else d.fd (Reg.KC_IMG_LEN c) 16 16 * 64)

/-- CORE_RESTART_COMPLETE: the rest of Table 12-10; the copy waits for a bank in retention to wake (R471). -/
def coreRestartComplete (c : Nat) (w : W) : W :=
  match (w.d.coreAt c).restart with
  | none => w
  | some r =>
    if !w.d.kIs c .loading || !w.d.restartReady c r then w else
    let banks := w.d.imageBanks c r
    if !w.d.banksReady banks then w.dev (fun d => d.wakeBanks banks) else
    let lost := !(w.d.coreAt c).posted.isEmpty
    let w := w.copyImage c r
    w.dev (fun d =>
      let d := if lost then d.sb (Reg.KC_STAT c) 9 else d
      let d := d.onIntc c (fun i => { i with active := none })
      let d := d.onCore c Core.fresh
      let d := (d.pb (Reg.KC_STAT c) 10 r.areaB).inc (Reg.KC_RESTART_CNT c)
      let d := (d.kSet c .running).wdtReload c false
      let d := { d with startQ := d.startQ.filter (fun x => x != c) }
      let d := if (d.bt Reg.DBG_ATTACH 1 && c != 3) || (d.coreAt c).haltReq then d.haltCore c 1 else d
      d.nextRestart c)

/-- SYS_CORE_START (R513): only KC0 may write it, KC3 first, and only cores in RESET start. -/
def sysCoreStart (ag : Agent) (v : Word) (d : Dev) : Dev :=
  if ag ≠ .core 0 ∧ ag ≠ .dbg then d else
  (List.range 4).foldl (fun acc c =>
    if !v.getLsbD c then acc
    else if !d.kIs c .reset || ((c == 1 || c == 2) && (d.kIs 3 .reset || d.kIs 3 .loading)) then acc.sb Reg.SYS_STAT 6
    else { (acc.beginRestart c false false) with startQ := acc.startQ ++ [c] }) d

/-! ### KC registers (R393, R394) -/

/-- KC_CTRL is written (R12 to R16, R615, R617): a write that changes the setting in force reloads the watchdog (R393). -/
def Dev.kcCtrl (d : Dev) (c : Nat) (w : Word) : Dev :=
  let b : Block := .kc c
  let x := d.blockCtrl b 0xF1 w
  let moved := x.level b != d.level b ||
    (!x.level b && b.profileOf (x.rg b.ctrl).toNat != b.profileOf (d.rg b.ctrl).toNat)
  if moved then x.wdtReload c false else x

/-- A write to the block of core `c`. -/
def Dev.kcWrite (d : Dev) (ag : Agent) (c a : Nat) (v mask : Word) : Dev :=
  let w := mergeWord (d.rg a) v mask
  if a = Reg.KC_RESTART c then coreRestart ag c (v &&& mask) d
  else if c = 3 ∧ ag ≠ .core 3 ∧ a ≠ Reg.KC_STAT 3 then d
  else if a = Reg.KC_CTRL c then d.kcCtrl c w
  else if a = Reg.KC_WDT_CFG c then
    if d.level (.kc c) then (d.plainWrite a v mask).wdtReload c false else d.plainWrite a v mask
  else if a = Reg.KC_WDT_KICK c then wdtKick c (v &&& mask) d
  else d.plainWrite a v mask

/-- A KC register as an agent reads it. -/
def Dev.kcRead (d : Dev) (ag : Agent) (c a : Nat) : Word :=
  if c = 3 ∧ ag ≠ .core 3 ∧ a ≠ Reg.KC_STAT 3 then 0
  else if a = Reg.KC_PC c then BitVec.ofNat 32 (d.coreAt c).pc
  else d.rg a

/-! ### Core addresses (R371, R372) -/

/-- What a core address reaches. -/
inductive CoreTgt where
  | tcm (a : Nat)
  | sram (a : Nat)
  | reg (off : Nat)
  | lp (a : Nat)
  /-- outside every range, or denied -/
  | bad
deriving DecidableEq, Repr

/-- The target of an access of `n` bytes at core address `a` by core `c`. -/
def Dev.coreTarget (d : Dev) (c a n : Nat) : CoreTgt :=
  if a < tcmSize then .tcm a
  else if 0x20000000 ≤ a ∧ a < 0x20000000 + sramBytes then
    if (a - 0x20000000) / 2 ^ 21 = 95 ∧ c ≠ 3 then .bad else .sram (a - 0x20000000)
  else if 0x40000000 ≤ a ∧ a < 0x42000000 then
    let o := a - 0x40000000
    if (n ≠ 4 ∧ byteStore o = false) ∨ (0x1701000 ≤ o ∧ o < 0x1702000 ∧ c ≠ 3) then .bad else .reg o
  else if 0x80000000 ≤ a ∧ a < 0xC0000000 then
    let b := d.fd (Reg.KC_LPWIN c) 2 6 * 2 ^ 30 + (a - 0x80000000)
    if d.lpSize < b + n then .bad else .lp b
  else .bad

/-! ### Exceptions of the instruction at PC -/

/-- The instruction at PC raises an exception, and the boundary that its entry makes is reached; a core that restarts takes none
(Table 12-10). -/
def W.kRaise (w : W) (c : Nat) (cause : Cause) (addr : Nat) : W :=
  if w.d.kIs c .loading then w.dev (fun d => d.onCore c (fun k => { k with wait := .none }))
  else (w.raiseExc c cause addr).dev (fun d => d.boundary c)

end Sys2Proof.Machine
end

