-- ==== Sys2Proof/Machine/Avail.lean ====
section
/-!
DEFINITION. Availability (chapter 19): errors found by reads and their effects, rows and repair, channel fences, slice health, Fantail
windows, remaps, shedding and restoring, self-tests and captures.
-/

namespace Sys2Proof.Machine

/-- Change the availability state. -/
def Dev.onAv (d : Dev) (f : Av → Av) : Dev := { d with av := f d.av }

/-! ### SRAM rows (R548 to R553) -/

/-- Key of row `r` of bank `b`. -/
def rowKey (b r : Nat) : Nat := b * 2048 + r

/-- The row of SRAM byte `a` within its bank. -/
def rowOf (a : Nat) : Nat := a % 2 ^ 21 / 1024

/-- A slot whose operation is not IDLE or DONE runs `op` and its parameters satisfy `p` (R499). -/
def Dev.lopHolds (d : Dev) (op : Nat) (p : Nat → Bool) : Bool :=
  (List.range 64).any (fun s =>
    let st := d.fd (Reg.SYS_LOP_STAT s) 0 3
    decide (1 ≤ st) && decide (st ≤ 5) && d.fd (Reg.SYS_LOP_STAT s) 12 4 == op && p s)

/-- Does an operation `op` that is RUNNING cover bank `b`? -/
def Dev.lopOnBank (d : Dev) (op b : Nat) : Bool :=
  (List.range 64).any (fun s =>
    d.fd (Reg.SYS_LOP_STAT s) 0 3 == 2 && d.fd (Reg.SYS_LOP_STAT s) 12 4 == op &&
      decide (d.fd (Reg.SYS_LOP_P s 0) 0 7 ≤ b) && decide (b ≤ d.fd (Reg.SYS_LOP_P s 0) 8 7))

/-- Does a repair of row `r` of bank `b` wait for the bank? -/
def Dev.repairWaits (d : Dev) (b r : Nat) : Bool := d.av.repWait.any (fun x => x.bank == b && x.row == r)

/-- A repair of row `r` of bank `b` begins (R552, R553): the lowest unused spare row is assigned and the copy starts; a retained bank's
row waits for the bank to wake; a bank without a spare row keeps the row as it is.  `cmd`: AV_REP_CMD named the row, and reads BUSY until
the repair ends; one that another has begun already is its repair too. -/
def Dev.startRepair (d : Dev) (b r : Nat) (cmd : Bool) : Dev :=
  let named := fun (d : Dev) => if cmd then d.sb Reg.AV_REP_CMD 21 else d
  if d.av.copies.any (fun c => c.bank == b && c.row == r) then
    let mark := fun (c : RowCopy) => if c.bank = b ∧ c.row = r then { c with cmd := c.cmd || cmd } else c
    named (d.onAv (fun v => { v with copies := v.copies.map mark }))
  else if d.bankState b ≠ 0 then
    let mark := fun (x : RowWait) => if x.bank = b ∧ x.row = r then { x with cmd := x.cmd || cmd } else x
    let l := if d.repairWaits b r then d.av.repWait.map mark else d.av.repWait ++ [{ bank := b, row := r, cmd := cmd }]
    named (d.onAv (fun v => { v with repWait := l }))
  else
    let used := d.fd (Reg.AV_BANK b) 0 5
    if 16 ≤ used then
      let d := if cmd then d.cb Reg.AV_REP_CMD 21 else d
      ((d.sb Reg.AV_STAT 1).sb (Reg.AV_BANK b) 16).logEntry 5 b r
    else
      let d := (d.sf (Reg.AV_BANK b) 0 5 (used + 1)).onAv (fun v =>
        { v with copies := v.copies ++ [{ bank := b, row := r, spare := used, at_ := d.cclks, cmd := cmd }] })
      named d

/-- Automatic repair of bank `b`: the row flagged first, when no copy runs in the bank and no REPAIR_SWEEP covers it (R551, R568). -/
def Dev.autoRepair (d : Dev) (b : Nat) : Dev :=
  if !d.fbt Reg.AV_CFG 24 || d.av.copies.any (fun c => c.bank == b) || d.lopOnBank 8 b || d.bt (Reg.AV_BANK b) 16 then d else
  match d.av.flagged.find? (fun p => p.1 == b) with
  | some (_, r) => d.startRepair b r false
  | none => d

/-- Automatic repair looks at every bank with a flagged row: AUTO_REPAIR was set, or a sweep has ended (R551, R568). -/
def Dev.autoRepairAll (d : Dev) : Dev := (d.av.flagged.map (·.1)).eraseDups.foldl Dev.autoRepair d

/-- Row `r` of bank `b` is flagged (R551); in a bank that has used all its spare rows it stays so (R553). -/
def Dev.flagRow (d : Dev) (b r : Nat) : Dev :=
  if d.av.flagged.contains (b, r) then d else
  let d := d.onAv (fun v => { v with flagged := v.flagged ++ [(b, r)] })
  let d := (d.sf (Reg.AV_BANK b) 8 8 (min 255 (d.fd (Reg.AV_BANK b) 8 8 + 1))).logEntry 3 b
    (r + ((Tab.at none d.av.spare (rowKey b r)).getD 0) * 65536)
  if 16 ≤ d.fd (Reg.AV_BANK b) 0 5 then ((d.sb Reg.AV_STAT 1).sb (Reg.AV_BANK b) 16).logEntry 5 b r else d.autoRepair b

/-- ROW_THRESH in force; 0 is taken as 1 (R572). -/
def Dev.rowThresh (d : Dev) : Nat := max 1 (d.ff Reg.AV_CFG 12 4)

/-- A correctable error of the row of SRAM byte `a` (R549, R551). -/
def Dev.rowError (d : Dev) (a : Nat) : Dev :=
  let b := a / 2 ^ 21
  let r := rowOf a
  let n := min 15 (Tab.at 0 d.av.rowErr (rowKey b r) + 1)
  let d := d.onAv (fun v => { v with rowErr := Tab.put 0 v.rowErr (rowKey b r) n })
  if d.rowThresh ≤ n then d.flagRow b r else d

/-- ROW_REPAIR by AV_REP_CMD (R551): BANK and ROW are stored, and REPAIR starts a repair unless BUSY. -/
def repCmdWrite (v mask : Word) (d : Dev) : Dev :=
  let busy := d.bt Reg.AV_REP_CMD 21
  let d := d.sg Reg.AV_REP_CMD (mergeWord (d.rg Reg.AV_REP_CMD) v (mask &&& 0x7FF7F))
  let b := d.fd Reg.AV_REP_CMD 0 7
  if (v &&& mask).getLsbD 20 && !busy && decide (b < 96) then d.startRepair b (d.fd Reg.AV_REP_CMD 8 11) true else d

/-- A row's copy ends: its addresses switch to the spare row (R552). -/
def Dev.endCopy (d : Dev) (c : RowCopy) : Dev :=
  let flagged := d.av.flagged.contains (c.bank, c.row)
  let d := d.onAv (fun v => { v with
    copies := v.copies.filter (fun x => x != c)
    flagged := v.flagged.filter (fun p => p != (c.bank, c.row))
    spare := Tab.put none v.spare (rowKey c.bank c.row) (some c.spare)
    rowErr := Tab.put 0 v.rowErr (rowKey c.bank c.row) 0 })
  let d := if flagged then d.sf (Reg.AV_BANK c.bank) 8 8 (d.fd (Reg.AV_BANK c.bank) 8 8 - 1) else d
  let d := (d.inc Reg.AV_REP_CNT).logEntry 4 c.bank (c.row + c.spare * 65536)
  if c.cmd then d.cb Reg.AV_REP_CMD 21 else d

/-- The copy of row `r` of bank `b`. -/
def Dev.copyOf (d : Dev) (b r : Nat) : Option RowCopy := d.av.copies.find? (fun c => c.bank == b && c.row == r)

/-- ROW_SWITCH: the copy of a row ends after 128 CCLK or more and its addresses switch to the spare row (R552). -/
def rowSwitch (b r : Nat) (d : Dev) : Dev :=
  match d.copyOf b r with
  | none => d
  | some c => if d.cclks < c.at_ + 128 then d else (d.endCopy c).autoRepair b

/-- May REPAIR_SWEEP still do something for a flagged row: no copy runs on it, and its bank is awake with a spare row or has not yet been
asked? -/
def Dev.sweepable (d : Dev) (b r : Nat) : Bool :=
  (d.copyOf b r).isNone && (if d.bankState b ≠ 0 then !d.repairWaits b r
    else decide (d.fd (Reg.AV_BANK b) 0 5 < 16) || !d.bt (Reg.AV_BANK b) 16)

/-- REPAIR_SWEEP repairs one flagged row. -/
def Dev.sweepRow (d : Dev) (b r : Nat) : Dev :=
  if (d.copyOf b r).isSome then d else
  let d := d.startRepair b r false
  match d.copyOf b r with
  | some c => d.endCopy c
  | none => d

/-- BANK_WAKE_DONE with the repairs that waited for the bank (R471, R552). -/
def bankWoken (b : Nat) (d : Dev) : Dev :=
  let d' := bankWakeDone b d
  if d'.bankState b ≠ 0 then d' else
  let l := d'.av.repWait.filter (fun x => x.bank == b)
  l.foldl (fun d x => d.startRepair b x.row x.cmd) (d'.onAv (fun v => { v with repWait := v.repWait.filter (fun x => x.bank != b) }))

/-- Words that patrol scrub reads in one pass: 96 banks of 2^18 (R550). -/
def scrubWords : Nat := 96 * 2 ^ 18

/-- SCRUB_S in force (R550). -/
def Dev.scrubS (d : Dev) : Nat := d.ff Reg.AV_CFG 0 12

/-- When patrol scrub's next word is due: reads are spaced evenly over the pass. -/
def Dev.scrubDue (d : Dev) : Nat := d.av.scrubT0 + (d.av.scrub - d.av.scrubI0) * (d.scrubS * 1000000000) / scrubWords

/-- Patrol scrub goes on from its present word at a new rate. -/
def Dev.scrubFrom (d : Dev) : Dev := d.onAv (fun v => { v with scrubI0 := v.scrub, scrubT0 := d.tb })

/-- Patrol scrub goes on to word `i`; after the last one a pass is counted. -/
def Dev.scrubTo (d : Dev) (i : Nat) : Dev :=
  if scrubWords ≤ i then
    ((d.onAv (fun v => { v with scrub := 0, scrubI0 := 0,
                                scrubT0 := v.scrubT0 + (scrubWords - v.scrubI0) * (d.scrubS * 1000000000) / scrubWords })).inc Reg.AV_SCRUB_PASS_CNT).sf
      Reg.AV_SCRUB_STAT 0 7 0
  else (d.onAv (fun v => { v with scrub := i })).sf Reg.AV_SCRUB_STAT 0 7 (i / 2 ^ 18)

/-- PATROL_SCRUB_READ (R550): the next word when it is due; a retained bank is passed over, and patrol waits while SRAM_SCRUB runs on the
bank or one of its rows is being copied (R568). -/
def patrolScrub (d : Dev) : Dev :=
  let b := d.av.scrub / 2 ^ 18
  if d.scrubS = 0 ∨ d.tb < d.scrubDue then d
  else if d.bankState b ≠ 0 then d.scrubTo ((b + 1) * 2 ^ 18)
  else if d.lopOnBank 1 b || d.av.copies.any (fun c => c.bank == b) then d
  else d.scrubTo (d.av.scrub + 1)

/-! ### LPDDR5X channels (R566) -/

/-- Channel `ch` is fenced: 0 errors, 1 timeout, 2 refresh, 3 command. -/
def Dev.fenceChannel (d : Dev) (ch cause : Nat) : Dev :=
  if d.bt (Reg.MEM_CH_STAT ch) 0 then d else
  (((d.sb (Reg.MEM_CH_STAT ch) 0).memRaise 367).logEntry 17 ch cause).onAv (fun v => { v with newFence := v.newFence ++ [ch] })

/-- CHANNEL_FENCE by a request not completed within 100 µs or a missed refresh. -/
def channelFence (ch : Nat) (refresh : Bool) (d : Dev) : Dev := d.fenceChannel (ch % 8) (if refresh then 2 else 1)

/-- AV_FENCE_CMD: a write by the host or KC0 with GO (R566). -/
def fenceCmd (ag : Agent) (w : Word) (d : Dev) : Dev :=
  if (ag == .host || ag == .core 0 || ag == .dbg) && w.getLsbD 3 then d.fenceChannel (bits w.toNat 0 3) 3 else d

/-- An uncorrectable error of channel `ch` counts against UE_PER_S in the last 1 s (R566). -/
def Dev.channelUe (d : Dev) (ch : Nat) : Dev :=
  let l := (Tab.at [] d.av.ueTimes ch).filter (fun t => decide (d.tb < t + 1000000000)) ++ [d.tb]
  let d := d.onAv (fun v => { v with ueTimes := Tab.put [] v.ueTimes ch l })
  let n := d.fd Reg.AV_FENCE_CFG 0 8
  if n ≠ 0 ∧ n ≤ l.length then d.fenceChannel ch 0 else d

/-- Does LPDDR5X byte `a` lie in an inline-ECC region (R474)? -/
def Dev.inEcc (d : Dev) (a : Nat) : Bool :=
  (List.range 8).any (fun r =>
    let base := d.fd (Reg.MEM_ECC_REG r) 0 16 * 2 ^ 26
    decide (base ≤ a) && decide (a < base + d.fd (Reg.MEM_ECC_REG r) 16 16 * 2 ^ 26))

/-! ### Errors met by reads (R468, R475, R549, R554) -/

/-- The line pixel at `x` of a line handed over becomes transparent (Table 19-2). -/
def LineDue.clearPixel (l : LineDue) (x : Nat) : LineDue :=
  { l with work := { l.work with s0 := l.work.s0.set x {}, s1 := l.work.s1.set x {} }
           v0 := l.v0.map (fun r => r.set x {}), v1 := l.v1.map (fun r => r.set x {}) }

/-- A pixel of a line buffer or scaled line of slice `s` is read in error (R554): transparent, and the line incomparable. -/
def Dev.clearPixel (d : Dev) (s line x : Nat) : Dev :=
  match d.builderOf s with
  | none => d
  | some t =>
    let n := d.fd (Reg.SL_BIND t) 0 6
    let fix := fun (l : Option LineDue) => l.map (fun (l : LineDue) => if l.work.line = line then l.clearPixel x else l)
    d.onMx n (fun m =>
      if d.bt (Reg.SL_BIND s) 6 then { m with due := fix m.due, now := fix m.now, shBad := true }
      else { m with shDue := fix m.shDue, shNow := fix m.shNow, shBad := true })

/-- The pond record of an order number is dropped and counted as refused with cause 1 (Table 19-2). -/
def Dev.dropPond (d : Dev) (order : Nat) : Dev :=
  match d.hop.pond.find? (fun r => r.order == order) with
  | none => d
  | some r =>
    let d := (d.onHop (fun h => { h with pond := h.pond.filter (fun x => x != r) })).pondShow
    d.refuseRec r.ring r.fromRing (recType r.words) 1

/-- The output whose lines Fantail compares at present: those of its window's target, when a frame of the window is shown. -/
def Dev.ftOutput (d : Dev) : Option Nat :=
  (d.av.winOld <|> d.av.win).map (fun w => d.fd (Reg.SL_BIND w.target) 0 6)

/-- What the reader of a composition-path or audio word in error takes instead (Table 19-2): effects on structures that hold copies act
here, the others where the word is used. -/
def Dev.ueEffect (d : Dev) (at_ : UeAt) : Dev :=
  let d := match d.ftOutput with
    | some n => (match at_ with
      | .pond _ => d
      | .signal _ => d
      | .window _ => d
      | .tcm _ _ => d
      | _ => d.onMx n (fun m => { m with shBad := true }))
    | none => d
  match at_ with
  | .pixel s line x => d.clearPixel s line x
  | .pond o => d.dropPond o
  | .signal i => d.setSig i 0
  | .obj _ _ _ => { d with ue := at_ :: d.ue.filter (fun u => u != at_) }
  | .grp _ _ => { d with ue := at_ :: d.ue.filter (fun u => u != at_) }
  | .entry _ _ _ _ => { d with ue := at_ :: d.ue.filter (fun u => u != at_) }
  | .bin _ _ _ => { d with ue := at_ :: d.ue.filter (fun u => u != at_) }
  | .cache _ => { d with ue := at_ :: d.ue.filter (fun u => u != at_) }
  | _ => d

/-- A word becomes one that holds an uncorrectable error. -/
def Dev.markBad (d : Dev) (k : Nat) : Dev := if d.badWords.contains k then d else { d with badWords := k :: d.badWords }

/-- The error reaches an SRAM word at byte `a`: counted, logged, its row flagged (R551, R554). -/
def Dev.sramUe (d : Dev) (a : Nat) : Dev :=
  (((d.inc Reg.AV_SRAM_UE_CNT).raise 1).logEntry 2 (a / 2 ^ 21) a).flagRow (a / 2 ^ 21) (rowOf a)

/-- Does core `c`'s aligned read of `n` bytes at `a` take the word in error at `at_`? -/
def Dev.readsBad (d : Dev) (c a n : Nat) (at_ : UeAt) : Bool :=
  match d.coreTarget c a n, at_ with
  | .sram x, .sram y => sramKey x == sramKey y
  | .lp x, .lp y => lpKey x == lpKey y
  | _, _ => false

/-- The requester takes the error (R468): a core's load that reads the word ends as a LOAD exception with the address it read, a DMA channel
or blitter stops. -/
def W.ueReader (w : W) (at_ : UeAt) : Reader → W
  | .hw => w
  | .core c =>
    match (w.d.coreAt c).wait with
    | .load _ a k => if w.d.readsBad c a k.size at_ then w.kRaise c .load a else w
    | .tli rd base x f =>
      if w.d.readsBad c (tliAddrs base x f).1 (tliSize f) at_ then
        w.dev (fun d => d.onCore c (fun k => { k with wait := .tli2 rd base x f 0 (some .load), since := d.cclks })) else w
    | .tli2 _ base x f _ bad =>
      if w.d.readsBad c (tliAddrs base x f).2 (tliSize f) at_ then
        w.kRaise c .load (if bad = some .load then (tliAddrs base x f).1 else (tliAddrs base x f).2) else w
    | _ => w
  | .dma ch => dmaError ch 3 w
  | .blt e => bltReadError e w
  | .dbg => w.dev (fun d => d.sb Reg.DBG_MEM_STAT 2)

/-- UNCORRECTABLE_READ (R468, R475, R554): `addr` is the SRAM address of a structured word. -/
def uncorrectableRead (at_ : UeAt) (addr : Nat) (who : Reader) (w : W) : W :=
  let w := match at_ with
    | .lp a => w.dev (fun d =>
        let d := (d.markBad (lpKey a)).inc Reg.MEM_LP_UE_CNT
        let d := (d.sg Reg.MEM_LP_ERR_ADDR_LO (BitVec.ofNat 32 a)).sg Reg.MEM_LP_ERR_ADDR_HI (BitVec.ofNat 32 (a / 2 ^ 32))
        (((d.memRaise 366).raise 1).logEntry 18 (lpChannel a) (a % 2 ^ 32)).channelUe (lpChannel a))
    | .tcm c a => w.dev (fun d => ((d.markBad (tcmKey c a)).raise 1).logEntry 7 c a)
    | .window off => w.dev (fun d => (d.markBad off).raise 1)
    | .sram a => w.dev (fun d => (d.markBad (sramKey a)).sramUe a)
    | _ => w.dev (fun d => (d.sramUe (addr % sramBytes)).ueEffect at_)
  let w := match at_ with
    | .sram _ => if who = Reader.hw then w.dev (fun d => d.ueEffect at_) else w
    | _ => w
  w.ueReader at_ who

/-- CORRECTABLE_READ (R549, R475, R569): the requester gets corrected data, which is written back; errors are counted and logged.
Of an LPDDR5X word in a protected region `addr` 0 names a single-bit inline-ECC error, any other a correction by link ECC, which every read
outside the regions has alone (R474, R475). -/
def correctableRead (at_ : UeAt) (addr : Nat) (d : Dev) : Dev :=
  match at_ with
  | .lp a => if d.inEcc a && addr == 0 then (d.inc Reg.MEM_LP_CE_CNT).memRaise 365 else d.inc Reg.MEM_LP_LINK_CNT
  | .tcm c a => d.ceNote (96 + c) a
  | .window off =>
    if 0xA10000 ≤ off ∧ off < 0xB00000 then d.logEntry 8 (0x100 + (off - 0xA10000) / 0x4000) ((off - 0xA10000) % 0x4000 / 4)
    else if 0x1520000 ≤ off ∧ off < 0x1530000 then d.logEntry 8 (0x200 + (off - 0x1520000) / 0x1000) ((off - 0x1520000) % 0x1000 / 4)
    else d
  | .sram a => (((d.inc Reg.AV_SRAM_CE_CNT).memRaise 364).ceNote (a / 2 ^ 21 % 96) (rowOf a)).rowError (a % sramBytes)
  | _ => (((d.inc Reg.AV_SRAM_CE_CNT).memRaise 364).ceNote (addr / 2 ^ 21 % 96) (rowOf addr)).rowError (addr % sramBytes)

/-! ### Slice health (R555, R561) -/

/-- AV_SLICE.HEALTH. -/
def Dev.health (d : Dev) (s : Nat) : Nat := d.fd (Reg.AV_SLICE s) 0 3

/-- Put a slice in a health state; SL_BIND.SHADOW shows SHADOW, QUARANTINED and TESTING. -/
def Dev.setHealth (d : Dev) (s h : Nat) : Dev :=
  (d.sf (Reg.AV_SLICE s) 0 3 h).pb (Reg.SL_BIND s) 9 (h == 2 || h == 3 || h == 4)

/-- Does a SLICE_TEST long operation hold slice `s` (R503)? -/
def Dev.testHolds (d : Dev) (s : Nat) : Bool := d.lopHolds 3 (fun k => d.fd (Reg.SYS_LOP_P k 0) 0 6 == s)

/-- Pixels of line storage that service of output `n` needs at lead `lam` (R151, R185): λ + 1 line sets of S0 and S1 and as many scaled
lines of each enabled video plane, each of H_ACTIVE pixels. -/
def Dev.lineNeedAt (d : Dev) (n lam hAct : Nat) : Nat :=
  (2 + d.ff (Reg.MX_VP_CFG n 0) 0 1 + d.ff (Reg.MX_VP_CFG n 1) 0 1) * (lam + 1) * hAct

/-- The same with the H_ACTIVE of the coming frame. -/
def Dev.lineNeed (d : Dev) (n lam : Nat) : Nat := d.lineNeedAt n lam (d.comingTiming n).hAct

/-- May slice `s` serve output `n` at lead `lam` (R151)? -/
def Dev.mayServeAt (d : Dev) (s n lam : Nat) : Bool := decide (d.lineNeed n lam ≤ Tab.at 0 d.lineShare s)

/-- May slice `s` serve output `n` at the lead of its binding (R151)? -/
def Dev.mayServe (d : Dev) (s n : Nat) : Bool := d.mayServeAt s n (d.lead n)

/-- Output of a live slice. -/
def Dev.outputOf (d : Dev) (s : Nat) : Nat := d.fd (Reg.SL_BIND s) 0 6

/-- PRIORITY of an output (R562). -/
def Dev.priority (d : Dev) (n : Nat) : Nat := d.fd (Reg.AV_OUT_CFG n) 8 8

/-- Is output `n` shed? -/
def Dev.isShed (d : Dev) (n : Nat) : Bool := d.fd (Reg.AV_OUT_STAT n) 0 2 == 2

/-- The lowest-numbered SPARE slice that satisfies `p`. -/
def Dev.spareFor (d : Dev) (p : Nat → Bool) : Option Nat :=
  (List.range 52).find? (fun s => d.health s == 1 && !d.bt (Reg.SL_BIND s) 6 && p s)

/-- Schedule a binding for the output's next take-up point (R148). -/
def Dev.scheduleBind (d : Dev) (n : Nat) (b : Rebind) : Dev := d.onAv (fun v => { v with rebind := Tab.put none v.rebind n (some b) })

/-- A slice leaves output `n`. -/
def Dev.unbind (d : Dev) (s n : Nat) : Dev :=
  if d.bt (Reg.SL_BIND s) 6 && d.outputOf s == n then d.sf (Reg.SL_BIND s) 6 3 0 else d

/-- A slice is bound to output `n`. -/
def Dev.bindSlice (d : Dev) (s n : Nat) (gang follow : Bool) (lead : Nat) : Dev :=
  let d := ((d.sf (Reg.SL_BIND s) 0 6 n).sf (Reg.SL_BIND s) 6 3 (1 + 2 * gang.toNat + 4 * follow.toNat)).sf (Reg.SL_LEAD s) 0 3 lead
  (d.setHealth s 0).onSlice s (fun sl => { sl with shadows := none })

/-- BINDING_CHANGE at the take-up point of output `n` (R148). -/
def Dev.applyBind (d : Dev) (n : Nat) : Dev :=
  match Tab.at none d.av.rebind n with
  | none => d
  | some b =>
    let old := d.slicesFor n
    let lead := d.lead n
    let new := b.lead.toList ++ b.follow.toList
    let d := d.onAv (fun v => { v with rebind := Tab.put none v.rebind n none })
    let d := (old.filter (fun s => !new.contains s)).foldl (fun d s => d.unbind s n) d
    let d := match b.portGang with
      | some p => d.pb (Reg.SL_OUT_BIND n) 15 p
      | none => d
    match b.lead with
    | none => (d.cb (Reg.SL_OUT_BIND n) 16).onAv (fun v => { v with leads := Tab.put none v.leads n (some lead) })
    | some s =>
      let lead := b.leadLines.getD lead
      let d := d.onAv (fun v => { v with leads := Tab.put none v.leads n none })
      let d := (d.bindSlice s n b.follow.isSome false lead).sf (Reg.SL_OUT_BIND n) 0 6 s
      let d := match b.follow with
        | some f => (d.bindSlice f n true true lead).sf (Reg.SL_OUT_BIND n) 8 6 f
        | none => d
      let d := (d.pb (Reg.SL_OUT_BIND n) 14 b.follow.isSome).sb (Reg.SL_OUT_BIND n) 16
      if b.restore then d.onMx n (fun m => { m with fbWant := false, fbPlain := false }) else d

/-- A QUARANTINED slice that builds no line of any output starts its self-test (R561). -/
def Dev.startTests (d : Dev) : Dev :=
  (List.range 52).foldl (fun d s =>
    if d.health s == 3 && !d.bt (Reg.SL_BIND s) 6 && (d.sliceAt s).lines.isEmpty && (d.sliceAt s).shadows.isNone then
      (d.setHealth s 4).onAv (fun v => { v with tests := Tab.put none v.tests s (some d.tb) })
    else d) d

/-- The verdict of a test of slice `s`: the failing phase, or `none` for a pass. -/
def Dev.verdict (d : Dev) (s : Nat) (fail : Option Nat) : Dev :=
  match fail with
  | none => ((d.setHealth s 1).sf (Reg.AV_SLICE s) 3 2 1)
  | some p => (((d.setHealth s 5).sf (Reg.AV_SLICE s) 3 2 2).sf (Reg.AV_SLICE s) 8 4 p).logEntry 12 s p

/-- SELF_TEST_DONE: after 16,384 µs the verdict waits for the next tick (R561). -/
def selfTestDone (s : Nat) (fail : Option Nat) (d : Dev) : Dev :=
  match Tab.at none d.av.tests s with
  | none => d
  | some t =>
    if d.tb < t + 16384000 then d
    else d.onAv (fun v => { v with tests := Tab.put none v.tests s none, verdicts := v.verdicts ++ [(s, fail.map (· % 16))] })

/-- The verdicts that take effect at this tick. -/
def Dev.takeVerdicts (d : Dev) : Dev :=
  d.av.verdicts.foldl (fun d (p : Nat × Option Nat) => if d.health p.1 == 4 then d.verdict p.1 p.2 else d)
    (d.onAv (fun v => { v with verdicts := [] }))

/-! ### Shedding and restoring (R562, R563) -/

/-- Output `n` is shed: its slices become spares, its fallback is shown from its next frame start; cause 0 no spare, 1 command, 2 plan. -/
def Dev.shedOutput (d : Dev) (n cause : Nat) : Dev :=
  if d.isShed n then d else
  let old := d.slicesFor n
  let d := old.foldl (fun d s => if d.health s == 0 then d.setHealth s 1 else d) d
  let d := (d.sf (Reg.AV_OUT_STAT n) 0 2 2).scheduleBind n {}
  let d := d.onMx n (fun m => { m with fbWant := true, fbPlain := m.fbPlain || cause == 2, fbResume := none })
  d.logEntry 14 n (old.headD 0 + cause * 256)

/-- One PREEMPTED test (R503): the slot that tests slice `s` ends, and the slice is reinitialised. -/
def Dev.preemptTest (d : Dev) (s : Nat) : Dev :=
  (List.range 64).foldl (fun d k =>
    let st := d.fd (Reg.SYS_LOP_STAT k) 0 3
    if decide (1 ≤ st) && decide (st ≤ 5) && d.fd (Reg.SYS_LOP_STAT k) 12 4 == 3 && d.fd (Reg.SYS_LOP_P k 0) 0 6 == s then
      let d := d.onSlice s (fun x => { x with lines := [], after := [], slowFrame := [] })
      let d := (d.sf (Reg.SYS_LOP_STAT k) 0 3 6).sf (Reg.SYS_LOP_STAT k) 4 3 5
      let d := d.cb (if k < 32 then Reg.SYS_LOP_BUSY_LO else Reg.SYS_LOP_BUSY_HI) (k % 32)
      if d.bt (Reg.SYS_LOP_STAT k) 19 then (d.sb (if k < 32 then Reg.SYS_LOP_DONE_LO else Reg.SYS_LOP_DONE_HI) (k % 32)).raise 380 else d
    else d) d

/-- Slice `new` replaces slice `old` at output `n` from its take-up point (R148, R559). -/
def Dev.replaceSlice (d : Dev) (n old new : Nat) : Dev :=
  let sub := fun s => if s = old then new else s
  let d := match d.slicesFor n with
    | [a] => d.scheduleBind n { lead := some (sub a) }
    | [a, b] => d.scheduleBind n { lead := some (sub a), follow := some (sub b) }
    | _ => d
  d.setHealth new 0

/-- The remaps that wait, in descending PRIORITY of their outputs, ties in ascending output number (R559): the first of them whose output
is not in `skip`. -/
def Dev.nextRemap (d : Dev) (skip : List Nat) : Option Remap :=
  (d.av.remaps.filter (fun r => !skip.contains (d.outputOf r.target))).foldl (fun best r =>
    match best with
    | none => some r
    | some b =>
      let (n, m) := (d.outputOf r.target, d.outputOf b.target)
      if d.priority m < d.priority n ∨ (d.priority m = d.priority n ∧ n < m) then some r else best) none

/-- The output that is shed for the remap of output `n` (R562): the unshed one of lowest PRIORITY below, whose slice may serve `n`. -/
def Dev.shedFor (d : Dev) (n : Nat) : Option Nat :=
  (List.range 48).foldl (fun best m =>
    if d.isShed m || (d.slicesFor m).isEmpty || !decide (d.priority m < d.priority n) ||
        !((d.slicesFor m).any (fun s => d.mayServe s n)) then best
    else match best with
      | none => some m
      | some b => if d.priority m ≤ d.priority b then some m else best) none

/-- The tick's one remap (R559, R562).  `skip`: outputs whose BINDING a partial image changes at this tick (R568). -/
def Dev.remapTick (d : Dev) (skip : List Nat) : Dev × Bool :=
  let d := d.onAv (fun v => { v with remaps := v.remaps.filter (fun r => d.health r.target == 0 && d.bt (Reg.SL_BIND r.target) 6) })
  match d.nextRemap skip with
  | none => (d, false)
  | some r =>
    let n := d.outputOf r.target
    let d := d.onAv (fun v => { v with remaps := v.remaps.filter (fun x => x != r) })
    let ok := fun s => r.shadow != some s && d.mayServe s n
    let pick := (d.spareFor (fun s => ok s && !d.testHolds s)) <|> (d.spareFor ok)
    let quarantine := fun (d : Dev) =>
      let d := d.setHealth r.target 3
      match r.shadow with
      | some s => if d.health s == 1 || d.health s == 2 then (d.setHealth s 3).onSlice s (fun sl => { sl with shadows := none }) else d
      | none => d
    match pick with
    | some s =>
      let d := d.preemptTest s
      (((quarantine (d.replaceSlice n r.target s)).inc Reg.AV_FT_REMAP_CNT).logEntry 11 n (r.target + s * 256), true)
    | none =>
      match d.shedFor n with
      | some m =>
        let s := ((d.slicesFor m).find? (fun s => d.mayServe s n)).getD 0
        let d := (d.shedOutput m 0).replaceSlice n r.target s
        (((quarantine d).inc Reg.AV_FT_REMAP_CNT).logEntry 11 n (r.target + s * 256), true)
      | none => (quarantine (d.shedOutput n 0), true)

/-- The tick's one restore (R563): the shed output of highest PRIORITY that spares suffice for. -/
def Dev.restoreTick (d : Dev) : Dev :=
  let want := (List.range 48).filter (fun n => d.isShed n && (d.fbt Reg.AV_CFG 25 || d.av.resumeReq.contains n))
  let spares := fun n =>
    match d.spareFor (fun s => d.mayServe s n && !d.testHolds s) with
    | none => none
    | some s =>
      if !d.bt (Reg.SL_OUT_BIND n) 14 then some (s, none)
      else (d.spareFor (fun t => t != s && d.mayServe t n && !d.testHolds t)).map (fun t => (s, some t))
  let best := want.foldl (fun (b : Option Nat) n =>
    match b with
    | none => some n
    | some m => if d.priority m < d.priority n then some n else b) none
  match best.bind (fun n => (spares n).map (fun p => (n, p))) with
  | none => d
  | some (n, s, f) =>
    let d := d.setHealth s 0
    let d := match f with
      | some t => d.setHealth t 0
      | none => d
    let d := (d.scheduleBind n { lead := some s, follow := f, restore := true }).sf (Reg.AV_OUT_STAT n) 0 2 0
    (d.onAv (fun v => { v with resumeReq := v.resumeReq.filter (fun x => x != n) })).logEntry 15 n s

/-- The sheds that AV_OUT_CMD called for (R563). -/
def Dev.shedTick (d : Dev) : Dev :=
  d.av.shedReq.foldl (fun d n => d.shedOutput n 1) (d.onAv (fun v => { v with shedReq := [] }))

/-- AV_OUT_SHED. -/
def avOutShed (n : Nat) (d : Dev) : Dev :=
  if d.av.shedReq.contains n then d else d.onAv (fun v => { v with shedReq := v.shedReq ++ [n] })

/-- AV_OUT_RESUME: a shed output is restored by the rule of R563, and the fallback of ACTION 2 ends (R564). -/
def avOutResume (n : Nat) (d : Dev) : Dev :=
  match d.fd (Reg.AV_OUT_STAT n) 0 2 with
  | 2 => if d.av.resumeReq.contains n then d else d.onAv (fun v => { v with resumeReq := v.resumeReq ++ [n] })
  | 1 => d.onMx n (fun m => { m with fbResume := some false })
  | _ => d

/-! ### Fantail (R556 to R559) -/

/-- A window ends: mismatches without a confirmation are a transient (R558). -/
def Dev.closeWindow (d : Dev) (w : FtWin) : Dev :=
  if w.confirmed ∨ w.mismatches = 0 then d else
  let d := (d.inc Reg.AV_FT_TRANSIENT_CNT).logEntry 9 w.target (w.shadow + w.first.getD 0 * 65536)
  if d.av.transients.contains w.target then d else d.onAv (fun v => { v with transients := v.transients ++ [w.target] })

/-- The last frame of the window before has ended. -/
def Dev.endOldWindow (d : Dev) : Dev :=
  match d.av.winOld with
  | none => d
  | some w => (d.closeWindow w).onAv (fun v => { v with winOld := none })

/-- Does a slice qualify as target: LIVE, bound, its output running frames? -/
def Dev.ftTargetOk (d : Dev) (s : Nat) : Bool := d.health s == 0 && d.bt (Reg.SL_BIND s) 6 && d.runsFrame (d.outputOf s)

/-- FANTAIL_SELECT at the commit decision of the tick (R556). -/
def Dev.fantailSelect (d : Dev) : Dev :=
  let d := d.endOldWindow
  -- the window of the tick before: its shadow is a spare again, and its last frame may still be shown
  let d := match d.av.win with
    | some w => (if d.health w.shadow == 2 then d.setHealth w.shadow 1 else d).onAv (fun v =>
        { v with win := none, winOld := if w.begun then some w else none })
    | none => d
  let d := { d with ftReq := d.ftReq.filter (fun s => d.health s == 0) }
  let d := d.onAv (fun v => { v with transients := v.transients.filter (fun s => d.health s == 0) })
  let asked := (List.range 52).find? (fun s => d.ftReq.contains s && d.ftTargetOk s)
  let again := d.av.transients.find? d.ftTargetOk
  let start := match d.av.lastRot with
    | some s => s + 1
    | none => 0
  let turn := ((List.range 52).map (fun i => (start + i) % 52)).find? d.ftTargetOk
  let idle := fun (d : Dev) => d.sg Reg.AV_FT_STAT 0
  match asked <|> again <|> turn with
  | none => idle d
  | some t =>
    let n := d.outputOf t
    match d.spareFor (fun s => Tab.at none d.av.lastShadow t != some s && !d.testHolds s && d.mayServe s n) with
    | none => idle ((d.inc Reg.AV_FT_SKIP_CNT).logEntry 19 0 0)
    | some s =>
      let recheck := asked.isNone && again.isSome || (asked.isSome && d.av.transients.contains t)
      let d := { (d.setHealth s 2) with ftReq := d.ftReq.filter (fun x => x != t) }
      let d := d.onAv (fun v => { v with
        win := some { target := t, shadow := s, recheck := recheck }
        transients := v.transients.filter (fun x => x != t)
        lastRot := if asked.isNone && again.isNone then some t else v.lastRot
        lastShadow := Tab.put none v.lastShadow t (some s) })
      d.sg Reg.AV_FT_STAT (packFields [(0, s), (8, t), (16, 1), (17, asked.isSome.toNat)])

/-- The take-up point of output `n`: the shadow of a window on that output begins, that of the window before stops (R556, R557). -/
def Dev.fantailTakeUp (d : Dev) (n : Nat) : Dev :=
  let stop := fun (d : Dev) (w : FtWin) =>
    if d.outputOf w.target = n && (d.sliceAt w.shadow).shadows == some w.target then
      d.onSlice w.shadow (fun sl => { sl with shadows := none }) else d
  let d := match d.av.winOld with
    | some w => stop d w
    | none => d
  match d.av.win with
  | some w =>
    if d.health w.target = 0 ∧ d.bt (Reg.SL_BIND w.target) 6 ∧ d.outputOf w.target = n ∧ d.health w.shadow = 2 then
      (d.onSlice w.shadow (fun sl => { sl with shadows := some w.target })).onAv (fun v => { v with win := some { w with begun := true } })
    else d
  | none => d

/-- CONFIRM_LINES in force; 0 is taken as 1 (R572). -/
def Dev.confirmLines (d : Dev) : Nat := max 1 (d.ff Reg.AV_CFG 16 8)

/-- A mismatch of slice `t` is confirmed (R558, R559). -/
def Dev.confirm (d : Dev) (t : Nat) (shadow : Option Nat) (line : Nat) : Dev :=
  let d := d.sf (Reg.AV_SLICE t) 16 16 (min 65535 (d.fd (Reg.AV_SLICE t) 16 16 + 1))
  let d := d.onAv (fun v => { v with
    capBad := Tab.put false v.capBad (d.outputOf t) true
    remaps := if v.remaps.any (fun r => r.target == t) then v.remaps else v.remaps ++ [{ target := t, shadow := shadow }] })
  d.logEntry 10 t (shadow.getD 0 + line * 65536)

/-- FANTAIL_LINE_COMPARE at the end of line `line` of output `n` (R557, R558). -/
def Dev.fantailLine (d : Dev) (n line : Nat) : Dev :=
  match d.lineCompare n with
  | none => d
  | some (ok, differs) =>
    let old := d.av.winOld.isSome && (d.av.winOld.map (fun w => d.outputOf w.target)) == some n
    match (if old then d.av.winOld else d.av.win) with
    | none => d
    | some w =>
      if d.outputOf w.target ≠ n then d
      else if !ok then d.inc Reg.AV_FT_INCOMP_CNT
      else
        let d := d.inc Reg.AV_FT_LINES_CNT
        if !differs then d else
        let d := d.inc Reg.AV_FT_MISMATCH_CNT
        let w1 : FtWin := { w with mismatches := w.mismatches + 1, first := some (w.first.getD line) }
        let conf := !w.confirmed && (w.recheck || decide (d.confirmLines ≤ w1.mismatches))
        let w2 : FtWin := { w1 with confirmed := w.confirmed || conf }
        let d := d.onAv (fun v => if old then { v with winOld := some w2 } else { v with win := some w2 })
        if conf then d.confirm w.target (some w.shadow) (w2.first.getD line) else d

/-- FT_CHECK (R556). -/
def ftCheck (s : Nat) (d : Dev) : Dev := if d.ftReq.contains s then d else { d with ftReq := s :: d.ftReq }

/-- FT_REMAP_CMD (R558): the named LIVE slice. -/
def ftRemap (s : Nat) (d : Dev) : Dev := if d.health s = 0 ∧ d.bt (Reg.SL_BIND s) 6 then d.confirm s none 0 else d

/-- FT_RETURN (R561). -/
def ftReturn (s : Nat) (d : Dev) : Dev :=
  if d.health s = 5 then (d.setHealth s 3).logEntry 13 s (d.fd (Reg.AV_SLICE s) 8 4) else d

/-- A write of AV_FT_CMD. -/
def ftCmdWrite (w : Word) (d : Dev) : Dev :=
  let s := bits w.toNat 0 6
  if 52 ≤ s then d else
  let d := if w.getLsbD 8 then ftCheck s d else d
  let d := if w.getLsbD 9 then ftRemap s d else d
  if w.getLsbD 10 then ftReturn s d else d

/-! ### MIX_GROUP with its comparisons and log entries -/

/-- MIX_GROUP (R167): the group passes the pipeline; a region's ACTION 2 is logged (R202); at the end of a line Fantail compares. -/
def mixStep (n x : Nat) (miss : Bool) (w : W) : W :=
  let w := mixGroup n x miss w
  w.dev (fun d =>
    let l := (d.mxAt n).fbWhy
    let d := if l.isEmpty then d else
      let d := l.foldl (fun d r => d.logEntry 16 n (r % 64)) (d.onMx n (fun m => { m with fbWhy := [] }))
      if d.fd (Reg.AV_OUT_STAT n) 0 2 = 0 then d.sf (Reg.AV_OUT_STAT n) 0 2 1 else d
    match (d.mxAt n).now with
    | none => d
    | some due => if x % 4 = 0 ∧ x < due.work.width ∧ due.work.width ≤ x + 4 then d.fantailLine n due.work.line else d)

/-! ### Captures (R565) -/

/-- A frame of output `n` has ended: with it a capture in progress, and the last frame of a Fantail window before. -/
def Dev.frameOver (d : Dev) (n : Nat) : Dev :=
  let d := match (d.mxAt n).capBuf with
    | none => d
    | some b => (d.onMx n (fun m => { m with capBuf := none })).onAv (fun v =>
        { v with capEnd := Tab.put none v.capEnd n (some (b, Tab.at false v.capBad n)), capNext := Tab.put 0 v.capNext n (1 - b) })
  if (d.av.winOld.map (fun w => d.outputOf w.target)) == some n then d.endOldWindow else d

/-- A frame start of output `n`: a capture that is due begins. -/
def Dev.captureStart (d : Dev) (n : Nat) : Dev :=
  let due := Tab.at false d.av.capDue n
  let d := d.onAv (fun v => { v with capDue := Tab.put false v.capDue n false })
  if due && d.fd (Reg.AV_OUT_CFG n) 0 2 == 1 && !(d.mxAt n).fallback then
    (d.onMx n (fun m => { m with capBuf := some (Tab.at 0 d.av.capNext n) })).onAv (fun v => { v with capBad := Tab.put false v.capBad n false })
  else d

/-- A tick whose number is a multiple of CAP_TICKS calls for captures. -/
def Dev.captureTick (d : Dev) : Dev :=
  (List.range 48).foldl (fun d n =>
    let c := d.fd (Reg.AV_OUT_CFG n) 16 16
    if c ≠ 0 ∧ d.tick.num % c = 0 then d.onAv (fun v => { v with capDue := Tab.put false v.capDue n true }) else d) d

/-- CAPTURE_GOOD at a commit decision. -/
def Dev.captureGood (d : Dev) : Dev :=
  d.av.capEnd.foldl (fun d (p : Nat × Option (Nat × Bool)) =>
    match p.2 with
    | some (b, false) => (d.sb (Reg.AV_OUT_STAT p.1) 2).pb (Reg.AV_OUT_STAT p.1) 3 (b == 1)
    | _ => d) (d.onAv (fun v => { v with capEnd := [] }))

/-! ### Degraded plans (R567) -/

/-- The plans of the channels newly fenced are applied at a commit, in ascending channel number. -/
def Dev.applyPlans (d : Dev) : Dev :=
  let chs := (List.range 8).filter (fun c => d.av.newFence.contains c)
  chs.foldl (fun d c =>
    let p := Tab.at {} d.av.plans c
    let d := p.writes.foldl (fun d (x : Nat × Word × Nat) => d.commitWrite x.1 x.2.1 (beBytes x.2.2)) d
    p.shed.foldl (fun d n => d.shedOutput n 2) d) (d.onAv (fun v => { v with newFence := [] }))

/-- The tick's update of AV_CFG (R572): patrol scrub goes on at a new rate, and automatic repair begins where it is now called for. -/
def Dev.avTick (d : Dev) : Dev :=
  let d1 := d.reachUpdate .av
  let d1 := if d1.scrubS = d.scrubS then d1 else d1.scrubFrom
  d1.autoRepairAll

/-! ### AV registers (R573) -/

/-- A write to the AV block. -/
def Dev.avWrite (d : Dev) (ag : Agent) (a : Nat) (v mask : Word) : Dev :=
  if a = Reg.AV_CTRL then d.blockCtrl .av 0xF1 (mergeWord (d.rg a) v mask)
  else if a = Reg.AV_FT_CMD then ftCmdWrite (v &&& mask) d
  else if a = Reg.AV_REP_CMD then repCmdWrite v mask d
  else if a = Reg.AV_FENCE_CMD then fenceCmd ag (v &&& mask) d
  else if a = Reg.AV_LOG_CMD then (if (v &&& mask).getLsbD 0 then logPop d else d)
  else match indexOf (Reg.AV_OUT_CMD 0) 0x20 48 a with
    | some n =>
      let d := if (v &&& mask).getLsbD 1 then avOutShed n d else d
      if (v &&& mask).getLsbD 0 then avOutResume n d else d
    | none => d.plainWrite a v mask

/-- An AV register as it reads. -/
def Dev.avRead (d : Dev) (a : Nat) : Word :=
  if a = Reg.AV_STAT then
    let w := (d.rg a).toNat
    let spares := (List.range 52).any (fun s => d.health s == 1)
    let shed := (List.range 48).any d.isShed
    let fence := (List.range 8).any (fun c => d.bt (Reg.MEM_CH_STAT c) 0)
    packFields [(0, bits w 0 2), (2, (!spares).toNat), (3, shed.toNat), (4, bits w 4 1), (5, fence.toNat)]
  else if a = Reg.AV_LOG_STAT then BitVec.ofNat 32 d.avlog.length
  else match indexOf (Reg.AV_LOG_W 0) 4 4 a with
    | some i => d.logWord i
    | none => d.rg a

end Sys2Proof.Machine
end

