-- ==== Sys2Proof/Machine/Structure.lean ====
section
/-!
DEFINITION. Structure images (R491 to R498): reading an image in SRAM, its checks in order, and the application of its sections by a
full load and by a partial image.
-/

namespace Sys2Proof.Machine

/-- A section of an image with its place in the section table. -/
structure ImgSec where
  typ : Nat := 0
  scope : Nat := 0
  off : Nat := 0
  len : Nat := 0
  crc : Nat := 0
  bytes : List Byte := []
  data : SectionData := {}
deriving Inhabited

/-- An image as its header and section table give it (Tables 17-1, 17-2). -/
structure Img where
  addr : Nat := 0
  magic : Nat := 0
  format : Nat := 0
  kind : Nat := 0
  target : Nat := 0
  point : Nat := 0
  fs : Nat := 0
  id : Nat := 0
  baseId : Nat := 0
  length : Nat := 0
  count : Nat := 0
  outmask : Nat := 0
  secs : List ImgSec := []
deriving Inhabited

/-- The image at an SRAM byte address. -/
def W.image (w : W) (a : Nat) : Img :=
  let n := fun (o k : Nat) => w.rdN .sram (a + o) k
  let sec := fun (i : Nat) =>
    let e := 64 + 16 * i
    let bytes := w.rdBytes .sram (a + n (e + 4) 4) (n (e + 8) 4)
    ({ typ := n e 1, scope := n (e + 1) 1, off := n (e + 4) 4, len := n (e + 8) 4, crc := n (e + 12) 4, bytes := bytes,
       data := Config.sectionData (n e 1) (n (e + 1) 1) bytes } : ImgSec)
  { addr := a, magic := n 0 4, format := n 4 2, kind := n 6 1, target := n 8 4, point := n 12 1, fs := n 13 1, id := n 16 8,
    baseId := n 24 8, length := n 32 4, count := n 36 2, outmask := n 40 8, secs := (List.range (min 256 (n 36 2))).map sec }

/-- A section type that names an output (Table 17-3). -/
def perOutput (t : Nat) : Bool := t == 2 || t == 4 || t == 5

/-! ### What each section type may set -/

/-- Registers of output `n` that an OUTPUT section sets: TG, viewport, planes, MX, regions, FL. -/
def outputReg (n a : Nat) : Bool :=
  decide (Reg.TG_CTRL n ≤ a ∧ a < Reg.TG_CTRL n + 0x400 ∧ a < 0x10C000) ||
  decide (Reg.OBJ_VP_CFG n ≤ a ∧ a < Reg.OBJ_VP_CFG n + 0x14) ||
  decide (Reg.TP_PL_CFG n 0 ≤ a ∧ a < Reg.TP_PL_CFG n 0 + 0x100) ||
  decide (Reg.MX_CTRL n ≤ a ∧ a < Reg.MX_CTRL n + 0x800) ||
  decide (Reg.MX_RG_X n 0 ≤ a ∧ a < Reg.MX_RG_X n 0 + 0x800) ||
  decide (Reg.FL_CTRL n ≤ a ∧ a < Reg.FL_CTRL n + 0x400)

/-- The bits of the register at `a` that a section of type `t` and scope `sc` sets.  Table 17-3 names no section for OBJ_CANVAS_CFG's SHARED
and MARGIN; they come with PARTITION, so that a full load alone changes them, and no section sets OBJ_CANVAS_SIZE, which keeps its value
(DESIGN CHOICE, log entry 82). -/
def sectionMask (t sc a : Nat) : Word :=
  match RegTable.find a with
  | none => 0
  | some r =>
    let rw := BitVec.ofNat 32 r.rw
    let both := BitVec.ofNat 32 (r.rw ||| r.ro)
    let blk := a / 0x100000
    match t with
    | 1 =>
      -- the installed size and the cache's capacity follow from the section (R133, R474)
      if a = Reg.OBJ_CEIL ∨ a = Reg.OBJ_POOL_BASE ∨ a = Reg.OBJ_POOL_SIZE ∨ a = Reg.TP_PAL_SPACE ∨ a = Reg.TP_MAP_SPACE ∨
          a = Reg.TP_CACHE_LOCKED ∨ a = Reg.HOP_POND_CAP ∨ a = Reg.HOP_POND_RES ∨ a = Reg.MEM_LP_CFG ∨ a = Reg.UPD_STAGE_BASE ∨ a = Reg.UPD_STAGE_SIZE then both
      else if (indexOf (Reg.OBJ_IDX_QUOTA 0) 0x40 48 a).isSome then 0x7FFF
      else if (indexOf (Reg.OBJ_CANVAS_CFG 0) 8 256 a).isSome then both
      else if (indexOf (Reg.MEM_ECC_REG 0) 8 8 a).isSome then both
      else if (indexOf (Reg.MX_VP_URG 0 0) 0x800 48 a).isSome || (indexOf (Reg.MX_VP_URG 0 1) 0x800 48 a).isSome then 0x0FFF0000
      else 0
    | 2 => if a = Reg.SL_OUT_BIND sc then both
      else if (indexOf (Reg.SL_LEAD 0) 0x1000 52 a).isSome then 7 else 0
    | 3 => if (indexOf (Reg.AV_OUT_CFG 0) 0x20 48 a).isSome then 0xFFFFFF03
      else if (indexOf (Reg.AV_FB_BASE 0) 0x20 48 a).isSome || (indexOf (Reg.AV_CAP_BASE 0) 0x20 48 a).isSome ||
        (indexOf (Reg.AV_FB_COLOR 0) 0x20 48 a).isSome then both else 0
    | 4 => if outputReg sc a then rw else 0
    | 5 => if Reg.DM_CTRL sc ≤ a ∧ a < Reg.DM_CTRL sc + 0x100 then rw else 0
    | 6 => if a = Reg.RING_CFG ∨ a = Reg.RING_BOARD_PRI ∨ a = Reg.RING_BOARD_LEAT ∨ a = Reg.RING_INJ_RATE ∨ a = Reg.RING_HORIZON then both
      else if blk = 17 then rw else 0
    | 7 => if blk = 18 then (if (Reg.AUD_G_W0 0 ≤ a) ∨ a = Reg.AUD_BUDGET then both else rw) else 0
    | 8 => if 0x1510000 ≤ a ∧ a < 0x1520000 then rw else 0
    | 9 => if 0x1500000 ≤ a ∧ a < 0x1510000 then
        (if (indexOf (Reg.GP_PIN_OWN 0) 8 128 a).isSome then both
         else if (indexOf (Reg.GP_GRP_CFG 0) 0x10 16 a).isSome then rw ||| 0x7000 else rw) else 0
    | 10 =>
      if (indexOf (Reg.HOP_RD_CFG 0) 0x20 16384 a).isSome then 0x38000
      else if (indexOf (Reg.DMA_CH_STAT 0) 0x40 32 a).isSome then 0x700
      else if (indexOf (Reg.BLT_ESTAT 0) 0x80 4 a).isSome then 0xE00
      else if (indexOf (Reg.PIO_E_CFG 0) 0x40 8 a).isSome then 0x70
      else if (indexOf (Reg.SYS_LOP_STAT 0) 0x20 64 a).isSome then 0x70000
      else match indexOf (Reg.INT_ROUTE 0) 4 512 a with
        | some s => rw &&& ~~~routeFixed s
        | none => 0
    | 11 => if (List.range 4).any (fun c => a == Reg.KC_IMG_A c || a == Reg.KC_IMG_B c || a == Reg.KC_IMG_LEN c) then both else 0
    | 12 => match Block.ofCtrl a with
      | some b => BitVec.ofNat 32 (1 ||| ((2 ^ b.profileWidth - 1) <<< 4))
      | none => if r.expert then rw else 0
    | 14 => if a = Reg.AUD_BUDGET then both else 0
    | _ => 0

/-- Windows whose words a section of type `t` and scope `sc` sets: Damsel and PIO programs, audio parameters, AUX buffers. -/
def sectionWindow (t sc a : Nat) : Bool :=
  match t with
  | 4 => decide (0x1000200 + sc * 0x400 ≤ a ∧ a < 0x1000400 + sc * 0x400)
  | 5 => decide (0xA10000 + sc * 0x4000 ≤ a ∧ a < 0xA14000 + sc * 0x4000)
  | 7 => decide (0x1210000 ≤ a ∧ a < 0x1220000)
  | 8 => decide (0x1520000 ≤ a ∧ a < 0x1528000)
  | _ => false

/-- A register takes a value of the image, read back and in force.  An MX_ORDER that is no permutation is not taken, and sets ORDER_ERR
(R190). -/
def Dev.imageReg (d : Dev) (t sc a : Nat) (v : Word) : Dev :=
  let m := sectionMask t sc a
  if t = 4 ∧ a = Reg.MX_ORDER sc ∧ !orderOk v.toNat then d.sb (Reg.MX_STAT sc) 1
  -- a change of BANK is ignored while a table copy runs, from any source (R194)
  else if t = 4 ∧ a = Reg.MX_TBL_CFG sc ∧ d.bt (Reg.MX_TBL_CMD sc) 1 = true ∧ (d.rg a ^^^ v).getLsbD 0 = true then d.sb (Reg.MX_STAT sc) 4
  -- the links and the audio ports take their settings at the next training and the next frame start (R330, R348)
  else if a = Reg.RING_LINK ∨ tdmPort a = true then d.sg a (mergeWord (d.rg a) v m)
  else (d.sg a (mergeWord (d.rg a) v m)).sfr a (mergeWord (d.fr a) v m)

/-- Words of a program or parameter memory. -/
def Dev.imageWord (d : Dev) (t sc a : Nat) (v : Word) : Dev :=
  if sectionWindow t sc a then { d with aux := Tab.put 0 d.aux a v, badWords := d.badWords.filter (fun x => x != a) } else d

/-- What a PINS section makes of the pins: a pin that takes another function loses its timer level, and the groups follow their settings
(R442, R448, R449). -/
def Dev.settlePins (old d : Dev) : Dev :=
  let d := d.onPins (fun s => { s with tcmp := s.tcmp.filter (fun p => d.fd (Reg.GP_PIN_CFG p.1) 0 10 == old.fd (Reg.GP_PIN_CFG p.1) 0 10) })
  (List.range 16).foldl Dev.settleGroup d

/-- All registers and words of a section. -/
def Dev.imageSettings (d : Dev) (s : ImgSec) : Dev :=
  let old := d
  let d := s.data.regs.foldl (fun d (p : Nat × Word) => d.imageReg s.typ s.scope p.1 p.2) d
  let d := s.data.words.foldl (fun d (p : Nat × Word) => d.imageWord s.typ s.scope p.1 p.2) d
  if s.typ = 9 then old.settlePins d else d

/-- Sample-area bytes of an AUDIO section (banks 86 to 89). -/
def W.imageSram (w : W) (s : SectionData) : W :=
  s.sram.foldl (fun (w : W) (p : Nat × Byte) =>
    if bankBase 86 ≤ p.1 ∧ p.1 < bankBase 90 then w.wr .sram p.1 p.2 else w) w

/-- Raw LPDDR5X size in bytes: eight channels of CH_GIB (Table 16-3). -/
def Dev.lpRaw (d : Dev) : Nat := 8 * 2 ^ d.fd Reg.MEM_LP_CFG 4 2 * 2 ^ 30

/-- The carve-out of the inline-ECC regions (R474): the sum of their sizes divided by 8, rounded up to 64 MiB. -/
def Dev.lpCarve (d : Dev) : Nat := ceilDiv ((List.range 8).map (fun k => d.fd (Reg.MEM_ECC_REG k) 16 16)).sum 8 * 2 ^ 26

/-- KiB of the pattern and tile-map cache's partition that the shared-pool table and the locked region take (R101, R134). -/
def Dev.cacheTaken (d : Dev) : Nat := ceilDiv (d.fd Reg.OBJ_POOL_SIZE 0 21 * 8) 1024 + d.fd Reg.TP_CACHE_LOCKED 0 17

/-- KiB of that partition: banks 40 to 71 (Table 16-1). -/
def cachePartition : Nat := 65536

/-- What a section declares beside registers and words; the installed size and the cache's capacity follow from PARTITION (R133, R474). -/
def Dev.imagePlain (d : Dev) (s : ImgSec) : Dev :=
  match s.typ with
  | 1 =>
    let d := (d.sg Reg.MEM_LP_SIZE (BitVec.ofNat 32 ((d.lpRaw - d.lpCarve) / 2 ^ 20))).sg Reg.TP_CACHE_KIB
      (BitVec.ofNat 32 (cachePartition - d.cacheTaken))
    { d with lineShare := s.data.shares.foldl (fun t (p : Nat × Nat) => Tab.put 0 t p.1 p.2) []
             aud := { d.aud with sampleBytes := s.data.sampleBytes } }
  | 4 => match s.data.regs.find? (fun p => p.1 == Reg.TG_PHASE s.scope) with
    | some p => { d with imgPhase := Tab.put 300000 d.imgPhase s.scope p.2.toNat }
    | none => d
  | 7 => { d with aud := { d.aud with delayAlloc := s.data.delays.foldl (fun t (p : Nat × Nat) => Tab.put 0 t p.1 p.2) d.aud.delayAlloc } }
  | 13 => d.onAv (fun v => { v with plans := s.data.plans.foldl (fun t p => Tab.put {} t p.1 { writes := p.2.1, shed := p.2.2 }) v.plans })
  | _ => d

/-! ### The slices of a full load (R145, R555) -/

/-- SL_BIND of every slice from the SL_OUT_BIND registers; health is kept but for LIVE, SPARE and SHADOW. -/
def Dev.bindAll (d : Dev) : Dev :=
  let d := (List.range 52).foldl (fun d s =>
    let d := (d.sf (Reg.SL_BIND s) 6 3 0).onSlice s (fun _ => {})
    if d.health s ≤ 2 then d.setHealth s 1 else d) d
  (List.range 48).foldl (fun d n =>
    match d.slicesFor n with
    | [a] => d.bindSlice a n false false (d.fd (Reg.SL_LEAD a) 0 3)
    | [a, b] => (d.bindSlice a n true false (d.fd (Reg.SL_LEAD a) 0 3)).bindSlice b n true true (d.fd (Reg.SL_LEAD a) 0 3)
    | _ => d) d

/-! ### LEVELS (R16, R498) -/

/-- Every block, for the rule that an unnamed one takes LEVEL 0 and PROFILE 0. -/
def allBlocks : List Block :=
  [.tick, .obj, .tp, .hop, .ring, .aud, .tmr, .dma, .blt, .gp, .pio, .mem, .sys, .upd, .sec, .av, .dbg] ++
  (List.range 48).flatMap (fun n => [.tg n, .mx n, .dm n, .fl n]) ++ (List.range 52).map .sl ++
  (List.range 4).flatMap (fun c => [.kc c, .intc c])

/-- The tick rate that a full load leaves in force, at once (R498). -/
def Dev.loadRate (d : Dev) : Dev :=
  d.onTick (fun t => ({ t with
    num0 := (d.rg Reg.TG_TICK_RATE_NUM).toNat, den0 := d.fd Reg.TG_TICK_RATE_DEN 0 20, rate := none } : Tick).program)

/-- Does a rate break one of the conditions of R46 that stand without the outputs? -/
def Dev.rateBad (d : Dev) : Bool :=
  let t := d.tick
  decide (t.num0 = 0) || decide (t.den0 = 0) || decide (t.num0 * 1001 < 24000 * t.den0) || decide (240 * t.den0 < t.num0) ||
  decide (16 < cadenceC t.num0 t.den0 t.fs)

/-- What a new setting of the block makes at once: a watchdog is reloaded and groups no longer held are released (R393, R421). -/
def Dev.settleBlock (b : Block) (d : Dev) : Dev :=
  match b with
  | .kc c => d.wdtReload c false
  | .intc c => d.settleGroups c
  | _ => d

/-- A full load gives every block the LEVEL, PROFILE and expert values of the section at once. -/
def Dev.fullLevels (d : Dev) (s : SectionData) : Dev :=
  let d := { d with fixed := s.fixed, upds := [] }
  Dev.loadRate <| allBlocks.foldl (fun d b =>
    let w := ((s.regs.find? (fun p => p.1 == b.ctrl)).map (·.2)).getD 0
    let d := d.sg b.ctrl (mergeWord (d.rg b.ctrl) w (sectionMask 12 0 b.ctrl))
    let d := if w.getLsbD 0 then
        (s.regs.filter (fun p => b.experts.contains p.1)).foldl (fun d (p : Nat × Word) => d.imageReg 12 0 p.1 p.2) d
      else d
    (d.applySetting b).settleBlock b) d

/-- The block of a LEVELS entry: by its CTRL or an expert register. -/
def levelsBlock (a : Nat) : Option Block := Block.ofCtrl a <|> (RegTable.find a).bind (fun r => r.block a)

/-- The blocks fixed at the basic level (R16) once a LEVELS section `new` amends `old`: it speaks of the blocks that it names alone. -/
def fixedAfter (old : List Nat) (new : SectionData) : List Nat :=
  let named := fun (c : Nat) => new.fixed.contains c || new.regs.any (fun p => (levelsBlock p.1).map Block.ctrl == some c)
  new.fixed ++ old.filter (fun c => !named c)

/-- A partial LEVELS section acts as writes of each named block's CTRL and expert registers. -/
def Dev.partLevels (d : Dev) (s : SectionData) : Dev :=
  let d := { d with fixed := fixedAfter d.fixed s }
  s.regs.foldl (fun d (p : Nat × Word) =>
    match Block.ofCtrl p.1 with
    | some b => (d.ctrlWrite b (mergeWord (d.rg p.1) p.2 (sectionMask 12 0 p.1))).settleBlock b
    | none =>
      if regRange p.1 then d.contentWrite p.1 p.2 0xFFFFFFFF else
      match (RegTable.find p.1).bind (fun r => r.block p.1) with
      | some b => if d.level b then (d.expertWrite b p.1 p.2).settleBlock b else d.sb b.stat 0
      | none => d) d

/-! ### The checks (R493, Table 17-4) -/

/-- The result of an image's checks: a cause of Table 17-4 and a section index. -/
abbrev ImgErr := Option (Nat × Nat)

/-- Cause 1. -/
def Img.formatBad (i : Img) : ImgErr :=
  let n := i.secs.length
  if i.magic ≠ 0x544E595A ∨ i.format ≠ 1 ∨ i.count = 0 ∨ 256 < i.count ∨ i.length < 64 + 16 * i.count ∨ 3 * 2 ^ 20 < i.length ∨
      i.addr < bankBase 90 ∨ bankBase 94 < i.addr + i.length then some (1, 0)
  else
    match (i.secs.zip (List.range n)).find? (fun (p : ImgSec × Nat) =>
        decide (p.1.off < 64 + 16 * i.count) || decide (i.length < p.1.off + p.1.len) ||
        (i.secs.take p.2).any (fun q => decide (q.off < p.1.off + p.1.len) && decide (p.1.off < q.off + q.len)) ||
        (crc32 p.1.bytes).toNat != p.1.crc) with
    | some p => some (1, p.2)
    | none => none

/-- Cause 4 (R492). -/
def Img.sectionBad (i : Img) : ImgErr :=
  let idx := i.secs.zip (List.range i.secs.length)
  let bad := idx.find? (fun (p : ImgSec × Nat) =>
    decide (p.1.typ = 0) || decide (14 < p.1.typ) ||
    (if perOutput p.1.typ then decide (48 ≤ p.1.scope) else p.1.scope != 0xFF) ||
    (i.secs.take p.2).any (fun q => q.typ == p.1.typ && q.scope == p.1.scope) ||
    (i.kind == 1 && perOutput p.1.typ && i.outmask / 2 ^ p.1.scope % 2 == 0))
  match bad with
  | some p => some (4, p.2)
  | none =>
    let has := fun t => i.secs.any (fun s => s.typ == t)
    let miss := !has 14 || (i.kind == 0 && (!has 1 || !has 6)) ||
      (i.kind == 1 && (List.range 64).any (fun n => i.outmask / 2 ^ n % 2 == 1 && !i.secs.any (fun s => perOutput s.typ && s.scope == n)))
    if miss then some (4, 0) else none

/-- The structure that would result: the settings in force with the image's laid over them. -/
def Dev.resulting (d : Dev) (i : Img) : Dev :=
  let d := if i.kind = 0 then { d with imgPhase := [], aud := { d.aud with delayAlloc := [] } } else d
  let d := (i.secs.filter (fun s => s.typ != 12 || i.kind != 0)).foldl (fun d s => (d.imageSettings s).imagePlain s) d
  let d := if i.kind = 0 then d.fullLevels (((i.secs.find? (fun s => s.typ == 12)).map (·.data)).getD {}) else d
  d.bindAll

/-- Chunks of the index that the quotas share out (R90). -/
def indexChunks : Nat := 32256

/-- Is output `n` bound against Table 5-1 or R145?  A slice gang runs at PPC 2 with a lead of 2 to 4, a single slice with one of 1 to 4; a
port gang joins the slice gangs of outputs 2m and 2m + 1; a slice serves one output. -/
def Dev.bindBad (d : Dev) (n : Nat) : Bool :=
  let l := d.slicesFor n
  let gang := d.bt (Reg.SL_OUT_BIND n) 14
  let t := d.timingOf n
  !l.isEmpty &&
    (l.any (fun s => decide (52 ≤ s) || (List.range n).any (fun m => (d.slicesFor m).contains s)) ||
     l.any (fun s => decide (Tab.at 0 d.lineShare s < d.lineNeedAt n (d.lead n) t.hAct)) || decide (d.lead n < if gang then 2 else 1) || decide (4 < d.lead n) || (gang && l.headD 0 == l.getD 1 0) ||
     (gang && !d.noTiming n && t.ppc != 2) ||
     (d.bt (Reg.SL_OUT_BIND n) 15 && !(gang && d.bt (Reg.SL_OUT_BIND (n / 2 * 2)) 14 && d.bt (Reg.SL_OUT_BIND (n / 2 * 2 + 1)) 14)))

/-- The limits of a PARTITION section that the chapters state: the quota sum (R90), inline-ECC regions within the installed size (R474),
the pond (R250), the object pool below the ceiling (R101), the logical spaces within the physical pages (R127), locked ranges (R134), a data
rate of Table 16-3 (R472), and the cache's partition (R133). -/
def Dev.partitionBad (d : Dev) (locked : List (Nat × Nat)) : Bool :=
  let ceil := d.fd Reg.OBJ_CEIL 0 21
  decide (4 < d.fd Reg.MEM_LP_CFG 0 3) || decide (cachePartition < d.cacheTaken) ||
  decide (indexChunks < ((List.range 48).map (fun n => d.fd (Reg.OBJ_IDX_QUOTA n) 0 15)).sum) ||
  (List.range 8).any (fun k =>
    decide (d.fd (Reg.MEM_ECC_REG k) 16 16 ≠ 0) &&
    decide (d.lpSize < (d.fd (Reg.MEM_ECC_REG k) 0 16 + d.fd (Reg.MEM_ECC_REG k) 16 16) * 2 ^ 26)) ||
  decide (65536 < d.fd Reg.HOP_POND_CAP 0 17) || decide (d.fd Reg.HOP_POND_CAP 0 17 < d.fd Reg.HOP_POND_RES 0 17) ||
  decide (2 ^ 20 < ceil) ||
  (decide (d.fd Reg.OBJ_POOL_SIZE 0 21 ≠ 0) && decide (ceil < d.fd Reg.OBJ_POOL_BASE 0 20 + d.fd Reg.OBJ_POOL_SIZE 0 21)) ||
  decide (4096 < d.fd Reg.TP_PAL_SPACE 0 13) || decide (16384 < d.fd Reg.TP_MAP_SPACE 0 15) ||
  decide (16 < locked.length) || decide (d.fd Reg.TP_CACHE_LOCKED 0 17 * 8 < (locked.map (·.2)).sum)

/-- The limits of a RING section: a ring has 1 to 64 nodes, an injection rate of at most 200 slot groups per µs (R324), and a size that,
once above 1, changes only at POR_N (R298). -/
def Dev.ringSecBad (d r : Dev) : Bool :=
  decide (r.fd Reg.RING_CFG 0 7 = 0) || decide (64 < r.fd Reg.RING_CFG 0 7) || decide (200 < r.fd Reg.RING_INJ_RATE 0 8) ||
  (decide (1 < d.fd Reg.RING_CFG 0 7) && r.fd Reg.RING_CFG 0 7 != d.fd Reg.RING_CFG 0 7)

/-- A section in force as a partial one amends it: what the new one names takes its value (R495, R498); PROOF figures are the new one's
(R497). -/
def amendSection (old new : SectionData) : SectionData :=
  { new with
    regs := new.regs ++ old.regs.filter (fun p => !new.regs.any (fun q => q.1 == p.1))
    words := new.words ++ old.words.filter (fun p => !new.words.any (fun q => q.1 == p.1))
    sram := new.sram ++ old.sram.filter (fun p => !new.sram.any (fun q => q.1 == p.1))
    plans := new.plans ++ old.plans.filter (fun p => !new.plans.any (fun q => q.1 == p.1))
    delays := new.delays ++ old.delays.filter (fun p => !new.delays.any (fun q => q.1 == p.1))
    fixed := fixedAfter old.fixed new }

/-- The structure that results from an image, by its sections (R493). -/
def Dev.secsAfter (d : Dev) (i : Img) : StructSecs :=
  let new : StructSecs := i.secs.map (fun s => (s.typ, s.scope, s.data))
  if i.kind = 0 then new
  else
    new.map (fun p => match d.strSecs.find? (fun q => q.1 == p.1 && q.2.1 == p.2.1) with
      | some q => (p.1, p.2.1, amendSection q.2.2 p.2.2)
      | none => p) ++
    d.strSecs.filter (fun p => !new.any (fun q => q.1 == p.1 && q.2.1 == p.2.1))

/-- Does a PROOF section give a figure above its limit in Table 1-6?  At `point` and `fs` the audio run must end 256 CCLK before the next
sample tick (R346); the commit, the flip and the Bolter before the first take-up point after the tick; the ring carries 200 slot groups per
µs of records (R324). -/
def proofOver (point fs : Nat) (s : SectionData) : Bool :=
  decide (4096 < s.proofObjects) || decide (16 < s.proofPixels) || decide (180000 < s.proofScan) || decide (400000000 < s.proofHopper) ||
  decide (s.proofTakeUp < s.proofCommit) || decide (200 < s.proofRing) ||
  decide ((10 - 2 * point) * 100000000 < (s.proofAudio + 256) * (if fs % 2 = 1 then 96000 else 48000))

/-- Cause 5: the limits of R47, R51, R90, R101, R127, R134, R133, R145, R148, R151, R250, R287, R298, R324, R344, R472 and R474 and the image areas are
checked on the resulting structure; the others by the constant of log entry 42. -/
def Dev.contentErr (d : Dev) (i : Img) : ImgErr :=
  let r := d.resulting i
  let sec := fun (t n : Nat) => ((i.secs.zip (List.range i.secs.length)).find? (fun (p : ImgSec × Nat) =>
    p.1.typ == t && (!perOutput t || p.1.scope == n))).map (·.2)
  let outs := List.range 48
  let timing := outs.find? (fun n =>
    let t := r.timingOf n
    !r.noTiming n && r.bt (Reg.TG_CTRL n) 1 && !r.timingOk n t)
  let bind := if 48 < (outs.flatMap r.slicesFor).length then some 0 else outs.find? r.bindBad
  let fl := outs.find? (fun n => r.bt (Reg.FL_CTRL n) 1 && !flFitsWith (r.timingOf n) (r.rg (Reg.MX_FMT n)).toNat (r.rg (Reg.FL_CFG n)).toNat)
  let secs := d.secsAfter i
  let locked := (((secs.find? (fun p => p.1 == 1)).map (·.2.2.locked)).getD [])
  let delays := (((secs.find? (fun p => p.1 == 7)).map (·.2.2.delays)).getD [])
  let rate := if i.fs % 2 = 1 then 96000 else 48000
  let areas := (List.range 4).any (fun c => [Reg.KC_IMG_A c, Reg.KC_IMG_B c].any (fun a =>
    let b := (r.rg a).toNat
    decide (0x20000000 ≤ b) && decide (r.areaLen c ≠ 0) && decide (sramOfCore b < i.addr + i.length) &&
      decide (i.addr < sramOfCore b + r.areaLen c)))
  match timing, bind, fl with
  | some n, _, _ => some (5, (sec 4 n).getD 0)
  | none, some n, _ => some (5, (sec 2 n).getD 0)
  | none, none, some n => some (5, (sec 4 n).getD 0)
  | none, none, none =>
    if r.partitionBad locked then some (5, (sec 1 0).getD 0)
    else if r.rateBad then some (5, (sec 12 0).getD 0)
    else if i.kind = 0 ∧ d.ringSecBad r then some (5, (sec 6 0).getD 0)
    else if delays.any (fun p => decide (4 * rate < p.2)) then some (5, (sec 7 0).getD 0)
    else if areas then some (5, (sec 11 0).getD 0)
    else ((i.secs.zip (List.range i.secs.length)).find? (fun p => Config.contentBad secs p.1.typ p.1.scope)).map (fun p => (5, p.2))

/-- The checks of R493 in the order of Table 17-4. -/
def Dev.imageErr (d : Dev) (i : Img) : ImgErr :=
  match i.formatBad with
  | some e => some e
  | none =>
    if i.target ≠ (d.rg Reg.SYS_ID).toNat then some (2, 0)
    else if 1 < i.kind ∨ (i.kind = 1 ∧ (!d.loaded ∨ i.baseId ≠ d.pair Reg.SYS_STR_ID_LO Reg.SYS_STR_ID_HI ∨
        i.secs.any (fun s => s.typ == 1 || s.typ == 6))) then some (3, 0)
    else match i.sectionBad with
      | some e => some e
      | none =>
        match d.contentErr i with
        | some e => some e
        | none =>
          if i.secs.any (fun s => s.typ == 14 && proofOver i.point i.fs s.data) || Config.proofBad (d.secsAfter i) i.point i.fs then some (6, 0)
          else if 2 < i.point ∨ (i.kind = 1 ∧ i.point < d.fd Reg.SYS_CLK_STAT 0 2) then some (7, 0)
          else none

/-- A refusal is recorded (R493). -/
def Dev.refuseImage (d : Dev) (e : Nat × Nat) : Dev :=
  (d.sg Reg.SYS_STR_LAST (packFields [(0, e.1), (8, e.2)])).sb Reg.SYS_STAT 5

/-! ### Applying a full image (R494, R619) -/

/-- Generators OFF, ports idle, Tailrace and PIO stopped, pins held (step 1 and 2). -/
def Dev.stopAll (d : Dev) : Dev :=
  let d := (List.range 48).foldl (fun d n =>
    let d := (d.tgState n .off).onTg n (fun g => { g with cur := none, nxt := none, lockAt := none, glide := none, glideNext := none,
                                                             lastFlip := none })
    let d := d.onMx n (fun m => { fmt := m.fmt, tbl := m.tbl, tblForce := m.tblForce })
    (d.dmState n 0).onFl n (fun f => { f with queue := [], blank := [] })) d
  let d := d.onAud (fun a => { k := a.k, tickRuns := a.tickRuns, fs := a.fs, sampleBytes := a.sampleBytes })
  let d := (List.range 8).foldl (fun d e => pioStop e d) d
  { d.holdPads with vid := [], imgPhase := [], av := { d.av with plans := [] } }

/-- The pond is emptied, every ring disabled, the object and group stores and page maps are as after a load (step 3), and the sluice pattern
store holds zeros (R171). -/
def Dev.emptyStores (d : Dev) : Dev :=
  let d := (d.hop.fence.map (·.1)).foldl (fun d r => d.cb (Reg.HOP_RD_STAT r) 3) d
  -- markers already committed, or met as immediate ones, are still written (R263)
  let d := d.onHop (fun h => { h with pond := [], fetched := [], fence := [], inflight := [], after := [], noBody := [],
                                      markers := h.markers.filterMap (fun p =>
                                        let l := p.2.filter (fun m => m.epoch.isSome)
                                        if l.isEmpty then none else some (p.1, l)) })
  let d := (d.regs.map (·.1)).foldl (fun d a =>
    match indexOf (Reg.HOP_RD_CFG 0) 0x20 16384 a with
    | some r => (((d.cb a 0).cb (Reg.HOP_RD_STAT r) 0).cb (Reg.HOP_RD_STAT r) 3).cb (Reg.HOP_RD_STAT r) 4
    | none => d) d
  let d := ((d.sg Reg.OBJ_SHR_USED 0).sg Reg.OBJ_BOL_STATE 0).cb Reg.TP_INV_CMD 1
  let d := (List.range 96).foldl (fun d i => (d.sg (Reg.HOP_VP_PEND (i / 2) (i % 2)) 0).sg (Reg.HOP_VP_PEND_BUF (i / 2) (i % 2)) 0) d
  let d := { d with obj := {}, frames := [], ue := [], aux := d.aux.filter (fun p => !patternStore p.1) }
  let d := d.onTile (fun t => { objWays := t.objWays })
  d.pondShow

/-- The empty index of a full load, under the tick in force (R619). -/
def Dev.emptyIndex (d : Dev) : Dev :=
  let e := d.tick.num
  let outs := (List.range 48).map (fun n => (n, ({ vp := d.latchVp n } : OutIdx)))
  let ix : Index := { epoch := e, outs := outs.filter (fun p => p.2 != ({} : OutIdx)) }
  let lat := (List.range 48).map d.latchVp
  (d.onObj (fun s => { s with
    epoch := e, indexes := [ix], lastLatch := lat, lastCfg := d.fr Reg.OBJ_BOL_CFG, keep := d.keepRegions lat })).sg Reg.OBJ_BOL_EPOCH
      (BitVec.ofNat 32 e)

/-- The locked ranges are copied as LPDDR5X stands (R134, R494). -/
def W.copyLocked (w : W) (l : List (Nat × Nat)) : W :=
  let lines := l.flatMap (fun (p : Nat × Nat) => (List.range p.2).map (fun i => p.1 + i))
  let t := lines.foldl (fun t ln => Tab.put [] t ln (w.lpRead (ln * 128) 128)) []
  w.dev (fun d => d.onTile (fun s => { s with locked := t }))

/-- A CCLK change begins (R25): the fabric goes to the safe clock. -/
def Dev.relock (d : Dev) (p : Nat) : Dev := (d.sf Reg.SYS_CLK_CTRL 0 2 p).sb Reg.SYS_CLK_STAT 2

/-- A full image is applied (R494). -/
def W.applyFull (w : W) (i : Img) : W :=
  let alone := w.d.standalone
  let hz := w.d.rg Reg.RING_HORIZON
  let w := w.dev (fun d => d.stopAll.emptyStores)
  -- step 4: the sections
  let w := (i.secs.filter (fun s => s.typ != 12)).foldl (fun (w : W) s =>
    (w.dev (fun d => (d.imageSettings s).imagePlain s)).imageSram s.data) w
  let w := (i.secs.filter (fun s => s.typ == 1)).foldl (fun (w : W) s => w.copyLocked s.data.locked) w
  let w := w.dev (fun d => (List.range 8).foldl (fun d e => if d.bt (Reg.PIO_E_CFG e) 0 then pioStart e (d.ctxFollow e) else d.ctxFollow e) d)
  -- the horizon of a ring is formed once: a later load leaves it (R321)
  let w := if alone then w else w.dev (fun d => d.sg Reg.RING_HORIZON hz)
  w.dev (fun d =>
    let levels := (((i.secs.find? (fun s => s.typ == 12)).map (·.data)).getD {})
    let d := (d.fullLevels levels).bindAll.showCadence
    let d := { d with loaded := true, hop := { d.hop with decided := d.tick.num }, strSecs := d.secsAfter i, dmWait := [], audWait := [] }
    let d := d.onAv (fun v => { v with rebind := [], leads := [], win := none, winOld := none, remaps := [], transients := [], shedReq := [], resumeReq := [] })
    let d := (List.range 48).foldl (fun d n => d.sf (Reg.AV_OUT_STAT n) 0 2 0) d
    let d := (d.sg Reg.TP_PAL_FREE (BitVec.ofNat 32 (4096 - d.logicalPages true))).sg Reg.TP_MAP_FREE (BitVec.ofNat 32 (16384 - d.logicalPages false))
    let d := d.onTile (fun t => { t with objWays := min 12 (d.ff Reg.TP_MISS_CFG 4 4) })
    let d := (List.range 48).foldl (fun d n =>
      let d := { d with upds := Tab.put none d.upds (Reg.TG_CTRL n) none }
      (d.applyTiming n).onMx n (fun m => { m with fmt := d.rg (Reg.MX_FMT n) })) d
    let d := d.emptyIndex.releasePads.latchRoutes
    let d := ((d.sg Reg.SYS_STR_ID_LO (BitVec.ofNat 32 i.id)).sg Reg.SYS_STR_ID_HI (BitVec.ofNat 32 (i.id / 2 ^ 32))).sg Reg.SYS_STR_INFO
      (packFields [(0, i.point), (2, i.fs % 2)])
    let d := d.sg Reg.SYS_STR_TICK (BitVec.ofNat 32 d.tick.num)
    -- a node that leaves standalone operation joins the ring (R298)
    let d := if alone then d.ringStart else d.stateIfChanged
    -- step 5 and 6
    let d := d.relock i.point
    (List.range 48).foldl (fun d n =>
      let d := if d.tgWanted n then d.tgAcquire n else d
      -- the follower of a port gang reads and takes its leader's setting (R291)
      let d := d.sfr (Reg.FL_CTRL n) (d.rg (Reg.FL_CTRL n))
      let d := if d.portFollower n then (d.mirrorGang (n - 1)).flFollow (n - 1) else d
      if d.fbt (Reg.FL_CTRL n) 1 then d.trainStart n else d.flOff n) d)

/-! ### Applying a partial image at the commit of its tick (R495 to R498, Table 17-3) -/

/-- A partial OWNERS section (R497): rings, DMA channels and blitters that change owner stop. -/
def W.partOwners (w : W) (s : ImgSec) : W :=
  s.data.regs.foldl (fun (w : W) (p : Nat × Word) =>
    let a := p.1
    let w' := w.dev (fun d => d.imageReg 10 s.scope a p.2)
    if w'.d.rg a = w.d.rg a then w else
    match indexOf (Reg.HOP_RD_CFG 0) 0x20 16384 a, indexOf (Reg.DMA_CH_STAT 0) 0x40 32 a, indexOf (Reg.BLT_ESTAT 0) 0x80 4 a with
    | some r, _, _ => if w.d.bt a 0 then w'.dev (fun d => (d.cb a 0).cb (Reg.HOP_RD_STAT r) 0) else w'
    | _, some ch, _ => (dmaAbort ch [] w).dev (fun d => d.imageReg 10 s.scope a p.2)
    | _, _, some e => (bltAbort e w).dev (fun d => d.imageReg 10 s.scope a p.2)
    | _, _, _ => w') w

/-- Engines that a PIO section names: those whose registers or words it gives. -/
def pioNamed (s : SectionData) : List Nat :=
  (List.range 8).filter (fun e =>
    s.regs.any (fun p => decide (0x1510100 + e * 0x40 ≤ p.1) && decide (p.1 < 0x1510140 + e * 0x40)) ||
    s.words.any (fun p => decide (0x1520000 + e * 0x1000 ≤ p.1) && decide (p.1 < 0x1521000 + e * 0x1000)))

/-- A partial PIO section: the engines named stop, are loaded, and start together. -/
def Dev.partPio (d : Dev) (s : ImgSec) : Dev :=
  let l := pioNamed s.data
  let d := l.foldl (fun d e => pioStop e d) d
  let d := d.imageSettings s
  l.foldl (fun d e => if d.bt (Reg.PIO_E_CFG e) 0 then pioStart e (d.ctxFollow e) else d.ctxFollow e) d

/-- A partial BINDING section of output `n` (R148, R563): scheduled for the output's take-up point; a slice that is neither SPARE nor the
output's own is replaced by a spare, and without one the output is shed. -/
def Dev.partBinding (d : Dev) (s : ImgSec) : Dev :=
  let n := s.scope
  match s.data.regs.find? (fun p => p.1 == Reg.SL_OUT_BIND n) with
  | none => d
  | some (_, v) =>
    let own := d.slicesFor n
    let want := if v.getLsbD 16 then (bits v.toNat 0 6 :: if v.getLsbD 14 then [bits v.toNat 8 6] else []) else []
    let lam := (s.data.regs.find? (fun p => p.1 == Reg.SL_LEAD (want.headD 0))).map (fun p => bits p.2.toNat 0 3)
    let serve := fun x => d.mayServeAt x n (lam.getD (d.lead n))
    let ok := fun x => (own.contains x || d.health x == 1) && serve x
    let pick := want.foldl (fun (acc : List (Option Nat)) x =>
      acc ++ [if ok x && !acc.contains (some x) then some x
        else d.spareFor (fun y => serve y && !acc.contains (some y) && !want.contains y)]) []
    if pick.contains none then d.shedOutput n 0 else
    let l := pick.filterMap id
    let d := (own.filter (fun x => !l.contains x)).foldl (fun d x => if d.health x = 0 then d.setHealth x 1 else d) d
    let d := l.foldl (fun d x => d.setHealth x 0) d
    d.scheduleBind n { lead := l.head?, follow := (l.drop 1).head?, leadLines := lam, portGang := some (v.getLsbD 15) }

/-- A partial image is applied at a commit, after the commit's records (R496). -/
def W.applyPartial (w : W) (i : Img) : W :=
  let w := i.secs.foldl (fun (w : W) s =>
    match s.typ with
    | 2 => w.dev (fun d => d.partBinding s)
    | 3 => w.dev (fun d => d.imageSettings s)
    | 4 => (w.dev (fun d => s.data.regs.foldl (fun d (p : Nat × Word) => d.commitWrite p.1 p.2 (sectionMask 4 s.scope p.1)) d)).dev
        (fun d => s.data.words.foldl (fun d (p : Nat × Word) => d.imageWord 4 s.scope p.1 p.2) (d.imagePlain s))
    | 5 => w.dev (fun d => { d with dmWait := Tab.put [] d.dmWait s.scope (s.data.regs ++ s.data.words) })
    | 7 => w.dev (fun d => { d with audWait := d.audWait ++ [s.data] })
    | 8 => w.dev (fun d => d.partPio s)
    | 9 => w.dev (fun d => d.imageSettings s)
    | 10 => w.partOwners s
    | 11 => w.dev (fun d => d.imageSettings s)
    | 12 => w.dev (fun d => d.partLevels s.data)
    | 13 => w.dev (fun d => d.imagePlain s)
    | 14 => w.dev (fun d => d.imageSettings s)
    | _ => w) w
  w.dev (fun d =>
    let d := { d with strSecs := d.secsAfter i }
    let d := ((d.sg Reg.SYS_STR_ID_LO (BitVec.ofNat 32 i.id)).sg Reg.SYS_STR_ID_HI (BitVec.ofNat 32 (i.id / 2 ^ 32))).sg Reg.SYS_STR_INFO
      (packFields [(0, i.point), (2, i.fs % 2)])
    d.sg Reg.SYS_STR_TICK (BitVec.ofNat 32 d.tick.num))

/-- Registers and words of a DAMSEL section, laid down between the take-up point and the frame start that follows it. -/
def Dev.takeDamsel (d : Dev) (n : Nat) : Dev :=
  let l := Tab.at [] d.dmWait n
  if l.isEmpty then d else
  let d := { d with dmWait := Tab.put [] d.dmWait n [] }
  l.foldl (fun d (p : Nat × Word) => (d.imageReg 5 n p.1 p.2).imageWord 5 n p.1 p.2) d

/-- AUDIO sections are laid down at the run of the next sample tick. -/
def W.takeAudio (w : W) : W :=
  w.d.audWait.foldl (fun (w : W) s =>
    let sec : ImgSec := { typ := 7, scope := 0xFF, data := s }
    (w.dev (fun d =>
      -- a crosspoint that is given a new gain moves to it (R342)
      let xp := fun (p : Nat × Word) => decide (paramOff 0x2000 ≤ p.1) && decide (p.1 < paramOff 0x4000)
      let d := d.imageSettings { sec with data := { s with words := s.words.filter (fun p => !xp p) } }
      let d := (s.words.filter xp).foldl (fun d p => d.setParam ((p.1 - paramOff 0) / 4) p.2 0xFFFFFFFF) d
      d.imagePlain sec)).imageSram s) (w.dev (fun d => { d with audWait := [] }))

end Sys2Proof.Machine
end

