-- ==== Sys2Proof/Machine/Verify.lean ====
section
/-!
DEFINITION. The flash layout, the control record, the manifest and the verification of a set (R517 to R527), and the OTP words that they
read (R536 to R538).
-/

namespace Sys2Proof.Machine

/-! ### OTP (R536 to R538) -/

/-- COMMITTED word of transition slot `k`. -/
def W.lcCommitted (w : W) (k : Nat) : Bool := w.rdN .otp (8 * k + 4) 4 != 0

/-- PENDING word of transition slot `k`. -/
def W.lcPending (w : W) (k : Nat) : Bool := w.rdN .otp (8 * k) 4 != 0

/-- The lifecycle state: the target of the highest slot committed, 0 for BLANK (R538). -/
def W.lifecycle (w : W) : Nat := (List.range 4).foldl (fun s k => if w.lcCommitted k then k + 1 else s) 0

/-- Program bits of an OTP range: a bit goes from 0 to 1 only (R537). -/
def W.otpProgram (w : W) (a : Nat) (l : List Byte) : W :=
  (l.zip (List.range l.length)).foldl (fun (w : W) (p : Byte × Nat) => w.wr .otp (a + p.2) (w.rd .otp (a + p.2) ||| p.1)) w

/-- First byte of key slot `k`. -/
def keySlotAt (k : Nat) : Nat := 0x20 + 52 * k

/-- Flags of key slot `k`: PROGRAMMED, DEV, REVOKED. -/
def W.keyFlags (w : W) (k : Nat) : Nat := w.rdN .otp (keySlotAt k + 48) 4 % 8

/-- Does the lifecycle state accept key slot `k` (Table 18-9)? -/
def W.keyAccepted (w : W) (k : Nat) : Bool :=
  let f := w.keyFlags k
  let lc := w.lifecycle
  decide (k < 4) && f.testBit 0 && !f.testBit 2 && (lc == 1 || (lc == 2 && !f.testBit 1) || lc == 3)

/-- The SVN floor (R536). -/
def W.svnFloor (w : W) : Nat :=
  let v := w.rdN .otp 0x120 8
  ((List.range 64).filter (fun i => v.testBit i)).length

/-- Bits are programmed until the floor equals `n`, when that is higher (R536). -/
def W.raiseFloor (w : W) (n : Nat) : W :=
  let v := w.rdN .otp 0x120 8
  let free := ((List.range 64).filter (fun i => !v.testBit i)).take (n - w.svnFloor)
  w.otpProgram 0x120 (leBytes 8 (free.foldl (fun acc i => acc + 2 ^ i) 0))

/-- Is the image key present and usable (Table 18-9, R542)? -/
def W.imageKeyUsable (w : W) : Bool :=
  (w.lifecycle == 1 || w.lifecycle == 2) && w.rdN .otp 0x100 32 != 0 && w.d.fd Reg.SEC_TAMPER_STAT 0 6 == 0

/-! ### Flash (R517 to R520) -/

/-- First byte of a set's area. -/
def setBase (s : Nat) : Nat := if s = 0 then 0x1000000 else 0x5000000

/-- Bytes of a set's area. -/
def setSize : Nat := 64 * 2 ^ 20

/-- Program flash bytes: a bit goes from 1 to 0 only. -/
def W.flashProgram (w : W) (a : Nat) (l : List Byte) : W :=
  (l.zip (List.range l.length)).foldl (fun (w : W) (p : Byte × Nat) => w.wr .flash (a + p.2) (w.rd .flash (a + p.2) &&& p.1)) w

/-- Erase flash bytes. -/
def W.flashErase (w : W) (a n : Nat) : W := w.wrBytes .flash a (List.replicate n 0xFF)

/-- Is the boot directory good (R518)? -/
def W.directoryOk (w : W) : Bool :=
  w.rdN .flash 0 4 == 0x52494444 && crc32 (w.rdBytes .flash 0 252) == w.rd32 .flash 252

/-- First byte of control copy `k`. -/
def ctlCopy (k : Nat) : Nat := 0x1000 + 0x1000 * k

/-- A control record (Table 18-3). -/
structure CtlRec where
  seq : Nat := 0
  active : Nat := 0
  state : Nat := 0
  trialSet : Nat := 0
  booted : Nat := 0xFF
  last : Nat := 0
deriving DecidableEq, Repr, Inhabited

/-- Bytes 0 to 59 of a record, with a value for byte 11. -/
def CtlRec.body (r : CtlRec) (booted : Nat) : List Byte :=
  leBytes 4 0x4C525443 ++ leBytes 4 r.seq ++ [BitVec.ofNat 8 r.active, BitVec.ofNat 8 r.state, BitVec.ofNat 8 r.trialSet,
    BitVec.ofNat 8 booted, BitVec.ofNat 8 r.last] ++ List.replicate 47 0

/-- The 64 bytes of a record. -/
def CtlRec.bytes (r : CtlRec) : List Byte := r.body r.booted ++ leBytes 4 (crc32 (r.body 0xFF)).toNat

/-- Is control copy `k` valid (R519)? -/
def W.ctlValid (w : W) (k : Nat) : Bool :=
  let b := w.rdBytes .flash (ctlCopy k) 60
  w.rdN .flash (ctlCopy k) 4 == 0x4C525443 && crc32 (b.set 11 0xFF) == w.rd32 .flash (ctlCopy k + 60)

/-- The record of control copy `k`. -/
def W.ctlAt (w : W) (k : Nat) : CtlRec :=
  let n := fun o => w.rdN .flash (ctlCopy k + o) 1
  { seq := w.rdN .flash (ctlCopy k + 4) 4, active := n 8, state := n 9, trialSet := n 10, booted := n 11, last := n 12 }

/-- The copy that holds the current record: the valid one with the later SEQ (R519). -/
def W.ctlCurrent (w : W) : Option Nat :=
  match w.ctlValid 0, w.ctlValid 1 with
  | false, false => none
  | true, false => some 0
  | false, true => some 1
  | true, true =>
    let d := ((w.ctlAt 1).seq + 2 ^ 32 - (w.ctlAt 0).seq) % 2 ^ 32
    some (if d ≠ 0 ∧ d < 2 ^ 31 then 1 else 0)

/-- The current record; without a valid copy ACTIVE is 0, STATE STABLE and SEQ 0. -/
def W.ctlRec (w : W) : CtlRec := (w.ctlCurrent.map w.ctlAt).getD {}

/-- A new record is written into the copy that is not current, with SEQ raised, and the other copy is then erased (R519). -/
def W.ctlWrite (w : W) (r : CtlRec) : W :=
  let k := match w.ctlCurrent with
    | some 0 => 1
    | _ => 0
  let w := w.flashProgram (ctlCopy k) { r with seq := (w.ctlRec.seq + 1) % 2 ^ 32 }.bytes
  w.flashErase (ctlCopy (1 - k)) 4096

/-! ### The manifest (Tables 18-4 and 18-5) -/

/-- A part entry. -/
structure Part where
  typ : Nat := 0
  scope : Nat := 0
  enc : Bool := false
  off : Nat := 0
  len : Nat := 0
  stage : Nat := 0
  hash : List Byte := []
deriving DecidableEq, Repr, Inhabited

/-- Bytes of the part once in plain form (R526). -/
def Part.plainLen (p : Part) : Nat := if p.enc then p.len - 28 else p.len

/-- Is the part staged for itself (Table 18-6)? -/
def Part.staged (p : Part) : Bool := !(p.typ == 8 || p.typ == 9 || p.typ == 10)

/-- A manifest. -/
structure Manifest where
  addr : Nat := 0
  magic : Nat := 0
  format : Nat := 0
  count : Nat := 0
  target : Nat := 0
  svn : Nat := 0
  setId : Nat := 0
  health : Nat := 0
  ticks : Nat := 0
  keySlot : Nat := 0
  parts : List Part := []
deriving DecidableEq, Repr, Inhabited

/-- The manifest at an SRAM byte address. -/
def W.manifest (w : W) (a : Nat) : Manifest :=
  let n := fun (o k : Nat) => w.rdN .sram (a + o) k
  let part := fun (i : Nat) =>
    let e := 144 + 64 * i
    ({ typ := n e 1, scope := n (e + 1) 1, enc := (n (e + 2) 1).testBit 0, off := n (e + 4) 4, len := n (e + 8) 4,
       stage := n (e + 12) 4, hash := w.rdBytes .sram (a + e + 16) 48 } : Part)
  { addr := a, magic := n 0 4, format := n 4 2, count := n 6 1, target := n 8 4, svn := n 12 4, setId := n 16 8, health := n 24 8,
    ticks := n 32 4, keySlot := n 36 1, parts := (List.range (min 32 (n 6 1))).map part }

/-- The part of type `t`. -/
def Manifest.part (m : Manifest) (t : Nat) : Option Part := m.parts.find? (fun p => p.typ == t)

/-- Bytes of the signed message. -/
def Manifest.signedLen (m : Manifest) : Nat := 144 + 64 * m.count

/-! ### Verification (R524 to R527) -/

/-- The verifier takes a request after those before it: each takes 2,100 µs ± 1 µs (R525). -/
def Dev.useVerifier (d : Dev) : Dev := { d with sec := { d.sec with vfyEnd := max d.tb d.sec.vfyEnd + 2099000 } }

/-- The staging region: its base and size; before the first load, banks 90 to 93. -/
def Dev.stageRegion (d : Dev) : Nat × Nat :=
  if d.loaded then ((d.rg Reg.UPD_STAGE_BASE).toNat, (d.rg Reg.UPD_STAGE_SIZE).toNat) else (bankBase 90, 4 * 2 ^ 21)

/-- The sequencer's copy to SRAM address `a`: what KC3 alone reaches, bank 95, takes none of it (R36). -/
def W.copyShared (w : W) (a : Nat) (l : List Byte) : W := w.wrBytes .sram a (if a < bankBase 95 then l.take (bankBase 95 - a) else [])

/-- A part is copied from flash into the staging region, as far as both hold it. -/
def W.stagePart (w : W) (set : Nat) (st : Nat × Nat) (p : Part) : W :=
  let n := min p.len (min (setSize - p.off) (st.2 - p.stage))
  w.copyShared (st.1 + p.stage) (w.rdBytes .flash (setBase set + p.off) n)

/-- Staged bytes of a part as its hash covers them. -/
def W.stagedBytes (w : W) (st : Nat × Nat) (p : Part) : List Byte := w.rdBytes .sram (st.1 + p.stage) p.len

/-- A staged part is decrypted in place (R526); `none` for a wrong tag, with the plaintext zeroed. -/
def W.decryptPart (w : W) (st : Nat × Nat) (k : Nat) (p : Part) : W × Bool :=
  let a := st.1 + p.stage
  let b := w.stagedBytes st p
  if p.len < 28 then (w, false) else
  let aad := [BitVec.ofNat 8 p.typ, BitVec.ofNat 8 p.scope] ++ leBytes 2 k ++ List.replicate 4 0
  match gcmDecrypt (w.rdBytes .otp 0x100 32) (b.take 12) aad ((b.drop 12).take (p.len - 28)) (b.drop (p.len - 16)) with
  | some l => (w.wrBytes .sram a l, true)
  | none => (w.wrBytes .sram a (List.replicate (p.len - 28) 0), false)

/-- The first entry for which `f` holds. -/
def Manifest.firstBad (m : Manifest) (f : Nat → Part → Bool) : Option Nat :=
  ((m.parts.zip (List.range m.parts.length)).find? (fun (q : Part × Nat) => f q.2 q.1)).map (·.2)

/-- Does entry `k` break a rule of R523?  `keyed`: encrypted parts are in plain form. -/
def W.partBad (w : W) (st : Nat × Nat) (m : Manifest) (keyed : Bool) (k : Nat) (p : Part) : Bool :=
  let num := fun t => (m.parts.filter (fun q => q.typ == t)).length
  let clear := fun (q : Part) => !q.enc || keyed
  let idOf := fun (q : Part) => (w.image (st.1 + q.stage)).id
  let baseOf := fun (q : Part) => (w.image (st.1 + q.stage)).baseId
  let secs := match m.part 5 with
    | some q => if clear q then some (w.image (st.1 + q.stage)).secs else none
    | none => none
  let secType := fun t => if t = 8 then 7 else if t = 9 then 8 else 5
  if 12 ≤ p.typ ∨ p.typ = 0 then true
  else if p.staged then
    decide (num p.typ ≠ 1) || decide (setSize < p.off + p.len) || decide (st.2 < p.stage + p.len) ||
    (m.parts.take k).any (fun q => q.staged && decide (q.stage < p.stage + p.len) && decide (p.stage < q.stage + q.len)) ||
    (decide (p.typ ≤ 4) && decide (256 * 1024 < p.len)) ||
    (p.typ == 6 && (match m.part 5, m.part 7 with
      | some s, some _ => clear s && clear p && idOf s != idOf p
      | _, _ => true)) ||
    (p.typ == 7 && (match m.part 5, m.part 6 with
      | some s, some a => (clear s && clear p && idOf s != baseOf p) || (clear a && clear p && baseOf a != idOf p)
      | _, _ => true))
  else
    (m.parts.take k).any (fun q => q.typ == p.typ && q.scope == p.scope) ||
    (match secs with
     | some l => match l.find? (fun s => s.typ == secType p.typ && s.scope == p.scope) with
       | some s => sha384 s.bytes != p.hash
       | none => true
     | none => false)

/-- Rules of R523 that no entry breaks alone: a required part or a section's part is missing. -/
def W.partsMissing (w : W) (st : Nat × Nat) (m : Manifest) (keyed : Bool) : Bool :=
  [1, 2, 3, 4, 5].any (fun t => (m.part t).isNone) ||
  match m.part 5 with
  | some q => (!q.enc || keyed) && (w.image (st.1 + q.stage)).secs.any (fun s =>
      let t := if s.typ = 7 then 8 else if s.typ = 8 then 9 else if s.typ = 5 then 10 else 0
      t != 0 && !m.parts.any (fun p => p.typ == t && p.scope == s.scope))
  | none => false

/-- The cause of a signature outcome in Table 18-7. -/
def VfyOutcome.verCause : VfyOutcome → Nat
  | .valid => 0
  | .badKey => 4
  | .sigRange => 5
  | .mismatch => 6

/-- The verification of a set (R527): from flash when `set` is given, with the manifest copied to `a`, otherwise in place.  The answer is a
cause of Table 18-7, 0 for none, and the entry. -/
def W.verify (w : W) (set : Option Nat) (a : Nat) (st : Nat × Nat) : W × Nat × Nat :=
  let w := match set with
    | some s =>
      let n := min 32 (w.rdN .flash (setBase s + 6) 1)
      let b := w.rdBytes .flash (setBase s) (240 + 64 * n)
      if bankBase 95 ≤ a then w.wrBytes .sram a b else w.copyShared a b
    | none => w
  let m := w.manifest a
  if m.magic ≠ 0x464E414D ∨ m.format ≠ 1 ∨ m.count = 0 ∨ 32 < m.count then (w, 1, 0)
  else if m.target ≠ (w.d.rg Reg.SYS_ID).toNat then (w, 2, 0)
  else
    let key := w.rdBytes .sram (a + 40) 97
    let lc := w.lifecycle
    let keyOk := if lc = 0 then m.keySlot == 0xFF
      else w.keyAccepted m.keySlot && sha384 key == w.rdBytes .otp (keySlotAt m.keySlot) 48
    if !keyOk then (w, 3, 0) else
    let out := ecdsaVerify key (sha384 (w.rdBytes .sram a m.signedLen)) (w.rdBytes .sram (a + m.signedLen) 96)
    if out.verCause ≠ 0 then (w, out.verCause, 0)
    else if lc = 2 ∧ m.svn < w.svnFloor then (w, 7, 0)
    else
      let w := match set with
        | some s => (m.parts.filter Part.staged).foldl (fun (w : W) p => w.stagePart s st p) w
        | none => w
      match m.firstBad (fun _ p => p.staged && sha384 (w.stagedBytes st p) != p.hash) with
      | some k => (w, 9, k)
      | none =>
        let keyed := w.imageKeyUsable
        let encs := if keyed then (m.parts.zip (List.range m.parts.length)).filter (fun (q : Part × Nat) => q.1.enc && q.1.staged) else []
        let (w, tag) := encs.foldl (fun (acc : W × Option Nat) q =>
          match acc.2 with
          | some _ => acc
          | none =>
            let (w, ok) := acc.1.decryptPart st q.2 q.1
            (w, if ok then none else some q.2)) (w, none)
        match tag, m.firstBad (w.partBad st m keyed) with
        | some k, _ => (w, 10, k)
        | none, some k => (w, 11, k)
        | none, none =>
          if w.partsMissing st m keyed then (w, 11, 0)
          else match m.firstBad (fun _ p => p.enc && !keyed) with
            | some k => (w, 12, k)
            | none => (w, 0, 0)

/-- A core's part is copied into image area A or B of core `c` (R510, R530). -/
def W.copyCorePart (w : W) (m : Manifest) (base c : Nat) (areaB : Bool) : W :=
  match m.part (c + 1) with
  | some p =>
    let dst := sramOfCore (w.d.rg (if areaB then Reg.KC_IMG_B c else Reg.KC_IMG_A c)).toNat
    w.copyShared dst (w.rdBytes .sram (base + p.stage) (min p.plainLen (w.d.areaLen c)))
  | none => w

end Sys2Proof.Machine
end

