-- ==== Sys2Proof/Machine/Boot.lean ====
section
/-!
DEFINITION. Resets, power and the boot sequencer (R18 to R20, R507, R509 to R513, R595 to R597).
-/

namespace Sys2Proof.Machine

/-! ### What a reset leaves (R18 to R20) -/

/-- Does the register at `a` keep its value through CORE_RST_N (R20)?  RET and STATE of MEM_BANK_CTRL belong to the always-on retention
control (R470, R490), and the raw pin inputs follow the pads whatever is reset. -/
def keptReg (a : Nat) : Bool :=
  ((RegTable.find a).map (·.por)).getD false || (indexOf (Reg.AV_BANK 0) 4 96 a).isSome || (indexOf (Reg.GP_IN 0) 4 4 a).isSome ||
  (indexOf (Reg.MEM_BANK_CTRL 0) 4 96 a).isSome

/-- The core domain's reset: registers and stores return to their reset values; the always-on parts of Table 1-2, the pads' latches,
bank retention and the spare-row assignments stay. -/
def Dev.coreReset (d : Dev) : Dev :=
  let h := d.holdPads
  let regs := d.regs.filter (fun p => keptReg p.1)
  let rest : Dev :=
    { regs := regs
      inForce := d.inForce.filter (fun p => keptReg p.1)
      upds := d.upds.filter (fun p => p.1 == Reg.TG_TICK_CTRL || p.1 == Reg.RING_CTRL)
      shadow := [], rdata := d.rdata, free := d.free, tb := d.tb, tick := d.tick
      aux := d.aux.filter (fun p => patternStore p.1)
      ring := { d.ring with mbx := [], injq := [], injWait := [], injected := [] }
      hop := { tickTime := d.hop.tickTime, cuts := d.hop.cuts }
      aud := { fs := d.tick.fs }
      pins := { held := true, hold := h.pins.hold }
      av := { spare := d.av.spare }
      sec := { tampering := d.sec.tampering }
      wakeAt := d.wakeAt, cclk := d.cclk, power := d.power
      badWords := d.badWords.filter (fun k => decide (2 ^ 32 ≤ k))
      ue := d.ue.filter (fun u => match u with
        | .sram _ => true
        | .lp _ => true
        | .tcm _ _ => true
        | _ => false) }
  -- the node's TAPPING flag changes, and its STATE frame says so (R306, R312)
  ((List.range 96).foldl (fun d b => d.sf (Reg.AV_BANK b) 8 8 0) rest).stateIfChanged.retainDue

/-- POR_N: everything returns to its reset value; the memories of the board's devices stay. -/
def Dev.porReset (d : Dev) : Dev :=
  { regs := d.regs.filter (fun p => (indexOf (Reg.GP_IN 0) 4 4 p.1).isSome), rdata := d.rdata, free := d.free,
    sec := { tampering := d.sec.tampering }, power := { d.power with por := true }, aux := d.aux.filter (fun p => patternStore p.1),
    badWords := d.badWords.filter (fun k => decide (2 ^ 32 ≤ k)) }

/-! ### The boot phases (R510, Table 17-8) -/

/-- The phase in progress. -/
def Dev.phase (d : Dev) : Nat := d.fd Reg.SYS_BOOT_STAT 0 4

/-- A phase begins. -/
def Dev.setPhase (d : Dev) (p : Nat) : Dev := d.sf Reg.SYS_BOOT_STAT 0 4 p

/-- A phase fails. -/
def Dev.bootFail (d : Dev) (p cause : Nat) : Dev := (d.setPhase p).sf Reg.SYS_BOOT_STAT 8 4 cause

/-- No set passes: the sequencer waits for the host (R512). -/
def Dev.noImage (d : Dev) (p : Nat) : Dev := (d.bootFail p p).sb Reg.SYS_BOOT_STAT 5

/-- Set the state of Table 18-8. -/
def Dev.updState (d : Dev) (st : Nat) : Dev := d.sf Reg.UPD_STATE 0 3 st

/-- The state of Table 18-8. -/
def Dev.updIs (d : Dev) (st : Nat) : Bool := d.fd Reg.UPD_STATE 0 3 == st

/-- UPD_STATE shows the control record. -/
def W.showRecord (w : W) : W :=
  let r := w.ctlRec
  w.dev (fun d => ((d.sf Reg.UPD_STATE 4 1 r.active).sf Reg.UPD_STATE 5 1 r.trialSet).sf Reg.UPD_STATE 8 3 r.last)

/-- A set has passed phases 4 and 5: its structure image goes to the check of phase 7 in slot 0. -/
def W.bootLoad (w : W) (a : Nat) : W :=
  let m := w.manifest a
  let st := ((m.part 5).map (·.stage)).getD 0
  w.dev (fun d =>
    let d := (d.sg Reg.UPD_RUN_ID_LO (BitVec.ofNat 32 m.setId)).sg Reg.UPD_RUN_ID_HI (BitVec.ofNat 32 (m.setId / 2 ^ 32))
    let d := { d with boot := { d.boot with man := a }, upd := { d.upd with man := a }, lop := Tab.put {} d.lop 0 { phase := .check } }
    let d := (d.sf (Reg.SYS_LOP_STAT 0) 0 16 (2 + 4 * 2 ^ 12)).sb Reg.SYS_LOP_BUSY_LO 0
    let d := (d.sg (Reg.SYS_LOP_P 0 0) (BitVec.ofNat 32 (bankBase 90 + st))).sg (Reg.SYS_LOP_P 0 1) 0
    let d := (d.sg (Reg.SYS_LOP_P 0 2) 0).sg (Reg.SYS_LOP_PROG 0) 0
    d.setPhase 7)

/-- Phases 4 and 5 for one flash set. -/
def W.bootSet (w : W) (s : Nat) : W × Nat :=
  let (w, cause, _) := w.verify (some s) (bankBase 90) (bankBase 90, 4 * 2 ^ 21)
  (w.dev (fun d => d.sf Reg.SYS_BOOT_STAT 4 1 s), cause)

/-- The phase that a cause of Table 18-7 fails. -/
def causePhase (cause : Nat) : Nat := if cause ≤ 7 then 4 else 5

/-- Choosing the set (R519) and phases 4 and 5. -/
def W.bootChoose (w : W) : W :=
  let r := w.ctlRec
  let trial := r.state == 2 && r.booted == 0xFF
  let w := if trial then
      match w.ctlCurrent with
      | some k => w.flashProgram (ctlCopy k + 11) [0]
      | none => w
    else w
  let set := if trial then r.trialSet % 2 else r.active % 2
  let w := w.dev (fun d => { d with boot := { d.boot with trial := trial, fellBack := !trial && r.state != 0 } })
  let (w, c) := w.bootSet set
  if c = 0 then w.bootLoad (bankBase 90) else
  let (w, c2) := w.bootSet (1 - set)
  if c2 = 0 then (w.dev (fun d => { d with boot := { d.boot with trial := false } })).bootLoad (bankBase 90)
  else w.dev (fun d => d.noImage (causePhase c2))

/-- The boot sequencer from phase 1 to the phase that waits for another event. -/
def W.boot (w : W) : W :=
  -- phase 1: the banks that are not in retention; the filters and the TRNG start (R448, R543)
  let banks := (List.range 96).filter (fun b => w.d.bankState b == 0)
  let w := (w.zeroBanks banks).dev (fun d =>
    let d := ({ d with ue := d.ue.filter (fun u => match u with
      | .sram a => !banks.contains (a / 2 ^ 21)
      | _ => true) } : Dev)
    let d := { d with sec := { d.sec with rngAt := d.tb } }
    d.filtersTakeRaw.scrubFrom.sb Reg.SEC_RNG_STAT 1)
  -- phase 2
  let w := (List.range 4).foldl (fun (w : W) k =>
    if w.lcPending k && !w.lcCommitted k then (w.otpProgram (8 * k + 4) [1]).zeroBanks [95] else w) w
  let w := w.showRecord
  if w.lifecycle = 4 then w.dev (fun d => d.bootFail 2 2)
  -- phase 3
  else if !w.directoryOk then w.dev (fun d => d.noImage 3)
  else if w.lifecycle = 0 then w.dev (fun d => d.noImage 4)
  else
    -- an access to a retained bank of the staging region wakes it (R471)
    let w := w.dev (fun d => [90, 91, 92, 93].foldl (fun d b =>
      if d.bankState b = 0 then d
      else (((d.sf (Reg.MEM_BANK_CTRL b) 0 3 0).inc Reg.MEM_WAKE_CNT).memRaise 369)) d)
    w.bootChoose

/-! ### Reset and power events -/

/-- The page or sector, first byte and length, that the flash program or erase of slot `s` has in progress. -/
def Dev.flashUnit (d : Dev) (s : Nat) : Option (Nat × Nat) :=
  let op := d.fd (Reg.SYS_LOP_STAT s) 12 4
  let st := d.fd (Reg.SYS_LOP_STAT s) 0 3
  let p := fun i => (d.rg (Reg.SYS_LOP_P s i)).toNat
  let unit := if op = 6 then 256 else 4096
  let off := unit * (d.rg (Reg.SYS_LOP_PROG s)).toNat
  if (op = 6 ∨ op = 7) ∧ (st = 2 ∨ st = 3 ∨ st = 5) ∧ off < (if op = 6 then p 2 else p 1) then some (p 0 + off, unit) else none

/-- A flash program or erase that a reset interrupts leaves the page or sector in progress undefined (R505; log entry 2). -/
def W.abandonFlash (w : W) : W :=
  if !w.d.coreUp then w else (List.range 64).foldl (fun (w : W) s =>
    match w.d.flashUnit s with
    | some (a, n) =>
      (w.wrBytes .flash a ((List.range n).map (fun i => BitVec.ofNat 8 (Config.freeWord (w.d.free + i)).toNat))).dev
        (fun d => { d with free := d.free + n })
    | none => w) w

/-- POR_N_ASSERT. -/
def porAssert (w : W) : W := w.abandonFlash.stopEngines.dev Dev.porReset

/-- POR_N_RELEASE with the NODE_ID straps: the always-on domain starts, and the boot sequencer when CORE_RST_N is high. -/
def porRelease (node : Nat) (w : W) : W :=
  if !w.d.power.por then w else
  let w := w.dev (fun d => ({ d with power := { d.power with por := false }, tb := 0 } : Dev).sf Reg.RING_NODE 0 6 node)
  if w.d.coreUp then w.boot else w

/-- CORE_RST_N_ASSERT: the reset is recorded as PIN (R507). -/
def coreRstAssert (w : W) : W :=
  w.abandonFlash.stopEngines.dev (fun d =>
    let d := if d.power.por then d else d.coreReset.sb Reg.SYS_RST_CAUSE 1
    { d with power := { d.power with coreRst := true } })

/-- CORE_RST_N_RELEASE, with the core rails up (Table 21-3): the boot sequencer starts, unless it has. -/
def coreRstRelease (w : W) : W :=
  let w := w.dev (fun d => { d with power := { d.power with coreRst := false, coreOff := false } })
  if w.d.coreUp && w.d.phase == 1 then w.boot else w

/-- The reset that a SOFT reset and a COLD activation make (R507, R534). -/
def W.softReset (w : W) : W := (w.abandonFlash.stopEngines.dev (fun d => d.coreReset.sb Reg.SYS_RST_CAUSE 2)).boot

/-- SOFT_RESET: a write of SYS_RST_CMD (R507). -/
def softResetWrite (ag : Agent) (v : Word) (w : W) : W :=
  if v = 0xA5C3 ∧ (ag = .host ∨ ag = .core 0 ∨ ag = .dbg) then w.softReset else w.dev (fun d => d.sb Reg.SYS_STAT 6)

/-- CORE_POWER_OFF (R595). -/
def corePowerOff (w : W) : W :=
  w.abandonFlash.stopEngines.dev (fun d =>
    let d := if d.power.por || d.power.coreRst then d else d.coreReset.sb Reg.SYS_RST_CAUSE 1
    { d with power := { d.power with coreRst := true, coreOff := true } })

/-- VDD_SRAM_LOSS (R553, R596). -/
def vddSramLoss (w : W) : W :=
  let held := (List.range 96).filter (fun b => w.d.bankState b != 0)
  if held.isEmpty then w else
  (w.zeroBanks held).dev (fun d =>
    let d := (List.range 96).foldl (fun (d : Dev) b =>
      ((d.sf (Reg.MEM_BANK_CTRL b) 0 3 0).sf (Reg.AV_BANK b) 0 5 0).cb (Reg.AV_BANK b) 16) d
    { d with av := { d.av with spare := [] }, wakeAt := [] })

/-- VDD_AON_LOSS acts as POR_N low (R597). -/
def vddAonLoss (w : W) : W := w.abandonFlash.stopEngines.dev Dev.porReset

/-- LPDDR5X_TRAINED: phase 6 ends. -/
def lpTrained (d : Dev) : Dev := d.sb Reg.MEM_STAT 5

/-- HOST_SET: a write of SYS_BOOT_CMD (R512, R538). -/
def hostSet (v : Word) (w : W) : W :=
  if !v.getLsbD 0 || !w.d.bt Reg.SYS_BOOT_STAT 5 then w else
  let w := w.dev (fun d => ({ d with boot := { host := true } } : Dev).sf Reg.SYS_BOOT_STAT 4 8 0)
  let a := (w.d.rg Reg.SYS_BOOT_ADDR).toNat
  let (w, c, _) := w.verify none a (bankBase 90, 4 * 2 ^ 21)
  if c = 0 then w.bootLoad a else w.dev (fun d => d.noImage (causePhase c))

/-- The end of phase 8: phase 9 begins, and a cold trial's window is set (R534). -/
def W.bootApplied (w : W) : W :=
  if w.d.phase ≠ 8 then w else
  let m := w.manifest w.d.boot.man
  w.dev (fun d =>
    let d := d.setPhase 9
    if !d.boot.trial then d else
    let left := if m.ticks % 2 ^ 24 = 0 then max 1 (d.ff Reg.UPD_CFG 0 24) else m.ticks % 2 ^ 24
    let d := ({ d with upd := { d.upd with cold := true, started := false } } : Dev)
    (d.updState 4).sf Reg.UPD_TRIAL_LEFT 0 24 left)

/-- CLK_RELOCK_DONE (R25): the new point is in force, and in phase 9 the core images are copied and KC0 starts. -/
def clkRelockDone (w : W) : W :=
  if !w.d.bt Reg.SYS_CLK_STAT 2 then w else
  let w := w.dev (fun d => (d.cb Reg.SYS_CLK_STAT 2).sf Reg.SYS_CLK_STAT 0 2 (d.fd Reg.SYS_CLK_CTRL 0 2))
  if w.d.phase ≠ 9 then w else
  let m := w.manifest w.d.boot.man
  let w := (List.range 4).foldl (fun (w : W) c => w.copyCorePart m (bankBase 90) c false) w
  w.dev (fun d => ((d.setPhase 11).sf Reg.UPD_STATE 6 1 0).beginRestart 0 false false)

/-- CORE_RESTART_COMPLETE: KC0's first start ends the boot, and a trial lost by a reset is then recorded (R519). -/
def restartComplete (c : Nat) (w : W) : W :=
  let was := w.d.kIs c .loading
  let w := coreRestartComplete c w
  if c = 0 ∧ w.d.phase = 11 ∧ was ∧ !w.d.kIs 0 .loading then
    let r := w.ctlRec
    w.dev (fun d =>
      let d := d.setPhase 0
      if !d.boot.fellBack then d
      else { d with upd := { d.upd with rec_ := some { active := r.active, state := 0, trialSet := r.trialSet, last := 3, why := .bootReset } } })
  else w

/-- CLK_POINT_REQUEST: a write of SYS_CLK_CTRL.POINT (R26, R506). -/
def clkPointRequest (v mask : Word) (d : Dev) : Dev :=
  if mask &&& 3 = 0 then d else
  let p := bits v.toNat 0 2
  let applying := (List.range 64).any (fun s =>
    d.fd (Reg.SYS_LOP_STAT s) 12 4 == 4 && d.fd (Reg.SYS_LOP_STAT s) 0 3 == 2 && (Tab.at {} d.lop s).phase == .apply)
  if p = 3 ∨ d.fd Reg.SYS_STR_INFO 0 2 < p ∨ d.bt Reg.SYS_CLK_STAT 2 ∨ applying ∨ !d.loaded then d.sb Reg.SYS_STAT 1
  else d.relock p

end Sys2Proof.Machine
end

