-- ==== Sys2Proof/Machine/Update.lean ====
section
/-!
DEFINITION. Activation, trial and fall-back (R528 to R534): the update commands, the control records that complete them, and the UPD
registers (R546).
-/

namespace Sys2Proof.Machine

/-- The manifest last verified. -/
def W.updManifest (w : W) : Manifest := w.manifest w.d.upd.man

/-- The staged partial image of type 6 or 7. -/
def W.stagedImage (w : W) (t : Nat) : Option Img := (w.updManifest.part t).map (fun p => w.image (w.d.stageRegion.1 + p.stage))

/-- UPD_STAT.CMD_ERR. -/
def Dev.cmdErr (d : Dev) : Dev := d.sb Reg.UPD_STAT 1

/-- May the agent write UPD_CMD (R529)? -/
def updAgent (ag : Agent) : Bool := ag == .host || ag == .core 1 || ag == .dbg

/-- The set that the last verification named. -/
def Dev.verSet (d : Dev) : Nat := d.fd Reg.UPD_VER_RES 16 1

/-- A control record is to be programmed: fields as the current record holds them, but for those given. -/
def W.programRecord (w : W) (active state trialSet booted last : Nat) (why : RecWhy) : W :=
  w.dev (fun d => { d with upd := { d.upd with rec_ := some { active := active, state := state, trialSet := trialSet, booted := booted,
                                                              last := last, why := why } } })

/-- The trial window in ticks: the manifest's, or UPD_CFG.TRIAL_TICKS, 0 taken as 1 (R532, R545). -/
def W.trialTicks (w : W) : Nat :=
  let t := w.updManifest.ticks % 2 ^ 24
  if t = 0 then max 1 (w.d.ff Reg.UPD_CFG 0 24) else t

/-- ARM (R530). -/
def arm (ag : Agent) (w : W) : W :=
  match w.stagedImage 6 with
  | some i =>
    if updAgent ag && w.d.updIs 1 && w.d.upd.rec_.isNone && i.baseId == w.d.pair Reg.SYS_STR_ID_LO Reg.SYS_STR_ID_HI then
      w.dev (fun d =>
        let low := (d.rg Reg.UPD_ACT_TICK).toNat
        let d := d.reachUpdate .upd
        ({ d with upd := { d.upd with target := if low = 0 then 0 else serialTick d.tick.num low } } : Dev).updState 2)
    else w.dev Dev.cmdErr
  | none => w.dev Dev.cmdErr

/-- ARMING_DONE (R530): the check of ACTIVATE, the copies into the area that the cores do not run, and the TRIAL record; READY again with
ARM_FAIL when the check fails or the target tick's decision has been made. -/
def armingDone (w : W) : W :=
  if !w.d.updIs 2 then w else
  let back := fun (d : Dev) => (d.updState 1).sb Reg.UPD_STAT 4
  match w.stagedImage 6 with
  | none => w.dev back
  | some i =>
    match w.d.imageErr i with
    | some e => w.dev (fun d => back (d.refuseImage e))
    | none =>
      let target := if w.d.upd.target = 0 then w.d.tick.num + 1 else w.d.upd.target
      if target ≤ w.d.hop.decided then w.dev back else
      let area := !w.d.areaB 0
      let m := w.updManifest
      let r := w.ctlRec
      let w := (List.range 4).foldl (fun (w : W) c => w.copyCorePart m w.d.stageRegion.1 c area) w
      let w := (w.ctlWrite { active := r.active, state := 1, trialSet := w.d.verSet, booted := 0, last := r.last }).showRecord
      w.dev (fun d => ({ d with upd := { d.upd with target := target, newArea := area, cold := false, started := false, revert := false, endedAt := none } } :
        Dev).updState 3)

/-- DISARM (R530). -/
def disarm (ag : Agent) (w : W) : W :=
  let r := w.ctlRec
  if updAgent ag && w.d.updIs 3 && w.d.upd.rec_.isNone then w.programRecord r.active 0 r.trialSet 0xFF 4 .disarm
  else w.dev Dev.cmdErr

/-- COLD (R534). -/
def cold (ag : Agent) (w : W) : W :=
  let r := w.ctlRec
  if updAgent ag && w.d.updIs 1 && w.d.upd.rec_.isNone then
    (w.dev (fun d => d.reachUpdate .upd)).programRecord r.active 2 w.d.verSet 0xFF r.last .cold
  else w.dev Dev.cmdErr

/-- The commit of the target tick applies ACTIVATE and starts the trial (R531). -/
def W.trialStart (w : W) : W :=
  match w.stagedImage 6 with
  | none => w
  | some i =>
    let ticks := w.trialTicks
    let id := w.updManifest.setId
    (w.applyPartial i).dev (fun d =>
      let old := d.pair Reg.UPD_RUN_ID_LO Reg.UPD_RUN_ID_HI
      let d := (d.sg Reg.UPD_RUN_ID_LO (BitVec.ofNat 32 id)).sg Reg.UPD_RUN_ID_HI (BitVec.ofNat 32 (id / 2 ^ 32))
      let d := ({ d with upd := { d.upd with prevId := old, started := true } } : Dev)
      let d := (d.updState 4).sf Reg.UPD_TRIAL_LEFT 0 24 ticks
      d.beginSeries ([3, 0, 1, 2].map (fun c => (c, d.upd.newArea))))

/-- A mill tick counts the window down; a cold trial's starts at its first tick (R532, R534). -/
def Dev.trialTick (d : Dev) : Dev :=
  if !d.updIs 4 then d
  else if d.upd.started then d.sf Reg.UPD_TRIAL_LEFT 0 24 (d.fd Reg.UPD_TRIAL_LEFT 0 24 - 1)
  else { d with upd := { d.upd with started := true } }

/-- At the commit decision of the window's last tick a trial without an accepted token is over (R533). -/
def Dev.trialOver (d : Dev) : Dev :=
  if d.updIs 4 && d.upd.started && d.upd.endedAt.isNone && d.fd Reg.UPD_TRIAL_LEFT 0 24 == 0 then
    { d with upd := { d.upd with endedAt := some d.cclks } }
  else d

/-- At the commit decision of the target tick an arming that has not ended fails (R530). -/
def Dev.armLate (d : Dev) : Dev :=
  if d.updIs 2 && d.upd.target != 0 && decide (d.upd.target ≤ d.hop.decided) then (d.updState 1).sb Reg.UPD_STAT 4 else d

/-- The area that a confirmation needs every core to run (R532). -/
def Dev.trialArea (d : Dev) : Bool := !d.upd.cold && d.upd.newArea

/-- CONFIRM_TOKEN: a write of UPD_CONFIRM_HI (R532), in the CCLK of the window's last decision at the latest (R533). -/
def confirmToken (ag : Agent) (hi : Word) (w : W) : W :=
  let d := w.d
  let token := d.upd.confirmLo.toNat + 2 ^ 32 * hi.toNat
  let ok := (ag == .core 0 || ag == .core 1 || ag == .dbg) && d.updIs 4 && d.upd.endedAt.all (fun e => decide (d.cclks ≤ e)) &&
    (List.range 4).all (fun c => d.areaB c == d.trialArea && !d.kIs c .reset && !d.kIs c .loading) && token == w.updManifest.health
  if !ok then w.dev (fun d => d.sb Reg.UPD_STAT 2) else
  let set := d.fd Reg.UPD_STATE 5 1
  (w.dev (fun d => d.updState 5)).programRecord set 0 set 0xFF 1 .confirm

/-- REVERT is applied, the cores of the new area restart from the old one, and the record is written (R533). -/
def W.fallBack (w : W) : W :=
  let w := match w.stagedImage 7 with
    | some i => w.applyPartial i
    | none => w
  let r := w.ctlRec
  let w := w.dev (fun d =>
    let l := [3, 0, 1, 2].filter (fun c => d.areaB c == d.upd.newArea && !d.kIs c .reset)
    ({ d with upd := { d.upd with revert := false } } : Dev).beginSeries (l.map (fun c => (c, !d.upd.newArea))))
  w.programRecord r.active 0 r.trialSet 0xFF 2 .window

/-- TRIAL_WINDOW_END (R533, R534): the decision of the window's last tick has been made and no token was accepted. -/
def trialWindowEnd (w : W) : W :=
  let d := w.d
  if !d.updIs 4 || d.upd.endedAt.isNone then w else
  let w := w.dev (fun d => d.updState 6)
  if d.upd.cold then
    let r := w.ctlRec
    w.programRecord r.active 0 r.trialSet 0xFF 2 .coldWindow
  else if d.obj.flip = some d.tick.num ∨ d.obj.epoch = d.tick.num then w.fallBack
  else w.dev (fun d => { d with upd := { d.upd with revert := true } })

/-- CONTROL_RECORD_WRITTEN: the record's program completes (R519, R528); that of a fall-back follows the restarts (R533). -/
def recordWritten (w : W) : W :=
  match w.d.upd.rec_ with
  | none => w
  | some r =>
    if r.why = .window ∧ !w.d.restartQ.isEmpty then w else
    let w := (w.ctlWrite { active := r.active, state := r.state, trialSet := r.trialSet, booted := r.booted, last := r.last }).showRecord
    let w := w.dev (fun d => { d with upd := { d.upd with rec_ := none } })
    match r.why with
    | .disarm => w.dev (fun d => d.updState 0)
    | .cold => w.softReset
    | .confirm =>
      let w := if w.lifecycle = 2 then w.raiseFloor w.updManifest.svn else w
      w.dev (fun d => (d.sb Reg.UPD_STAT 5).updState 0)
    | .window => w.dev (fun d =>
        let id := d.upd.prevId
        let d := (d.sg Reg.UPD_RUN_ID_LO (BitVec.ofNat 32 id)).sg Reg.UPD_RUN_ID_HI (BitVec.ofNat 32 (id / 2 ^ 32))
        (d.sb Reg.UPD_STAT 6).updState 0)
    | .coldWindow => (w.dev (fun d => d.sb Reg.UPD_STAT 6)).softReset
    | .bootReset => w

/-- A write to the UPD block (R529, R532, R546). -/
def W.updWrite (w : W) (ag : Agent) (a : Nat) (v mask : Word) : W :=
  let vm := v &&& mask
  if a = Reg.UPD_CTRL then w.dev (fun d => d.blockCtrl .upd 0xF1 (mergeWord (d.rg a) v mask))
  else if a = Reg.UPD_CMD then
    match bits vm.toNat 0 2 with
    | 0 => w
    | 1 => arm ag w
    | 2 => disarm ag w
    | _ => cold ag w
  else if a = Reg.UPD_CONFIRM_LO then
    if ag = .core 0 ∨ ag = .core 1 ∨ ag = .dbg then
      w.dev (fun d => { d with upd := { d.upd with confirmLo := mergeWord d.upd.confirmLo v mask } })
    else w
  else if a = Reg.UPD_CONFIRM_HI then confirmToken ag vm w
  else w.dev (fun d => d.plainWrite a v mask)

/-- A UPD register as it reads: lifecycle, tamper and SVN floor, and the area that the cores run. -/
def W.updRead (w : W) (a : Nat) : Word :=
  if a = Reg.UPD_INFO then
    packFields [(0, w.lifecycle), (3, (w.d.fd Reg.SEC_TAMPER_STAT 0 6 != 0).toNat), (8, w.svnFloor)]
  else if a = Reg.UPD_STATE then w.d.rg a ||| packFields [(6, (w.d.areaB 0).toNat)]
  else w.d.rg a

end Sys2Proof.Machine
end

