-- ==== Sys2Proof/Machine/Lop.lean ====
section
/-!
DEFINITION. Long operations (R499 to R505): the slots, their commands, the matrix of Table 17-7, and the work of each operation.
-/

namespace Sys2Proof.Machine

/-- STATE of slot `s`. -/
def Dev.lopState (d : Dev) (s : Nat) : Nat := d.fd (Reg.SYS_LOP_STAT s) 0 3

/-- OP of slot `s`. -/
def Dev.lopOp (d : Dev) (s : Nat) : Nat := d.fd (Reg.SYS_LOP_STAT s) 12 4

/-- Parameter `i` of slot `s`. -/
def Dev.lopP (d : Dev) (s i : Nat) : Nat := (d.rg (Reg.SYS_LOP_P s i)).toNat

/-- Progress of slot `s`. -/
def Dev.lopProg (d : Dev) (s : Nat) : Nat := (d.rg (Reg.SYS_LOP_PROG s)).toNat

/-- The slot's operation beside its registers. -/
def Dev.lopAt (d : Dev) (s : Nat) : Lop := Tab.at {} d.lop s

/-- Change it. -/
def Dev.onLop (d : Dev) (s : Nat) (f : Lop → Lop) : Dev := { d with lop := Tab.upd {} d.lop s f }

/-- SYS_STAT.LOP_CMD_ERR. -/
def Dev.lopErr (d : Dev) : Dev := d.sb Reg.SYS_STAT 2

/-- The slot's bit of a pair of registers. -/
def lopBit (lo hi s : Nat) : Nat × Nat := if s < 32 then (lo, s) else (hi, s - 32)

/-- Does the agent own slot `s` (R499)?  During start-up slot 0 is the boot sequencer's. -/
def Dev.ownsSlot (d : Dev) (ag : Agent) (s : Nat) : Bool :=
  if s = 0 ∧ d.phase ≠ 0 then false else ownerIs ag (d.fd (Reg.SYS_LOP_STAT s) 16 3)

/-- The slot's state, shown in SYS_LOP_BUSY. -/
def Dev.setLop (d : Dev) (s st : Nat) : Dev :=
  let d := if st = 2 ∧ d.lopState s ≠ 3 then d.onLop s (fun l => { l with at_ := d.tb }) else d
  let b := lopBit Reg.SYS_LOP_BUSY_LO Reg.SYS_LOP_BUSY_HI s
  (d.sf (Reg.SYS_LOP_STAT s) 0 3 st).pb b.1 b.2 (decide (1 ≤ st) && decide (st ≤ 5))

/-- An active state: neither IDLE nor DONE. -/
def Dev.lopBusy (d : Dev) (s : Nat) : Bool := decide (1 ≤ d.lopState s) && decide (d.lopState s ≤ 5)

/-! ### Table 17-7 -/

/-- The entries of the matrix. -/
inductive LopRel where
  /-- at the same time -/
  | c
  /-- the later one waits -/
  | s
  /-- the later START is refused -/
  | x
deriving DecidableEq, Repr

/-- Two ranges, first and last. -/
def rangesMeet (a b : Nat × Nat) : Bool := decide (a.1 ≤ b.2) && decide (b.1 ≤ a.2)

/-- Bank range of P0. -/
def Dev.lopBanks (d : Dev) (s : Nat) : Nat × Nat := (bits (d.lopP s 0) 0 7, bits (d.lopP s 0) 8 7)

/-- Does the load in slot `l` take in slice `sl`: it is full, or a BINDING section names the slice? -/
def W.loadNames (w : W) (l sl : Nat) : Bool :=
  let i := w.image (w.d.lopP l 0)
  i.kind == 0 || i.secs.any (fun s => s.typ == 2 && s.data.regs.any (fun p =>
    p.1 == Reg.SL_OUT_BIND s.scope && (bits p.2.toNat 0 6 == sl || (p.2.getLsbD 14 && bits p.2.toNat 8 6 == sl))))

/-- How the operations of slots `s` and `t` are related. -/
def W.lopRel (w : W) (s t : Nat) : LopRel :=
  let d := w.d
  let serial := fun (b : Bool) => if b then LopRel.s else LopRel.c
  match d.lopOp s, d.lopOp t with
  | 1, 1 => serial (rangesMeet (d.lopBanks s) (d.lopBanks t))
  | 1, 8 => serial (rangesMeet (d.lopBanks s) (d.lopBanks t))
  | 8, 1 => serial (rangesMeet (d.lopBanks s) (d.lopBanks t))
  | 8, 8 => .x
  | 1, 4 => .s
  | 4, 1 => .s
  | 8, 4 => .s
  | 4, 8 => .s
  | 2, 2 => serial (rangesMeet (d.lopP s 0, d.lopP s 0 + d.lopP s 1 - 1) (d.lopP t 0, d.lopP t 0 + d.lopP t 1 - 1))
  | 3, 3 => if bits (d.lopP s 0) 0 6 = bits (d.lopP t 0) 0 6 then .x else .c
  | 3, 4 => if w.loadNames t (bits (d.lopP s 0) 0 6) then .x else .c
  | 4, 3 => if w.loadNames s (bits (d.lopP t 0) 0 6) then .x else .c
  | 4, 4 => .x
  | 5, 5 => .s
  | 6, 6 => .s
  | 6, 7 => .s
  | 7, 6 => .s
  | 7, 7 => .s
  | _, _ => .c

/-- Must slot `s` wait for an operation that is RUNNING, SUSPENDING or CANCELLING? -/
def W.lopWaits (w : W) (s : Nat) : Bool :=
  (List.range 64).any (fun t =>
    let st := w.d.lopState t
    t != s && (st == 2 || st == 3 || st == 5) && w.lopRel s t == .s)

/-- Does the manifest of the set that IMAGE_VERIFY reads pass the format checks (R527, causes 1 and 2)? -/
def W.formatOk (w : W) : Bool :=
  let n := fun o k => w.rdN .flash (setBase (w.d.fd Reg.UPD_VSET 0 1) + o) k
  n 0 4 == 0x464E414D && n 4 2 == 1 && n 6 1 != 0 && decide (n 6 1 ≤ 32) && n 8 4 == (w.d.rg Reg.SYS_ID).toNat

/-- The slot enters RUNNING; an IMAGE_VERIFY then asks the verifier for its signature check (R525, R527). -/
def W.lopRun (w : W) (s : Nat) : W :=
  let asks := w.d.lopOp s == 5 && (w.d.lopAt s).sig.isNone && w.formatOk
  w.dev (fun d =>
    let d := if asks then let d := d.useVerifier; d.onLop s (fun l => { l with sig := some d.sec.vfyEnd }) else d
    d.setLop s 2)

/-- Queued operations that nothing holds back start, in ascending slot order (R501). -/
def W.startQueued (w : W) : W :=
  (List.range 64).foldl (fun (w : W) s => if w.d.lopState s = 1 ∧ !w.lopWaits s then w.lopRun s else w) w

/-- The slot enters DONE (R505). -/
def W.lopEnd (w : W) (s result cause : Nat) : W :=
  let w := w.dev (fun d =>
    let d := ((d.setLop s 6).sf (Reg.SYS_LOP_STAT s) 4 3 result).sf (Reg.SYS_LOP_STAT s) 8 4 cause
    let b := lopBit Reg.SYS_LOP_DONE_LO Reg.SYS_LOP_DONE_HI s
    let d := if d.bt (Reg.SYS_LOP_STAT s) 19 then (d.sb b.1 b.2).raise 380 else d
    -- automatic repair goes on in the banks of a sweep that has ended (R568)
    if d.lopOp s = 8 then d.autoRepairAll else d)
  w.startQueued

/-- The slot enters SUSPENDED. -/
def W.lopSuspended (w : W) (s : Nat) : W :=
  (w.dev (fun d =>
    let d := d.setLop s 4
    d.raiseIf (d.bt (Reg.SYS_LOP_STAT s) 19) 381)).startQueued

/-- A SLICE_TEST that is cancelled leaves the slice reinitialised. -/
def W.lopCancelled (w : W) (s : Nat) : W :=
  let w := if w.d.lopOp s = 3 then w.dev (fun d => d.onSlice (bits (d.lopP s 0) 0 6) (fun x => { x with lines := [], after := [], slowFrame := [] })) else w
  w.lopEnd s 3 0

/-! ### START (R500, R502, R520, R529) -/

/-- Two byte ranges, start and length. -/
def bytesMeet (a n b m : Nat) : Bool := decide (a < b + m) && decide (b < a + n)

/-- A flash range that the update process protects (R520). -/
def W.flashDenied (w : W) (a n : Nat) : Bool :=
  let d := w.d
  let active := d.fd Reg.UPD_STATE 4 1
  let st := d.fd Reg.UPD_STATE 0 3
  (decide (2 ≤ w.lifecycle) && bytesMeet a n 0 4096) || bytesMeet a n 0x1000 0x2000 || bytesMeet a n (setBase active) setSize ||
  (decide (2 ≤ st) && (bytesMeet a n (setBase 0) setSize || bytesMeet a n (setBase 1) setSize)) ||
  ((st == 4 || st == 5) && bytesMeet a n (0x100000 + 0x100000 * active) 0x100000)

/-- Bytes of the manifest that IMAGE_VERIFY copies: that of the set named by UPD_VSET (R522, R524). -/
def W.manifestLen (w : W) : Nat := 240 + 64 * min 32 (w.rdN .flash (setBase (w.d.fd Reg.UPD_VSET 0 1) + 6) 1)

/-- The check of a START: a cause of SYS_LOP_STAT, or 0. -/
def W.lopCheck (w : W) (s op : Nat) : Nat :=
  let d := w.d
  let p := fun i => d.lopP s i
  let upd := d.updIs 0 || d.updIs 1
  match op with
  | 1 => if (d.lopBanks s).2 < (d.lopBanks s).1 ∨ 95 < (d.lopBanks s).2 then 1 else 0
  | 2 => if p 1 = 0 ∨ d.lpSize < (p 0 + p 1) * 2 ^ 26 then 1 else 0
  | 3 =>
    let sl := bits (p 0) 0 6
    if 52 ≤ sl then 1 else if d.bt (Reg.SL_BIND sl) 6 ∨ d.bt (Reg.SL_BIND sl) 9 then 3 else 0
  | 4 => if upd then 0 else 4
  | 5 =>
    -- bank 95 is KC3's alone (R36)
    if !upd ∨ d.fd Reg.UPD_VSET 0 1 = d.fd Reg.UPD_STATE 4 1 then 4
    else if (if d.fd (Reg.SYS_LOP_STAT s) 16 3 = 4 then sramBytes else bankBase 95) < p 0 + w.manifestLen then 1 else 0
  | 6 =>
    if p 0 % 256 ≠ 0 ∨ p 2 % 256 ≠ 0 ∨ p 2 = 0 ∨ 512 * 2 ^ 20 < p 0 + p 2 ∨ bankBase 95 < p 1 + p 2 then 1
    else if w.flashDenied (p 0) (p 2) then 4 else 0
  | 7 =>
    if p 0 % 4096 ≠ 0 ∨ p 1 % 4096 ≠ 0 ∨ p 1 = 0 ∨ 512 * 2 ^ 20 < p 0 + p 1 then 1
    else if w.flashDenied (p 0) (p 1) then 4 else 0
  | 8 => if (d.lopBanks s).2 < (d.lopBanks s).1 ∨ 95 < (d.lopBanks s).2 then 1 else 0
  | _ => 1

/-- A flash operation that touches the area of the set in READY voids its verification (R520). -/
def W.voidReady (w : W) (s op : Nat) : W :=
  let d := w.d
  let n := if op = 6 then d.lopP s 2 else if op = 7 then d.lopP s 1 else 0
  if d.updIs 1 && decide (n ≠ 0) && bytesMeet (d.lopP s 0) n (setBase d.verSet) setSize then w.dev (fun d => d.updState 0) else w

/-- Banks that the operation reads through port B: an access wakes a retained one (R471). -/
def Dev.lopReads (d : Dev) (s op : Nat) : List Nat :=
  match op with
  | 4 => banksOf (d.lopP s 0) 64
  | 5 => banksOf (d.lopP s 0) 2288
  | 6 => banksOf (d.lopP s 1) (d.lopP s 2)
  | _ => []

/-- LOP_START. -/
def lopStart (ag : Agent) (s op : Nat) (int : Bool) (w : W) : W :=
  if !w.d.ownsSlot ag s then w.dev (fun d => d.sb Reg.SYS_STAT 3)
  else if w.d.lopBusy s then w.dev Dev.lopErr else
  let w := w.dev (fun d =>
    let d := (d.sf (Reg.SYS_LOP_STAT s) 4 12 (op % 16 * 2 ^ 8)).pb (Reg.SYS_LOP_STAT s) 19 int
    (d.sg (Reg.SYS_LOP_PROG s) 0).onLop s (fun _ => {}))
  let cause := w.lopCheck s (op % 16)
  if cause ≠ 0 then w.lopEnd s 4 cause
  else if (List.range 64).any (fun t => t != s && w.d.lopBusy t && w.lopRel s t == .x) then w.lopEnd s 4 2
  else
    let w := (w.voidReady s (op % 16)).dev (fun d => d.wakeBanks (d.lopReads s (op % 16)))
    if w.lopWaits s then w.dev (fun d => d.setLop s 1) else w.lopRun s

/-! ### The other commands -/

/-- Is the slot's operation a structure load in its APPLY phase? -/
def Dev.lopApplies (d : Dev) (s : Nat) : Bool := d.lopOp s == 4 && (d.lopAt s).phase == .apply

/-- Is it a structure load that waits for its tick, and so at a suspend point (Table 17-6)? -/
def Dev.lopAwaits (d : Dev) (s : Nat) : Bool := d.lopOp s == 4 && (d.lopAt s).phase == .wait

/-- LOP_SUSPEND; a load that waits for its tick is SUSPENDED at once. -/
def lopSuspend (ag : Agent) (s : Nat) (w : W) : W :=
  if !w.d.ownsSlot ag s then w.dev (fun d => d.sb Reg.SYS_STAT 3)
  else match w.d.lopState s with
    | 1 => w.lopSuspended s
    | 2 =>
      if w.d.lopApplies s then w.dev Dev.lopErr
      else if w.d.lopAwaits s then w.lopSuspended s
      else w.dev (fun d => d.setLop s 3)
    | _ => w.dev Dev.lopErr

/-- LOP_RESUME. -/
def lopResume (ag : Agent) (s : Nat) (w : W) : W :=
  if !w.d.ownsSlot ag s then w.dev (fun d => d.sb Reg.SYS_STAT 3)
  else match w.d.lopState s with
    | 3 => w.dev (fun d => d.setLop s 2)
    | 4 => if w.lopWaits s then w.dev (fun d => d.setLop s 1) else w.lopRun s
    | _ => w.dev Dev.lopErr

/-- LOP_CANCEL; a load that waits for its tick is DONE at once. -/
def lopCancel (ag : Agent) (s : Nat) (w : W) : W :=
  if !w.d.ownsSlot ag s then w.dev (fun d => d.sb Reg.SYS_STAT 3)
  else match w.d.lopState s with
    | 1 => w.lopCancelled s
    | 4 => w.lopCancelled s
    | 2 =>
      if w.d.lopApplies s then w.dev Dev.lopErr
      else if w.d.lopAwaits s then w.lopCancelled s
      else w.dev (fun d => d.setLop s 5)
    | 3 => w.dev (fun d => d.setLop s 5)
    | _ => w.dev Dev.lopErr

/-- LOP_STATUS: any agent may issue it. -/
def lopStatus (s : Nat) (d : Dev) : Dev :=
  (d.sg (Reg.SYS_LOP_SNAP_STAT s) (d.rg (Reg.SYS_LOP_STAT s))).sg (Reg.SYS_LOP_SNAP_PROG s) (d.rg (Reg.SYS_LOP_PROG s))

/-- A write of SYS_LOP_CMD (R500). -/
def lopCommand (ag : Agent) (v : Word) (w : W) : W :=
  let s := bits v.toNat 0 6
  match bits v.toNat 8 3 with
  | 1 => lopStart ag s (bits v.toNat 12 4) (v.getLsbD 16) w
  | 2 => lopSuspend ag s w
  | 3 => lopResume ag s w
  | 4 => lopCancel ag s w
  | 5 => w.dev (lopStatus s)
  | _ => w

/-! ### The work of an operation, by its units of progress (Table 17-6) -/

/-- Banks that SRAM_SCRUB reads. -/
def Dev.scrubBanks (d : Dev) (s : Nat) : List Nat :=
  (List.range 95).filter (fun b => decide ((d.lopBanks s).1 ≤ b) && decide (b ≤ (d.lopBanks s).2) && d.bankState b == 0)

/-- MiB that LP_SCRUB reads: those of inline-ECC regions within the range. -/
def Dev.scrubMiB (d : Dev) (s : Nat) : List Nat :=
  ((List.range (d.lopP s 1 * 64)).map (· + d.lopP s 0 * 64)).filter (fun m => d.inEcc (m * 2 ^ 20))

/-- Flagged rows that REPAIR_SWEEP repairs. -/
def Dev.sweepRows (d : Dev) (s : Nat) : List (Nat × Nat) :=
  d.av.flagged.filter (fun p => decide ((d.lopBanks s).1 ≤ p.1) && decide (p.1 ≤ (d.lopBanks s).2) && d.sweepable p.1 p.2)

/-- Units that are left to do. -/
def W.lopLeft (w : W) (s : Nat) : Nat :=
  let d := w.d
  match d.lopOp s with
  | 1 => (d.scrubBanks s).length * 2048 - d.lopProg s
  | 2 => (d.scrubMiB s).length - d.lopProg s
  | 3 => 16 - d.lopProg s
  | 4 => (w.image (d.lopP s 0)).count - d.lopProg s
  | 5 => w.rdN .flash (setBase (d.fd Reg.UPD_VSET 0 1) + 6) 1 - d.lopProg s
  | 6 => d.lopP s 2 / 256 - d.lopProg s
  | 7 => d.lopP s 1 / 4096 - d.lopProg s
  | 8 => (d.sweepRows s).length
  | _ => 0

/-- The first uncorrectable word among the `n` units from `i` on that a scrub or a flash program reads, as a word and its unit. -/
def Dev.lopBad (d : Dev) (s i n : Nat) : Option (UeAt × Nat × Nat) :=
  let units := if d.lopOp s ≠ 2 then [] else ((d.scrubMiB s).drop i).take n
  let hit := fun (k : Nat) =>
    if d.lopOp s = 6 then
      let a := k - 2 ^ 32
      let a0 := d.lopP s 1 + 256 * i
      if 2 ^ 32 ≤ k ∧ k < 2 ^ 40 ∧ a0 < a + 8 ∧ a < a0 + 256 * n then some (UeAt.sram a, a, i + (a - a0) / 256) else none
    else if d.lopOp s = 1 then
      if 2 ^ 32 ≤ k ∧ k < 2 ^ 40 then
        let a := k - 2 ^ 32
        match (d.scrubBanks s).findIdx? (fun b => b == a / 2 ^ 21) with
        | some j =>
          -- every bank of the range is read at once (R502)
          let u := a % 2 ^ 21 / 1024 * (d.scrubBanks s).length + j
          if i ≤ u ∧ u < i + n then some (UeAt.sram a, a, u) else none
        | none => none
      else none
    else if d.lopOp s = 2 ∧ 2 ^ 48 ≤ k then
      let a := k - 2 ^ 48
      if d.fenced a then none else
      match units.findIdx? (fun m => m == a / 2 ^ 20) with
      | some j => some (UeAt.lp a, a, i + j)
      | none => none
    else none
  (d.badWords.filterMap hit).foldl (fun best x =>
    match best with
    | some y => if x.2.2 < y.2.2 ∨ (x.2.2 = y.2.2 ∧ x.2.1 < y.2.1) then some x else best
    | none => some x) none

/-- One unit of a flash or repair operation. -/
def W.lopUnit (w : W) (s i : Nat) : W :=
  let d := w.d
  match d.lopOp s with
  | 6 => w.flashProgram (d.lopP s 0 + 256 * i) (w.portRead (d.lopP s 1 + 256 * i) 256)
  | 7 => w.flashErase (d.lopP s 0 + 4096 * i) 4096
  | 8 => match (d.sweepRows s).head? with
    | some (b, r) => w.dev (fun d => d.sweepRow b r)
    | none => w
  | _ => w

/-- `n` units of the slot's operation, whose next access is the update point of SYS_LOP_CFG (R515); `true` when a scrub or a
flash program ends on an uncorrectable word (R502). -/
def W.lopWork (w : W) (s n : Nat) : W × Bool :=
  let w := w.dev (fun d => d.reachUpdate .sys)
  let i := w.d.lopProg s
  let n := min n (w.lopLeft s)
  let bad := w.d.lopBad s i n
  let m := match bad with
    | some (_, _, u) => u - i
    | none => n
  let w := (List.range m).foldl (fun (w : W) k => w.lopUnit s (i + k)) w
  let w := w.dev (fun d => (d.sg (Reg.SYS_LOP_PROG s) (BitVec.ofNat 32 (i + m))).onLop s (fun l => { l with at_ := d.tb }))
  match bad with
  | some (at_, a, _) => (uncorrectableRead at_ a .hw w, true)
  | none => (w, false)

/-- The timebase before which the operation cannot have done `n` further units: SRAM_SCRUB by SRAM_GAP, in every bank of its range at once,
LP_SCRUB by LP_MBPS, 0 taken as 1 (R502, R515), a test phase 1,024 µs (R561), the signature check of an IMAGE_VERIFY (R525), a row copy
128 CCLK (R552); of the others the spec gives no time. -/
def Dev.lopBy (d : Dev) (s n : Nat) : Nat :=
  let t := (d.lopAt s).at_
  match d.lopOp s with
  | 1 => d.cclkAfter t (ceilDiv n (max 1 (d.scrubBanks s).length) * 128 * (d.ff Reg.SYS_LOP_CFG 0 8 + 1))
  | 2 => t + n * 2 ^ 20 * 1000 / max 1 (d.ff Reg.SYS_LOP_CFG 8 16)
  | 3 => t + 1024000 * n
  | 5 => (d.lopAt s).sig.getD t
  | 8 => d.cclkAfter t (128 * n)
  | _ => t

/-- Is the operation RUNNING, SUSPENDING or CANCELLING? -/
def Dev.lopRuns (d : Dev) (s : Nat) : Bool := d.lopState s == 2 || d.lopState s == 3 || d.lopState s == 5

/-- Units from one suspend point to the next: 64 KiB of each bank for SRAM_SCRUB, one unit of progress for the others (Table 17-6). -/
def Dev.lopStep (d : Dev) (s : Nat) : Nat := if d.lopOp s = 1 then 64 * (d.scrubBanks s).length else 1

/-- Further units to the first suspend point that lies `n` or more ahead, or to the end. -/
def W.lopReach (w : W) (s n : Nat) : Nat :=
  let u := max 1 (w.d.lopStep s)
  min (w.lopLeft s) (ceilDiv (w.d.lopProg s + n) u * u - w.d.lopProg s)

/-- LOP_SUSPEND_POINT: after `n` further units, or as many more as it takes, the operation reaches a suspend point. -/
def lopSuspendPoint (s n : Nat) (w : W) : W :=
  if !w.d.lopRuns s || w.d.lopApplies s then w else
  let (w, bad) := if w.d.lopAwaits s then (w, false) else w.lopWork s (w.lopReach s n)
  if bad then w.lopEnd s 6 8
  else match w.d.lopState s with
    | 3 => w.lopSuspended s
    | 5 => w.lopCancelled s
    | _ => w

/-! ### Completion -/

/-- IMAGE_VERIFY ends with its verdict (R527, R528); `media` is the part whose flash read fails, which ends the checks with cause 8 unless
one before it has failed. -/
def W.verifyEnd (w : W) (s : Nat) (media : Option Nat) : W :=
  let set := w.d.fd Reg.UPD_VSET 0 1
  let a := w.d.lopP s 0
  let (w', cause, part) := w.verify (some set) a w.d.stageRegion
  let (w, cause, part) := match media with
    | some k => if cause = 0 ∨ 7 < cause then (w, 8, k % 32) else (w', cause, part)
    | none => (w', cause, part)
  if cause ≠ 0 then
    (w.dev (fun d => d.sg Reg.UPD_VER_RES (packFields [(0, 2), (4, cause), (8, part), (16, set)]))).lopEnd s 2 0
  else
    let id := (w.manifest a).setId
    (w.dev (fun d =>
      let d := d.sg Reg.UPD_VER_RES (packFields [(0, 1), (16, set)])
      let d := (d.sg Reg.UPD_VER_ID_LO (BitVec.ofNat 32 id)).sg Reg.UPD_VER_ID_HI (BitVec.ofNat 32 (id / 2 ^ 32))
      ({ d with upd := { d.upd with man := a } } : Dev).updState 1)).lopEnd s 1 0

/-- The verdict of a SLICE_TEST: a SPARE slice that fails is RETIRED (R561). -/
def Dev.sliceTested (d : Dev) (sl : Nat) (fail : Option Nat) : Dev :=
  match fail with
  | none => d.sf (Reg.AV_SLICE sl) 3 2 1
  | some p =>
    if d.health sl = 1 then d.verdict sl (some (p % 16)) else (d.sf (Reg.AV_SLICE sl) 3 2 2).sf (Reg.AV_SLICE sl) 8 4 p

/-- LOP_COMPLETE: the rest of the operation's work is done and the slot ends.  `fail` is the failing phase of a SLICE_TEST, the part whose
flash read fails in an IMAGE_VERIFY, any number for a flash that fails, and a scrub's uncorrectable read. -/
def lopComplete (s : Nat) (fail : Option Nat) (w : W) : W :=
  if !w.d.lopRuns s then w else
  match w.d.lopOp s with
  | 4 => w
  | 3 =>
    let sl := bits (w.d.lopP s 0) 0 6
    let w := (w.lopWork s (w.lopLeft s)).1
    (w.dev (fun d => d.sliceTested sl fail)).lopEnd s (if fail.isSome then 2 else 1) 0
  | 5 =>
    (if fail.isSome then w else (w.lopWork s (w.lopLeft s)).1).verifyEnd s fail
  | op =>
    match fail with
    | some _ => w.lopEnd s 6 (if op = 6 ∨ op = 7 then 7 else 8)
    | none =>
      let (w, bad) := w.lopWork s (w.lopLeft s)
      if bad then w.lopEnd s 6 8 else w.lopEnd s 1 0

/-- The checks of a load have passed: what follows. -/
def W.loadChecked (w : W) (s : Nat) (i : Img) : W :=
  let w := w.dev (fun d => d.sg (Reg.SYS_LOP_PROG s) (BitVec.ofNat 32 i.count))
  if (w.d.lopP s 2).testBit 0 then w.lopEnd s 1 0
  else if w.d.lopState s = 5 then w.lopCancelled s
  else
    let halt := fun (w : W) => if w.d.lopState s = 3 then w.lopSuspended s else w
    if i.kind = 0 then
      halt (w.dev (fun d =>
        let d := d.onLop s (fun l => { l with phase := .apply })
        if s = 0 ∧ d.phase = 7 then d.setPhase 8 else d))
    else
      let target := if w.d.lopP s 1 = 0 then w.d.tick.num + 1 else serialTick w.d.tick.num (w.d.lopP s 1)
      if target ≤ w.d.hop.decided then w.lopEnd s 4 5
      else halt (w.dev (fun d =>
        (d.onLop s (fun _ => { phase := .wait, target := target })).sg (Reg.SYS_LOP_PROG s) 0xFFFFFFFF))

/-- The first word in error of an image in SRAM. -/
def Dev.imageWordBad (d : Dev) (i : Img) : Option Nat :=
  let n := max 64 (min (3 * 2 ^ 20) i.length)
  let m := d.goodRun 1 i.addr n
  if m < n then some (i.addr + m) else none

/-- STRUCT_CHECK_DONE (R493 to R495); an image that cannot be read ends the operation (R502). -/
def structCheckDone (s : Nat) (w : W) : W :=
  if !w.d.lopRuns s || w.d.lopOp s != 4 || (w.d.lopAt s).phase != .check then w else
  let i := w.image (w.d.lopP s 0)
  match w.d.imageWordBad i with
  | some a =>
    let w := (uncorrectableRead (.sram a) a .hw w).lopEnd s 6 8
    if s = 0 ∧ w.d.phase = 7 then w.dev (fun d => d.bootFail 7 7) else w
  | none =>
  match w.d.imageErr i with
  | some e =>
    let w := (w.dev (fun d => d.refuseImage e)).lopEnd s 4 6
    if s = 0 ∧ w.d.phase = 7 then w.dev (fun d => d.bootFail 7 e.1) else w
  | none => w.loadChecked s i

/-- FULL_LOAD_APPLY (R494, R619): at boot it waits for the LPDDR5X to be trained; row copies in progress end first. -/
def fullLoadApply (s : Nat) (w : W) : W :=
  if w.d.lopState s ≠ 2 || !w.d.lopApplies s || (w.d.phase == 8 && !w.d.bt Reg.MEM_STAT 5) || !w.d.av.copies.isEmpty then w else
  let i := w.image (w.d.lopP s 0)
  let w := (w.applyFull i).dev (fun d => d.sg (Reg.SYS_LOP_PROG s) (BitVec.ofNat 32 i.count))
  (w.lopEnd s 1 0).bootApplied

/-- At a commit that proceeds, the partial images whose tick has come are applied in slot order (R496). -/
def W.applyWaiting (w : W) : W :=
  (List.range 64).foldl (fun (w : W) s =>
    let l := w.d.lopAt s
    if w.d.lopRuns s && w.d.lopOp s == 4 && l.phase == .wait && decide (l.target ≤ w.d.tick.num) then
      let i := w.image (w.d.lopP s 0)
      let w := (w.applyPartial i).dev (fun d => (d.onLop s (fun _ => {})).sg (Reg.SYS_LOP_PROG s) (BitVec.ofNat 32 i.count))
      w.lopEnd s 1 0
    else w) w

/-- Outputs whose BINDING a partial image changes at this commit (R568). -/
def W.bindingOutputs (w : W) : List Nat :=
  let due := (List.range 64).filter (fun s =>
    let l := w.d.lopAt s
    w.d.lopRuns s && w.d.lopOp s == 4 && l.phase == .wait && decide (l.target ≤ w.d.tick.num))
  due.flatMap (fun s => ((w.image (w.d.lopP s 0)).secs.filter (fun x => x.typ == 2)).map (·.scope))

end Sys2Proof.Machine
end

