-- ==== Sys2Proof/Machine/Sec.lean ====
section
/-!
DEFINITION. The secure block (R525, R537 to R547): lifecycle, keys, the wipe of bank 95, tamper events, the verifier's direct interface
and the TRNG.
-/

namespace Sys2Proof.Machine

/-- Change the secure block's state. -/
def Dev.onSec (d : Dev) (f : Sec → Sec) : Dev := { d with sec := f d.sec }

/-- SRAM byte of offset `o` in bank 95; an offset past its end wraps. -/
def secAddr (o : Nat) : Nat := bankBase 95 + o % 2 ^ 21

/-- Bytes of bank 95. -/
def W.secBytes (w : W) (o n : Nat) : List Byte := (List.range n).map (fun i => w.rd .sram (secAddr (o + i)))

/-- Store bytes in bank 95. -/
def W.secStore (w : W) (o : Nat) (l : List Byte) : W :=
  (l.zip (List.range l.length)).foldl (fun (w : W) (p : Byte × Nat) => w.wr .sram (secAddr (o + p.2)) p.1) w

/-! ### The wipe (R540) -/

/-- A wipe starts, or restarts from the first word. -/
def Dev.startWipe (d : Dev) : Dev :=
  ((d.sb Reg.SEC_STAT 1).inc Reg.SEC_WIPE_CNT).onSec (fun s => { s with wipeAt := some d.tb })

/-- A block of 48 free bytes and 16 zeros is written for the request in progress, which ends with its last block (R543, R544). -/
def W.rngWrite (w : W) : W :=
  match w.d.sec.rng with
  | [] => w
  | q :: rest =>
    let bytes := (List.range 12).flatMap (fun i => leBytes 4 (Config.freeWord (w.d.free + i)).toNat)
    let w := w.secStore (q.addr + 64 * q.done) (bytes ++ List.replicate 16 0)
    w.dev (fun d =>
      let d := { d with free := d.free + 12 }
      if q.done + 1 < q.blocks then d.onSec (fun s => { s with rng := { q with done := q.done + 1 } :: rest })
      else ((d.onSec (fun s => { s with rng := rest })).sb Reg.SEC_RNG_RES q.tag).sf Reg.SEC_RNG_RES 19 4 rest.length)

/-- WIPE_DONE: 131.072 µs after the wipe began; a lifecycle change goes on (R539), and blocks that wait are written (R544). -/
def wipeDone (w : W) : W :=
  match w.d.sec.wipeAt with
  | none => w
  | some t =>
    if w.d.tb < t + 131072 then w else
    let n := w.d.sec.rngWait
    let w := (w.zeroBanks [95]).dev (fun d => (d.cb Reg.SEC_STAT 1).onSec (fun s => { s with wipeAt := none, rngWait := 0 }))
    let w := match w.d.sec.lc with
      | some k => (w.otpProgram (8 * (k - 1) + 4) [1]).dev (fun d => d.onSec (fun s => { s with lc := none }))
      | none => w
    (List.range n).foldl (fun (w : W) _ => w.rngWrite) w

/-- WIPE: a write of SEC_WIPE_CMD. -/
def wipeCmd (v : Word) (d : Dev) : Dev := if v.getLsbD 0 then d.startWipe else d

/-! ### Lifecycle and keys (R539) -/

/-- LIFECYCLE_CHANGE: a write of SEC_LC_CMD. -/
def lifecycleChange (v : Word) (w : W) : W :=
  let t := bits v.toNat 0 3
  if bits v.toNat 16 16 ≠ 0x4C43 ∨ t ≤ w.lifecycle ∨ 4 < t then w.dev (fun d => d.sb Reg.SEC_STAT 3)
  else if !(w.d.updIs 0 || w.d.updIs 1) || w.d.sec.lc.isSome then w.dev (fun d => d.sb Reg.SEC_STAT 2)
  else (w.otpProgram (8 * (t - 1)) [1]).dev (fun d => (d.onSec (fun s => { s with lc := some t })).startWipe)

/-- SEC_STAT.KEY_ERR. -/
def W.keyErr (w : W) : W := w.dev (fun d => d.sb Reg.SEC_STAT 4)

/-- KEY_PROGRAM: SEC_KEY_CMD OP 1. -/
def keyProgram (slot : Nat) (w : W) : W :=
  if 1 < w.lifecycle then w.keyErr
  else (w.otpProgram (keySlotAt (slot % 4)) (w.secBytes (w.d.fd Reg.SEC_KEY_ADDR 0 21) 48)).otpProgram (keySlotAt (slot % 4) + 48) [1]

/-- KEY_SET_DEV: SEC_KEY_CMD OP 2. -/
def keySetDev (slot : Nat) (w : W) : W :=
  if 1 < w.lifecycle then w.keyErr else w.otpProgram (keySlotAt (slot % 4) + 48) [2]

/-- KEY_REVOKE: SEC_KEY_CMD OP 3; the last production slot stays. -/
def keyRevoke (slot : Nat) (w : W) : W :=
  let prod := fun k => w.keyFlags k == 1
  let last := prod (slot % 4) && !(List.range 4).any (fun k => k != slot % 4 && prod k)
  if w.lifecycle = 4 ∨ (w.lifecycle = 2 ∧ last) then w.keyErr else w.otpProgram (keySlotAt (slot % 4) + 48) [4]

/-- IMAGE_KEY_PROGRAM: a write of SEC_IKEY_CMD. -/
def imageKeyProgram (v : Word) (w : W) : W :=
  if 1 < w.lifecycle then w.keyErr else w.otpProgram 0x100 (w.secBytes (bits v.toNat 0 21) 32)

/-! ### Tamper (R541, R542) -/

/-- TAMPER_EVENT of monitor `i`: its condition arises (`on`), or ends; of a tamper pin, the pin has come to be high (`on`) or low for the
10 µs of Table 18-12, and POL says which level is the condition (R541). -/
def tamperEvent (i : Nat) (on : Bool) (d : Dev) : Dev :=
  if d.power.por then d else
  if on = (decide (i < 2) && d.bt Reg.SEC_TAMPER_CFG (6 + i)) then d.onSec (fun s => { s with tampering := s.tampering.filter (fun x => x != i) }) else
  let d := d.onSec (fun s => { s with tampering := i :: s.tampering.filter (fun x => x != i) })
  if !d.bt Reg.SEC_TAMPER_CFG i then d else
  let d := (d.sb Reg.SEC_TAMPER_STAT i).inc Reg.SEC_TAMPER_CNT
  if d.coreUp then d.startWipe.raise 2 else d

/-- A write of SEC_TAMPER_CFG: nothing once LOCK is set; enable bits fall only in BLANK and DEVELOP. -/
def tamperCfgWrite (v mask : Word) (w : W) : W :=
  let a := Reg.SEC_TAMPER_CFG
  if w.d.bt a 8 then w else
  let old := w.d.rg a
  let new := mergeWord old v (mask &&& 0xFF) ||| (v &&& mask &&& 0x100)
  let new := if w.lifecycle ≤ 1 then new else new ||| (old &&& 0x3F)
  w.dev (fun d => d.sg a new)

/-- A write of SEC_TAMPER_STAT: a bit whose condition persists stays. -/
def tamperStatWrite (v : Word) (d : Dev) : Dev :=
  (List.range 6).foldl (fun (acc : Dev) i => if v.getLsbD i && !d.sec.tampering.contains i then acc.cb Reg.SEC_TAMPER_STAT i else acc) d

/-! ### The verifier (R525) -/

/-- VERIFY_GO: a write of SEC_VFY_CMD.  The check begins when the requests before it have been served. -/
def verifyGo (v : Word) (d : Dev) : Dev :=
  if !v.getLsbD 0 || d.bt Reg.SEC_VFY_RES 0 then d else
  let d := d.useVerifier
  (d.sg Reg.SEC_VFY_RES 1).onSec (fun s =>
    { s with vfy := some { key := d.fd Reg.SEC_VFY_KEY 0 21, hash := d.fd Reg.SEC_VFY_HASH 0 21, sig := d.fd Reg.SEC_VFY_SIG 0 21,
                           at_ := s.vfyEnd - 2099000 } })

/-- VERIFY_DONE: the outcome is readable. -/
def verifyDone (w : W) : W :=
  match w.d.sec.vfy with
  | none => w
  | some j =>
    let out := ecdsaVerify (w.secBytes j.key 97) (w.secBytes j.hash 48) (w.secBytes j.sig 96)
    w.dev (fun d => (d.sg Reg.SEC_VFY_RES (BitVec.ofNat 32 (2 * out.code))).onSec (fun s => { s with vfy := none }))

/-! ### The TRNG (R543, R544) -/

/-- Is the source closed? -/
def Dev.rngClosed (d : Dev) : Bool := d.bt Reg.SEC_RNG_STAT 0

/-- RNG_REQUEST: a write of SEC_RNG_REQ. -/
def rngRequest (v : Word) (d : Dev) : Dev :=
  let n := d.sec.rng.length
  if 8 ≤ n then d.sb Reg.SEC_STAT 5 else
  let tag := d.fd Reg.SEC_RNG_RES 16 3
  let d := d.sf Reg.SEC_RNG_RES 16 3 (tag + 1)
  if d.rngClosed then (d.sb Reg.SEC_RNG_RES tag).sb Reg.SEC_RNG_RES (8 + tag) else
  let q : RngReq := { tag := tag, addr := bits v.toNat 6 15 * 64, blocks := bits v.toNat 22 6 + 1 }
  (d.onSec (fun s => { s with rng := s.rng ++ [q] })).sf Reg.SEC_RNG_RES 19 4 (n + 1)

/-- SAMPLES in force, 768 to 4,096 (R545): at 10 MHz the samples of a block take 100 ns each (R543). -/
def Dev.rngSamples (d : Dev) : Nat := min 4096 (max 768 (d.ff Reg.SEC_RNG_CFG 0 13))

/-- RNG_BLOCK: a block is formed; during a wipe it is written after it. -/
def rngBlock (w : W) : W :=
  if w.d.rngClosed || w.d.sec.rng.isEmpty then w else
  let w := w.dev (fun d => (d.reachUpdate .sec).onSec (fun s => { s with rngAt := d.tb }))
  if w.d.sec.wipeAt.isSome then w.dev (fun d => d.onSec (fun s => { s with rngWait := s.rngWait + 1 })) else w.rngWrite

/-- A failed health test (R544): every request ends with DONE and FAIL, the blocks written are zeroed, the source closes. -/
def W.rngFail (w : W) (apt : Bool) : W :=
  let qs := w.d.sec.rng
  let w := qs.foldl (fun (w : W) q => w.secStore q.addr (List.replicate (64 * q.done) 0)) w
  w.dev (fun d =>
    let d := qs.foldl (fun (d : Dev) q => (d.sb Reg.SEC_RNG_RES q.tag).sb Reg.SEC_RNG_RES (8 + q.tag)) d
    let d := (d.onSec (fun s => { s with rng := [], rngWait := 0 })).sf Reg.SEC_RNG_RES 19 4 0
    ((d.sb Reg.SEC_RNG_STAT 0).sb Reg.SEC_RNG_STAT (if apt then 3 else 2)).inc Reg.SEC_RNG_FAIL_CNT)

/-- RNG_HEALTH_FAIL: the repetition count test, or with `apt` the adaptive proportion test, fails. -/
def rngHealthFail (apt : Bool) (w : W) : W := if w.d.rngClosed then w else w.rngFail apt

/-- RNG_RESTART: a write of SEC_RNG_CMD; the source is closed while the start-up test runs. -/
def rngRestart (v : Word) (d : Dev) : Dev :=
  if v.getLsbD 0 then ((d.sb Reg.SEC_RNG_STAT 0).sb Reg.SEC_RNG_STAT 1).onSec (fun s => { s with rngAt := d.tb }) else d

/-- RNG_STARTUP_DONE: the start-up test passes, or fails by the repetition count (`some false`) or the adaptive proportion test. -/
def rngStartupDone (fail : Option Bool) (w : W) : W :=
  if !w.d.bt Reg.SEC_RNG_STAT 1 then w else
  let w := w.dev (fun d => (d.cb Reg.SEC_RNG_STAT 1).onSec (fun s => { s with rngAt := d.tb }))
  match fail with
  | none => w.dev (fun d => d.cb Reg.SEC_RNG_STAT 0)
  | some apt => (w.rngFail apt).dev (fun d => d.sb Reg.SEC_RNG_STAT 4)

/-! ### The SEC registers (R547) -/

/-- A write to the SEC block by KC3. -/
def W.secWrite (w : W) (ag : Agent) (a : Nat) (v mask : Word) : W :=
  let vm := v &&& mask
  if ag ≠ .core 3 then w
  else if a = Reg.SEC_CTRL then w.dev (fun d => d.blockCtrl .sec 0xF1 (mergeWord (d.rg a) v mask))
  else if a = Reg.SEC_LC_CMD then lifecycleChange vm w
  else if a = Reg.SEC_WIPE_CMD then w.dev (wipeCmd vm)
  else if a = Reg.SEC_KEY_CMD then
    match bits vm.toNat 4 2 with
    | 0 => w
    | 1 => keyProgram (bits vm.toNat 0 2) w
    | 2 => keySetDev (bits vm.toNat 0 2) w
    | _ => keyRevoke (bits vm.toNat 0 2) w
  else if a = Reg.SEC_IKEY_CMD then imageKeyProgram vm w
  else if a = Reg.SEC_TAMPER_CFG then tamperCfgWrite v mask w
  else if a = Reg.SEC_TAMPER_STAT then w.dev (tamperStatWrite vm)
  else if a = Reg.SEC_VFY_CMD then w.dev (verifyGo vm)
  else if a = Reg.SEC_RNG_REQ then w.dev (rngRequest vm)
  else if a = Reg.SEC_RNG_CMD then w.dev (rngRestart vm)
  else w.dev (fun d => d.plainWrite a v mask)

/-- A SEC register as an agent reads it. -/
def W.secRead (w : W) (ag : Agent) (a : Nat) : Word :=
  if ag ≠ .core 3 then 0
  else if a = Reg.SEC_LC_STATE then packFields [(0, w.lifecycle), (3, w.d.sec.lc.isSome.toNat)]
  else if a = Reg.SEC_KEY_STAT then packFields ((List.range 4).map (fun k => (3 * k, w.keyFlags k)))
  else w.d.rg a

end Sys2Proof.Machine
end

