-- ==== Sys2Proof/Machine/SysBus.lean ====
section
/-!
DEFINITION. The register bus (R8, R9, R23, R59, R372, R480, R488): every write and every read of BAR0, by the agent that makes it.
-/

namespace Sys2Proof.Machine

/-! ### Mailboxes (R508) -/

/-- SYS_STAT.MBX_ERR. -/
def Dev.mbxErr (d : Dev) : Dev := d.sb Reg.SYS_STAT 4

/-- A write of word `i` of the to-core mailbox of core `c`. -/
def mbxTcWrite (ag : Agent) (c i : Nat) (v mask : Word) (d : Dev) : Dev :=
  if !(ag == .host || ag == .dbg) || d.bt (Reg.SYS_MBX_STAT c) 0 then d.mbxErr else
  let d := d.plainWrite (Reg.SYS_MBX_TC c i) v mask
  if i = 3 then (d.sb (Reg.SYS_MBX_STAT c) 0).raise 382 else d

/-- A write of word `i` of the to-host mailbox of core `c`. -/
def mbxThWrite (ag : Agent) (c i : Nat) (v mask : Word) (d : Dev) : Dev :=
  if !ownerIs ag (c + 1) || d.bt (Reg.SYS_MBX_STAT c) 1 then d.mbxErr else
  let d := d.plainWrite (Reg.SYS_MBX_TH c i) v mask
  if i = 3 then (d.sb (Reg.SYS_MBX_STAT c) 1).raise 383 else d

/-- A read of word 3 of a to-core mailbox by its core empties it. -/
def mbxTcRead (ag : Agent) (c : Nat) (d : Dev) : Dev :=
  let d := { d with rdata := d.rg (Reg.SYS_MBX_TC c 3) }
  if ag = .core c then d.cb (Reg.SYS_MBX_STAT c) 0 else d

/-- A read of word 3 of a to-host mailbox by the host empties it. -/
def mbxThRead (ag : Agent) (c : Nat) (d : Dev) : Dev :=
  let d := { d with rdata := d.rg (Reg.SYS_MBX_TH c 3) }
  if ag = .host ∨ ag = .dbg then d.cb (Reg.SYS_MBX_STAT c) 1 else d

/-! ### Virtual terminals (R587) -/

/-- DBG_VT_STAT shows the levels of core `c`'s FIFOs. -/
def Dev.vtShow (d : Dev) (c : Nat) : Dev :=
  (d.sf (Reg.DBG_VT_STAT c) 0 5 (d.coreAt c).vtTx.length).sf (Reg.DBG_VT_STAT c) 8 5 (d.coreAt c).vtRx.length

/-- VT_TX_WRITE: a core write. -/
def vtTxWrite (c : Nat) (v : Word) (d : Dev) : Dev :=
  if 16 ≤ (d.coreAt c).vtTx.length then d.sb (Reg.DBG_VT_STAT c) 16
  else (d.onCore c (fun k => { k with vtTx := k.vtTx ++ [v] })).vtShow c

/-- VT_TX_READ: a debugger read. -/
def vtTxRead (c : Nat) (d : Dev) : Dev :=
  ({ d with rdata := (d.coreAt c).vtTx.headD 0 } : Dev).onCore c (fun k => { k with vtTx := k.vtTx.drop 1 }) |>.vtShow c

/-- VT_RX_WRITE: a debugger write. -/
def vtRxWrite (c : Nat) (v : Word) (d : Dev) : Dev :=
  if 16 ≤ (d.coreAt c).vtRx.length then d.sb (Reg.DBG_VT_STAT c) 17
  else (d.onCore c (fun k => { k with vtRx := k.vtRx ++ [v] })).vtShow c

/-- VT_RX_READ: a core read. -/
def vtRxRead (c : Nat) (d : Dev) : Dev :=
  ({ d with rdata := (d.coreAt c).vtRx.headD 0 } : Dev).onCore c (fun k => { k with vtRx := k.vtRx.drop 1 }) |>.vtShow c

/-- A write to the DBG block over the register bus: a core reaches its own terminal alone (R577). -/
def dbgBusWrite (ag : Agent) (a : Nat) (v mask : Word) (d : Dev) : Dev :=
  match ag with
  | .core c =>
    if a = Reg.DBG_VT_TX c then vtTxWrite c (v &&& mask) d
    else if a = Reg.DBG_VT_STAT c then d.plainWrite a v mask
    else d
  | _ => d

/-! ### Writes -/

/-- A write to the SYS block (R499 to R508, R512, R513). -/
def W.sysWrite (w : W) (ag : Agent) (a : Nat) (v mask : Word) : W :=
  let vm := v &&& mask
  if a = Reg.SYS_CTRL then w.dev (fun d => d.blockCtrl .sys 0xF1 (mergeWord (d.rg a) v mask))
  else if a = Reg.SYS_RST_CMD then softResetWrite ag vm w
  else if a = Reg.SYS_CLK_CTRL then w.dev (clkPointRequest v mask)
  else if a = Reg.SYS_CORE_START then w.dev (sysCoreStart ag vm)
  else if a = Reg.SYS_BOOT_CMD then hostSet vm w
  else if a = Reg.SYS_LOP_CMD then lopCommand ag vm w
  else if 0x100 ≤ a ∧ a < 0x200 then
    let c := (a - 0x100) / 0x40
    let o := a % 0x40
    if o < 0x10 then w.dev (mbxTcWrite ag c (o / 4) v mask)
    else if o < 0x20 then w.dev (mbxThWrite ag c ((o - 0x10) / 4) v mask)
    else w
  else if 0x1000 ≤ a ∧ a < 0x1800 ∧ 8 ≤ a % 0x20 ∧ a % 0x20 < 0x18 then
    let s := (a - 0x1000) / 0x20
    w.dev (fun d =>
      if !d.ownsSlot ag s then d.sb Reg.SYS_STAT 3
      else if d.lopBusy s then d.lopErr
      else d.plainWrite a v mask)
  else w.dev (fun d => d.plainWrite a v mask)

/-- A write to the hopper's registers beyond its descriptors. -/
def Dev.hopWrite (d : Dev) (a : Nat) (v mask : Word) : Dev :=
  if a = Reg.HOP_CTRL then d.ctrlWrite .hop (mergeWord (d.rg a) v mask)
  else match indexOf (Reg.HOP_TRK_DONE 0) 8 64 a with
    | some t => trkDoneWrite t (mergeWord (d.rg a) v mask) d
    | none => d.plainWrite a v mask

/-- A write of BAR0 offset `a` by an agent. -/
def W.busWrite (w : W) (ag : Agent) (a : Nat) (v mask : Word) : W :=
  if a < 0x100000 then w.sysWrite ag a v mask
  else if a < 0xC00000 then w.dev (fun d => match routeAt a with
    | some (n, i) => d.routeBy ag n i v mask
    | none => d.contentWrite a v mask)
  else if a < 0xC80000 then w.dev (descWrite ag a v mask)
  else if a < 0x1000000 then w.dev (fun d => d.hopWrite a v mask)
  else if a < 0x1100000 then w.dev (fun d => d.contentWrite a v mask)
  else if a < 0x1200000 then w.dev (fun d => d.ringWrite a v mask)
  else if a < 0x1300000 then w.dev (fun d => d.contentWrite a v mask)
  else if a < 0x1304000 then
    let c := (a - 0x1300000) / 0x1000
    if a % 0x1000 < 0x800 then w.dev (fun d => d.kcWrite ag c a v mask) else w.dev (fun d => d.intcWrite ag c a v mask)
  else if 0x1308000 ≤ a ∧ a < 0x1308800 then w.dev (fun d => d.routeWrite' ((a - 0x1308000) / 4) v mask)
  else if a = Reg.INT_SW_RAISE then w.dev (intSwRaise (v &&& mask))
  else if a < 0x1400000 then w.dev (fun d => d.plainWrite a v mask)
  else if a < 0x1410000 then w.dev (fun d => d.tmrWrite a v mask)
  else if a < 0x1420000 then w.dmaWrite ag a v mask
  else if a < 0x1500000 then w.bltWrite ag a v mask
  else if a < 0x1510000 then w.dev (fun d => d.gpWrite ag a v mask)
  else if a < 0x1600000 then w.dev (fun d => d.pioWrite ag a v mask)
  else if a < 0x1680000 then w.dev (fun d => d.memWrite a v mask)
  else if a < 0x1682000 then w.dev (fun d => d.msixWrite a v mask)
  else if a < 0x1700000 then w
  else if a < 0x1701000 then w.updWrite ag a v mask
  else if a < 0x1702000 then w.secWrite ag a v mask
  else if a < 0x1800000 then w
  else if a < 0x1900000 then w.dev (fun d => d.avWrite ag a v mask)
  else w.dev (dbgBusWrite ag a v mask)

/-! ### Reads -/

/-- Registers whose LO half, read, copies the companions into shadows (R59 and each chapter). -/
def shadowOf (a : Nat) : List Nat :=
  if a = Reg.TG_TICK_NUM_LO ∨ a = Reg.TG_TICK_TS_LO ∨ a = Reg.OBJ_EPOCH_LO ∨ a = Reg.HOP_TICK_RT_LO ∨ a = Reg.RING_RT_LO ∨
      a = Reg.RING_MBX_RX_TS_LO ∨ a = Reg.MEM_LP_ERR_ADDR_LO ∨ a = Reg.SYS_STR_ID_LO ∨ a = Reg.UPD_VER_ID_LO ∨
      a = Reg.UPD_RUN_ID_LO ∨ (indexOf (Reg.BLT_WM_TS_LO 0) 0x80 4 a).isSome then [a + 4]
  else match indexOf (Reg.TG_FLIP_TS_LO 0) 0x400 48 a with
    | some n => [Reg.TG_FLIP_TS_HI n, Reg.TG_FLIP_EPOCH n]
    | none => []

/-- Is the register at `a` one that returns a shadow, once its LO half has been read? -/
def isShadow (a : Nat) : Bool := (4 ≤ a && (shadowOf (a - 4)).contains a) || (8 ≤ a && (shadowOf (a - 8)).contains a)

/-- The low and the high half of a 64-bit value. -/
def halfOf (v : Nat) (hi : Bool) : Word := BitVec.ofNat 32 (if hi then v / 2 ^ 32 else v)

/-- A register of timing generator `n` as it stands. -/
def Dev.tgValue (d : Dev) (n a : Nat) : Word :=
  let g := d.tgAt n
  if a = Reg.TG_FLIP_TS_LO n then halfOf g.flipTs false
  else if a = Reg.TG_FLIP_TS_HI n then halfOf g.flipTs true
  else if a = Reg.TG_FLIP_EPOCH n then BitVec.ofNat 32 g.flipEpoch
  else if a = Reg.TG_TRIM n then wordOfInt g.trim
  else if a = Reg.TG_BEAM n then
    let (line, x) := d.beamAt n d.tb
    packFields [(0, x), (16, line)]
  else if (tgTiming n).contains a && d.portFollower n then d.rg (a - 0x400)
  else d.rg a

/-- The content blocks. -/
def Dev.contentValue (d : Dev) (a : Nat) : Word :=
  if a < 0x10C000 then d.tgValue ((a - 0x100000) / 0x400) a
  else if a = Reg.TG_TICK_NUM_LO then halfOf d.tick.num false
  else if a = Reg.TG_TICK_NUM_HI then halfOf d.tick.num true
  else if a = Reg.TG_TICK_TS_LO then halfOf d.tick.ts false
  else if a = Reg.TG_TICK_TS_HI then halfOf d.tick.ts true
  else if a = Reg.OBJ_EPOCH_LO then halfOf d.obj.epoch false
  else if a = Reg.OBJ_EPOCH_HI then halfOf d.obj.epoch true
  else if a = Reg.TP_PMAP_RD then d.pmapRead
  else if 0x500000 ≤ a ∧ a < 0x530000 then
    let n := (a - 0x500000) / 0x1000
    let o := a % 0x1000
    if o = 0x804 ∨ o = 0x80C ∨ o = 0x814 then d.slLenRead n 0
    else if o = 0x808 ∨ o = 0x810 ∨ o = 0x818 then d.slLenRead n 1
    else d.rg a
  else if 0x600000 ≤ a ∧ a < 0x6C0000 then Tab.at 0 d.aux a
  else if 0x820000 ≤ a ∧ a < 0x9A0000 then d.tableRead ((a - 0x820000) / 0x8000) ((a - 0x820000) % 0x8000)
  else if 0xA00000 ≤ a ∧ a < 0xA03000 then
    let n := (a - 0xA00000) / 0x100
    if a = Reg.DM_PC n then BitVec.ofNat 32 ((d.dmAt n).pc % 4096)
    else if a = Reg.DM_FLAGS_SET n ∨ a = Reg.DM_FLAGS_CLR n then d.rg (Reg.DM_FLAGS n)
    else d.rg a
  else if 0xA10000 ≤ a ∧ a < 0xAD0000 then Tab.at 0 d.aux a
  else d.rg a

/-- STATE of a voice. -/
def VoiceSt.code : VoiceSt → Nat
  | .idle => 0
  | .playing => 1
  | .release => 2

/-- The Flume, ring and audio blocks. -/
def Dev.linkValue (d : Dev) (a : Nat) : Word :=
  if a < 0x100C000 then
    let n := (a - 0x1000000) / 0x400
    if a = Reg.FL_STAT n then d.flStatRead n
    else if a = Reg.FL_DEMAND n then fieldWord (d.rg a) 16 16 (flCapacity (d.tgAt n).tm (d.ff (Reg.FL_CFG n) 0 3))
    else if 0x200 ≤ a % 0x400 then Tab.at 0 d.aux a
    else d.rg a
  else if a = Reg.RING_STAT then d.ringStatRead
  else if a = Reg.RING_RT_LO then halfOf d.ringTime false
  else if a = Reg.RING_RT_HI then halfOf d.ringTime true
  else if 0x1208000 ≤ a ∧ a < 0x1210000 then
    let v := (a - 0x1208000) / 0x20
    if a = Reg.AUD_V_CTRL v then packFields [(2, (d.voiceAt v).st.code)]
    else if a = Reg.AUD_V_POS v then BitVec.ofNat 32 ((d.voiceAt v).pos / 65536 % 2 ^ 24)
    else d.rg a
  else if 0x1210000 ≤ a ∧ a < 0x1220000 then Tab.at 0 d.aux a
  else d.rg a

/-- A companion register as it stands when its LO half is read. -/
def Dev.companionValue (d : Dev) (b : Nat) : Word :=
  if b < 0x100000 then d.rg b
  else if b < 0xC00000 then d.contentValue b
  else if b < 0x1000000 then d.rg b
  else if b < 0x1300000 then d.linkValue b
  else d.rg b

/-- The controller of core `c`; KC3's is KC3's alone (R372, R580). -/
def Dev.intcValue (d : Dev) (ag : Agent) (c a : Nat) : Word :=
  if c = 3 ∧ ag ≠ .core 3 then 0
  else if Reg.INTC_PEND c 0 ≤ a ∧ a ≤ Reg.INTC_PEND c 15 then d.pendWord c ((a - Reg.INTC_PEND c 0) / 4)
  else if a = Reg.INTC_ACTIVE c then d.activeWord c
  else d.rg a

/-- The debugger's view of DBG_STAT: RESTRICTED and ATTACHED (R579, R585). -/
def Dev.restricted (d : Dev) : Bool := d.phase != 0 || d.dbg.ir == 0 || d.dbg.ir == 3 || d.dbg.ir == 4

/-- The value of the register at `a` as an agent reads it, no effect of the read taken. -/
def W.regValue (w : W) (ag : Agent) (a : Nat) : Word :=
  let d := w.d
  if isShadow a then (match Tab.at none d.shadow a with
    | some v => v
    | none => d.companionValue a)
  else if a < 0x100000 then d.rg a
  else if a < 0xC00000 then d.contentValue a
  else if a < 0xC80000 then
    let r := (a - 0xC00000) / 0x20
    if a = Reg.HOP_RD_STAT r then d.rg a ||| packFields [(4, (d.hopPaused && decide (d.published r ≠ 0)).toNat)] else d.rg a
  else if a = Reg.HOP_HORIZON then d.rg Reg.RING_HORIZON
  else if a < 0x1000000 then d.rg a
  else if a < 0x1300000 then d.linkValue a
  else if a < 0x1304000 then
    let c := (a - 0x1300000) / 0x1000
    if a % 0x1000 < 0x800 then d.kcRead ag c a else d.intcValue ag c a
  else if a = Reg.TMR_TB_LO then halfOf d.tb false
  else if a = Reg.TMR_TB_HI then halfOf d.tb true
  else if a < 0x1500000 then d.rg a
  else if a < 0x1510000 then d.gpRead a
  else if a < 0x1600000 then d.pioRead a
  else if a < 0x1680000 then d.rg a
  else if a < 0x1682000 then d.msixWord a
  else if a < 0x1682040 then d.pbaWord a
  else if a < 0x1700000 then 0
  else if a < 0x1701000 then w.updRead a
  else if a < 0x1702000 then w.secRead ag a
  else if a < 0x1800000 then 0
  else if a < 0x1900000 then d.avRead a
  else match ag with
    | .core c => if a = Reg.DBG_VT_STAT c then d.rg a else 0
    | _ => 0

/-- The RC fields of the register at `a` clear (R8). -/
def Dev.readClear (d : Dev) (a : Nat) : Dev :=
  match RegTable.find a with
  | some r => if r.rc = 0 then d else d.sg a (d.rg a &&& ~~~ BitVec.ofNat 32 r.rc)
  | none => d

/-- A read of BAR0 offset `a` by an agent: its effects, and its data in `rdata` (R8, R59, R399, R412, R456, R508, R587). -/
def W.busRead (w : W) (ag : Agent) (a : Nat) : W :=
  match indexOf (Reg.INTC_CLAIM 0) 0x1000 4 a with
  | some c => w.dev (fun d => if c = 3 ∧ ag ≠ .core 3 then { d with rdata := 0 } else intcClaim ag c d)
  | none =>
  match indexOf (Reg.TMR_CAP_LO 0) 0x40 16 a with
  | some c => w.dev (tmrCapRead c)
  | none =>
  match indexOf (Reg.SYS_MBX_TC 0 3) 0x40 4 a, indexOf (Reg.SYS_MBX_TH 0 3) 0x40 4 a with
  | some c, _ => w.dev (mbxTcRead ag c)
  | none, some c => w.dev (mbxThRead ag c)
  | none, none =>
  if 0x1511000 ≤ a ∧ a < 0x1513000 ∧ a % 0x40 = 0x10 then w.dev (rxfRead ((a - 0x1511000) / 0x400) ((a - 0x1511000) % 0x400 / 0x40))
  else if (match ag with
      | .core c => a == Reg.DBG_VT_RX c
      | _ => false) then
    match ag with
    | .core c => w.dev (vtRxRead c)
    | _ => w
  else
    let v := w.regValue ag a
    let sh := (shadowOf a).map (fun b => (b, w.d.companionValue b))
    w.dev (fun d =>
      let d := { d with rdata := v, shadow := sh.foldl (fun t (p : Nat × Word) => Tab.put none t p.1 (some p.2)) d.shadow }
      d.readClear a)

/-! ### Accesses of any size (R480, R488) -/

/-- A write of bytes to a byte-addressable store (R178, R296). -/
def W.storeWrite (w : W) (ag : Agent) (o : Nat) (l : List Byte) : W :=
  (l.zip (List.range l.length)).foldl (fun w p =>
    let a := o + p.2
    w.busWrite ag (a / 4 * 4) (fieldWord 0 (8 * (a % 4)) 8 p.1.toNat) (fieldWord 0 (8 * (a % 4)) 8 255)) w

/-- Bytes of a byte-addressable store. -/
def W.storeRead (w : W) (ag : Agent) (o n : Nat) : List Byte :=
  (List.range n).map (fun i => BitVec.ofNat 8 (bits (w.regValue ag ((o + i) / 4 * 4)).toNat (8 * ((o + i) % 4)) 8))

/-- A write of `n` bytes at BAR0 offset `o`: a register takes an aligned word; the byte-addressable stores take any bytes (R178, R296); the
paged window, the host's alone, 1 to 64 bytes. -/
def W.bar0Write (w : W) (ag : Agent) (o : Nat) (l : List Byte) : W :=
  if o < 0x2000000 then
    if o % 4 = 0 ∧ l.length = 4 then w.busWrite ag o (BitVec.ofNat 32 (leNat l)) 0xFFFFFFFF
    else if (List.range l.length).all (fun i => byteStore (o + i)) then w.storeWrite ag o l
    else w.dev Dev.sizeErr
  else if ag = .host then winWrite (o - 0x2000000) l w else w

/-- A read of `n` bytes at BAR0 offset `o`. -/
def W.bar0Read (w : W) (ag : Agent) (o n : Nat) : W :=
  let out := fun (w : W) (l : List Byte) => w.dev (fun d => { d with rdata := BitVec.ofNat 32 (leNat (l.take 4)), rbytes := l })
  if o < 0x2000000 then
    if o % 4 = 0 ∧ n = 4 then
      let w := w.busRead ag o
      w.dev (fun d => { d with rbytes := leBytes 4 d.rdata.toNat })
    else if (List.range n).all (fun i => byteStore (o + i)) then out w (w.storeRead ag o n)
    else out (w.dev Dev.sizeErr) (List.replicate n 0)
  else if ag = .host then
    let (w, l) := winRead (o - 0x2000000) n w
    out w l
  else out w (List.replicate n 0)

end Sys2Proof.Machine
end

