-- ==== Sys2Proof/Machine/Frame.lean ====
section
/-!
DEFINITION. The frame and tick compositions (R27 to R31, R52 to R60, R148, R180, R212, R531, R559 to R567): what every block does at a
line begin, a frame start, a take-up edge, a mill tick, a commit decision and an audio sample tick.
-/

namespace Sys2Proof.Machine

/-! ### The mill tick -/

/-- The changes of an output that wait for a frame start have seen a tick (R15, R197, R564). -/
def Dev.tickedOutput (d : Dev) (n : Nat) : Dev :=
  d.onMx n (fun m => { m.armFmt with fbResume := m.fbResume.map (fun _ => true) })

/-- The part of a tick that runs while the core domain is down (R18, R19): the ring time of the tick, and the ring node's work. -/
def Dev.tickAlwaysOn (d : Dev) : Dev := (((d.hopTick).sg Reg.HOP_TICK_RT_LO 0).sg Reg.HOP_TICK_RT_HI 0).ringTick

/-- What every block but the tick generator does at a mill tick, once its number has risen. -/
def Dev.tickWork (d : Dev) : Dev :=
  if !d.coreUp then d.tickAlwaysOn else
  let d := d.hopTick
  let d := d.audTick
  let d := d.missCfgTick
  let d := d.ringTick.avTick
  let d := d.tickUpdates
  let d := (List.range 48).foldl (fun d n => (d.idleOutputTick n).tickedOutput n) d
  let d := { d with fl := d.fl.map (fun (p : Nat × Fl) => (p.1, { p.2 with raised := 0 })) }
  (d.takeVerdicts.startTests.captureTick.trialTick).eventNow .tick d.tick.ts

/-- TICK_ISSUE (R38): the correctable errors of the tick that ends are logged (R569), the tick is issued, and every block takes its
part. -/
def tickIssue (d : Dev) : Dev := ((d.flushCe.issueTick d.tick.next).replan).tickWork

/-- A reference edge that issues the tick itself (R42, jump) does the work of a tick. -/
def Dev.withTick (d : Dev) (f : Dev → Dev) : Dev :=
  let d1 := f d
  if d1.tick.num = d.tick.num then d1 else (f d.flushCe).replan.tickWork

/-- TICK_IN_EDGE. -/
def tickInEvent (d : Dev) : Dev := d.withTick tickInCmd

/-- TICK_FRAME (R316). -/
def ringTickEvent (leat : Bool) (f : RFrame) (sub : Nat) (d : Dev) : Dev := d.withTick (ringTickFrame leat f sub)

/-! ### Lines -/

/-- The machine as the take-up and the frame start of the frame to come will leave it for output `n`: binding and Flume setting (R148,
R283, R295). -/
def Dev.comingFrame (d : Dev) (n : Nat) : Dev :=
  let x := d.applyBind n
  let l := x.portLead n
  let x := x.frameUpdateBy (.fl l) (fun d => d.flApply l)
  if x.portFollower n then x.flFollow l else x

/-- The beam of output `n` begins line `line` at `at_`, in units of 2^-20 ns (R54, R61, R281, R283, R285).  Outside LOCKED the port sends
idle. -/
def lineBegin (n line at_ : Nat) (d : Dev) : Dev :=
  let g := d.tgAt n
  let d := d.onTg n (fun g =>
    if line = 0 ∧ g.st = .locked then { g with begun := 1 }
    else { g with line := line, lineTs := at_ / 2 ^ 20, lineAt := at_, begun := line + 1, prevLine := g.line, prevTs := g.lineTs })
  if g.st ≠ .locked then d.onTg n Tg.glideStep else
  let d := (d.onTg n Tg.trimStep).lineStartPacket n line
  let d := if line = g.tm.vAct then d.formBlanking n else d
  if line + d.lead n = g.tm.vTot then (d.blankPacket n (d.comingFrame n)).onFl n (fun f => { f with blank := [] }) else d

/-! ### Frame starts -/

/-- The error of a frame start against its ideal time, whether it is the tick's first, and the trim that the next one calls for, in units
of 0.1 ppm (R54). -/
def Dev.frameError (d : Dev) (n : Nat) : Int × Bool × Int :=
  let g := d.tgAt n
  let j := d.nearestPoint g.tm.phase g.k d.tb
  let err := (d.tb : Int) - d.pointAt g.tm.phase g.k j
  let want := max 1 (d.pointAt g.tm.phase g.k (j + 1) - d.tb)
  let nominal : Int := g.tm.hTot * g.tm.vTot * 10 * g.tm.pDen / (max 1 (g.tm.pNum * g.tm.ppc))
  (err, j % (max 1 g.k) == 0, (nominal - want) * 10000000 / want)

/-- The phase error and the trim of a frame start (R54, R55): beyond ±800 ppm TRIM_LIMIT sets, and then an error of more than 1/8 of the
frame period calls for a re-phase. -/
def Dev.framePhase (d : Dev) (n : Nat) : Dev :=
  let (err, fst, want) := d.frameError n
  let d := (d.sg (Reg.TG_PHASE_ERR n) (wordOfInt err)).onTg n (fun g => { g with trimWant := want, firstOfTick := fst })
  if want.natAbs ≤ 8000 then d else
  let g := d.tgAt n
  let d := d.sb (Reg.TG_STAT n) 4
  if d.tick.periodNs < 8 * max 1 g.k * err.natAbs then d.onTg n (fun g => { g with rephase := true }) else d

/-- The counts of the frame that has ended raise their sources (R138, R161, R187). -/
def Dev.frameRaises (d : Dev) (n : Nat) : Dev :=
  let d := (d.slice.map (·.1)).foldl (fun d s =>
    if (d.sliceAt s).slowFrame.contains n then
      (d.onSlice s (fun x => { x with slowFrame := x.slowFrame.filter (fun m => m != n) })).raiseIf (d.bt (Reg.SL_INT_EN s) 0) (56 + s)
    else d) d
  let late := Tab.at false d.tile.lateFrame n
  let d := (d.onTile (fun t => { t with lateFrame := Tab.put false t.lateFrame n false })).raiseSlice
    (late && d.bt (Reg.TP_OUT_INT_EN n) 0) n
  let dry := (List.range 2).any (fun p => Tab.at false (d.mxAt n).dryFrame p && d.bt (Reg.MX_VP_INT_EN n p) 0)
  (d.onMx n (fun m => { m with dryFrame := [] })).raiseSlice dry n

/-- The settings of output `n` that take effect at its frame start (R15, R140, R175, R197, R206, R232, R295). -/
def Dev.frameSettings (d : Dev) (n : Nat) : Dev :=
  let d := (d.frameUpdate (.mx n)).frameUpdate (.dm n)
  let d := if d.portFollower n then d else d.frameUpdateBy (.fl n) (fun d => d.flApply n)
  let d := (d.slicesFor n).foldl (fun d s => d.frameUpdate (.sl s)) d
  let d := d.onMx n (fun m => match m.fmtArmed with
    | some w => { m with fmt := w, fmtArmed := none }
    | none => m)
  -- the first frame in a new format (R203)
  let d := d.onMx n (fun m => { m with fmtNew := m.fmt != m.fmtLast, fmtLast := m.fmt })
  d.onTile (fun t => { t with missFill := Tab.put false t.missFill n (d.fbt Reg.TP_MISS_CFG 0) })

/-- Whether the frame that starts shows the fallback (R202, R562 to R564). -/
def Dev.frameFallback (d : Dev) (n : Nat) : Dev :=
  let ends := (d.mxAt n).fbResume == some true
  let d := if ends then
      (d.onMx n (fun m => { m with fbWant := false, fbResume := none })).sf (Reg.AV_OUT_STAT n) 0 2
        (if d.isShed n then 2 else 0)
    else d
  d.onMx n (fun m => { m with fallback := m.fbWant })

/-- A frame of output `n` starts (R52 to R60, R212); its timing and settings are in force. -/
def Dev.beginFrame (d : Dev) (n : Nat) : Dev :=
  let g := d.tgAt n
  let d := d.inc (Reg.TG_FRAME_CNT n)
  -- a frame start within 2 PCLK of the tick counts as before it (R58)
  let d := if (d.tb - d.tick.ts) * g.tm.pNum ≤ 20 * g.tm.pDen then d.sg (Reg.TG_FRAME_LATCH n) (d.rg (Reg.TG_FRAME_CNT n)) else d
  let d := d.frameSettings n
  let fresh := g.nxt != g.lastFlip
  let d := if g.st = .locked then d else
    -- a re-phase sets REPHASE (R55), and completed glides are counted (R62)
    let d := if g.rephase then d.sb (Reg.TG_STAT n) 5 else d
    let d := (d.add (Reg.TG_GLIDE_CNT n) g.glided).onTg n (fun g => { g with rephase := false, glided := 0 })
    (d.tgState n .locked).onMx n (fun m => { m with last := none, spans := [], shSpans := [], lastVid := [], prevSig := none })
  let d := d.onTg n (fun g => { g with
    cur := g.nxt, nxt := none, line := 0, lineTs := d.tb, lineAt := 2 ^ 20 * d.tb, begun := 0, prevLine := g.line, prevTs := g.lineTs, frameTs := d.tb,
    frameJ := g.frameJ + 1, newEpoch := fresh })
  let d := d.framePhase n
  let d := if fresh then
      (d.onTg n (fun g => { g with lastFlip := g.cur, flipTs := d.tb, flipEpoch := g.cur.getD 0 })).event (.flip n) d.tb
    else d
  let d := ((d.frameRaises n).frameFallback n).captureStart n
  let d := d.dmRestart n
  let d := d.eventNow (.frameStart n) d.tb
  d.raiseIf (d.bt (Reg.TG_INT_CFG n) 0 && (fresh || !d.bt (Reg.TG_INT_CFG n) 1)) (8 + n)

/-- The frame in progress is complete and output `n` re-phases: BLANK, and the restart is fixed (R55). -/
def Dev.beginRephase (d : Dev) (n : Nat) : Dev :=
  (d.tgState n .blank).onTg n (fun g =>
    { g with cur := none, nxt := none, trim := 0, lockAt := some d.tb, startAt := d.startPoint n d.tb g.tm })

/-- FRAME_START of output `n` (R15, R52 to R60): a timing that waits takes effect first; with it a glide may begin, or the output go OFF,
and then no frame starts. -/
def frameStart (n : Nat) (d : Dev) : Dev :=
  let g := d.tgAt n
  if g.st = .off ∨ g.glide.isSome ∨ g.lockAt.isNone ∨ (g.st ≠ .locked ∧ g.nxt.isNone) then d else
  let d1 := (d.frameOver n).frameTiming n
  let g1 := d1.tgAt n
  if g1.st = .off ∨ g1.glide.isSome then d1
  else if g.st = .locked ∧ g.rephase = true then d1.beginRephase n
  else if g.nxt.isNone then d
  else d1.beginFrame n

/-- Does a frame start follow the frame in progress (R52, R53, R55)? -/
def Dev.frameFollows (d : Dev) (n : Nat) : Bool :=
  let g := d.tgAt n
  let t := d.comingTiming n
  g.st != .locked || (!g.rephase && decide (t.hTot ≠ 0) && decide (t.freq = g.tm.freq))

/-- TAKE_UP_EDGE of output `n` (R29, R30, R56, R118, R148, R180, R229, R556, R568). -/
def takeUpEdge (n : Nat) (d : Dev) : Dev :=
  let g := d.tgAt n
  if g.st = .off ∨ g.glide.isSome = true ∨ g.lockAt.isNone = true ∨ d.frameFollows n = false then d else
  match d.obj.indexes.head? with
  | none => d
  | some ix =>
    let d := d.onTg n (fun g => { g with nxt := some ix.epoch })
    let d := if ix.epoch = d.obj.epoch then d else d.inc (Reg.TG_LATE_CNT n)
    let d := d.dmOverrun n
    let d := (((d.applyBind n).joinGang (d.portFollower n) n).fantailTakeUp n).takeDamsel n
    let d := d.reloadLive n ix.epoch
    let d := d.onMx n (fun m => { m with
      lat := (regionRegs n).foldl (fun t a => Tab.set Reg.resetWord t a (d.fr a)) m.lat })
    if (List.range 64).any (fun r => d.rectBad n r (if g.st = .locked then d.comingTiming n else g.tm)) then d.sb (Reg.MX_STAT n) 2 else d

/-! ### The commit decision -/

/-- The work of a tick that follows its commit decision, proceeding or not (R556, R559, R562, R563, R565). -/
def Dev.decisionWork (d : Dev) (skip : List Nat) : Dev :=
  let d := d.captureGood
  let (d, moved) := d.remapTick skip
  let d := if moved then d else d.restoreTick
  (d.shedTick.fantailSelect.raise 3).stateIfChanged

/-- A commit that proceeds (R255, R496, R531, R533, R567): the records, then the partial images, then the degraded plans. -/
def W.proceed (w : W) : W :=
  let w := (w.commit w.d.tick.num).applyWaiting
  let due := w.d.updIs 3 && w.d.upd.rec_.isNone && decide (w.d.upd.target ≤ w.d.tick.num)
  let w := if due then w.trialStart else w
  let w := if w.d.upd.revert then w.fallBack else w
  w.dev Dev.applyPlans

/-- COMMIT_DECISION (R27, R31, R68). -/
def commitDecision (w : W) : W :=
  let (d, dec) := w.d.commitDecide
  let w := { w with d := d }
  match dec with
  | .none => w
  | .held => w.dev (fun d => d.trialOver.armLate.decisionWork [])
  | .proceed =>
    let skip := w.bindingOutputs
    (w.dev (fun d => d.trialOver.armLate.decisionWork skip)).proceed

end Sys2Proof.Machine
end

