-- ==== Sys2Proof/Machine/Clock.lean ====
section
/-!
DEFINITION. The passing of time (R25, R251, R314, R386, R407, R477), and the commands that end a wait whose length the spec fixes: such a
command comes at the end of its wait, so the rest of the wait passes first (log entry 5).
-/

namespace Sys2Proof.Machine

/-! ### Time -/

/-- Does a video plane raise urgency (R186): a row waits while the FIFO holds fewer than MX_VP_URG.WM × 256 bytes? -/
def Dev.urgent (d : Dev) : Bool :=
  d.vid.any (fun (p : Nat × VidPlane) => !p.2.wait.isEmpty &&
    (match d.builderOf (p.1 / 2) with
     | some t => d.ff (Reg.MX_VP_URG (d.fd (Reg.SL_BIND t) 0 6) (p.1 % 2)) 0 12 != 0
     | none => false))

/-- Ring time moves towards its goal by at most 1 ns per µs (R314), over `n` ns that have just passed. -/
def Dev.ringTimePass (d : Dev) : Dev :=
  let gap := d.ring.rtWant - d.ring.rtOff
  let steps := (d.tb - d.ring.rtMark) / 1000
  if gap = 0 then d.onRing (fun r => { r with rtMark := d.tb })
  else if steps = 0 then d
  else
    let k : Int := min steps gap.natAbs
    d.onRing (fun r => { r with rtMark := r.rtMark + 1000 * steps, rtOff := if 0 < gap then r.rtOff + k else r.rtOff - k })

/-- `n` TBCLK pass, each 1 ns, and nothing else happens: the timebase, CCLK, the cycle counters of the cores that run or sleep, the
paused fetching and the waiting urgency count, ring time follows its goal, and forwarded frames leave. -/
def Dev.idle (d : Dev) (n : Nat) : Dev :=
  if n = 0 ∨ d.power.por then d else
  let mhz := if d.coreUp then d.cclkMHz else 0
  let c0 := d.cclks
  let d := { d with tb := d.tb + n, cclk := d.cclk + n * mhz }
  let k := d.cclks - c0
  let d := if d.later.isEmpty then d else d.arrivals
  let d := d.ringTimePass
  let d := if d.loaded && d.hopPaused then d.add Reg.HOP_BP_CNT k else d
  let d := if d.urgent then d.add Reg.MEM_URG_CNT k else d
  let d := (List.range 4).foldl (fun d c =>
    if d.kIs c .running || d.kIs c .idle then d.onCore c (fun x => { x with cycle := x.cycle + n * mhz }) else d) d
  -- forwarded frames leave, and a node not heard for 2 tick periods is no member (R304, R312)
  if d.standalone then d else (d.linkFlush (120 * d.tb)).updateMembers

/-- The wait until timebase value `t`. -/
def Dev.waitTo (d : Dev) (t : Nat) : Dev := d.idle (t - d.tb)

/-- The wait until the CCLK count is `k`. -/
def Dev.waitCclk (d : Dev) (k : Nat) : Dev := d.idle (ceilDiv (k * 1000 - d.cclk) d.cclkMHz)

/-! ### Chapter 02 -/

/-- GLIDE_LOCK in the line in which the PLL frequency reaches the new value (R61, R62): the lines of the glide that remain pass first. -/
def glideLockEvent (n : Nat) (d : Dev) : Dev :=
  let d := (d.timedBy n).foldl (fun d m => (d.waitTo (d.glideEndsAt m)).onTg m Tg.glideDone) d
  glideLock n d

/-- COMMIT_DECISION on the 2nd CCLK edge after the tick (R22, R27). -/
def commitEvent (w : W) : W := commitDecision (w.dev (fun d => d.waitTo (d.cclkAfter d.tick.ts 2)))

/-- FLIP_END on the CCLK edge on which the flip ends (R27). -/
def flipEvent (d : Dev) : Dev := if d.obj.flip.isSome then flipEnd (d.waitCclk d.obj.flipAt) else d

/-- BOLTER_BUILD_COMPLETE on the CCLK edge on which the pass writes its last entry (R93). -/
def boltEvent (d : Dev) : Dev :=
  match d.obj.build with
  | some b => boltComplete (d.waitCclk b.doneAt)
  | none => d

/-- SAMPLE_TICK at the time of the next sample (R65), and 2 CCLK later the start of its run (R332), with the AUDIO sections that wait for it
(Table 17-3).  Where every sample of the tick in force has been issued, none can come before the next tick. -/
def sampleEvent (ins : List (Nat × Nat)) (late : List Nat) (w : W) : W :=
  match w.d.tick.sampleAt with
  | some t =>
    let d := w.d.waitTo t
    let changed := decide (d.aud.fs ≠ d.tick.fs)
    let d := sampleFrame ins d
    runBegin changed late (W.takeAudio { w with d := d.waitCclk d.aud.startAt })
  | none => w

/-- The CCLK edge by which the run must end: the last one not after the next sample tick (R347). -/
def Dev.runBy (d : Dev) : Nat := d.edgeAfter (120 * (d.tick.sampleAt.getD d.tick.next)) 0

/-- GRAPH_PHASE, to the CCLK edge on which it ends (R341, R346). -/
def graphEvent (ops wait : Nat) (late : List Nat) (d : Dev) : Dev :=
  let (d, e, fin) := graphPhase d.runBy ops wait late d
  let d := d.waitCclk e
  if fin then d.graphDone else d

/-- When the line after the one in progress begins: one line period later, at the trim in force (R54, R281), in units of 2^-20 ns. -/
def Tg.nextLineAt (g : Tg) : Nat := g.lineAt + g.tm.hTot * g.pxDen * 2 ^ 20 / (120 * max 1 g.pxNum)

/-- The next line of a frame of output `n` in LOCKED begins: line 0 with the frame, any other a line period after the line before. -/
def Dev.nextLine (d : Dev) (n : Nat) : Dev :=
  let g := d.tgAt n
  if g.begun = 0 then lineBegin n 0 g.lineAt d
  else
    let at_ := g.nextLineAt
    lineBegin n g.begun at_ (d.waitTo (at_ / 2 ^ 20))

/-- TG_LINE_BEGIN (R54, R281): each line of the frame begins in its turn, up to the one named; a line that has begun begins no second time.
Outside LOCKED it is a line of a glide or of BLANK, of the length that the sender gives it. -/
def lineEvent (n line : Nat) (d : Dev) : Dev :=
  let g := d.tgAt n
  if g.st = .off ∨ g.tm.vTot ≤ line then d
  else if g.st = .locked then (List.range (line + 1 - g.begun)).foldl (fun d _ => d.nextLine n) d
  else lineBegin n line (2 ^ 20 * d.tb) d

/-- TICK_ISSUE at the time fixed for the tick (R38). -/
def tickIssueEvent (d : Dev) : Dev :=
  let d := d.dropJump
  tickIssue (d.waitTo d.tick.next)

/-- TICK_WINDOW_CLOSE: the window of the last tick ends (R40). -/
def tickWindowEvent (d : Dev) : Dev := tickWindowCmd (d.waitTo d.windowEnd)

/-- The next frame-start point of an output that runs frames (R54). -/
def Dev.nextPoint (d : Dev) (n : Nat) : Nat :=
  let g := d.tgAt n
  d.pointFrom g.tm.phase g.k (g.frameTs + d.spacing (max 1 g.k) / 2)

/-- When the next frame of an output that runs frames starts: at its frame-start point, as far as a trim within ±800 ppm reaches it
(R54, R55). -/
def Dev.nextFrameAt (d : Dev) (n : Nat) : Nat :=
  let g := d.tgAt n
  let len := g.tm.hTot * g.tm.vTot * 10 * g.tm.pDen
  let rate := max 1 (g.tm.pNum * g.tm.ppc)
  let lo := g.frameTs + len * 10000 / (rate * 10008)
  let hi := g.frameTs + len * 10000 / (rate * 9992)
  min hi (max lo (d.nextPoint n))

/-- When the frame that output `n` is to start begins: the start point, or the frame-start point that follows the last (R53, R54). -/
def Dev.frameAt (d : Dev) (n : Nat) : Nat := if (d.tgAt n).st = .locked then d.nextFrameAt n else (d.tgAt n).startAt

/-- FRAME_START at the output's frame-start point. -/
def frameStartEvent (n : Nat) (d : Dev) : Dev :=
  let g := d.tgAt n
  if g.st = .off ∨ g.glide.isSome ∨ g.lockAt.isNone ∨ (g.st ≠ .locked ∧ g.nxt.isNone) then frameStart n d
  else frameStart n (d.waitTo (d.frameAt n))

/-- The take-up point of output `n` in 1/120 ns: λ lines before its frame start (R29). -/
def Dev.takeUpPoint (d : Dev) (n : Nat) : Nat :=
  let t := (d.tgAt n).tm
  120 * d.frameAt n - ceilDiv (d.lead n * t.hTot * 1200 * t.pDen) (max 1 (t.pNum * t.ppc))

/-- TAKE_UP_EDGE: the 2nd CCLK edge after the take-up point (R29, R614). -/
def takeUpEvent (n : Nat) (d : Dev) : Dev :=
  let g := d.tgAt n
  if g.st = .off ∨ g.glide.isSome ∨ g.lockAt.isNone then takeUpEdge n d
  else takeUpEdge n (d.waitCclk (d.edgeAfter (d.takeUpPoint n) 2))

/-! ### Lines (R149 to R155, R167) -/

/-- LINE_BUILD_START on the edge of R149, for a line that the slice builds and whose build start lies in the line that the beam is in. -/
def buildStartEvent (s line : Nat) (w : W) : W :=
  match (w.d.buildsLine s line).bind (fun n => w.d.buildEdge n line) with
  | some e => (lineBuildStart s line (w.dev (fun d => d.waitCclk e)).rasterAll)
  | none => w

/-- LINE_DUE_POINT on the edge of R149. -/
def duePointEvent (s line : Nat) (w : W) : W :=
  match ((w.d.sliceAt s).lines.find? (fun l => l.line == line && !l.dueGone)).bind (fun lw => w.d.dueEdge lw.out line) with
  | some e => lineDuePoint s line (w.dev (fun d => d.waitCclk e)).rasterAll
  | none => w

/-- OBJECT_BUILD_END when T(L) is over (R155), pattern data permitting; not beyond the line's due point, which abandons it (R152). -/
def buildEndEvent (s : Nat) (w : W) : W :=
  let w := w.raster s
  match (w.d.sliceAt s).lines.find? (fun l => l.stage == .building) with
  | none => w
  | some lw =>
    let e := lw.startAt + lw.work + lw.stall
    if !lw.objWait.isEmpty || ((w.d.dueEdge lw.out lw.line).any (fun due => decide (due < e))) then w
    else objectBuildEnd s (w.dev (fun d => d.waitCclk e)).rasterAll

/-- MIX_GROUP when the beam reaches the group (R149, R167): its first pixel enters the mixer. -/
def mixEvent (n x : Nat) (miss : Bool) (w : W) : W :=
  let g := w.d.tgAt n
  let line := (if x = 0 then (w.d.mxAt n).due else (w.d.mxAt n).now).map (fun l => l.work.line)
  if line = some g.line then mixStep n x miss (w.dev (fun d => d.waitTo (ceilDiv (g.beamTime g.lineTs x) 120))).rasterAll else w

/-- INVALIDATE_DONE when the scan of 4 lines a CCLK has ended (R139). -/
def invalidateEvent (w : W) : W :=
  if w.d.tile.inv.isSome then invalidateDone (w.dev (fun d => d.waitCclk d.tile.invAt)).rasterAll else w

/-- TABLE_COPY_DONE after the 848 CCLK of the copy (R194). -/
def tableCopyEvent (n : Nat) (d : Dev) : Dev :=
  if d.bt (Reg.MX_TBL_CMD n) 1 then tableCopyDone n (d.waitCclk (d.mxAt n).copyAt) else d

/-! ### Damsel (R219 to R222) -/

/-- An instruction of the engine: it begins when the one before has ended, and its own CCLK pass (R219).  A command that finds another
instruction, or an engine that does not execute, changes nothing. -/
def dmEvent (f : Nat → Dev → Dev) (n : Nat) (d : Dev) : Dev :=
  if ((f n d).dmAt n).at_ = (d.dmAt n).at_ then d else
  let d := f n (d.waitCclk (d.dmAt n).at_)
  d.waitCclk (d.dmAt n).at_

/-- WAIT_POINT_REACHED on the edge of R220. -/
def dmPointEvent (n : Nat) (d : Dev) : Dev :=
  match (d.dmAt n).wait with
  | .point x line => match d.dmEdge n x line with
    | some e => dmPointReached n (d.waitCclk (max e (d.dmAt n).at_))
    | none => d
  | _ => d

/-- The edge on which the next event on its way to event input `i` of engine `n` arrives. -/
def Dev.dmNextEvent (d : Dev) (n i : Nat) : Option Nat :=
  (d.later.find? (fun p => match p.2 with
    | .event e => e.matches (bits (d.raw (Reg.DM_EV_SEL n i)) 0 3) (bits (d.raw (Reg.DM_EV_SEL n i)) 4 7)
    | _ => false)).map (·.1)

/-- WAITEV_COMPLETE: at once when an event is there, else on the edge on which one arrives that is on its way, or on which the timeout line is
reached (R222, R227). -/
def dmWaitEvEvent (n : Nat) (d : Dev) : Dev :=
  match (d.dmAt n).wait with
  | .event i tmo =>
    let d := d.waitCclk (d.dmAt n).at_
    if 1 ≤ d.fd (Reg.DM_EV_CNT n) (4 * i) 4 then dmWaitEvComplete n d
    else match d.dmNextEvent n i, tmo.bind (fun l => d.dmEdge n 0 l) with
      | some e, some t => dmWaitEvComplete n (d.waitCclk (min e t))
      | some e, none => dmWaitEvComplete n (d.waitCclk e)
      | none, some t => dmWaitEvComplete n (d.waitCclk t)
      | none, none => d
  | _ => d

/-! ### Chapters 08, 09, 10 and 13 -/

/-- TRACKER_CUT_LATCH when ring time reaches the cut of the tick to come (R261, R620). -/
def trackerEvent (d : Dev) : Dev :=
  match d.hop.cuts.head? with
  | some (n, c) => if n ≤ d.tick.num ∨ d.hop.latched = true then d else trackerLatch (d.waitTo ((c : Int) - d.ring.rtOff).toNat)
  | none => d

/-- TRAINING_COMPLETE after the 34,817 block times of the sequence (R276). -/
def trainingEvent (n : Nat) (d : Dev) : Dev :=
  match (d.flAt n).training with
  | some t =>
    trainingComplete n (d.waitTo (t + ceilDiv ((trainBlocks + 1) * 66000) (d.flRate n)))
  | none => d

/-- PACKET_SEND at the slot-group boundary at which the START of the oldest formed packet leaves (R286). -/
def packetEvent (n : Nat) (d : Dev) : Dev :=
  match d.flActive n, (d.flAt n).queue with
  | true, p :: _ =>
    let place := ((d.flAt n).span (d.flReady n p.at_) (pktGroups (ceilDiv p.payload.length 8) (d.flLanes n))).1
    packetSend n (d.waitTo (d.flPlaceNs n place))
  | _, _ => packetSend n d

/-- ALIGN_GROUP at its place (R275). -/
def alignEvent (n : Nat) (d : Dev) : Dev := if d.flActive n then alignGroup n (d.waitTo (d.flPlaceNs n (d.flAt n).alignAt)) else d

/-- IDLE_STATUS_TIMER 1,000 µs after the last frame, the entry to ACTIVE or the STATUS before (R284). -/
def idleStatusEvent (n : Nat) (d : Dev) : Dev :=
  if d.flActive n && !(d.runsFrame n && d.bt (Reg.SL_OUT_BIND n) 16) then idleStatusTimer n (d.waitTo ((d.flAt n).statusAt + 1000000)) else d

/-- FRAME_INJECT at the slot group in which the next originated frame leaves (R305). -/
def frameInjectEvent (d : Dev) : Dev :=
  match d.nextInject with
  | some k => if d.linksUp then frameInject (d.waitTo (d.departAt (frameGroups k) / 120)) else frameInject d
  | none => frameInject d

/-- RING_INPUT_RETURN after 100 µs (R308). -/
def ringReturnEvent (d : Dev) : Dev :=
  if d.ring.sel = 2 ∧ d.ring.priAlive = true ∧ d.ring.priJoined = true then ringInputReturn (d.waitTo (d.ring.priSince + 100000)) else d

/-- PROBE_TIMEOUT after 1,000 µs (R318). -/
def probeTimeoutEvent (d : Dev) : Dev :=
  match d.ring.probes.head? with
  | some t => ringProbeTimeout (d.waitTo (ceilDiv (t + 1000000000) 1000))
  | none => d

/-- SEGMENT_TIMEOUT after 2 tick periods (R310). -/
def segmentTimeoutEvent (d : Dev) : Dev :=
  match d.ring.ownSent with
  | some t0 => if d.ring.seg then ringSegmentTimeout d
    else ringSegmentTimeout (d.waitTo (max (t0 + 2 * d.tickNs) (d.ring.ownBack.getD 0 + 2 * d.tickNs + 1)))
  | none => ringSegmentTimeout d

/-- SOURCE_TIMEOUT after the node's timeout (R319). -/
def sourceTimeoutEvent (d : Dev) : Dev :=
  if d.standalone || d.ring.source || !d.bt Reg.RING_CFG 8 then d else
  ringSourceTimeout (d.waitTo (match d.ring.tickAt with
    | some t => t + (4 + d.nodeId) * d.tickNs
    | none => d.ring.listenAt + 100000000 + d.nodeId * 10000000))

/-- MODERATION_RELEASE when MOD_US has elapsed (R402). -/
def moderationEvent (c g : Nat) (d : Dev) : Dev :=
  let m := Tab.at {} (d.intcAt c).groups g
  if m.held then moderationRelease c g (d.waitTo (m.since + d.fd (Reg.INTC_MOD c g) 0 16 * 1000)) else d

/-- CMP_FIRE on the CCLK edge at which the synchroniser shows that the channel's clock has reached the compare value (R22, R408). -/
def cmpFireEvent (c : Nat) (d : Dev) : Dev :=
  if !(d.tmrAt c).armed then d else
  match d.tmrClock c with
  | none => d
  | some now => cmpFire c (d.waitTo (d.cclkAfter (d.tb + (d.tmrAt c).cmp - now) 2))

/-! ### Chapters 13 and 14 -/

/-- DMA_COMPLETE, not before the channel's own beats could be made, one a CCLK (R417). -/
def dmaEvent (ch : Nat) (data : List Byte) (w : W) : W :=
  if !(w.d.dmaAt ch).busy || w.d.dmaWaits ch then dmaComplete ch data w
  else dmaComplete ch data (w.dev (fun d => d.waitCclk ((d.dmaAt ch).startAt + ceilDiv (d.rg (Reg.DMA_COUNT ch)).toNat 64)))

/-- BLT_WATERMARK, not before its rows can be complete (R436, R438). -/
def bltWmEvent (e : Nat) (w : W) : W :=
  if !w.d.bltBusy e || Tab.at false w.d.bltWm e || !w.d.banksReady (w.d.bltBanks e) then bltWatermark e w else
  match w.d.wmRows e with
  | some k => bltWatermark e (w.dev (fun d => d.waitCclk (d.bltEdge e k)))
  | none => w

/-- BLT_COMPLETE, not before every row can be complete (R436, R437), and after a watermark that lies before the last row. -/
def bltEndEvent (e : Nat) (w : W) : W :=
  if !w.d.bltBusy e || !w.d.banksReady (w.d.bltBanks e) then bltComplete e w else
  let w := if ((w.d.wmRows e).map (fun k => decide (k < w.d.bltH e))).getD false then bltWmEvent e w else w
  bltComplete e (w.dev (fun d => d.waitCclk (d.bltEdge e (d.bltH e))))

/-! ### Chapters 15 and 16 -/

/-- GLITCH_FILTER_SETTLE of group `g`: the first of its raw changes has held for GLITCH CCLK (R448). -/
def glitchEvent (g : Nat) (d : Dev) : Dev := glitchSettle g (d.waitCclk ((firstDue (d.glitchDue g)).getD 0))

/-- DEBOUNCE_SETTLE of group `g`: the first of its glitch-filtered changes has held for DEB_MS (R448). -/
def debounceEvent (g : Nat) (d : Dev) : Dev :=
  if d.fd (Reg.GP_GRP_CFG g) 0 8 = 0 then debounceSettle g d
  else debounceSettle g (d.waitTo ((firstDue (d.debounceDue g)).getD 0))

/-- The engine's next tick (R452). -/
def Dev.waitPio (d : Dev) (e : Nat) : Dev :=
  let g := d.pioAt e
  if d.bt (Reg.PIO_E_CFG e) 0 then d.waitCclk (g.t0 + g.n * d.pioDiv e / 256) else d

/-- PIO_TICK. -/
def pioTickEvent (e : Nat) (d : Dev) : Dev := pioTick e (d.waitPio e)

/-- A tick in which the context executes the operation named. -/
def pioOpEvent (op e : Nat) (d : Dev) : Dev :=
  let d' := pioTickOp op e (d.waitPio e)
  if (d'.pioAt e).n = (d.pioAt e).n then d else d'

/-- BANK_WAKE_DONE 2 µs after the wake (R471), with the writes that waited for it. -/
def bankWakeEvent (b : Nat) (w : W) : W :=
  if w.d.bankState b = 2 then (w.dev (fun d => bankWoken b (d.waitTo (Tab.at 0 d.wakeAt b + 1999)))).winFlush else w

/-- A host access of `n` bytes at BAR0 offset `o` waits for the banks of the paged window that it reaches, which wake (R471). -/
def W.winReady (w : W) (ag : Agent) (o n : Nat) : W :=
  if ag = .host ∧ 0x2000000 ≤ o then
    let banks := w.d.winBanks (o - 0x2000000) n
    if w.d.banksReady banks then w else banks.foldl (fun w b => bankWakeEvent b w) (w.dev (fun d => d.wakeBanks banks))
  else w

/-! ### Chapters 18 and 19 -/

/-- WIPE_DONE after 131.072 µs (R540). -/
def wipeDoneEvent (w : W) : W :=
  match w.d.sec.wipeAt with
  | some t => wipeDone (w.dev (fun d => d.waitTo (t + 131072)))
  | none => w

/-- VERIFY_DONE 2,100 µs ± 1 µs after the start (R525). -/
def verifyEvent (w : W) : W :=
  match w.d.sec.vfy with
  | some j => verifyDone (w.dev (fun d => d.waitTo (j.at_ + 2099000)))
  | none => w

/-- RNG_BLOCK once the samples of a block have been taken since the one before (R543). -/
def rngBlockEvent (w : W) : W :=
  if w.d.rngClosed || w.d.sec.rng.isEmpty then w else
  rngBlock (w.dev (fun d =>
    let d := d.reachUpdate .sec
    d.waitTo (d.sec.rngAt + 100 * d.rngSamples)))

/-- RNG_STARTUP_DONE: the 4,096 samples of a test that passes take 409.6 µs (R543, R544). -/
def rngStartupEvent (fail : Option Bool) (w : W) : W :=
  let wait := w.d.bt Reg.SEC_RNG_STAT 1 && fail.isNone
  rngStartupDone fail (if wait then w.dev (fun d => d.waitTo (d.sec.rngAt + 409600)) else w)

/-- The time that `n` further units of the slot's operation take at least has passed. -/
def W.lopPace (w : W) (s n : Nat) : W :=
  if !w.d.lopRuns s then w else
  w.dev (fun d =>
    let d := d.reachUpdate .sys
    let n := match d.lopBad s (d.lopProg s) n with
      | some (_, _, u) => u - d.lopProg s
      | none => n
    d.waitTo (d.lopBy s n))

/-- LOP_SUSPEND_POINT after the units that precede it (R500). -/
def lopSuspendEvent (s n : Nat) (w : W) : W :=
  if w.d.lopOp s = 4 then lopSuspendPoint s n w else lopSuspendPoint s n (w.lopPace s (w.lopReach s n))

/-- LOP_COMPLETE after the rest of its work (R502), an IMAGE_VERIFY after its signature check (R525, R527). -/
def lopCompleteEvent (s : Nat) (fail : Option Nat) (w : W) : W :=
  let done := lopComplete s fail w
  if !w.d.lopRuns s then done
  else if fail.isNone ∨ w.d.lopOp s = 3 ∨ w.d.lopOp s = 5 then lopComplete s fail (w.lopPace s (w.lopLeft s))
  else done

/-- PATROL_SCRUB_READ when its next word is due (R550). -/
def patrolEvent (d : Dev) : Dev := if d.scrubS = 0 then d else patrolScrub (d.waitTo d.scrubDue)

/-- ROW_SWITCH after the 128 CCLK of the copy (R552). -/
def rowSwitchEvent (b r : Nat) (d : Dev) : Dev :=
  match d.copyOf b r with
  | some c => rowSwitch b r (d.waitCclk (c.at_ + 128))
  | none => d

/-- SELF_TEST_DONE after 16,384 µs (R561). -/
def selfTestEvent (s : Nat) (fail : Option Nat) (d : Dev) : Dev :=
  match Tab.at none d.av.tests s with
  | some t => selfTestDone s fail (d.waitTo (t + 16384000))
  | none => d

/-! ### The cores -/

/-- WDT_EXPIRY when PERIOD has been counted (R391). -/
def wdtEvent (c : Nat) (d : Dev) : Dev :=
  let k := d.coreAt c
  if !d.fbt (Reg.KC_WDT_CFG c) 31 || d.kIs c .reset || d.kIs c .loading || k.wdtPaused.isSome then d
  else wdtExpiry c (d.waitTo (k.wdtAt + d.wdtPeriod c))

/-- CORE_RESTART_COMPLETE: stores still outstanding wait out the drain limit (R392). -/
def restartEvent (c : Nat) (w : W) : W :=
  match (w.d.coreAt c).restart with
  | some r =>
    let k := w.d.coreAt c
    if (k.posted.isEmpty && k.wait == .none) || !w.d.kIs c .loading || !(!w.d.startQ.contains c || w.d.startQ.head? == some c) then
      restartComplete c w
    else restartComplete c (w.dev (fun d => d.waitCclk (r.at_ + 8192)))
  | none => w

end Sys2Proof.Machine
end

