-- ==== Sys2Proof/Machine/CoreExec.lean ====
section
/-!
DEFINITION. The Krytesh instruction set (R371 to R390): fetch, decode, and what each instruction does.
-/

namespace Sys2Proof.Machine

/-! ### Instruction fields (R379) -/

/-- OP. -/
def kOp (i : Word) : Nat := bits i.toNat 26 6
/-- RD of formats R and I; RS2 of format S; RS1 of formats B and BT. -/
def kRd (i : Word) : Nat := bits i.toNat 21 5
/-- RS1 of formats R, I and S; RS2 of format B; SUB of format BT. -/
def kRs1 (i : Word) : Nat := bits i.toNat 16 5
/-- RS2 of format R. -/
def kRs2 (i : Word) : Nat := bits i.toNat 11 5
/-- FN of format R. -/
def kFn (i : Word) : Nat := bits i.toNat 0 11
/-- IMM, OFF of formats B and BA, BIT of format BT, unsigned. -/
def kImm (i : Word) : Nat := bits i.toNat 0 16
/-- The same, sign-extended. -/
def kSimm (i : Word) : Int := signed 16 i.toNat

/-- FN values that OP 0x00 lists. -/
def aluFns : Nat := 18

/-- Does the word raise ILLEGAL by its OP, FN, SUB or TLI format (Table 12-4, Table 12-5, R383, R384)? -/
def kIllegal (i : Word) : Bool :=
  match kOp i with
  | 0x00 => decide (aluFns ≤ kFn i)
  | 0x1B => decide (14 ≤ kRs1 i)
  | 0x1F => decide (5 ≤ bits i.toNat 0 3)
  | 0x20 => decide (kFn i = 3) || decide (7 < kFn i)
  | 0x21 => kImm i == 5 || decide (16 ≤ kImm i)
  | 0x22 => kImm i == 5 || decide (16 ≤ kImm i)
  | 0x23 => decide (4 < kFn i)
  | op => decide (0x23 < op)

/-- The word is the instruction with this OP. -/
def isOp (op : Nat) (i : Word) : Bool := kOp i == op
/-- The word is the instruction with this OP and FN. -/
def isOpFn (op fn : Nat) (i : Word) : Bool := kOp i == op && kFn i == fn
/-- The word is this BIT sub-operation. -/
def isBit (sub : Nat) (i : Word) : Bool := kOp i == 0x1B && kRs1 i == sub

/-! ### Issue (R380, R387, R388, R582) -/

/-- The core issues an instruction now: it runs, waits for nothing, and neither an interrupt, a breakpoint nor a halt comes first. -/
def Dev.issues (d : Dev) (c : Nat) : Bool :=
  d.coreUp && decide (c < 4) && d.kIs c .running && (d.coreAt c).wait == .none && !d.interruptDue c && !d.bpHit c &&
    !((d.coreAt c).haltReq && (d.coreAt c).slot.isNone)

/-- Core `c` executes the instruction at its PC, if it is the one that `is` names: `f` does it.  A fetch outside the ITCM raises FETCH,
one of a word in error MEMERR. -/
def kRow (is : Word → Bool) (f : Nat → Word → W → W) (c : Nat) (w : W) : W :=
  if !w.d.issues c then w else
  let pc := (w.d.coreAt c).pc
  if 0x20000 ≤ pc then w.kRaise c .fetch pc
  else if w.d.badWords.contains (tcmKey c pc) then w.kRaise c .memerr pc
  else
    let i := w.tcmWord c pc
    if is i then f c i w else w

/-- ILLEGAL: the word at PC is reserved. -/
def kIllegalStep (c : Nat) (_ : Word) (w : W) : W := w.kRaise c .illegal 0

/-! ### Arithmetic and logic -/

/-- The result goes to RD and the instruction completes. -/
def W.kResult (w : W) (c rd : Nat) (v : Word) : W := w.dev (fun d => (d.onCore c (fun k => k.setReg rd v)).complete c)

/-- An operation on two registers. -/
def kAlu (f : Word → Word → Word) (c : Nat) (i : Word) (w : W) : W :=
  let k := w.d.coreAt c
  w.kResult c (kRd i) (f (k.src (kRs1 i)) (k.src (kRs2 i)))

/-- An operation on a register and the RS2 field. -/
def kShiftImm (f : Word → Nat → Word) (c : Nat) (i : Word) (w : W) : W :=
  w.kResult c (kRd i) (f ((w.d.coreAt c).src (kRs1 i)) (kRs2 i))

/-- An operation on a register and the immediate. -/
def kAluImm (f : Word → Word → Word) (imm : Word → Word) (c : Nat) (i : Word) (w : W) : W :=
  w.kResult c (kRd i) (f ((w.d.coreAt c).src (kRs1 i)) (imm i))

/-- The sign-extended immediate. -/
def sImm (i : Word) : Word := BitVec.ofInt 32 (kSimm i)
/-- The zero-extended immediate. -/
def zImm (i : Word) : Word := BitVec.ofNat 32 (kImm i)

/-- 1 or 0. -/
def boolWord (b : Bool) : Word := if b then 1 else 0

/-- Signed quotient toward 0, with the corners of R381. -/
def kDivS (x y : Word) : Word := if y = 0 then 0xFFFFFFFF else BitVec.ofInt 32 (x.toInt.tdiv y.toInt)
/-- Unsigned quotient. -/
def kDivU (x y : Word) : Word := if y = 0 then 0xFFFFFFFF else BitVec.ofNat 32 (x.toNat / y.toNat)
/-- Signed remainder with the sign of the dividend. -/
def kRemS (x y : Word) : Word := if y = 0 then x else BitVec.ofInt 32 (x.toInt.tmod y.toInt)
/-- Unsigned remainder. -/
def kRemU (x y : Word) : Word := if y = 0 then x else BitVec.ofNat 32 (x.toNat % y.toNat)
/-- High word of the signed product. -/
def kMulH (x y : Word) : Word := BitVec.ofInt 32 (x.toInt * y.toInt / 2 ^ 32)
/-- High word of the unsigned product. -/
def kMulHU (x y : Word) : Word := BitVec.ofNat 32 (x.toNat * y.toNat / 2 ^ 32)

/-! ### Loads (R371 to R374, R377) -/

/-- A value of `size` bytes, extended as the load says. -/
def LoadKind.extend (k : LoadKind) (v : Nat) : Word :=
  if k.signed then BitVec.ofInt 32 (Machine.signed (8 * k.size) v) else BitVec.ofNat 32 (v % 2 ^ (8 * k.size))

/-- A load's result is written, and the next instruction is its slot instruction. -/
def Dev.loadDone (d : Dev) (c rd : Nat) (v : Word) : Dev :=
  let old := (d.coreAt c).reg rd
  (d.onCore c (fun k => k.setReg rd v)).completeAt c (nextPc (d.coreAt c).pc) (some (rd, old))

/-- The SRAM banks that a waiting load reads. -/
def Dev.waitBanks (d : Dev) (c : Nat) : List Nat :=
  let of := fun (a n : Nat) => match d.coreTarget c a n with
    | .sram x => banksOf x n
    | _ => []
  match (d.coreAt c).wait with
  | .load _ a k => of a k.size
  | .tli _ b x f => of (tliAddrs b x f).1 (tliSize f)
  | .tli2 _ b x f _ _ => of (tliAddrs b x f).2 (tliSize f)
  | _ => []

/-- A waiting load whose earlier stores have taken effect makes its access: retained banks start to wake (R374, R471). -/
def Dev.loadAccess (d : Dev) (c : Nat) : Dev := if (d.coreAt c).posted.isEmpty then d.wakeBanks (d.waitBanks c) else d

/-- The instruction in the memory stage begins to wait. -/
def Dev.beginWait (d : Dev) (c : Nat) (x : CoreWait) : Dev :=
  (d.onCore c (fun k => { k with wait := x, since := d.cclks })).loadAccess c

/-- Does an earlier posted store of the core still have KC_LPWIN to write, so that its window at `a` is not settled (R374)? -/
def Dev.winWaits (d : Dev) (c a : Nat) : Bool :=
  decide (0x80000000 ≤ a) && decide (a < 0xC0000000) && (d.coreAt c).posted.any (fun p => p.addr == 0x40000000 + Reg.KC_LPWIN c)

/-- A load at x + imm.  One whose window an earlier store of the core has yet to move waits for it, whatever the address reaches now. -/
def kLoad (kind : LoadKind) (c : Nat) (i : Word) (w : W) : W :=
  let a := ((w.d.coreAt c).src (kRs1 i) + sImm i).toNat
  if a % kind.size ≠ 0 then w.kRaise c .align a
  else if w.d.winWaits c a then w.dev (fun d => d.beginWait c (.load (kRd i) a kind))
  else match w.d.coreTarget c a kind.size with
  | .bad => w.kRaise c .load a
  | .tcm a =>
    if w.d.badWords.contains (tcmKey c a) then w.kRaise c .memerr a
    else w.dev (fun d => d.loadDone c (kRd i) (kind.extend (w.rdN .tcm (tcmAddr c a) kind.size)))
  | _ => w.dev (fun d => d.beginWait c (.load (kRd i) a kind))

/-- One read of core memory: its value, or the fault that it meets.  Reads of registers have their effects. -/
def W.coreRead (w : W) (c a n : Nat) : W × Except Cause Nat :=
  match w.d.coreTarget c a n with
  | .bad => (w, .error .load)
  | .tcm a => (w, if w.d.badWords.contains (tcmKey c a) then .error .memerr else .ok (w.rdN .tcm (tcmAddr c a) n))
  | .sram a =>
    (w, if w.d.sramBadIn a n then .error .load
      else if a / 2 ^ 21 = 95 ∧ w.d.bt Reg.SEC_STAT 1 = true then .ok 0 else .ok (leNat (w.portRead a n)))
  | .lp a => (w, if w.d.badWords.contains (lpKey a) && !w.d.fenced a then .error .load else .ok (leNat (w.lpRead a n)))
  | .reg o =>
    let w := w.busRead (.core c) (o / 4 * 4)
    (w, .ok (bits w.d.rdata.toNat (8 * (o % 4)) (8 * n)))

/-- A TLI entry as a number. -/
def tliEntry (f v : Nat) : Int := if f = 0 ∨ f = 2 then (v % 2 ^ (8 * tliSize f) : Nat) else signed (8 * tliSize f) v

/-- The interpolation of R383. -/
def tliValue (e0 e1 : Int) (f : Nat) : Word := BitVec.ofInt 32 (e0 + ((e1 - e0) * f + 0x8000) / 65536)

/-- Both entries have been read: they are interpolated, or a fault in either leaves RD unwritten, LOAD before MEMERR (Table 12-9). -/
def W.tliEnd (w : W) (c rd base index f : Nat) (r0 r1 : Except Cause Nat) : W :=
  let (a0, a1) := tliAddrs base index f
  match r0, r1 with
  | .ok v0, .ok v1 => w.dev (fun d => d.loadDone c rd (tliValue (tliEntry f v0) (tliEntry f v1) (index % 65536)))
  | .error .load, _ => w.kRaise c .load a0
  | _, .error .load => w.kRaise c .load a1
  | .error e, _ => w.kRaise c e a0
  | _, .error e => w.kRaise c e a1

/-- Is an entry read in one KCLK, or refused at once: in a TCM, or nowhere (R371)?  Not while the window is to move. -/
def Dev.tliNow (d : Dev) (c a f : Nat) : Bool :=
  !d.winWaits c a && (match d.coreTarget c a (tliSize f) with
    | .tcm _ => true
    | .bad => true
    | _ => false)

/-- The first entry has been read, with result `r0`: then the second, which has a limit of its own (R373, R383). -/
def W.tliSecond (w : W) (c rd base index f : Nat) (r0 : Except Cause Nat) : W :=
  let a1 := (tliAddrs base index f).2
  if w.d.tliNow c a1 f then
    let (w, r1) := w.coreRead c a1 (tliSize f)
    w.tliEnd c rd base index f r0 r1
  else
    let (v, bad) : Nat × Option Cause := match r0 with
      | .ok v => (v, none)
      | .error e => (0, some e)
    w.dev (fun d => d.beginWait c (.tli2 rd base index f v bad))

/-- The result of the first entry as a wait for the second keeps it. -/
def tliFirst (v : Nat) (bad : Option Cause) : Except Cause Nat := match bad with
  | some e => .error e
  | none => .ok v

/-- TLI. -/
def kTli (c : Nat) (i : Word) (w : W) : W :=
  let k := w.d.coreAt c
  let f := bits i.toNat 0 3
  let base := (k.src (kRs1 i)).toNat
  let index := (k.src (kRs2 i)).toNat
  if kIllegal i then w.kRaise c .illegal 0
  else if base % tliSize f ≠ 0 then w.kRaise c .align base else
  let a0 := (tliAddrs base index f).1
  if w.d.tliNow c a0 f then
    let (w, r0) := w.coreRead c a0 (tliSize f)
    w.tliSecond c (kRd i) base index f r0
  else w.dev (fun d => d.beginWait c (.tli (kRd i) base index f))

/-- The data of a load return: every earlier store has taken effect and the banks are usable, and the data arrives in time (R373, R374). -/
def loadReturn (c : Nat) (w : W) : W :=
  let k := w.d.coreAt c
  if !w.d.coreUp || !k.posted.isEmpty || !(w.d.kIs c .running || w.d.kIs c .loading) || !w.d.banksReady (w.d.waitBanks c) ||
      decide (k.since + 8192 < w.d.cclks) then w else
  match k.wait with
  | .load rd a kind =>
    let (w, r) := w.coreRead c a kind.size
    (match r with
     | .ok v => w.dev (fun d => d.loadDone c rd (kind.extend v))
     | .error e => w.kRaise c e a)
  | .tli rd b x f =>
    let (w, r0) := w.coreRead c (tliAddrs b x f).1 (tliSize f)
    w.tliSecond c rd b x f r0
  | .tli2 rd b x f v bad =>
    let (w, r1) := w.coreRead c (tliAddrs b x f).2 (tliSize f)
    w.tliEnd c rd b x f (tliFirst v bad) r1
  | _ => w

/-- LOAD_DATA_RETURN; a bank may wait for the access to end (R470). -/
def loadDataReturn (c : Nat) (w : W) : W := (loadReturn c w).dev Dev.retainDue

/-- A load runs out of time: 4,096 KCLK after the load began it ends as a LOAD exception (R373); of a TLI whose first read does so the second is still
made (R383). -/
def loadExpire (c : Nat) (w : W) : W :=
  let k := w.d.coreAt c
  match k.wait with
  | .load _ a _ => (w.dev (fun d => d.waitCclk (k.since + 8192))).kRaise c .load a
  | .tli rd b x f => (w.dev (fun d => d.waitCclk (k.since + 8192))).tliSecond c rd b x f (.error .load)
  | .tli2 rd b x f v bad => (w.dev (fun d => d.waitCclk (k.since + 8192))).tliEnd c rd b x f (tliFirst v bad) (.error .load)
  | _ => w

/-- LOAD_TIMEOUT. -/
def loadTimeout (c : Nat) (w : W) : W := (loadExpire c w).dev Dev.retainDue

/-! ### Stores (R371 to R375) -/

/-- Does a store to this address use the private port (R375)? -/
def privateStore (a : Nat) : Bool := decide (0x40500000 ≤ a) && decide (a < 0x40600000)

/-- A store takes effect; one through the private port reaches its sluice unit 2 CCLK after it leaves the memory stage (R168). -/
def W.storeNow (w : W) (c : Nat) (p : Posted) : W :=
  match (p.lp.map CoreTgt.lp).getD (w.d.coreTarget c p.addr p.size) with
  | .tcm a => w.wrN .tcm (tcmAddr c a) p.size p.v.toNat
  | .sram a => w.portWriteBy { secure := c == 3 } a (leBytes p.size p.v.toNat)
  | .lp a => w.lpWrite a (leBytes p.size p.v.toNat)
  | .reg o =>
    let at_ := 8 * (o % 4)
    let put := fun (w : W) => w.busWrite (.core c) (o / 4 * 4) (p.v <<< at_) (fieldWord 0 at_ (8 * p.size) (2 ^ (8 * p.size) - 1))
    if privateStore p.addr then w.slArriving (w.d.cclkEdge w.d.tb 2) (1 + c) put else put w
  | .bad => w

/-- A store to `a` leaves the memory stage for the posted buffer, its window settled; it waits while an earlier store has the window to
move, or the buffer is full (R373, R374). -/
def W.postStore (w : W) (c a size : Nat) (v : Word) : W :=
  let full := decide (8 ≤ (w.d.coreAt c).posted.length) || w.d.winWaits c a
  match w.d.coreTarget c a size with
  | .bad => if w.d.winWaits c a then w.dev (fun d => d.beginWait c (.store a size v)) else w.kRaise c .store a
  | t =>
    if full then w.dev (fun d => d.beginWait c (.store a size v))
    else
      let lp := match t with
        | .lp b => some b
        | _ => none
      w.dev (fun d => (d.onCore c (fun k => { k with posted := k.posted ++ [{ addr := a, size := size, v := v, lp := lp }] })).complete c)

/-- A store of `size` bytes at x + imm. -/
def kStore (size : Nat) (c : Nat) (i : Word) (w : W) : W :=
  let k := w.d.coreAt c
  let a := (k.src (kRs1 i) + sImm i).toNat
  let p : Posted := { addr := a, size := size, v := k.src (kRd i) }
  if a % size ≠ 0 then w.kRaise c .align a else
  match w.d.coreTarget c a size with
  | .tcm _ => (w.storeNow c p).dev (fun d => d.complete c)
  | .reg _ => if privateStore a then (w.storeNow c p).dev (fun d => d.complete c) else w.postStore c a size p.v
  | _ => w.postStore c a size p.v

/-- The oldest posted store takes effect, a retained bank being woken first; a stalled store enters the buffer, and
a FENCE whose stores are all done completes (R373, R374, R471). -/
def storeComplete (c : Nat) (w : W) : W :=
  if !w.d.coreUp then w else
  match (w.d.coreAt c).posted with
  | [] => w
  | p :: rest =>
    let banks := match w.d.coreTarget c p.addr p.size with
      | .sram a => banksOf a p.size
      | _ => []
    if !w.d.banksReady banks then w.dev (fun d => d.wakeBanks banks) else
    let w := w.dev (fun d => d.onCore c (fun k => { k with posted := rest }))
    let w := w.storeNow c p
    match (w.d.coreAt c).wait with
    | .store a size v => w.postStore c a size v
    | .fence => if rest.isEmpty then w.dev (fun d => d.complete c) else w
    | _ => w.dev (fun d => d.loadAccess c)

/-- POSTED_STORE_COMPLETE; a bank may wait for the access to end (R470). -/
def postedStoreComplete (c : Nat) (w : W) : W := (storeComplete c w).dev Dev.retainDue

/-- FENCE. -/
def kFence (c : Nat) (_ : Word) (w : W) : W :=
  w.dev (fun d => if (d.coreAt c).posted.isEmpty then d.complete c else d.beginWait c .fence)

/-! ### Branches, jumps and the stack (R380 to R382) -/

/-- The instruction completes, and the next one lies at `pc`. -/
def W.kGo (w : W) (c pc : Nat) : W := w.dev (fun d => d.completeAt c pc none)

/-- A conditional branch on two registers. -/
def kBranch (f : Word → Word → Bool) (c : Nat) (i : Word) (w : W) : W :=
  let k := w.d.coreAt c
  w.kGo c (if f (k.src (kRd i)) (k.src (kRs1 i)) then jumpPc k.pc (kSimm i) else nextPc k.pc)

/-- J. -/
def kJ (c : Nat) (i : Word) (w : W) : W := w.kGo c (jumpPc (w.d.coreAt c).pc (signed 26 i.toNat))

/-- JR. -/
def kJr (c : Nat) (i : Word) (w : W) : W :=
  let x := ((w.d.coreAt c).src (kRs1 i)).toNat
  if x % 4 ≠ 0 then w.kRaise c .align x else w.kGo c x

/-- The return address is pushed and the instruction goes to `pc`. -/
def W.kCall (w : W) (c pc : Nat) : W :=
  let k := w.d.coreAt c
  let a := below (k.src 30).toNat 4
  match k.stackCheck a with
  | some e => w.kRaise c e a
  | none =>
    let w := w.wr32 .tcm (tcmAddr c a) (BitVec.ofNat 32 (nextPc k.pc))
    (w.dev (fun d => d.onCore c (fun k => k.setReg 30 (BitVec.ofNat 32 a)))).kGo c pc

/-- CALL. -/
def kCall (c : Nat) (i : Word) (w : W) : W := w.kCall c (jumpPc (w.d.coreAt c).pc (signed 26 i.toNat))

/-- CALLR. -/
def kCallr (c : Nat) (i : Word) (w : W) : W :=
  let x := ((w.d.coreAt c).src (kRs1 i)).toNat
  if x % 4 ≠ 0 then w.kRaise c .align x else w.kCall c x

/-- A pop at `a`: its word, or the exception it meets. -/
def W.kPop (w : W) (c a : Nat) : Except Cause Word :=
  match (w.d.coreAt c).stackCheck a with
  | some e => .error e
  | none => if w.d.badWords.contains (tcmKey c a) then .error .memerr else .ok (w.tcmWord c a)

/-- RET. -/
def kRet (c : Nat) (_ : Word) (w : W) : W :=
  let a := ((w.d.coreAt c).src 30).toNat
  match w.kPop c a with
  | .error e => w.kRaise c e a
  | .ok v => (w.dev (fun d => d.onCore c (fun k => k.setReg 30 (BitVec.ofNat 32 (a + 4))))).kGo c (v.toNat / 4 * 4)

/-! ### Bits (R384, R385) -/

/-- A BIT sub-operation: from the accumulator and the bit, the new accumulator and what is written, if anything. -/
def kBit (f : Bool → Bool → Bool × Option Bool) (c : Nat) (i : Word) (w : W) : W :=
  w.dev (fun d =>
    let k := d.coreAt c
    let b := ((k.src (kRd i)).toNat + kImm i) % 65536
    let (ba, out) := f k.ba (d.readBit c b)
    let d := d.onCore c (fun k => { k with ba := ba })
    let d := match out with
      | some v => d.writeBit c b v
      | none => d
    d.complete c)

/-- BBS and BBC. -/
def kBitBranch (want : Bool) (c : Nat) (i : Word) (w : W) : W :=
  let pc := (w.d.coreAt c).pc
  w.kGo c (if w.d.readBit c (bits i.toNat 10 16) == want then jumpPc pc (signed 10 i.toNat) else nextPc pc)

/-- BBA. -/
def kBba (c : Nat) (i : Word) (w : W) : W :=
  let k := w.d.coreAt c
  w.kGo c (if k.ba != i.getLsbD 25 then jumpPc k.pc (kSimm i) else nextPc k.pc)

/-! ### System instructions (R386, R387, R390) -/

/-- CSRR. -/
def kCsrr (c : Nat) (i : Word) (w : W) : W :=
  match (w.d.coreAt c).csr c (kImm i) with
  | none => w.kRaise c .illegal 0
  | some v => (w.dev (fun d => d.onCore c (fun k => k.csrShadow (kImm i)))).kResult c (kRd i) v

/-- CSRW: setting IEN lets interrupts be taken from the boundary after the next instruction. -/
def kCsrw (c : Nat) (i : Word) (w : W) : W :=
  let k := w.d.coreAt c
  match k.csr c (kImm i) with
  | none => w.kRaise c .illegal 0
  | some _ =>
    let was := k.ien
    w.dev (fun d =>
      let d := (d.onCore c (fun k => k.setCsr (kImm i) (k.src (kRs1 i)))).complete c
      if kImm i = 0 ∧ was = false ∧ (d.coreAt c).ien = true then d.onCore c (fun k => { k with ienHold := true }) else d)

/-- The 15 bits that SYSCALL and BREAK carry. -/
def kCode (i : Word) : Nat := bits i.toNat 11 15

/-- SYSCALL: the return address is that of the next instruction. -/
def kSyscall (c : Nat) (i : Word) (w : W) : W :=
  (w.enter c .syscall (nextPc (w.d.coreAt c).pc) (kCode i) 0).dev (fun d => d.boundary c)

/-- BREAK: it halts the core while a debugger has armed it (R582), and else raises the exception. -/
def kBreak (c : Nat) (i : Word) (w : W) : W :=
  let k := w.d.coreAt c
  if w.d.attached && k.rcCfg.getLsbD 0 then
    w.dev (fun d => (d.onCore c (fun k => { k with pc := nextPc k.pc, slot := none, ienHold := false })).haltCore c 3)
  else (w.enter c .brk (nextPc k.pc) (kCode i) 0).dev (fun d => d.boundary c)

/-- RETX: two pops; IEN, HND and the slot state come back.  Of two faults the one higher in Table 12-9 is raised: an uncorrectable word is the
lowest. -/
def kRetx (c : Nat) (_ : Word) (w : W) : W :=
  let a := ((w.d.coreAt c).src 30).toNat
  let b := (a + 4) % 2 ^ 32
  match w.kPop c a, w.kPop c b with
  | .error .memerr, .error e => if e = .memerr then w.kRaise c .memerr a else w.kRaise c e b
  | .error e, _ => w.kRaise c e a
  | .ok _, .error e => w.kRaise c e b
  | .ok ret, .ok st =>
    w.dev (fun d =>
      let d := d.onCore c (fun k => { k.setReg 30 (BitVec.ofNat 32 (b + 4)) with ien := st.getLsbD 0, hnd := st.getLsbD 1 })
      let slot := if st.getLsbD 2 then some (bits st.toNat 3 5, (d.coreAt c).slotOld) else none
      d.completeAt c (ret.toNat / 4 * 4) slot)

/-- WFI: it completes at once with the request line high; else the core stops issuing and sleeps at it, a HALT that waits then halting the
sleeping core (R390, R581). -/
def kWfi (c : Nat) (_ : Word) (w : W) : W :=
  w.dev (fun d =>
    if d.requestLine c then d.complete c
    else
      let halt := (d.coreAt c).haltReq
      let d := d.sleepCore c
      if halt then ({ d with emuIdle := Tab.put false d.emuIdle c false } : Dev).haltCore c 1 else d)

end Sys2Proof.Machine
end

