-- ==== Sys2Proof/Machine/Debug.lean ====
section
/-!
DEFINITION. Debug and run control (chapter 20, R574 to R590): the test access port, the debug bus master, run control, attachment and
boundary scan.
-/

namespace Sys2Proof.Machine

/-- Change the TAP and debug bus master. -/
def Dev.onDbg (d : Dev) (f : Dbg → Dbg) : Dev := { d with dbg := f d.dbg }

/-! ### Attachment (R585, R586) -/

/-- Attachment ends: emulated sleeps become sleeps, and halted cores resume if DETACH_RUN is 1, else their watchdogs count again. -/
def Dev.endAttach (d : Dev) : Dev :=
  if !d.attached then d else
  let d := { (d.cb Reg.DBG_ATTACH 0) with emuIdle := [] }
  (List.range 4).foldl (fun d c =>
    if !d.kIs c .halted then d
    else if d.fbt Reg.DBG_CFG 16 then d.resumeCore c
    else d.onCore c (fun k => k.unpause d.tb)) d

/-- DBG_ATTACH_WRITE.  A core that is halted stops its watchdog from the moment of attachment (R391). -/
def dbgAttachWrite (v : Word) (d : Dev) : Dev :=
  let d := d.pb Reg.DBG_ATTACH 1 (v.getLsbD 1)
  match d.attached, v.getLsbD 0 with
  | true, false => d.endAttach
  | false, true =>
    (List.range 4).foldl (fun d c =>
      if d.kIs c .halted then d.onCore c (fun k => { k with wdtPaused := some d.tb }) else d) (d.sb Reg.DBG_ATTACH 0)
  | _, _ => d

/-! ### The TAP (R574, R575, R588) -/

/-- Codes of Table 20-1. -/
def tapExtest : Nat := 0
/-- SAMPLE/PRELOAD. -/
def tapSample : Nat := 1
/-- IDCODE. -/
def tapIdcode : Nat := 2
/-- CLAMP. -/
def tapClamp : Nat := 3
/-- HIGHZ. -/
def tapHighz : Nat := 4
/-- DBGACC. -/
def tapDbgacc : Nat := 0x10
/-- BYPASS. -/
def tapBypass : Nat := 0x1F

/-- The identification word (R575 and chapter 21: continuation count 9, code 0x2D). -/
def idcodeWord : Nat := 0x1485295B

/-- TAP_RESET: Test-Logic-Reset selects IDCODE and ends attachment. -/
def tapReset (d : Dev) : Dev := (d.onDbg (fun x => { x with ir := tapIdcode })).endAttach

/-- Cells that an Update-DR of the boundary-scan register loads: cell, drive, value. -/
def Dev.loadCells (d : Dev) (l : List (Nat × Bool × Bool)) : Dev :=
  d.onDbg (fun x => { x with cells := l.foldl (fun t (p : Nat × Bool × Bool) => Tab.put {} t p.1 { drive := p.2.1, value := p.2.2 }) x.cells })

/-- Capture-DR of the boundary-scan register: the level of each pad. -/
def Dev.sampleCells (d : Dev) : Dev :=
  d.onDbg (fun x => { x with sampled := (List.range 128).foldl (fun t p => Tab.put false t p (d.pinRaw p)) x.sampled })

/-- EXTEST. -/
def extest (l : List (Nat × Bool × Bool)) (d : Dev) : Dev := ((d.onDbg (fun x => { x with ir := tapExtest })).sampleCells).loadCells l

/-- SAMPLE_PRELOAD. -/
def samplePreload (l : List (Nat × Bool × Bool)) (d : Dev) : Dev := ((d.onDbg (fun x => { x with ir := tapSample })).sampleCells).loadCells l

/-- IDCODE. -/
def tapId (d : Dev) : Dev := d.onDbg (fun x => { x with ir := tapIdcode, dr := idcodeWord })

/-- CLAMP. -/
def tapClampOn (d : Dev) : Dev := d.onDbg (fun x => { x with ir := tapClamp, dr := 0 })

/-- HIGHZ. -/
def tapHighzOn (d : Dev) : Dev := d.onDbg (fun x => { x with ir := tapHighz, dr := 0 })

/-- BYPASS. -/
def tapBypassOn (d : Dev) : Dev := d.onDbg (fun x => { x with ir := tapBypass, dr := 0 })

/-! ### Run control (R581 to R584) -/

/-- The core that DBG_RC_SEL names. -/
def Dev.rcSel (d : Dev) : Nat := d.fd Reg.DBG_RC_SEL 0 2

/-- DENIED (R580, R581). -/
def Dev.dbgDenied (d : Dev) : Dev := d.sb Reg.DBG_MEM_STAT 0

/-- HALT. -/
def Dev.rcHalt (d : Dev) (c : Nat) : Dev :=
  let k := d.coreAt c
  if d.kIs c .idle then
    ({ d with emuIdle := Tab.put false d.emuIdle c false } : Dev).haltCore c 1
  else if d.kIs c .halted || d.kIs c .double then d
  else if d.kIs c .running && k.wait == .none && k.slot.isNone then d.haltCore c 1
  else d.onCore c (fun k => { k with haltReq := true })

/-- RUN. -/
def Dev.rcRun (d : Dev) (c : Nat) : Dev := if d.kIs c .halted then d.resumeCore c else d

/-- STEP. -/
def Dev.rcStep (d : Dev) (c : Nat) : Dev :=
  if d.kIs c .halted then (d.resumeCore c).onCore c (fun k => { k with stepping := true }) else d

/-- A run-control command on the selected core; KC3 has none. -/
def rcCommand (f : Dev → Nat → Dev) (d : Dev) : Dev := if d.rcSel = 3 then d.dbgDenied else f d d.rcSel

/-- May DBG_RC_PC and DBG_RC_GDATA be read (R583)? -/
def Dev.rcReadable (d : Dev) (c : Nat) : Bool := c != 3 && (d.kIs c .halted || d.kIs c .double || Tab.at false d.emuIdle c)

/-- May they be written? -/
def Dev.rcWritable (d : Dev) (c : Nat) : Bool := c != 3 && d.kIs c .halted

/-- DBG_RC_GDATA as the selected register or CSR. -/
def Dev.rcData (d : Dev) (c : Nat) : Word :=
  let r := d.fd Reg.DBG_RC_GSEL 0 6
  if r < 32 then (d.coreAt c).reg r else ((d.coreAt c).csr c (r - 32)).getD 0

/-- ERR of the last completed access. -/
def Dev.dbgErr (d : Dev) (b : Bool) : Dev := d.onDbg (fun x => { x with err := b })

/-- A write of DBG_RC_PC. -/
def rcPcWrite (v : Word) (d : Dev) : Dev :=
  let c := d.rcSel
  if d.rcWritable c then (d.onCore c (fun k => { k with pc := v.toNat / 4 * 4 })).dbgErr false else d.dbgErr true

/-- A write of DBG_RC_GDATA: g0 and RO CSRs ignore it. -/
def rcDataWrite (v : Word) (d : Dev) : Dev :=
  let c := d.rcSel
  let r := d.fd Reg.DBG_RC_GSEL 0 6
  if d.rcWritable c then (d.onCore c (fun k => if r < 32 then k.setReg r v else k.setCsr (r - 32) v)).dbgErr false else d.dbgErr true

/-! ### The DBG registers (R577, R590) -/

/-- BAR0 offset of the DBG register at word index `i`. -/
def dbgReg (i : Nat) : Nat := 0x1900000 + 4 * (i % 128)

/-- DBG_STAT as it reads. -/
def Dev.dbgStat (d : Dev) : Word :=
  packFields [(0, bits (d.rg Reg.DBG_STAT).toNat 0 2), (2, d.restricted.toNat), (3, d.attached.toNat)]

/-- DBG_RC_STAT as it reads; KC3 shows STATE alone. -/
def Dev.rcStat (d : Dev) : Word :=
  let c := d.rcSel
  let st := d.fd (Reg.KC_STAT c) 1 3
  if c = 3 then packFields [(0, st)]
  else packFields [(0, st), (3, (Tab.at false d.emuIdle c).toNat), (4, (d.coreAt c).reason)]

/-- A read of a DBG register but DBG_MEM_DATA: its effects, its data, and whether it is in error. -/
def Dev.dbgRead (d : Dev) (a : Nat) : Dev × Word × Bool :=
  let c := d.rcSel
  if a = Reg.DBG_STAT then (d, d.dbgStat, false)
  else if a = Reg.DBG_RC_STAT then (d, d.rcStat, false)
  else if a = Reg.DBG_RC_CFG then (d, (d.coreAt c).rcCfg, false)
  else if a = Reg.DBG_RC_CMD then (d, 0, false)
  else if a = Reg.DBG_RC_PC then if d.rcReadable c then (d, BitVec.ofNat 32 (d.coreAt c).pc, false) else (d, 0, true)
  else if a = Reg.DBG_RC_GDATA then
    if d.rcReadable c then
      let v := d.rcData c
      let r := d.fd Reg.DBG_RC_GSEL 0 6
      (if r < 32 then d else d.onCore c (fun k => k.csrShadow (r - 32)), v, false)
    else (d, 0, true)
  else match indexOf (Reg.DBG_BP 0) 4 4 a, indexOf (Reg.DBG_VT_TX 0) 0x10 4 a with
    | some i, _ => (d, if c = 3 then 0 else Tab.at 0 (d.coreAt c).bp i, false)
    | none, some v =>
      let d := vtTxRead v d
      (d, d.rdata, false)
    | none, none => (d, d.rg a, false)

/-- A write of a DBG register but DBG_MEM_DATA. -/
def Dev.dbgWrite (d : Dev) (a : Nat) (v : Word) : Dev :=
  let c := d.rcSel
  let ok := fun (d : Dev) => d.dbgErr false
  if a = Reg.DBG_CTRL then ok (d.blockCtrl .dbg 0xF1 v)
  else if a = Reg.DBG_ATTACH then ok (dbgAttachWrite v d)
  else if a = Reg.DBG_RC_CFG then if c = 3 then d.dbgDenied.dbgErr true else ok (d.onCore c (fun k => { k with rcCfg := v &&& 3 }))
  else if a = Reg.DBG_RC_CMD then
    let d := if v.getLsbD 0 then rcCommand Dev.rcHalt d else d
    let d := if v.getLsbD 1 then rcCommand Dev.rcRun d else d
    let d := if v.getLsbD 2 then rcCommand Dev.rcStep d else d
    d.dbgErr (c == 3 && v &&& 7 != 0)
  else if a = Reg.DBG_RC_PC then rcPcWrite v d
  else if a = Reg.DBG_RC_GDATA then rcDataWrite v d
  else match indexOf (Reg.DBG_BP 0) 4 4 a, indexOf (Reg.DBG_VT_RX 0) 0x10 4 a, indexOf (Reg.DBG_VT_TX 0) 0x10 4 a with
    | some i, _, _ =>
      if c = 3 then d.dbgDenied.dbgErr true else ok (d.onCore c (fun k => { k with bp := Tab.put 0 k.bp i (v &&& 0xFFFFFFFD) }))
    | none, some x, _ => ok (vtRxWrite x v d)
    | none, none, some _ => ok d
    | none, none, none => ok (d.plainWrite a v 0xFFFFFFFF)

/-- DBGACC (R576): Capture-DR shows the last access; with GO the next one starts, a memory access as DBG_MEM_ACCESS or
DBG_ACCESS_TIMEOUT ends it. -/
def dbgAcc (go wr : Bool) (i : Nat) (v : Word) (d : Dev) : Dev :=
  let x := d.dbg
  let d := d.onDbg (fun x => { x with
    ir := tapDbgacc
    dr := x.rdata.toNat + (if x.acc.isSome then 2 ^ 32 else 0) + if x.err then 2 ^ 33 else 0 })
  if !go then d
  else if x.acc.isSome then d.sb Reg.DBG_STAT 1
  else
    let d := d.reachUpdate .dbg
    let a := dbgReg i
    if a = Reg.DBG_MEM_DATA then
      d.onDbg (fun x => { x with acc := some { index := i % 128, write := wr, data := v }, since := d.cclks })
    else if wr then d.dbgWrite a v
    else
      let (d, v, e) := d.dbgRead a
      d.onDbg (fun x => { x with rdata := v, err := e })

/-! ### Memory accesses (R578 to R580) -/

/-- Access size in bytes. -/
def Dev.dbgSize (d : Dev) : Nat := [1, 2, 4, 4].getD (d.fd Reg.DBG_MEM_CFG 4 2) 4

/-- The address. -/
def Dev.dbgAddr (d : Dev) : Nat :=
  (d.rg Reg.DBG_ADDR_LO).toNat + if d.fd Reg.DBG_MEM_CFG 0 2 = 2 then d.fd Reg.DBG_ADDR_HI 0 4 * 2 ^ 32 else 0

/-- DBG_ADDR advances by the access size when INC is 1. -/
def Dev.dbgAdvance (d : Dev) : Dev :=
  if !d.bt Reg.DBG_MEM_CFG 6 then d else
  let v := (d.rg Reg.DBG_ADDR_LO).toNat + d.fd Reg.DBG_ADDR_HI 0 4 * 2 ^ 32 + d.dbgSize
  (d.sg Reg.DBG_ADDR_LO (BitVec.ofNat 32 v)).sf Reg.DBG_ADDR_HI 0 4 (v / 2 ^ 32)

/-- Is the access denied (R580), or outside its space?  In SPACE 0 only an aligned word is inside it (R578; log entry 81). -/
def Dev.dbgRefused (d : Dev) : Bool :=
  let a := d.dbgAddr
  let n := d.dbgSize
  match d.fd Reg.DBG_MEM_CFG 0 2 with
  | 0 => decide (n ≠ 4) || decide (a % 4 ≠ 0) || decide (2 ^ 26 ≤ a) || (decide (0x1701000 ≤ a) && decide (a < 0x1702000)) ||
      (decide (0x1303000 ≤ a) && decide (a < 0x1304000) && a / 4 * 4 != Reg.KC_STAT 3)
  | 1 => decide (sramBytes < a + n) || (banksOf a n).contains 95
  | 2 => decide (d.lpSize < a + n)
  | _ => d.fd Reg.DBG_MEM_CFG 2 2 == 3 || decide (tcmSize < a + n)

/-- Must the access wait: SRAM in boot phase 1 or in a bank that is not usable, LPDDR5X before LP_READY? -/
def Dev.dbgBlocked (d : Dev) : Bool :=
  match d.fd Reg.DBG_MEM_CFG 0 2 with
  | 1 => d.phase == 1 || !d.banksReady (banksOf d.dbgAddr d.dbgSize)
  | 2 => !d.bt Reg.MEM_STAT 5
  | _ => false

/-- The access has been made, or refused: DBG_MEM_STAT, ERR and RDATA show it. -/
def Dev.dbgFinish (d : Dev) (write denied ue : Bool) (v : Word) : Dev :=
  let st := packFields [(0, denied.toNat), (2, ue.toNat), (3, (d.restricted && !denied).toNat)]
  ((d.sg Reg.DBG_MEM_STAT st).onDbg (fun x => { x with acc := none, err := denied, rdata := if write then x.rdata else v })).dbgAdvance

/-- Does the word read hold an uncorrectable error? -/
def Dev.dbgUe (d : Dev) : Bool :=
  let a := d.dbgAddr
  match d.fd Reg.DBG_MEM_CFG 0 2 with
  | 1 => d.sramBadIn a d.dbgSize
  | 2 => d.badWords.contains (lpKey a) && !d.fenced a
  | 3 => d.badWords.contains (tcmKey (d.fd Reg.DBG_MEM_CFG 2 2) a)
  | _ => false

/-- The read itself. -/
def W.dbgFetch (w : W) : W × Word :=
  let a := w.d.dbgAddr
  let n := w.d.dbgSize
  let le := fun (l : List Byte) => (BitVec.ofNat 32 (leNat l) : Word)
  match w.d.fd Reg.DBG_MEM_CFG 0 2 with
  | 0 => let w := w.bar0Read .dbg a n; (w, le (w.d.rbytes.take n))
  | 1 => (w, le (w.portRead a n))
  | 2 => (w, le (w.lpRead a n))
  | _ => (w, le (w.rdBytes .tcm (tcmAddr (w.d.fd Reg.DBG_MEM_CFG 2 2) a) n))

/-- The write itself. -/
def W.dbgStore (w : W) (v : Word) : W :=
  let a := w.d.dbgAddr
  let l := leBytes w.d.dbgSize v.toNat
  match w.d.fd Reg.DBG_MEM_CFG 0 2 with
  | 0 => w.bar0Write .dbg a l
  | 1 => w.portWrite a l
  | 2 => w.lpWrite a l
  | _ => w.wrBytes .tcm (tcmAddr (w.d.fd Reg.DBG_MEM_CFG 2 2) a) l

/-- TIMEOUT in force, in CCLK; 0 is taken as 1 (R589). -/
def Dev.dbgLimit (d : Dev) : Nat := max 1 (d.ff Reg.DBG_CFG 0 16) * 1024

/-- DBG_ACCESS_TIMEOUT: the access is abandoned after TIMEOUT × 1,024 CCLK. -/
def dbgTimeout (d : Dev) : Dev :=
  match d.dbg.acc with
  | none => d
  | some _ =>
    let d := d.waitCclk (d.dbg.since + d.dbgLimit)
    (d.sg Reg.DBG_MEM_STAT 2).onDbg (fun x => { x with acc := none, err := true })

/-- DBG_MEM_ACCESS: the access that DBGACC started is made, unless its time is over.  A retained bank is woken first (R471). -/
def dbgMemAccess (w : W) : W :=
  match w.d.dbg.acc with
  | none => w
  | some x =>
    if w.d.dbg.since + w.d.dbgLimit < w.d.cclks then w.dev dbgTimeout
    else if w.d.dbgRefused then w.dev (fun d => d.dbgFinish x.write true false 0)
    else if w.d.dbgBlocked then
      if w.d.fd Reg.DBG_MEM_CFG 0 2 = 1 ∧ w.d.phase ≠ 1 then w.dev (fun d => d.wakeBanks (banksOf d.dbgAddr d.dbgSize)) else w
    else if x.write then (w.dbgStore x.data).dev (fun d => d.dbgFinish true false false 0)
    else if w.d.dbgUe then w.dev (fun d => (d.dbgFinish false false true (Config.freeWord d.free)).useFree)
    else
      let (w, v) := w.dbgFetch
      w.dev (fun d => d.dbgFinish false false false v)

end Sys2Proof.Machine
end

