-- ==== Sys2Proof/Machine/Gate.lean ====
section
/-!
DEFINITION. How a command reaches the part: over the register bus, as an event of the core domain, which happens only while that domain
is powered and out of reset (R18, R595), as an event of the always-on domain, or in any state.  Also the words that a command writes to a
register of which it changes one field.
-/

namespace Sys2Proof.Machine

/-- A command that names only what the part has goes on; another stops. -/
def need (p : Prop) [Decidable p] (k : Host.Outcome State Fault Refusal) : Host.Outcome State Fault Refusal :=
  if p then k else .fault .noSuchUnit

/-- An event of the core domain that writes no memory. -/
def State.coreDev (s : State) (f : Dev → Dev) : Host.Outcome State Fault Refusal := s.dev (fun d => if d.coreUp then f d else d)

/-- An event of the core domain. -/
def State.coreRun (s : State) (f : W → W) : Host.Outcome State Fault Refusal := s.run (fun w => if w.d.coreUp then f w else w)

/-- An event of the always-on domain. -/
def State.aonDev (s : State) (f : Dev → Dev) : Host.Outcome State Fault Refusal := s.dev (fun d => if d.aonUp then f d else d)

/-- An agent writes a register: a whole word, which may depend on what the register holds. -/
def State.busSet (s : State) (ag : Agent) (a : Nat) (v : Dev → Word) : Host.Outcome State Fault Refusal :=
  s.coreRun (fun w => w.busWrite ag a (v w.d) 0xFFFFFFFF)

/-- An agent reads a register; the data are in `rdata`. -/
def State.busGet (s : State) (ag : Agent) (a : Nat) : Host.Outcome State Fault Refusal := s.coreRun (fun w => w.busRead ag a)

/-- Bytes of BAR0 (R488). -/
def barBytes : Nat := 2 ^ 26

/-- Bytes of BAR2 (R479). -/
def bar2Bytes : Nat := 2 ^ 34

/-- A block that the part has. -/
def Block.ok (b : Block) : Bool := Block.ofCtrl b.ctrl == some b

/-- The CTRL word that carries LEVEL and PROFILE, the block's other bits as they are. -/
def Dev.ctrlWord (d : Dev) (b : Block) (level : Bool) (p : Nat) : Word :=
  fieldWord (fieldWord (d.rg b.ctrl) 0 1 level.toNat) 4 b.profileWidth p

/-- Is the register at `a` an expert register (R12)? -/
def isExpert (a : Nat) : Bool := ((RegTable.find a).map (·.expert)).getD false

end Sys2Proof.Machine
end

