-- ==== Sys2Proof/Machine/CmdAudio.lean ====
section
/-!
DEFINITION. Tailrace audio: the meaning of each command of the family, one definition a command.
-/

namespace Sys2Proof.Machine

/-- SAMPLE_TICK (R332): An audio sample tick starts a run 2 CCLK later, applying due commands, safe loads and direct writes and
running the voice phase. -/
def execSampleTick (ins : List (Nat × Nat)) (late : List Nat) (st : State) : Host.Outcome State Fault Refusal :=
  st.coreRun (sampleEvent ins late)

/-- GRAPH_PHASE (R341): After the input ports complete, the graph executes operations in order and the sinks latch 4 CCLK after its
end. -/
def execGraphPhase (ops wait : Nat) (late : List Nat) (st : State) : Host.Outcome State Fault Refusal :=
  st.coreDev (graphEvent ops wait late)

/-- KEYON (R339): A KEYON write restarts the voice from position 0 with gains ramping, at the next run start. -/
def execKeyon (ag : Agent) (v : Nat) (st : State) : Host.Outcome State Fault Refusal :=
  need (ag.ok = true ∧ v < 1024) (st.busSet ag (Reg.AUD_V_CTRL v) (fun _ => 1))

/-- KEYOFF (R339): A KEYOFF write puts a playing voice in RELEASE at the next run start. -/
def execKeyoff (ag : Agent) (v : Nat) (st : State) : Host.Outcome State Fault Refusal :=
  need (ag.ok = true ∧ v < 1024) (st.busSet ag (Reg.AUD_V_CTRL v) (fun _ => 2))

/-- AUD_CMD_PARAM (R356): An AUD_CMD PARAM writes one or two parameter words at its run start. -/
def execAudCmdParam (body : List Word) (st : State) : Host.Outcome State Fault Refusal :=
  need (body.length = 6 ∧ bits (body.headD 0).toNat 0 3 = 0) (st.coreDev (fun d => d.handOverNow body))

/-- AUD_CMD_KEYON (R359): An AUD_CMD KEYON wakes its zones at handover and keys on up to four voices at its run. -/
def execAudCmdKeyon (body : List Word) (st : State) : Host.Outcome State Fault Refusal :=
  need (body.length = 6 ∧ bits (body.headD 0).toNat 0 3 = 1) (st.coreDev (fun d => d.handOverNow body))

/-- AUD_CMD_KEYOFF (R356): An AUD_CMD KEYOFF releases up to four voices at its run. -/
def execAudCmdKeyoff (body : List Word) (st : State) : Host.Outcome State Fault Refusal :=
  need (body.length = 6 ∧ bits (body.headD 0).toNat 0 3 = 2) (st.coreDev (fun d => d.handOverNow body))

/-- AUD_CMD_VOICE (R356): An AUD_CMD VOICE writes one or two voice register words at its run. -/
def execAudCmdVoice (body : List Word) (st : State) : Host.Outcome State Fault Refusal :=
  need (body.length = 6 ∧ bits (body.headD 0).toNat 0 3 = 3) (st.coreDev (fun d => d.handOverNow body))

/-- PARAM_WRITE (R354): A direct write to the parameter memory or voice registers takes effect at the next run start, unless a group
parameter or unassigned. -/
def execParamWrite (ag : Agent) (off : Nat) (v : Word) (st : State) : Host.Outcome State Fault Refusal :=
  need (ag.ok = true ∧ 0x1208000 ≤ off ∧ off < 0x1220000 ∧ off % 4 = 0) (st.busSet ag off (fun _ => v))

/-- SAFE_LOAD (R355): A write of AUD_SAFE_CTRL with GO arms a safe load for the run that AT selects and sets BUSY. -/
def execSafeLoad (ag : Agent) (v : Word) (st : State) : Host.Outcome State Fault Refusal :=
  need (ag.ok = true) (st.busSet ag (Reg.AUD_SAFE_CTRL) (fun _ => fieldWord v 10 1 1))

/-- TDM_PORT_CFG_WRITE (R348): A TDM port setting is checked and takes effect at the port's next frame start, or is ignored with
CFG_ERR. -/
def execTdmPortCfgWrite (ag : Agent) (input : Bool) (port : Nat) (v : Word) (st : State) : Host.Outcome State Fault Refusal :=
  need (ag.ok = true ∧ port < if input then 8 else 24) (st.busSet ag (if input then Reg.AUD_TI_CFG port else Reg.AUD_TO_CFG port) (fun _ => v))

end Sys2Proof.Machine
end

