-- ==== Sys2Proof/Machine/CmdAvail.lean ====
section
/-!
DEFINITION. Availability and repair: the meaning of each command of the family, one definition a command.
-/

namespace Sys2Proof.Machine

/-- PATROL_SCRUB_READ (R550): Patrol scrub reads its next word at its even spacing. -/
def execPatrolScrubRead (st : State) : Host.Outcome State Fault Refusal := st.coreDev patrolEvent

/-- ROW_REPAIR (R552): A repair of a row by AV_REP_CMD or automatic repair starts copying it to a spare row. -/
def execRowRepair (ag : Agent) (v : Word) (st : State) : Host.Outcome State Fault Refusal :=
  need (ag.ok = true) (st.busSet ag (Reg.AV_REP_CMD) (fun _ => v))

/-- ROW_SWITCH (R552): The copy ends and the row's addresses switch to the spare row in a free cycle. -/
def execRowSwitch (b r : Nat) (st : State) : Host.Outcome State Fault Refusal :=
  need (b < 96 ∧ r < 2048) (st.coreDev (rowSwitchEvent b r))

/-- SELF_TEST_DONE (R561): A quarantined slice's self-test ends and its verdict takes effect at the next tick. -/
def execSelfTestDone (sl : Nat) (fail : Option Nat) (st : State) : Host.Outcome State Fault Refusal :=
  need (sl < 52) (st.coreDev (selfTestEvent sl fail))

/-- FT_CHECK (R556): AV_FT_CMD.CHECK requests a Fantail check of the named slice. -/
def execFtCheck (ag : Agent) (sl : Nat) (st : State) : Host.Outcome State Fault Refusal :=
  need (ag.ok = true ∧ sl < 52) (st.busSet ag (Reg.AV_FT_CMD) (fun _ => packFields [(0, sl), (8, 1)]))

/-- FT_REMAP_CMD (R558): AV_FT_CMD.REMAP confirms a mismatch of the named live slice at once. -/
def execFtRemapCmd (ag : Agent) (sl : Nat) (st : State) : Host.Outcome State Fault Refusal :=
  need (ag.ok = true ∧ sl < 52) (st.busSet ag (Reg.AV_FT_CMD) (fun _ => packFields [(0, sl), (9, 1)]))

/-- FT_RETURN (R561): AV_FT_CMD.RETURN makes a retired slice quarantined for a new test. -/
def execFtReturn (ag : Agent) (sl : Nat) (st : State) : Host.Outcome State Fault Refusal :=
  need (ag.ok = true ∧ sl < 52) (st.busSet ag (Reg.AV_FT_CMD) (fun _ => packFields [(0, sl), (10, 1)]))

/-- AV_OUT_RESUME (R563): AV_OUT_CMD.RESUME restores a shed output or ends its fallback. -/
def execAvOutResume (ag : Agent) (n : Nat) (st : State) : Host.Outcome State Fault Refusal :=
  need (ag.ok = true ∧ n < 48) (st.busSet ag (Reg.AV_OUT_CMD n) (fun _ => 1))

/-- AV_OUT_SHED (R563): AV_OUT_CMD.SHED sheds an output at the next tick. -/
def execAvOutShed (ag : Agent) (n : Nat) (st : State) : Host.Outcome State Fault Refusal :=
  need (ag.ok = true ∧ n < 48) (st.busSet ag (Reg.AV_OUT_CMD n) (fun _ => 2))

/-- LOG_POP (R569): A write of AV_LOG_CMD.POP removes the oldest log entry. -/
def execLogPop (ag : Agent) (st : State) : Host.Outcome State Fault Refusal :=
  need (ag.ok = true) (st.busSet ag (Reg.AV_LOG_CMD) (fun _ => 1))

end Sys2Proof.Machine
end

