-- ==== Sys2Proof/Machine/CmdCompose.lean ====
section
/-!
DEFINITION. Commits, builds and the composition of lines: the meaning of each command of the family, one definition a command.
-/

namespace Sys2Proof.Machine

/-- COMMIT_DECISION (R31): 2 CCLK after a tick, or when the previous flip ends, the device decides to hold or proceed with the commit
and starts it, raising source 3. -/
def execCommitDecision (st : State) : Host.Outcome State Fault Refusal := st.coreRun commitEvent

/-- FLIP_END (R27): The commit's selector flip ends, making the epoch current, and the Bolter build starts or the index is reused. -/
def execFlipEnd (st : State) : Host.Outcome State Fault Refusal := st.coreDev flipEvent

/-- BOLTER_BUILD_COMPLETE (R93): The pass writes its last entry and the indexes of all outputs become complete, with per-output counts
and drop status. -/
def execBolterBuildComplete (st : State) : Host.Outcome State Fault Refusal := st.coreDev boltEvent

/-- TAKE_UP_EDGE (R29): At 2 CCLK after the take-up point the output's slice takes up the newest complete index and page maps for the
frame and live values reload. -/
def execTakeUpEdge (n : Nat) (st : State) : Host.Outcome State Fault Refusal := need (n < 48) (st.coreDev (takeUpEvent n))

/-- LINE_BUILD_START (R150): At a line's build start the slice latches index, live registers, plane order and SL_CFG and starts its
tile fetcher. -/
def execLineBuildStart (sl line : Nat) (st : State) : Host.Outcome State Fault Refusal :=
  need (sl < 52) (st.coreRun (buildStartEvent sl line))

/-- OBJECT_BUILD_BEGIN (R152): Once the build start has passed and the previous line's build has ended, the object build reads the
bin, sets up and rasterizes, or abandons a late start. -/
def execObjectBuildBegin (sl : Nat) (st : State) : Host.Outcome State Fault Refusal :=
  need (sl < 52) (st.coreRun (Machine.objectBuildBegin sl))

/-- OBJECT_BUILD_END (R155): The object build of a line ends and its line set awaits the due point. -/
def execObjectBuildEnd (sl : Nat) (st : State) : Host.Outcome State Fault Refusal :=
  need (sl < 52) (st.coreRun (buildEndEvent sl))

/-- LINE_DUE_POINT (R152): At the due point the line set is handed to the mixer, or an unfinished line is abandoned and repeated. -/
def execLineDuePoint (sl line : Nat) (st : State) : Host.Outcome State Fault Refusal :=
  need (sl < 52) (st.coreRun (duePointEvent sl line))

/-- CACHE_FILL (R133): A 128-byte line fill arrives from LPDDR5X into the pattern and tile-map cache and releases stalled fetches. -/
def execCacheFill (line : Nat) (st : State) : Host.Outcome State Fault Refusal := st.coreRun (Machine.cacheFill line)

/-- VIDEO_ROW_ARRIVAL (R185): A video-plane source row arrives in the fetch FIFO and line memory for scaling. -/
def execVideoRowArrival (sl p : Nat) (st : State) : Host.Outcome State Fault Refusal :=
  need (sl < 52 ∧ p < 2) (st.coreRun (fun w => w.rowArrive sl p))

/-- MIX_GROUP (R167): A 4-pixel group enters the mixer, samples the sluice values, mixes the planes and passes the pipeline to the
framer. -/
def execMixGroup (n x : Nat) (miss : Bool) (st : State) : Host.Outcome State Fault Refusal :=
  need (n < 48) (st.coreRun (mixEvent n x miss))

/-- OBJ_PEEK (R88): A write of OBJ_PEEK_SEL copies the eight words of the chosen object slot into OBJ_PEEK_W0–W7 in one CCLK. -/
def execObjPeek (ag : Agent) (v : Word) (st : State) : Host.Outcome State Fault Refusal :=
  need (ag.ok = true) (st.busSet ag (Reg.OBJ_PEEK_SEL) (fun _ => v))

/-- OBJ_GPEEK (R88): A write of OBJ_GPEEK_SEL copies the chosen group slot into OBJ_GPEEK_W0–W2. -/
def execObjGpeek (ag : Agent) (v : Word) (st : State) : Host.Outcome State Fault Refusal :=
  need (ag.ok = true) (st.busSet ag (Reg.OBJ_GPEEK_SEL) (fun _ => v))

/-- FRAME_VALUE_WRITE (R118): A host, core or REG_NOW write to a register with frame values sets the live value and the frame values
of every epoch still to be taken up. -/
def execFrameValueWrite (ag : Agent) (off : Nat) (v : Word) (st : State) : Host.Outcome State Fault Refusal :=
  need (ag.ok = true ∧ (frameOutput off).isSome = true) (st.busSet ag off (fun _ => v))

end Sys2Proof.Machine
end

