-- ==== Sys2Proof/Machine/CmdContent.lean ====
section
/-!
DEFINITION. Cache, sluices and the output pipeline: the meaning of each command of the family, one definition a command.
-/

namespace Sys2Proof.Machine

/-- CACHE_INVALIDATE (R139): A write of 1 to TP_INV_CMD.GO starts invalidating the range and sets BUSY, unless busy or LEN is 0. -/
def execCacheInvalidate (ag : Agent) (st : State) : Host.Outcome State Fault Refusal :=
  need (ag.ok = true) (st.busSet ag (Reg.TP_INV_CMD) (fun _ => 1))

/-- INVALIDATE_DONE (R139): The invalidation scan and refetch of locked lines end and BUSY clears. -/
def execInvalidateDone (st : State) : Host.Outcome State Fault Refusal := st.coreRun invalidateEvent

/-- STAGED_WRITE (R170): A write to a sluice staged alias changes only the staged copy. -/
def execStagedWrite (ag : Agent) (n ix : Nat) (v : Word) (st : State) : Host.Outcome State Fault Refusal :=
  need (ag.ok = true ∧ n < 48 ∧ ix < 256) (st.busSet ag (Reg.SL_STAGED n ix) (fun _ => v))

/-- SL_LCOMMIT (R170): A write of SL_LCOMMIT copies the staged registers of objects FIRST to LAST into the live registers in one CCLK. -/
def execSlLcommit (ag : Agent) (n : Nat) (v : Word) (st : State) : Host.Outcome State Fault Refusal :=
  need (ag.ok = true ∧ n < 48) (st.busSet ag (Reg.SL_LCOMMIT n) (fun _ => v))

/-- SL_LEN_SET (R169): A write to SL_LEN_SET sets the EN bits of the named sluice objects. -/
def execSlLenSet (ag : Agent) (n : Nat) (hi : Bool) (v : Word) (st : State) : Host.Outcome State Fault Refusal :=
  need (ag.ok = true ∧ n < 48) (st.busSet ag (if hi then Reg.SL_LEN_SET_HI n else Reg.SL_LEN_SET_LO n) (fun _ => v))

/-- SL_LEN_CLR (R169): A write to SL_LEN_CLR clears the EN bits of the named sluice objects. -/
def execSlLenClr (ag : Agent) (n : Nat) (hi : Bool) (v : Word) (st : State) : Host.Outcome State Fault Refusal :=
  need (ag.ok = true ∧ n < 48) (st.busSet ag (if hi then Reg.SL_LEN_CLR_HI n else Reg.SL_LEN_CLR_LO n) (fun _ => v))

/-- SL_LROUTE_WRITE (R172): A write of a pin route sets it up; a route made valid in mode 1 or 2 sets EN at once, and an unmuxed pin
sets ROUTE_ERR. -/
def execSlLrouteWrite (ag : Agent) (n ix : Nat) (v : Word) (st : State) : Host.Outcome State Fault Refusal :=
  need (ag.ok = true ∧ n < 48 ∧ ix < 8) (st.busSet ag (Reg.SL_LROUTE n ix) (fun _ => v))

/-- TABLE_WINDOW_WRITE (R194): A write to the table window writes the free bank, or is ignored with TBL_BUSY while a copy or bank
change is pending. -/
def execTableWindowWrite (ag : Agent) (n off : Nat) (v : Word) (st : State) : Host.Outcome State Fault Refusal :=
  need (ag.ok = true ∧ n < 48 ∧ off < 0x8000 ∧ off % 4 = 0) (st.busSet ag (0x820000 + n * 0x8000 + off) (fun _ => v))

/-- TABLE_COPY (R194): A write of MX_TBL_CMD.COPY starts copying the bank in use into the free bank and sets BUSY. -/
def execTableCopy (ag : Agent) (n : Nat) (st : State) : Host.Outcome State Fault Refusal :=
  need (ag.ok = true ∧ n < 48) (st.busSet ag (Reg.MX_TBL_CMD n) (fun _ => 1))

/-- TABLE_COPY_DONE (R194): The table copy ends after 848 CCLK and BUSY clears. -/
def execTableCopyDone (n : Nat) (st : State) : Host.Outcome State Fault Refusal := need (n < 48) (st.coreDev (tableCopyEvent n))

/-- MX_FMT_WRITE (R197): A write of MX_FMT schedules the format for the next frame start after the next tick, or is refused with
FMT_ERR for a reserved code. -/
def execMxFmtWrite (ag : Agent) (n : Nat) (v : Word) (st : State) : Host.Outcome State Fault Refusal :=
  need (ag.ok = true ∧ n < 48) (st.busSet ag (Reg.MX_FMT n) (fun _ => v))

end Sys2Proof.Machine
end

