-- ==== Sys2Proof/Machine/CmdCore.lean ====
section
/-!
DEFINITION. Krytesh instructions: the meaning of each command of the family, one definition a command.
-/

namespace Sys2Proof.Machine

/-- ADD (R380): RD := x + y. -/
def execKAdd (c : Nat) (st : State) : Host.Outcome State Fault Refusal :=
  need (c < 4) (st.coreRun (kRow (isOpFn 0x00 0) (kAlu (fun x y => x + y)) c))

/-- SUB (R380): RD := x − y. -/
def execKSub (c : Nat) (st : State) : Host.Outcome State Fault Refusal :=
  need (c < 4) (st.coreRun (kRow (isOpFn 0x00 1) (kAlu (fun x y => x - y)) c))

/-- AND (R380): RD := x and y. -/
def execKAnd (c : Nat) (st : State) : Host.Outcome State Fault Refusal :=
  need (c < 4) (st.coreRun (kRow (isOpFn 0x00 2) (kAlu (fun x y => x &&& y)) c))

/-- OR (R380): RD := x or y. -/
def execKOr (c : Nat) (st : State) : Host.Outcome State Fault Refusal :=
  need (c < 4) (st.coreRun (kRow (isOpFn 0x00 3) (kAlu (fun x y => x ||| y)) c))

/-- XOR (R380): RD := x xor y. -/
def execKXor (c : Nat) (st : State) : Host.Outcome State Fault Refusal :=
  need (c < 4) (st.coreRun (kRow (isOpFn 0x00 4) (kAlu (fun x y => x ^^^ y)) c))

/-- NOR (R380): RD := not (x or y). -/
def execKNor (c : Nat) (st : State) : Host.Outcome State Fault Refusal :=
  need (c < 4) (st.coreRun (kRow (isOpFn 0x00 5) (kAlu (fun x y => ~~~(x ||| y))) c))

/-- SLT (R380): RD := 1 if x < y signed, else 0. -/
def execKSlt (c : Nat) (st : State) : Host.Outcome State Fault Refusal :=
  need (c < 4) (st.coreRun (kRow (isOpFn 0x00 6) (kAlu (fun x y => boolWord (x.slt y))) c))

/-- SLTU (R380): RD := 1 if x < y unsigned, else 0. -/
def execKSltu (c : Nat) (st : State) : Host.Outcome State Fault Refusal :=
  need (c < 4) (st.coreRun (kRow (isOpFn 0x00 7) (kAlu (fun x y => boolWord (x.ult y))) c))

/-- SLL (R380): RD := x shifted left by y[4:0]. -/
def execKSll (c : Nat) (st : State) : Host.Outcome State Fault Refusal :=
  need (c < 4) (st.coreRun (kRow (isOpFn 0x00 8) (kAlu (fun x y => x <<< (y.toNat % 32))) c))

/-- SRL (R380): RD := x shifted right logically by y[4:0]. -/
def execKSrl (c : Nat) (st : State) : Host.Outcome State Fault Refusal :=
  need (c < 4) (st.coreRun (kRow (isOpFn 0x00 9) (kAlu (fun x y => x >>> (y.toNat % 32))) c))

/-- SRA (R380): RD := x shifted right arithmetically by y[4:0]. -/
def execKSra (c : Nat) (st : State) : Host.Outcome State Fault Refusal :=
  need (c < 4) (st.coreRun (kRow (isOpFn 0x00 10) (kAlu (fun x y => x.sshiftRight (y.toNat % 32))) c))

/-- SLLI (R380): RD := x shifted left by the RS2 field. -/
def execKSlli (c : Nat) (st : State) : Host.Outcome State Fault Refusal :=
  need (c < 4) (st.coreRun (kRow (isOpFn 0x00 11) (kShiftImm (fun x n => x <<< n)) c))

/-- SRLI (R380): RD := x shifted right logically by the RS2 field. -/
def execKSrli (c : Nat) (st : State) : Host.Outcome State Fault Refusal :=
  need (c < 4) (st.coreRun (kRow (isOpFn 0x00 12) (kShiftImm (fun x n => x >>> n)) c))

/-- SRAI (R380): RD := x shifted right arithmetically by the RS2 field. -/
def execKSrai (c : Nat) (st : State) : Host.Outcome State Fault Refusal :=
  need (c < 4) (st.coreRun (kRow (isOpFn 0x00 13) (kShiftImm (fun x n => x.sshiftRight n)) c))

/-- MIN (R380): RD := signed minimum of x and y. -/
def execKMin (c : Nat) (st : State) : Host.Outcome State Fault Refusal :=
  need (c < 4) (st.coreRun (kRow (isOpFn 0x00 14) (kAlu (fun x y => if x.slt y then x else y)) c))

/-- MAX (R380): RD := signed maximum of x and y. -/
def execKMax (c : Nat) (st : State) : Host.Outcome State Fault Refusal :=
  need (c < 4) (st.coreRun (kRow (isOpFn 0x00 15) (kAlu (fun x y => if x.slt y then y else x)) c))

/-- MINU (R380): RD := unsigned minimum of x and y. -/
def execKMinu (c : Nat) (st : State) : Host.Outcome State Fault Refusal :=
  need (c < 4) (st.coreRun (kRow (isOpFn 0x00 16) (kAlu (fun x y => if x.ult y then x else y)) c))

/-- MAXU (R380): RD := unsigned maximum of x and y. -/
def execKMaxu (c : Nat) (st : State) : Host.Outcome State Fault Refusal :=
  need (c < 4) (st.coreRun (kRow (isOpFn 0x00 17) (kAlu (fun x y => if x.ult y then y else x)) c))

/-- ADDI (R380): RD := x + sign-extended immediate. -/
def execKAddi (c : Nat) (st : State) : Host.Outcome State Fault Refusal :=
  need (c < 4) (st.coreRun (kRow (isOp 0x01) (kAluImm (fun x y => x + y) sImm) c))

/-- ANDI (R380): RD := x and zero-extended immediate. -/
def execKAndi (c : Nat) (st : State) : Host.Outcome State Fault Refusal :=
  need (c < 4) (st.coreRun (kRow (isOp 0x02) (kAluImm (fun x y => x &&& y) zImm) c))

/-- ORI (R380): RD := x or zero-extended immediate. -/
def execKOri (c : Nat) (st : State) : Host.Outcome State Fault Refusal :=
  need (c < 4) (st.coreRun (kRow (isOp 0x03) (kAluImm (fun x y => x ||| y) zImm) c))

/-- XORI (R380): RD := x xor zero-extended immediate. -/
def execKXori (c : Nat) (st : State) : Host.Outcome State Fault Refusal :=
  need (c < 4) (st.coreRun (kRow (isOp 0x04) (kAluImm (fun x y => x ^^^ y) zImm) c))

/-- SLTI (R380): RD := 1 if x < immediate signed. -/
def execKSlti (c : Nat) (st : State) : Host.Outcome State Fault Refusal :=
  need (c < 4) (st.coreRun (kRow (isOp 0x05) (kAluImm (fun x y => boolWord (x.slt y)) sImm) c))

/-- SLTIU (R380): RD := 1 if x < immediate unsigned. -/
def execKSltiu (c : Nat) (st : State) : Host.Outcome State Fault Refusal :=
  need (c < 4) (st.coreRun (kRow (isOp 0x06) (kAluImm (fun x y => boolWord (x.ult y)) sImm) c))

/-- LUI (R380): RD := IMM << 16. -/
def execKLui (c : Nat) (st : State) : Host.Outcome State Fault Refusal :=
  need (c < 4) (st.coreRun (kRow (isOp 0x07) (kAluImm (fun _ y => y <<< 16) zImm) c))

/-- LW (R377): Loads a word into RD with a load-delay slot. -/
def execKLw (c : Nat) (st : State) : Host.Outcome State Fault Refusal :=
  need (c < 4) (st.coreRun (kRow (isOp 0x08) (kLoad { size := 4 }) c))

/-- LH (R377): Loads a sign-extended half-word with a load-delay slot. -/
def execKLh (c : Nat) (st : State) : Host.Outcome State Fault Refusal :=
  need (c < 4) (st.coreRun (kRow (isOp 0x09) (kLoad { size := 2, signed := true }) c))

/-- LHU (R377): Loads a zero-extended half-word with a load-delay slot. -/
def execKLhu (c : Nat) (st : State) : Host.Outcome State Fault Refusal :=
  need (c < 4) (st.coreRun (kRow (isOp 0x0A) (kLoad { size := 2 }) c))

/-- LB (R377): Loads a sign-extended byte with a load-delay slot. -/
def execKLb (c : Nat) (st : State) : Host.Outcome State Fault Refusal :=
  need (c < 4) (st.coreRun (kRow (isOp 0x0B) (kLoad { size := 1, signed := true }) c))

/-- LBU (R377): Loads a zero-extended byte with a load-delay slot. -/
def execKLbu (c : Nat) (st : State) : Host.Outcome State Fault Refusal :=
  need (c < 4) (st.coreRun (kRow (isOp 0x0C) (kLoad { size := 1 }) c))

/-- SW (R374): Stores a word, directly to TCM or through the posted buffer or private port. -/
def execKSw (c : Nat) (st : State) : Host.Outcome State Fault Refusal := need (c < 4) (st.coreRun (kRow (isOp 0x0D) (kStore 4) c))

/-- SH (R374): Stores a half-word. -/
def execKSh (c : Nat) (st : State) : Host.Outcome State Fault Refusal := need (c < 4) (st.coreRun (kRow (isOp 0x0E) (kStore 2) c))

/-- SB (R374): Stores a byte. -/
def execKSb (c : Nat) (st : State) : Host.Outcome State Fault Refusal := need (c < 4) (st.coreRun (kRow (isOp 0x0F) (kStore 1) c))

/-- BEQ (R380): Branches when x = y. -/
def execKBeq (c : Nat) (st : State) : Host.Outcome State Fault Refusal :=
  need (c < 4) (st.coreRun (kRow (isOp 0x10) (kBranch (fun x y => x == y)) c))

/-- BNE (R380): Branches when x ≠ y. -/
def execKBne (c : Nat) (st : State) : Host.Outcome State Fault Refusal :=
  need (c < 4) (st.coreRun (kRow (isOp 0x11) (kBranch (fun x y => x != y)) c))

/-- BLT (R380): Branches when x < y signed. -/
def execKBlt (c : Nat) (st : State) : Host.Outcome State Fault Refusal :=
  need (c < 4) (st.coreRun (kRow (isOp 0x12) (kBranch (fun x y => x.slt y)) c))

/-- BGE (R380): Branches when x ≥ y signed. -/
def execKBge (c : Nat) (st : State) : Host.Outcome State Fault Refusal :=
  need (c < 4) (st.coreRun (kRow (isOp 0x13) (kBranch (fun x y => !x.slt y)) c))

/-- BLTU (R380): Branches when x < y unsigned. -/
def execKBltu (c : Nat) (st : State) : Host.Outcome State Fault Refusal :=
  need (c < 4) (st.coreRun (kRow (isOp 0x14) (kBranch (fun x y => x.ult y)) c))

/-- BGEU (R380): Branches when x ≥ y unsigned. -/
def execKBgeu (c : Nat) (st : State) : Host.Outcome State Fault Refusal :=
  need (c < 4) (st.coreRun (kRow (isOp 0x15) (kBranch (fun x y => !x.ult y)) c))

/-- J (R380): PC := PC + 4 × OFF. -/
def execKJ (c : Nat) (st : State) : Host.Outcome State Fault Refusal := need (c < 4) (st.coreRun (kRow (isOp 0x16) Machine.kJ c))

/-- CALL (R382): Pushes PC + 4 and jumps by OFF. -/
def execKCall (c : Nat) (st : State) : Host.Outcome State Fault Refusal := need (c < 4) (st.coreRun (kRow (isOp 0x17) Machine.kCall c))

/-- JR (R381): PC := x, or ALIGN when x is not a multiple of 4. -/
def execKJr (c : Nat) (st : State) : Host.Outcome State Fault Refusal := need (c < 4) (st.coreRun (kRow (isOp 0x18) Machine.kJr c))

/-- CALLR (R382): Pushes PC + 4 and sets PC := x. -/
def execKCallr (c : Nat) (st : State) : Host.Outcome State Fault Refusal :=
  need (c < 4) (st.coreRun (kRow (isOp 0x19) Machine.kCallr c))

/-- RET (R382): Pops the return address into PC. -/
def execKRet (c : Nat) (st : State) : Host.Outcome State Fault Refusal := need (c < 4) (st.coreRun (kRow (isOp 0x1A) Machine.kRet c))

/-- BLD (R384): BA := bit. -/
def execKBld (c : Nat) (st : State) : Host.Outcome State Fault Refusal :=
  need (c < 4) (st.coreRun (kRow (isBit 0) (kBit (fun _ b => (b, none))) c))

/-- BLDN (R384): BA := not bit. -/
def execKBldn (c : Nat) (st : State) : Host.Outcome State Fault Refusal :=
  need (c < 4) (st.coreRun (kRow (isBit 1) (kBit (fun _ b => (!b, none))) c))

/-- BST (R384): bit := BA. -/
def execKBst (c : Nat) (st : State) : Host.Outcome State Fault Refusal :=
  need (c < 4) (st.coreRun (kRow (isBit 2) (kBit (fun a _ => (a, some a))) c))

/-- BSTN (R384): bit := not BA. -/
def execKBstn (c : Nat) (st : State) : Host.Outcome State Fault Refusal :=
  need (c < 4) (st.coreRun (kRow (isBit 3) (kBit (fun a _ => (a, some (!a)))) c))

/-- BSET (R384): bit := 1. -/
def execKBset (c : Nat) (st : State) : Host.Outcome State Fault Refusal :=
  need (c < 4) (st.coreRun (kRow (isBit 4) (kBit (fun a _ => (a, some true))) c))

/-- BCLR (R384): bit := 0. -/
def execKBclr (c : Nat) (st : State) : Host.Outcome State Fault Refusal :=
  need (c < 4) (st.coreRun (kRow (isBit 5) (kBit (fun a _ => (a, some false))) c))

/-- BTGL (R384): bit := not bit. -/
def execKBtgl (c : Nat) (st : State) : Host.Outcome State Fault Refusal :=
  need (c < 4) (st.coreRun (kRow (isBit 6) (kBit (fun a b => (a, some (!b)))) c))

/-- BAND (R384): BA := BA and bit. -/
def execKBand (c : Nat) (st : State) : Host.Outcome State Fault Refusal :=
  need (c < 4) (st.coreRun (kRow (isBit 7) (kBit (fun a b => (a && b, none))) c))

/-- BANDN (R384): BA := BA and not bit. -/
def execKBandn (c : Nat) (st : State) : Host.Outcome State Fault Refusal :=
  need (c < 4) (st.coreRun (kRow (isBit 8) (kBit (fun a b => (a && !b, none))) c))

/-- BOR (R384): BA := BA or bit. -/
def execKBor (c : Nat) (st : State) : Host.Outcome State Fault Refusal :=
  need (c < 4) (st.coreRun (kRow (isBit 9) (kBit (fun a b => (a || b, none))) c))

/-- BORN (R384): BA := BA or not bit. -/
def execKBorn (c : Nat) (st : State) : Host.Outcome State Fault Refusal :=
  need (c < 4) (st.coreRun (kRow (isBit 10) (kBit (fun a b => (a || !b, none))) c))

/-- BXOR (R384): BA := BA xor bit. -/
def execKBxor (c : Nat) (st : State) : Host.Outcome State Fault Refusal :=
  need (c < 4) (st.coreRun (kRow (isBit 11) (kBit (fun a b => (a ^^ b, none))) c))

/-- BTS (R384): Indivisibly BA := bit and bit := 1. -/
def execKBts (c : Nat) (st : State) : Host.Outcome State Fault Refusal :=
  need (c < 4) (st.coreRun (kRow (isBit 12) (kBit (fun _ b => (b, some true))) c))

/-- BTC (R384): Indivisibly BA := bit and bit := 0. -/
def execKBtc (c : Nat) (st : State) : Host.Outcome State Fault Refusal :=
  need (c < 4) (st.coreRun (kRow (isBit 13) (kBit (fun _ b => (b, some false))) c))

/-- BBS (R380): Branches when the named bit is 1. -/
def execKBbs (c : Nat) (st : State) : Host.Outcome State Fault Refusal :=
  need (c < 4) (st.coreRun (kRow (isOp 0x1C) (kBitBranch true) c))

/-- BBC (R380): Branches when the named bit is 0. -/
def execKBbc (c : Nat) (st : State) : Host.Outcome State Fault Refusal :=
  need (c < 4) (st.coreRun (kRow (isOp 0x1D) (kBitBranch false) c))

/-- BBA (R380): Branches when BA xor NEG is 1. -/
def execKBba (c : Nat) (st : State) : Host.Outcome State Fault Refusal := need (c < 4) (st.coreRun (kRow (isOp 0x1E) Machine.kBba c))

/-- TLI (R383): Reads two table entries and interpolates them into RD, with a load-delay slot. -/
def execKTli (c : Nat) (st : State) : Host.Outcome State Fault Refusal := need (c < 4) (st.coreRun (kRow (isOp 0x1F) Machine.kTli c))

/-- MUL (R380): RD := low 32 bits of x × y. -/
def execKMul (c : Nat) (st : State) : Host.Outcome State Fault Refusal :=
  need (c < 4) (st.coreRun (kRow (isOpFn 0x20 0) (kAlu (fun x y => x * y)) c))

/-- MULH (R380): RD := high 32 bits of the signed product. -/
def execKMulh (c : Nat) (st : State) : Host.Outcome State Fault Refusal :=
  need (c < 4) (st.coreRun (kRow (isOpFn 0x20 1) (kAlu kMulH) c))

/-- MULHU (R380): RD := high 32 bits of the unsigned product. -/
def execKMulhu (c : Nat) (st : State) : Host.Outcome State Fault Refusal :=
  need (c < 4) (st.coreRun (kRow (isOpFn 0x20 2) (kAlu kMulHU) c))

/-- DIV (R381): RD := signed quotient toward 0, with defined results for zero and overflow. -/
def execKDiv (c : Nat) (st : State) : Host.Outcome State Fault Refusal :=
  need (c < 4) (st.coreRun (kRow (isOpFn 0x20 4) (kAlu kDivS) c))

/-- DIVU (R381): RD := unsigned quotient. -/
def execKDivu (c : Nat) (st : State) : Host.Outcome State Fault Refusal :=
  need (c < 4) (st.coreRun (kRow (isOpFn 0x20 5) (kAlu kDivU) c))

/-- REM (R381): RD := signed remainder with the sign of x. -/
def execKRem (c : Nat) (st : State) : Host.Outcome State Fault Refusal :=
  need (c < 4) (st.coreRun (kRow (isOpFn 0x20 6) (kAlu kRemS) c))

/-- REMU (R381): RD := unsigned remainder. -/
def execKRemu (c : Nat) (st : State) : Host.Outcome State Fault Refusal :=
  need (c < 4) (st.coreRun (kRow (isOpFn 0x20 7) (kAlu kRemU) c))

/-- CSRR (R386): RD := the named core status register, or ILLEGAL. -/
def execKCsrr (c : Nat) (st : State) : Host.Outcome State Fault Refusal := need (c < 4) (st.coreRun (kRow (isOp 0x21) Machine.kCsrr c))

/-- CSRW (R386): Writes the named core status register; setting IEN enables interrupts after the next instruction. -/
def execKCsrw (c : Nat) (st : State) : Host.Outcome State Fault Refusal := need (c < 4) (st.coreRun (kRow (isOp 0x22) Machine.kCsrw c))

/-- SYSCALL (R387): Raises the SYSCALL exception with its code. -/
def execKSyscall (c : Nat) (st : State) : Host.Outcome State Fault Refusal :=
  need (c < 4) (st.coreRun (kRow (isOpFn 0x23 0) Machine.kSyscall c))

/-- BREAK (R387): Raises the BREAK exception, or halts the core when a debugger has armed BRK_HALT. -/
def execKBreak (c : Nat) (st : State) : Host.Outcome State Fault Refusal :=
  need (c < 4) (st.coreRun (kRow (isOpFn 0x23 1) Machine.kBreak c))

/-- RETX (R386): Pops the return address and saved status word, restoring IEN, HND and the slot state. -/
def execKRetx (c : Nat) (st : State) : Host.Outcome State Fault Refusal :=
  need (c < 4) (st.coreRun (kRow (isOpFn 0x23 2) Machine.kRetx c))

/-- WFI (R390): Completes at once with the request line high, else puts the core in IDLE. -/
def execKWfi (c : Nat) (st : State) : Host.Outcome State Fault Refusal :=
  need (c < 4) (st.coreRun (kRow (isOpFn 0x23 3) Machine.kWfi c))

/-- KC_FENCE (R374): The FENCE instruction waits until every posted store has taken effect. -/
def execKFence (c : Nat) (st : State) : Host.Outcome State Fault Refusal :=
  need (c < 4) (st.coreRun (kRow (isOpFn 0x23 4) Machine.kFence c))

/-- ILLEGAL (R387): A Krytesh core executes a word with a reserved OP or FN and raises the ILLEGAL exception. -/
def execKIllegal (c : Nat) (st : State) : Host.Outcome State Fault Refusal :=
  need (c < 4) (st.coreRun (kRow Machine.kIllegal kIllegalStep c))

end Sys2Proof.Machine
end

