-- ==== Sys2Proof/Machine/CmdCoreEvent.lean ====
section
/-!
DEFINITION. Events of the cores: the meaning of each command of the family, one definition a command.
-/

namespace Sys2Proof.Machine

/-- LOAD_DATA_RETURN (R373): The data of a waiting non-TCM load arrives and the core resumes. -/
def execLoadDataReturn (c : Nat) (st : State) : Host.Outcome State Fault Refusal :=
  need (c < 4) (st.coreRun (Machine.loadDataReturn c))

/-- LOAD_TIMEOUT (R373): A load not completed after 4,096 KCLK ends as a LOAD exception. -/
def execLoadTimeout (c : Nat) (st : State) : Host.Outcome State Fault Refusal := need (c < 4) (st.coreRun (Machine.loadTimeout c))

/-- POSTED_STORE_COMPLETE (R374): A posted store takes effect and frees its buffer entry, releasing a stalled store or fence. -/
def execPostedStoreComplete (c : Nat) (st : State) : Host.Outcome State Fault Refusal :=
  need (c < 4) (st.coreRun (Machine.postedStoreComplete c))

/-- INTERRUPT_TAKE (R388): At an instruction boundary with the request line high, IEN 1 and HND 0, the core enters the INTERRUPT
handler. -/
def execInterruptTake (c : Nat) (st : State) : Host.Outcome State Fault Refusal := need (c < 4) (st.coreRun (Machine.interruptTake c))

/-- IDLE_WAKE (R390): The request line rises while the core is IDLE and it continues 2 KCLK later. -/
def execIdleWake (c : Nat) (st : State) : Host.Outcome State Fault Refusal := need (c < 4) (st.coreDev (Machine.idleWake c))

/-- WDT_KICK (R391): A write of 0x0000_C0DE to KC_WDT_KICK reloads the watchdog, any other value sets WDT_BADKEY. -/
def execWdtKick (ag : Agent) (c : Nat) (v : Word) (st : State) : Host.Outcome State Fault Refusal :=
  need (ag.ok = true ∧ c < 4) (st.busSet ag (Reg.KC_WDT_KICK c) (fun _ => v))

/-- WDT_EXPIRY (R391): The watchdog expires: first it warns with source 0, at the second it restarts the core. -/
def execWdtExpiry (c : Nat) (st : State) : Host.Outcome State Fault Refusal := need (c < 4) (st.coreDev (wdtEvent c))

/-- CORE_RESTART (R392): A permitted KC_RESTART request puts the core in LOADING, drains its stores and copies its image. -/
def execCoreRestart (ag : Agent) (c : Nat) (v : Word) (st : State) : Host.Outcome State Fault Refusal :=
  need (ag.ok = true ∧ c < 4) (st.busSet ag (Reg.KC_RESTART c) (fun _ => v))

/-- CORE_RESTART_COMPLETE (R392): The restart copy ends and the core starts at address 0 in RUNNING. -/
def execCoreRestartComplete (c : Nat) (st : State) : Host.Outcome State Fault Refusal := need (c < 4) (st.coreRun (restartEvent c))

end Sys2Proof.Machine
end

