-- ==== Sys2Proof/Machine/CmdDamsel.lean ====
section
/-!
DEFINITION. Damsel engines: the meaning of each command of the family, one definition a command.
-/

namespace Sys2Proof.Machine

/-- STOP (R219): The Damsel engine stops until the next restart. -/
def execDmStop (n : Nat) (st : State) : Host.Outcome State Fault Refusal := need (n < 48) (st.coreDev (dmEvent Machine.dmStop n))

/-- WAIT (R221): The Damsel engine sets its target line and begins waiting for a beam point by MODE. -/
def execDmWait (n : Nat) (st : State) : Host.Outcome State Fault Refusal := need (n < 48) (st.coreDev (dmEvent Machine.dmWait n))

/-- WAIT_POINT_REACHED (R220): The synchronised beam reaches the awaited point and the engine continues with the next instruction. -/
def execDmPointReached (n : Nat) (st : State) : Host.Outcome State Fault Refusal :=
  need (n < 48) (st.coreDev (dmPointEvent n))

/-- WAITEV (R222): The Damsel engine begins waiting for an event input or a timeout line. -/
def execDmWaitEv (n : Nat) (st : State) : Host.Outcome State Fault Refusal := need (n < 48) (st.coreDev (dmEvent Machine.dmWaitEv n))

/-- WAITEV_COMPLETE (R222): An event is consumed or the timeout line is reached, setting or clearing TIMEOUT, and the engine
continues. -/
def execDmWaitEvComplete (n : Nat) (st : State) : Host.Outcome State Fault Refusal :=
  need (n < 48) (st.coreDev (dmWaitEvEvent n))

/-- WRITE (R216): The Damsel engine writes one register of its space from an immediate, data register or table word. -/
def execDmWrite (n : Nat) (st : State) : Host.Outcome State Fault Refusal := need (n < 48) (st.coreDev (dmEvent Machine.dmWrite n))

/-- WRITEM (R223): The Damsel engine writes N consecutive indices, all issuing in one CCLK. -/
def execDmWriteM (n : Nat) (st : State) : Host.Outcome State Fault Refusal := need (n < 48) (st.coreDev (dmEvent Machine.dmWriteM n))

/-- SKIPIF (R224): The Damsel engine skips the next instruction when its condition holds. -/
def execDmSkipIf (n : Nat) (st : State) : Host.Outcome State Fault Refusal := need (n < 48) (st.coreDev (dmEvent Machine.dmSkipIf n))

/-- JUMP (R219): The Damsel engine sets PC to TARGET. -/
def execDmJump (n : Nat) (st : State) : Host.Outcome State Fault Refusal := need (n < 48) (st.coreDev (dmEvent Machine.dmJump n))

/-- LOOP (R219): The Damsel engine decrements a non-zero loop counter and branches, or continues. -/
def execDmLoop (n : Nat) (st : State) : Host.Outcome State Fault Refusal := need (n < 48) (st.coreDev (dmEvent Machine.dmLoop n))

/-- DM_EV_TRIG (R226): A write of DM_EV_TRIG adds one event to each named input. -/
def execDmEvTrig (ag : Agent) (n : Nat) (v : Word) (st : State) : Host.Outcome State Fault Refusal :=
  need (ag.ok = true ∧ n < 48) (st.busSet ag (Reg.DM_EV_TRIG n) (fun _ => v))

/-- DM_EV_SEL_WRITE (R226): A write of DM_EV_SEL selects an input's source and sets its count to 0. -/
def execDmEvSelWrite (ag : Agent) (n ix : Nat) (v : Word) (st : State) : Host.Outcome State Fault Refusal :=
  need (ag.ok = true ∧ n < 48 ∧ ix < 8) (st.busSet ag (Reg.DM_EV_SEL n ix) (fun _ => v))

/-- DM_PM_WRITE (R231): A host or core write to Damsel program memory is accepted only while RUN in force is 0, else PM_DENIED. -/
def execDmPmWrite (ag : Agent) (n a : Nat) (v : Word) (st : State) : Host.Outcome State Fault Refusal :=
  need (ag.ok = true ∧ n < 48 ∧ a < 4096) (st.busSet ag (dmWord n a) (fun _ => v))

/-- RESERVED_OPERATION (R228): A Damsel engine fetches an instruction word whose operation is 0x8 to 0xF and faults, halting for the
program frame. -/
def execDmReserved (n : Nat) (st : State) : Host.Outcome State Fault Refusal := need (n < 48) (st.coreDev (dmEvent Machine.dmReserved n))

end Sys2Proof.Machine
end

