-- ==== Sys2Proof/Machine/CmdDebug.lean ====
section
/-!
DEFINITION. Debug: the meaning of each command of the family, one definition a command.
-/

namespace Sys2Proof.Machine

/-- TAP_RESET (R574): TRST_N or five TMS-high clocks put the TAP in Test-Logic-Reset and end attachment. -/
def execTapReset (st : State) : Host.Outcome State Fault Refusal := st.coreDev Machine.tapReset

/-- EXTEST (R588): The EXTEST instruction drives chain pins from their cells. -/
def execExtest (cells : List (Nat × Bool × Bool)) (st : State) : Host.Outcome State Fault Refusal := st.coreDev (Machine.extest cells)

/-- SAMPLE_PRELOAD (R575): The SAMPLE/PRELOAD instruction samples pins and loads cells. -/
def execSamplePreload (cells : List (Nat × Bool × Bool)) (st : State) : Host.Outcome State Fault Refusal :=
  st.coreDev (Machine.samplePreload cells)

/-- IDCODE (R575): The IDCODE instruction selects the identification register. -/
def execIdcode (st : State) : Host.Outcome State Fault Refusal := st.coreDev tapId

/-- CLAMP (R575): The CLAMP instruction holds pins from the cells and selects bypass. -/
def execClamp (st : State) : Host.Outcome State Fault Refusal := st.coreDev tapClampOn

/-- HIGHZ (R575): The HIGHZ instruction puts chain outputs at high impedance. -/
def execHighz (st : State) : Host.Outcome State Fault Refusal := st.coreDev tapHighzOn

/-- BYPASS (R575): The BYPASS instruction selects the 1-bit register. -/
def execBypass (st : State) : Host.Outcome State Fault Refusal := st.coreDev tapBypassOn

/-- DBGACC (R576): An Update-DR of the DBGACC register with GO starts a read or write of a DBG register. -/
def execDbgAcc (go write : Bool) (ix : Nat) (v : Word) (st : State) : Host.Outcome State Fault Refusal :=
  need (ix < 1024) (st.coreDev (Machine.dbgAcc go write ix v))

/-- DBG_MEM_ACCESS (R578): An access of DBG_MEM_DATA reads or writes the addressed space and advances the address with INC. -/
def execDbgMemAccess (st : State) : Host.Outcome State Fault Refusal := st.coreRun Machine.dbgMemAccess

/-- DBG_ACCESS_TIMEOUT (R578): A debug access not completed within TIMEOUT × 1,024 CCLK is abandoned with ERR. -/
def execDbgAccessTimeout (st : State) : Host.Outcome State Fault Refusal := st.coreDev dbgTimeout

/-- DBG_ATTACH_WRITE (R585): A write of DBG_ATTACH attaches or detaches the debugger, resuming halted cores by DETACH_RUN. -/
def execDbgAttachWrite (v : Word) (st : State) : Host.Outcome State Fault Refusal := st.coreDev (Machine.dbgAttachWrite v)

/-- HALT (R581): The HALT command stops the selected core at its next instruction boundary. -/
def execRcHalt (st : State) : Host.Outcome State Fault Refusal := st.coreDev (rcCommand Dev.rcHalt)

/-- RUN (R581): The RUN command resumes the core at DBG_RC_PC. -/
def execRcRun (st : State) : Host.Outcome State Fault Refusal := st.coreDev (rcCommand Dev.rcRun)

/-- STEP (R581): The STEP command executes one instruction, or one interrupt entry, and halts. -/
def execRcStep (st : State) : Host.Outcome State Fault Refusal := st.coreDev (rcCommand Dev.rcStep)

/-- BREAKPOINT_HIT (R582): An enabled breakpoint halts the core before its instruction executes. -/
def execBreakpointHit (c : Nat) (st : State) : Host.Outcome State Fault Refusal := need (c < 4) (st.coreDev (Machine.breakpointHit c))

/-- DBG_RC_GDATA_WRITE (R583): A write of DBG_RC_PC or DBG_RC_GDATA changes a halted core's PC, register or CSR. -/
def execRcGdataWrite (isPc : Bool) (v : Word) (st : State) : Host.Outcome State Fault Refusal :=
  st.coreDev (if isPc then rcPcWrite v else rcDataWrite v)

/-- VT_TX_WRITE (R587): A core write of DBG_VT_TX enters its TX FIFO or sets TX_OVF. -/
def execVtTxWrite (c : Nat) (v : Word) (st : State) : Host.Outcome State Fault Refusal :=
  need (c < 4) (st.coreDev (Machine.vtTxWrite c v))

/-- VT_TX_READ (R587): A debugger read of DBG_VT_TX removes the oldest word. -/
def execVtTxRead (c : Nat) (st : State) : Host.Outcome State Fault Refusal := need (c < 4) (st.coreDev (Machine.vtTxRead c))

/-- VT_RX_WRITE (R587): A debugger write of DBG_VT_RX enters the RX FIFO or sets RX_OVF. -/
def execVtRxWrite (c : Nat) (v : Word) (st : State) : Host.Outcome State Fault Refusal :=
  need (c < 4) (st.coreDev (Machine.vtRxWrite c v))

/-- VT_RX_READ (R587): A core read of DBG_VT_RX removes the oldest word. -/
def execVtRxRead (c : Nat) (st : State) : Host.Outcome State Fault Refusal := need (c < 4) (st.coreDev (Machine.vtRxRead c))

end Sys2Proof.Machine
end

