-- ==== Sys2Proof/Machine/CmdFlume.lean ====
section
/-!
DEFINITION. Flume ports: the meaning of each command of the family, one definition a command.
-/

namespace Sys2Proof.Machine

/-- FL_RETRAIN (R276): A write of 1 to FL_CMD.RETRAIN starts a training sequence at once. -/
def execFlRetrain (ag : Agent) (n : Nat) (st : State) : Host.Outcome State Fault Refusal :=
  need (ag.ok = true ∧ n < 48) (st.busSet ag (Reg.FL_CMD n) (fun _ => 1))

/-- FL_CFG_WRITE (R287): A write of FL_CFG or FL_CTRL is checked for fit against the timing in force and scheduled, or ignored with
CFG_ERR. -/
def execFlCfgWrite (ag : Agent) (n : Nat) (isCtrl : Bool) (v : Word) (st : State) : Host.Outcome State Fault Refusal :=
  need (ag.ok = true ∧ n < 48) (st.busSet ag (if isCtrl then Reg.FL_CTRL n else Reg.FL_CFG n) (fun _ => v))

/-- TRAINING_COMPLETE (R276): A training sequence ends with its ALIGN group and the lanes enter ACTIVE. -/
def execTrainingComplete (n : Nat) (st : State) : Host.Outcome State Fault Refusal :=
  need (n < 48) (st.coreDev (trainingEvent n))

/-- ALIGN_GROUP (R275): Every 16,384 slot groups in ACTIVE an ALIGN group is sent with the next marker count. -/
def execAlignGroup (n : Nat) (st : State) : Host.Outcome State Fault Refusal := need (n < 48) (st.coreDev (alignEvent n))

/-- PACKET_SEND (R286): A formed packet leaves at the first slot-group boundary after its framer latency and the end of earlier
packets. -/
def execPacketSend (n : Nat) (st : State) : Host.Outcome State Fault Refusal := need (n < 48) (st.coreDev (packetEvent n))

/-- IDLE_STATUS_TIMER (R284): While the output runs no frames and the port is ACTIVE, a STATUS packet is formed every 1,000 µs. -/
def execIdleStatusTimer (n : Nat) (st : State) : Host.Outcome State Fault Refusal :=
  need (n < 48) (st.coreDev (idleStatusEvent n))

/-- AUX_ARM (R285): An armed AUX slot is sent in each frame's blanking queue and disarms in MODE 0. -/
def execAuxArm (ag : Agent) (n k : Nat) (v : Word) (st : State) : Host.Outcome State Fault Refusal :=
  need (ag.ok = true ∧ n < 48 ∧ k < 2) (st.busSet ag (Reg.FL_AUX_CTRL n k) (fun _ => fieldWord v 17 1 1))

/-- FL_PLL_LOSS (R293): The Flume PHY PLL loses lock, the port enters OFF and PLL_LOST is set. -/
def execFlPllLoss (n : Nat) (st : State) : Host.Outcome State Fault Refusal := need (n < 48) (st.coreDev (Machine.flPllLoss n))

/-- FL_PLL_RELOCK (R293): The Flume PHY PLL relocks and a training sequence starts. -/
def execFlPllRelock (n : Nat) (st : State) : Host.Outcome State Fault Refusal := need (n < 48) (st.coreDev (Machine.flPllRelock n))

/-- LANE_FAULT (R293): The PHY reports a driver fault on a lane and LANE_FAULT is set without changing what is sent. -/
def execLaneFault (n lane : Nat) (st : State) : Host.Outcome State Fault Refusal :=
  need (n < 48 ∧ lane < 4) (st.coreDev (Machine.laneFault n lane))

end Sys2Proof.Machine
end

