-- ==== Sys2Proof/Machine/CmdHopper.lean ====
section
/-!
DEFINITION. Rings and records of the hopper: the meaning of each command of the family, one definition a command.
-/

namespace Sys2Proof.Machine

/-- TAIL_WRITE (R236): A write of a ring's TAIL publishes records, or stops the ring with TAIL_ERR when beyond its size. -/
def execTailWrite (ag : Agent) (r : Nat) (v : Word) (st : State) : Host.Outcome State Fault Refusal :=
  need (ag.ok = true ∧ r < 16384) (st.busSet ag (Reg.HOP_RD_TAIL r) (fun _ => v))

/-- RING_ENABLE (R236): A descriptor write setting ENABLE to 1 tests HEAD and TAIL and resumes a stopped ring or keeps it stopped. -/
def execRingEnable (ag : Agent) (r : Nat) (v : Word) (st : State) : Host.Outcome State Fault Refusal :=
  need (ag.ok = true ∧ r < 16384) (st.busSet ag (Reg.HOP_RD_CFG r) (fun _ => fieldWord v 0 1 1))

/-- RING_DISABLE (R239): A write of ENABLE 0 stops fetching after the service in progress, keeping HEAD and accepted records. -/
def execRingDisable (ag : Agent) (r : Nat) (st : State) : Host.Outcome State Fault Refusal :=
  need (ag.ok = true ∧ r < 16384) (st.busSet ag (Reg.HOP_RD_CFG r) (fun d => fieldWord (d.rg (Reg.HOP_RD_CFG r)) 0 1 0))

/-- DESCRIPTOR_WRITE (R235): A write to a ring descriptor by a non-owner or changing base, location or size while enabled is ignored
and flagged. -/
def execDescriptorWrite (ag : Agent) (r ix : Nat) (v : Word) (st : State) : Host.Outcome State Fault Refusal :=
  need (ag.ok = true ∧ r < 16384 ∧ ix < 8) (st.busSet ag (Reg.HOP_RD_BASE_LO r + 4 * ix) (fun _ => v))

/-- RING_SERVICE (R237): The hopper serves the next eligible ring by class and round robin, fetching up to 64 published records. -/
def execRingService (data : List Word) (st : State) : Host.Outcome State Fault Refusal := st.coreRun (Machine.ringService data)

/-- NOP (R241): A NOP record is passed over and HEAD advances. -/
def execHopNop (r : Nat) (st : State) : Host.Outcome State Fault Refusal := need (r < 16384) (st.coreRun (Machine.hopNop r))

/-- OBJ_WRITE (R86): An OBJ_WRITE pair is checked, stamped and staged, and at its commit replaces the object's non-current slot. -/
def execHopObjWrite (r : Nat) (st : State) : Host.Outcome State Fault Refusal := need (r < 16384) (st.coreRun (Machine.hopObjWrite r))

/-- OBJ_PATCH (R243): An OBJ_PATCH is checked, stamped and staged, and at its commit merges masked words into the non-current slot. -/
def execHopObjPatch (r : Nat) (st : State) : Host.Outcome State Fault Refusal := need (r < 16384) (st.coreRun (Machine.hopObjPatch r))

/-- GROUP_SET (R243): A GROUP_SET is staged and at its commit writes the masked group fields into the non-current group slot. -/
def execHopGroupSet (r : Nat) (st : State) : Host.Outcome State Fault Refusal := need (r < 16384) (st.coreRun (Machine.hopGroupSet r))

/-- TILE_RUN (R128): A TILE_RUN is staged and at its commit writes up to 5 logical map entries through page copy. -/
def execHopTileRun (r : Nat) (st : State) : Host.Outcome State Fault Refusal := need (r < 16384) (st.coreRun (Machine.hopTileRun r))

/-- PAL_WRITE (R128): A PAL_WRITE is staged and at its commit writes up to 5 palette entries through page copy. -/
def execHopPalWrite (r : Nat) (st : State) : Host.Outcome State Fault Refusal := need (r < 16384) (st.coreRun (Machine.hopPalWrite r))

/-- PLANE_FLIP (R260): A PLANE_FLIP is staged and at its commit becomes the plane's pending flip. -/
def execHopPlaneFlip (r : Nat) (st : State) : Host.Outcome State Fault Refusal :=
  need (r < 16384) (st.coreRun (Machine.hopPlaneFlip r))

/-- REG_AT_TICK (R256): A REG_AT_TICK is staged and at its commit writes the register's frame value for that epoch. -/
def execHopRegAtTick (r : Nat) (st : State) : Host.Outcome State Fault Refusal :=
  need (r < 16384) (st.coreRun (Machine.hopRegAtTick r))

/-- REG_NOW (R259): A REG_NOW is applied when met in its ring as a host write and never staged. -/
def execHopRegNow (r : Nat) (st : State) : Host.Outcome State Fault Refusal := need (r < 16384) (st.coreRun (Machine.hopRegNow r))

/-- FENCE (R257): A FENCE stops fetching from its ring and sets FENCED until its condition holds. -/
def execHopFence (r : Nat) (st : State) : Host.Outcome State Fault Refusal := need (r < 16384) (st.coreRun (Machine.hopFence r))

/-- FENCE_RELEASE (R257): The fence's condition comes to hold and its ring is served again. -/
def execFenceRelease (r : Nat) (st : State) : Host.Outcome State Fault Refusal :=
  need (r < 16384) (st.coreRun (Machine.fenceRelease r))

/-- MARKER (R258): A MARKER is staged for its tick or, immediate, queued for write-back in ring order. -/
def execHopMarker (r : Nat) (st : State) : Host.Outcome State Fault Refusal := need (r < 16384) (st.coreRun (Machine.hopMarker r))

/-- MARKER_WRITE (R258): A queued marker's 16 bytes are written once its flip has ended or, in MODE 1, every running output has
latched the epoch. -/
def execMarkerWrite (r : Nat) (st : State) : Host.Outcome State Fault Refusal := need (r < 16384) (st.coreRun (Machine.markerWrite r))

/-- AUD_CMD (R357): An AUD_CMD record is staged for its tick or, immediate, handed to Tailrace for the next run. -/
def execHopAudCmd (r : Nat) (st : State) : Host.Outcome State Fault Refusal := need (r < 16384) (st.coreRun (Machine.hopAudCmd r))

/-- TRACKER_CUT_LATCH (R261): At each cut each tracker latches HOP_TRK_DONE into HOP_TRK_CUT. -/
def execTrackerCutLatch (st : State) : Host.Outcome State Fault Refusal := st.coreDev trackerEvent

/-- HOP_TRK_DONE_WRITE (R261): A host write of HOP_TRK_DONE takes effect only after every earlier BAR2 write has reached LPDDR5X. -/
def execHopTrkDoneWrite (ag : Agent) (t : Nat) (v : Word) (st : State) : Host.Outcome State Fault Refusal :=
  need (ag.ok = true ∧ t < 64) (st.busSet ag (Reg.HOP_TRK_DONE t) (fun _ => v))

end Sys2Proof.Machine
end

