-- ==== Sys2Proof/Machine/CmdIntc.lean ====
section
/-!
DEFINITION. Interrupts and timers: the meaning of each command of the family, one definition a command.
-/

namespace Sys2Proof.Machine

/-- INTC_CLAIM (R399): A read of INTC_CLAIM by the owning core claims the lowest eligible source and makes it active. -/
def execIntcClaim (ag : Agent) (c : Nat) (st : State) : Host.Outcome State Fault Refusal :=
  need (ag.ok = true ∧ c < 4) (st.busGet ag (Reg.INTC_CLAIM c))

/-- INTC_COMPLETE (R400): A write of INTC_COMPLETE ends the active source or sets CMPL_ERR. -/
def execIntcComplete (ag : Agent) (c : Nat) (v : Word) (st : State) : Host.Outcome State Fault Refusal :=
  need (ag.ok = true ∧ c < 4) (st.busSet ag (Reg.INTC_COMPLETE c) (fun _ => v))

/-- INTC_PEND_CLEAR (R397): A write of 1 to an INTC_PEND bit sets the source's count to 0. -/
def execIntcPendClear (ag : Agent) (c j : Nat) (v : Word) (st : State) : Host.Outcome State Fault Refusal :=
  need (ag.ok = true ∧ c < 4 ∧ j < 16) (st.busSet ag (Reg.INTC_PEND c j) (fun _ => v))

/-- MODERATION_RELEASE (R402): A held moderation group is released when MOD_US elapses or MOD_CNT events arrive. -/
def execModerationRelease (c g : Nat) (st : State) : Host.Outcome State Fault Refusal :=
  need (c < 4 ∧ g < 32) (st.coreDev (moderationEvent c g))

/-- MSIX_SEND (R404): A pending, unmasked MSI-X vector is sent as one message after earlier device writes. -/
def execMsixSend (v : Nat) (st : State) : Host.Outcome State Fault Refusal := need (v < 512) (st.coreRun (Machine.msixSend v))

/-- INT_SW_RAISE (R406): A write of INT_SW_RAISE raises one event of a software source, or sets SW_ERR. -/
def execIntSwRaise (ag : Agent) (v : Word) (st : State) : Host.Outcome State Fault Refusal :=
  need (ag.ok = true) (st.busSet ag (Reg.INT_SW_RAISE) (fun _ => v))

/-- CMP_ARM (R408): A write of TMR_CMP_HI arms the compare with the 64-bit value. -/
def execCmpArm (ag : Agent) (c : Nat) (v : Word) (st : State) : Host.Outcome State Fault Refusal :=
  need (ag.ok = true ∧ c < 16) (st.busSet ag (Reg.TMR_CMP_HI c) (fun _ => v))

/-- CMP_FIRE (R408): An armed compare fires when its clock reaches the value, counts, raises its source and reloads if periodic. -/
def execCmpFire (c : Nat) (st : State) : Host.Outcome State Fault Refusal := need (c < 16) (st.coreDev (cmpFireEvent c))

/-- TMR_CAP_LO_READ (R412): A read of TMR_CAP_LO removes the oldest capture and shadows its high half. -/
def execTmrCapLoRead (ag : Agent) (c : Nat) (st : State) : Host.Outcome State Fault Refusal :=
  need (ag.ok = true ∧ c < 16) (st.busGet ag (Reg.TMR_CAP_LO c))

end Sys2Proof.Machine
end

