-- ==== Sys2Proof/Machine/CmdMemory.lean ====
section
/-!
DEFINITION. Memory banks, the host link and the LPDDR5X channels: the meaning of each command of the family, one definition a command.
-/

namespace Sys2Proof.Machine

/-- BANK_RETAIN (R470): A write of 1 to MEM_BANK_CTRL.RET places an eligible bank in retention. -/
def execBankRetain (ag : Agent) (b : Nat) (st : State) : Host.Outcome State Fault Refusal :=
  need (ag.ok = true ∧ b < 96) (st.busSet ag (Reg.MEM_BANK_CTRL b) (fun _ => 1))

/-- BANK_WAKE (R471): An access to a retained bank or a write of RET 0 wakes it. -/
def execBankWake (ag : Agent) (b : Nat) (st : State) : Host.Outcome State Fault Refusal :=
  need (ag.ok = true ∧ b < 96) (st.busSet ag (Reg.MEM_BANK_CTRL b) (fun _ => 0))

/-- BANK_WAKE_DONE (R471): The bank becomes usable 2 µs after the wake, RET clears and source 369 is raised. -/
def execBankWakeDone (b : Nat) (st : State) : Host.Outcome State Fault Refusal := need (b < 96) (st.run (fun w => if w.d.aonUp then bankWakeEvent b w else w))

/-- PAGED_WINDOW_ACCESS (R480): A host access to the BAR0 paged window reaches SRAM through port B, with denials and size checks. -/
def execPagedWindowAccess (write : Bool) (off : Nat) (data : List Byte) (n : Nat) (st : State) : Host.Outcome State Fault Refusal :=
  need (off < 0x2000000) (st.coreRun (fun w =>
    if write then (w.winReady .host (0x2000000 + off) data.length).bar0Write .host (0x2000000 + off) data
    else (w.winReady .host (0x2000000 + off) n).bar0Read .host (0x2000000 + off) n))

/-- BAR2_WRITE (R481): A posted BAR2 write reaches LPDDR5X in class 4, or is discarded beyond the installed size. -/
def execBar2Write (off : Nat) (data : List Byte) (st : State) : Host.Outcome State Fault Refusal :=
  need (off + data.length ≤ bar2Bytes) (st.coreRun (Machine.bar2Write off data))

/-- BAR2_READ (R481): A BAR2 read completes after earlier BAR2 writes. -/
def execBar2Read (off n : Nat) (st : State) : Host.Outcome State Fault Refusal :=
  need (off + n ≤ bar2Bytes) (st.coreRun (Machine.bar2Read off n))

/-- BAR2_FLUSH (R482): A read of MEM_BAR2_FLUSH completes after every earlier BAR2 write has taken effect. -/
def execBar2Flush (st : State) : Host.Outcome State Fault Refusal := st.coreDev Machine.bar2Flush

/-- PCIE_REQUEST_FAIL (R484): A device request to host memory fails and its hopper, DMA, marker or message effect follows. -/
def execPcieRequestFail (kind ident status : Nat) (st : State) : Host.Outcome State Fault Refusal :=
  st.coreRun (Machine.pcieRequestFail kind ident status)

/-- LINK_DOWN (R485): Link down, hot reset or PCIE_PERST_N resets configuration space and fails outstanding requests. -/
def execLinkDown (st : State) : Host.Outcome State Fault Refusal := st.coreRun Machine.linkDown

/-- FUNCTION_LEVEL_RESET (R485): An FLR resets configuration space and disables or aborts every host-owned ring, channel and blitter. -/
def execFunctionLevelReset (st : State) : Host.Outcome State Fault Refusal := st.coreRun Machine.functionLevelReset

/-- LINK_UP (R485): The link comes up, possibly at reduced width or speed, and raises source 373. -/
def execLinkUp (speed width : Nat) (st : State) : Host.Outcome State Fault Refusal := st.coreDev (Machine.linkUp speed width)

/-- MR4_REPORT (R478): An LPDDR5X device reports a hot temperature or refresh change and refresh is raised. -/
def execMr4Report (ch code : Nat) (st : State) : Host.Outcome State Fault Refusal :=
  need (ch < 8 ∧ code < 8) (st.coreDev (Machine.mr4Report ch code))

/-- CHANNEL_FENCE (R566): An LPDDR5X channel is fenced for errors, a timeout or a missed refresh, and its requests complete at once. -/
def execChannelFence (ch : Nat) (refresh : Bool) (st : State) : Host.Outcome State Fault Refusal :=
  need (ch < 8) (st.coreDev (Machine.channelFence ch refresh))

/-- AV_FENCE_CMD (R566): A write of AV_FENCE_CMD by the host or KC0 fences the named channel. -/
def execAvFenceCmd (ag : Agent) (v : Word) (st : State) : Host.Outcome State Fault Refusal :=
  need (ag.ok = true) (st.busSet ag (Reg.AV_FENCE_CMD) (fun _ => v))

/-- BUS_MASTER_ENABLE (R483): The host sets Bus Master Enable in configuration space, and waiting device requests and pending MSI-X
messages may proceed. -/
def execBusMasterEnable (msix : Bool) (st : State) : Host.Outcome State Fault Refusal := st.coreRun (Machine.busMasterEnable msix)

/-- AER_ERROR (R485): The endpoint logs a correctable or uncorrectable error by Advanced Error Reporting and raises source 374 or 375. -/
def execAerError (uncorrectable : Bool) (st : State) : Host.Outcome State Fault Refusal := st.coreDev (Machine.aerError uncorrectable)

end Sys2Proof.Machine
end

