-- ==== Sys2Proof/Machine/CmdPins.lean ====
section
/-!
DEFINITION. Pins and PIO: the meaning of each command of the family, one definition a command.
-/

namespace Sys2Proof.Machine

/-- A pad changes while the part is powered: the raw level alone while the core domain is down (R447, R448). -/
def pinEvent (p : Nat) (v : Bool) (d : Dev) : Dev :=
  if d.coreUp then Machine.pinChange p v d else d.pb (Reg.GP_IN (p / 32)) (p % 32) v

/-- PIN_CHANGE (R447): A pad value change becomes valid as raw input for cores, PIO, routes, Damsel and captures. -/
def execPinChange (p : Nat) (v : Bool) (st : State) : Host.Outcome State Fault Refusal := need (p < 128) (st.dev (pinEvent p v))

/-- GLITCH_FILTER_SETTLE (R448): A raw level held for GLITCH CCLK becomes the glitch-filtered value. -/
def execGlitchFilterSettle (g : Nat) (st : State) : Host.Outcome State Fault Refusal := need (g < 16) (st.coreDev (glitchEvent g))

/-- DEBOUNCE_SETTLE (R448): A glitch-filtered level held DEB_MS ms becomes the filtered value. -/
def execDebounceSettle (g : Nat) (st : State) : Host.Outcome State Fault Refusal := need (g < 16) (st.coreDev (debounceEvent g))

/-- GP_OUT_WRITE (R446): A write of GP_OUT, GP_OUT_SET or GP_OUT_CLR changes the latch bits of owned pins. -/
def execGpOutWrite (ag : Agent) (j op : Nat) (v : Word) (st : State) : Host.Outcome State Fault Refusal :=
  need (ag.ok = true ∧ j < 4 ∧ op < 3) (st.busSet ag (Reg.GP_OUT 0 + 0x10 * op + 4 * j) (fun _ => v))

/-- PIN_CFG_WRITE (R445): The owner's write of GP_PIN_CFG changes the pin's sources, or is refused for a reserved function. -/
def execPinCfgWrite (ag : Agent) (p : Nat) (v : Word) (st : State) : Host.Outcome State Fault Refusal :=
  need (ag.ok = true ∧ p < 128) (st.busSet ag (Reg.GP_PIN_CFG p) (fun _ => v))

/-- PIN_OWNER_WRITE (R443): The owner hands the pin to another agent unless LOCK is set. -/
def execPinOwnerWrite (ag : Agent) (p : Nat) (v : Word) (st : State) : Host.Outcome State Fault Refusal :=
  need (ag.ok = true ∧ p < 128) (st.busSet ag (Reg.GP_PIN_OWN p) (fun _ => v))

/-- GRP_CFG_WRITE (R449): A write of a pattern group's settings restarts debounce or re-evaluates the match without an event. -/
def execGrpCfgWrite (ag : Agent) (g : Nat) (isMatch : Bool) (v : Word) (st : State) : Host.Outcome State Fault Refusal :=
  need (ag.ok = true ∧ g < 16) (st.busSet ag (if isMatch then Reg.GP_GRP_MATCH g else Reg.GP_GRP_CFG g) (fun _ => v))

/-- PIO_TICK (R452): An engine tick gives the slot's context its step, in which it executes one instruction or an idle HOLD step. -/
def execPioTick (e : Nat) (st : State) : Host.Outcome State Fault Refusal := need (e < 8) (st.coreDev (pioTickEvent e))

/-- GO (R454): The PIO context jumps to TARGET when its condition holds. -/
def execPioGo (e : Nat) (st : State) : Host.Outcome State Fault Refusal := need (e < 8) (st.coreDev (pioOpEvent 0 e))

/-- AWAIT (R454): The PIO context stays until its pin, flag or event condition holds. -/
def execPioAwait (e : Nat) (st : State) : Host.Outcome State Fault Refusal := need (e < 8) (st.coreDev (pioOpEvent 1 e))

/-- SHIN (R455): The PIO context shifts N bits into SR. -/
def execPioShin (e : Nat) (st : State) : Host.Outcome State Fault Refusal := need (e < 8) (st.coreDev (pioOpEvent 2 e))

/-- SHOUT (R455): The PIO context shifts N bits out of SR. -/
def execPioShout (e : Nat) (st : State) : Host.Outcome State Fault Refusal := need (e < 8) (st.coreDev (pioOpEvent 3 e))

/-- DRIVE (R454): The PIO context sets the levels or directions of its drive-window pins. -/
def execPioDrive (e : Nat) (st : State) : Host.Outcome State Fault Refusal := need (e < 8) (st.coreDev (pioOpEvent 4 e))

/-- LOAD (R454): The PIO context takes the oldest TX word into SR or A, or waits or clears F when empty. -/
def execPioLoad (e : Nat) (st : State) : Host.Outcome State Fault Refusal := need (e < 8) (st.coreDev (pioOpEvent 5 e))

/-- STORE (R454): The PIO context pushes SR or A into the RX FIFO, or waits or discards when full. -/
def execPioStore (e : Nat) (st : State) : Host.Outcome State Fault Refusal := need (e < 8) (st.coreDev (pioOpEvent 6 e))

/-- LDI (R454): The PIO context loads an immediate into A, A's high half, L0 or L1. -/
def execPioLdi (e : Nat) (st : State) : Host.Outcome State Fault Refusal := need (e < 8) (st.coreDev (pioOpEvent 7 e))

/-- XFER (R454): The PIO context copies a transformed source into a destination. -/
def execPioXfer (e : Nat) (st : State) : Host.Outcome State Fault Refusal := need (e < 8) (st.coreDev (pioOpEvent 8 e))

/-- SIGNAL (R454): The PIO context sets or clears an engine flag or raises source 356 + e. -/
def execPioSignal (e : Nat) (st : State) : Host.Outcome State Fault Refusal := need (e < 8) (st.coreDev (pioOpEvent 9 e))

/-- PIO_START (R460): PIO_SYNC START sets EN and restarts the clocks of the owned engines. -/
def execPioStart (ag : Agent) (m : Nat) (st : State) : Host.Outcome State Fault Refusal :=
  need (ag.ok = true ∧ m < 256) (st.busSet ag (Reg.PIO_SYNC) (fun _ => BitVec.ofNat 32 m))

/-- PIO_STOP (R460): PIO_SYNC STOP clears EN and freezes every context. -/
def execPioStop (ag : Agent) (m : Nat) (st : State) : Host.Outcome State Fault Refusal :=
  need (ag.ok = true ∧ m < 256) (st.busSet ag (Reg.PIO_SYNC) (fun _ => BitVec.ofNat 32 (m * 2 ^ 8)))

/-- PIO_CLKRST (R460): PIO_SYNC CLKRST restarts the engine clocks without other change. -/
def execPioClkrst (ag : Agent) (m : Nat) (st : State) : Host.Outcome State Fault Refusal :=
  need (ag.ok = true ∧ m < 256) (st.busSet ag (Reg.PIO_SYNC) (fun _ => BitVec.ofNat 32 (m * 2 ^ 16)))

/-- CONTEXT_ENABLE (R459): A write of PIO_E_CTXEN starts a context at its entry or stops it after the instruction in progress. -/
def execContextEnable (ag : Agent) (e : Nat) (v : Word) (st : State) : Host.Outcome State Fault Refusal :=
  need (ag.ok = true ∧ e < 8) (st.busSet ag (Reg.PIO_E_CTXEN e) (fun _ => v))

/-- PIO_TXF_WRITE (R456): A write of PIO_C_TXF enters the TX FIFO or sets TX_OVF. -/
def execPioTxfWrite (ag : Agent) (e c : Nat) (v : Word) (st : State) : Host.Outcome State Fault Refusal :=
  need (ag.ok = true ∧ e < 8 ∧ c < 16) (st.busSet ag (Reg.PIO_C_TXF e c) (fun _ => v))

/-- PIO_RXF_READ (R456): A read of PIO_C_RXF removes the oldest word or sets RX_UNF. -/
def execPioRxfRead (ag : Agent) (e c : Nat) (st : State) : Host.Outcome State Fault Refusal :=
  need (ag.ok = true ∧ e < 8 ∧ c < 16) (st.busGet ag (Reg.PIO_C_RXF e c))

/-- PIO_IM_WRITE (R461): A write to PIO instruction memory is taken only while EN is 0, else IM_DENIED. -/
def execPioImWrite (ag : Agent) (e a : Nat) (v : Word) (st : State) : Host.Outcome State Fault Refusal :=
  need (ag.ok = true ∧ e < 8 ∧ a < 1024) (st.busSet ag (pioWord e a) (fun _ => v))

end Sys2Proof.Machine
end

