-- ==== Sys2Proof/Machine/CmdPower.lean ====
section
/-!
DEFINITION. Power, resets and boot: the meaning of each command of the family, one definition a command.
-/

namespace Sys2Proof.Machine

/-- POR_N_ASSERT (R18): POR_N low resets both the always-on and the core domain. -/
def execPorAssert (st : State) : Host.Outcome State Fault Refusal := st.run porAssert

/-- POR_N_RELEASE (R509): At the release of POR_N the straps latch, the timebase starts, the TBCLK PLL locks and the node runs
standalone. -/
def execPorRelease (node : Nat) (st : State) : Host.Outcome State Fault Refusal := need (node < 64) (st.run (porRelease node))

/-- CORE_RST_N_ASSERT (R18): CORE_RST_N low resets the core domain while the always-on domain runs on and the pads hold. -/
def execCoreRstAssert (st : State) : Host.Outcome State Fault Refusal := st.run coreRstAssert

/-- CORE_RST_N_RELEASE (R510): At the release of CORE_RST_N the boot sequencer starts its phases on the safe clock. -/
def execCoreRstRelease (st : State) : Host.Outcome State Fault Refusal := st.run coreRstRelease

/-- LPDDR5X_TRAINED (R510): LPDDR5X initialisation and training ends, LP_READY sets and boot phase 8 may begin. -/
def execLpTrained (st : State) : Host.Outcome State Fault Refusal := st.coreDev lpTrained

/-- HOST_SET (R512): A write of SYS_BOOT_CMD.HOST_SET while NO_IMAGE is 1 resumes boot at phase 4 on the host-placed set. -/
def execHostSet (ag : Agent) (v : Word) (st : State) : Host.Outcome State Fault Refusal :=
  need (ag.ok = true) (st.busSet ag (Reg.SYS_BOOT_CMD) (fun _ => v))

/-- SYS_CORE_START (R513): A write of SYS_CORE_START by KC0 starts the named cores from area A in ascending order, KC3 first. -/
def execSysCoreStart (ag : Agent) (v : Word) (st : State) : Host.Outcome State Fault Refusal :=
  need (ag.ok = true) (st.busSet ag (Reg.SYS_CORE_START) (fun _ => v))

/-- SOFT_RESET (R507): A write of the key to SYS_RST_CMD by the host or KC0 resets the core domain as CORE_RST_N would. -/
def execSoftReset (ag : Agent) (v : Word) (st : State) : Host.Outcome State Fault Refusal :=
  need (ag.ok = true) (st.busSet ag (Reg.SYS_RST_CMD) (fun _ => v))

/-- CORE_POWER_OFF (R595): The core rails fall after CORE_RST_N while the always-on group keeps the tick, ring and pads running. -/
def execCorePowerOff (st : State) : Host.Outcome State Fault Refusal := st.run corePowerOff

/-- VDD_SRAM_LOSS (R596): VDD_SRAM falling below 0.60 V with banks retained clears RET of every bank and loses their contents and
spare-row assignments. -/
def execVddSramLoss (st : State) : Host.Outcome State Fault Refusal := st.run vddSramLoss

/-- VDD_AON_LOSS (R597): VDD_AON below 0.62 V for 1 µs acts as POR_N low until the rail and POR_N return. -/
def execVddAonLoss (st : State) : Host.Outcome State Fault Refusal := st.run vddAonLoss

end Sys2Proof.Machine
end

