-- ==== Sys2Proof/Machine/CmdRegister.lean ====
section
/-!
DEFINITION. Register accesses and basic or expert control: the meaning of each command of the family, one definition a command.
-/

namespace Sys2Proof.Machine

/-- REGISTER_WRITE (R8): A write to a register field that has no row of its own acts by its access code and its chapter's update rule. -/
def execRegisterWrite (ag : Agent) (off : Nat) (data : List Byte) (st : State) : Host.Outcome State Fault Refusal :=
  need (ag.ok = true ∧ off < barBytes) (st.coreRun (fun w => (w.winReady ag off data.length).bar0Write ag off data))

/-- RC_READ (R8): A read of an RC field returns its value and then clears it, keeping any coincident event for the next read. -/
def execRcRead (ag : Agent) (off n : Nat) (st : State) : Host.Outcome State Fault Refusal :=
  need (ag.ok = true ∧ off < barBytes) (st.coreRun (fun w => (w.winReady ag off n).bar0Read ag off n))

/-- SHADOW_LO_READ (R59): A read of a LO half (flip timestamp, tick number, epoch, ring time and similar) copies the matching HI and
companion values into shadows for the following reads. -/
def execShadowLoRead (ag : Agent) (off : Nat) (st : State) : Host.Outcome State Fault Refusal :=
  need (ag.ok = true ∧ off < barBytes ∧ shadowOf off ≠ []) (st.coreRun (fun w => w.busRead ag off))

/-- LEVEL_TO_EXPERT (R13): A CTRL write that changes LEVEL from 0 to 1 applies the written or held PROFILE, copies the derived values
into the expert registers and makes them live. -/
def execLevelToExpert (ag : Agent) (b : Block) (p : Nat) (st : State) : Host.Outcome State Fault Refusal :=
  need (ag.ok = true ∧ b.ok = true) (st.busSet ag (b.ctrl) (fun d => d.ctrlWord b true p))

/-- LEVEL_TO_BASIC (R14): A CTRL write that changes LEVEL from 1 to 0 discards the expert values and schedules the PROFILE-derived
values for the update point. -/
def execLevelToBasic (ag : Agent) (b : Block) (p : Nat) (st : State) : Host.Outcome State Fault Refusal :=
  need (ag.ok = true ∧ b.ok = true) (st.busSet ag (b.ctrl) (fun d => d.ctrlWord b false p))

/-- PROFILE_WRITE (R15): A CTRL write at the basic level that changes PROFILE schedules the derived setting for the block's update
point, or ignores a reserved PROFILE and sets IGNWR. -/
def execProfileWrite (ag : Agent) (b : Block) (p : Nat) (st : State) : Host.Outcome State Fault Refusal :=
  need (ag.ok = true ∧ b.ok = true) (st.busSet ag (b.ctrl) (fun d => d.ctrlWord b false p))

/-- PROFILE_STORE_EXPERT (R617): A CTRL write that keeps LEVEL at 1 with another PROFILE only stores that PROFILE. -/
def execProfileStoreExpert (ag : Agent) (b : Block) (p : Nat) (st : State) : Host.Outcome State Fault Refusal :=
  need (ag.ok = true ∧ b.ok = true) (st.busSet ag (b.ctrl) (fun d => d.ctrlWord b true p))

/-- EXPERT_REGISTER_WRITE (R616): A write to an expert register at the expert level reads back at once and takes effect at its update
point; at the basic level it is ignored and sets IGNWR. -/
def execExpertRegisterWrite (ag : Agent) (off : Nat) (v : Word) (st : State) : Host.Outcome State Fault Refusal :=
  need (ag.ok = true ∧ isExpert off = true) (st.busSet ag off (fun _ => v))

end Sys2Proof.Machine
end

