-- ==== Sys2Proof/Machine/CmdRing.lean ====
section
/-!
DEFINITION. The Ihlo ring node: the meaning of each command of the family, one definition a command.
-/

namespace Sys2Proof.Machine

/-- RING_LINK_TRAINED (R299): A ring link completes training and its input is checked against the wiring. -/
def execRingLinkTrained (leat : Bool) (node : Nat) (linkBit : Bool) (st : State) : Host.Outcome State Fault Refusal :=
  need (node < 64) (st.aonDev (Machine.ringLinkTrained leat node linkBit))

/-- RECORD (R302): A RECORD frame is taken once, forwarded and, when tapping, handed to the hopper for keep filtering and staging. -/
def execRingRecord (leat : Bool) (f : RFrame) (st : State) : Host.Outcome State Fault Refusal := st.aonDev (Machine.ringRecord leat f)

/-- RECORD_PAIR (R302): A RECORD_PAIR frame carrying an OBJ_WRITE is taken, forwarded and tapped like RECORD. -/
def execRingRecordPair (leat : Bool) (f : RFrame) (st : State) : Host.Outcome State Fault Refusal :=
  st.aonDev (Machine.ringRecordPair leat f)

/-- TICK_FRAME (R316): A TICK frame is forwarded with corrected CORR and gives its taker the source's tick instant, ring time, horizon
and cut. -/
def execRingTick (leat : Bool) (f : RFrame) (sub : Nat) (st : State) : Host.Outcome State Fault Refusal :=
  need (sub < 1000) (st.aonDev (ringTickEvent leat f sub))

/-- STATE (R312): A STATE frame is taken and forwarded, updating membership, lag, segment and departure knowledge. -/
def execRingState (leat : Bool) (f : RFrame) (st : State) : Host.Outcome State Fault Refusal := st.aonDev (Machine.ringState leat f)

/-- PROBE (R318): A PROBE frame is forwarded like TICK, or on return to its origin gives RING_LOOP and its residual. -/
def execRingProbe (leat : Bool) (f : RFrame) (sub : Nat) (st : State) : Host.Outcome State Fault Refusal :=
  need (sub < 1000) (st.aonDev (Machine.ringProbe leat f sub))

/-- EVENT (R326): An EVENT frame is taken and delivered as a mailbox message or alarm notice, or forwarded. -/
def execRingEvent (leat : Bool) (f : RFrame) (st : State) : Host.Outcome State Fault Refusal := st.aonDev (Machine.ringEvent leat f)

/-- RING_INPUT_DEAD (R307): The primary input goes dead and the node switches to its leat input, replaying the leat buffer. -/
def execRingInputDead (leat : Bool) (st : State) : Host.Outcome State Fault Refusal := st.aonDev (Machine.ringInputDead leat)

/-- RING_INPUT_RETURN (R308): The primary input has been alive 100 µs with a JOINED neighbour and is selected again. -/
def execRingInputReturn (st : State) : Host.Outcome State Fault Refusal := st.aonDev ringReturnEvent

/-- FRAME_INJECT (R305): An originated frame leaves in a free slot group in its priority order. -/
def execFrameInject (st : State) : Host.Outcome State Fault Refusal := st.aonDev frameInjectEvent

/-- DEPART (R309): A write of RING_CMD.DEPART stops tapping, sends a DEPART STATE frame and enters DEPARTED. -/
def execDepart (ag : Agent) (st : State) : Host.Outcome State Fault Refusal :=
  need (ag.ok = true) (st.busSet ag (Reg.RING_CMD) (fun _ => 1))

/-- PROBE_CMD (R318): A write of RING_CMD.PROBE sends a PROBE frame. -/
def execProbeCmd (ag : Agent) (st : State) : Host.Outcome State Fault Refusal :=
  need (ag.ok = true) (st.busSet ag (Reg.RING_CMD) (fun _ => 2))

/-- PROBE_TIMEOUT (R318): A probe not returned after 1,000 µs is abandoned. -/
def execProbeTimeout (st : State) : Host.Outcome State Fault Refusal := st.aonDev probeTimeoutEvent

/-- SEGMENT_TIMEOUT (R310): When the node's own STATE frames fail to return within 2 tick periods it enters segment mode, and leaves
it when they return. -/
def execSegmentTimeout (st : State) : Host.Outcome State Fault Refusal := st.aonDev segmentTimeoutEvent

/-- SOURCE_TIMEOUT (R319): A node with TICK_SRC_EN that has taken no TICK frame for its timeout becomes the tick source. -/
def execSourceTimeout (st : State) : Host.Outcome State Fault Refusal := st.aonDev sourceTimeoutEvent

/-- HORIZON_REQUEST (R321): A write of RING_HZ_AT on the source submits a horizon change or sets HZ_ERR. -/
def execHorizonRequest (ag : Agent) (v : Word) (st : State) : Host.Outcome State Fault Refusal :=
  need (ag.ok = true) (st.busSet ag (Reg.RING_HZ_AT) (fun _ => v))

/-- MBX_SEND (R327): A write of RING_MBX_TX_CTRL with GO injects a CODE 0 EVENT frame and holds BUSY until it leaves. -/
def execMbxSend (ag : Agent) (v : Word) (st : State) : Host.Outcome State Fault Refusal :=
  need (ag.ok = true) (st.busSet ag (Reg.RING_MBX_TX_CTRL) (fun _ => fieldWord v 7 1 1))

/-- MBX_POP (R327): A write of RING_MBX_RX_INFO.POP removes the oldest received message. -/
def execMbxPop (ag : Agent) (st : State) : Host.Outcome State Fault Refusal :=
  need (ag.ok = true) (st.busSet ag (Reg.RING_MBX_RX_INFO) (fun _ => 0x80000000))

/-- RING_PLL_LOCK (R299): The PLL of a ring link locks or relocks, taking the node out of OFF and starting a training sequence on its
outputs. -/
def execRingPllLock (st : State) : Host.Outcome State Fault Refusal := st.aonDev Machine.ringPllLock

end Sys2Proof.Machine
end

