-- ==== Sys2Proof/Machine/CmdSecurity.lean ====
section
/-!
DEFINITION. Lifecycle, keys, tamper, verifier and TRNG: the meaning of each command of the family, one definition a command.
-/

namespace Sys2Proof.Machine

/-- LIFECYCLE_CHANGE (R539): A valid SEC_LC_CMD programs PENDING, wipes bank 95 and programs COMMITTED. -/
def execLifecycleChange (ag : Agent) (v : Word) (st : State) : Host.Outcome State Fault Refusal :=
  need (ag.ok = true) (st.busSet ag (Reg.SEC_LC_CMD) (fun _ => v))

/-- KEY_PROGRAM (R539): SEC_KEY_CMD OP 1 programs a key slot's hash from bank 95. -/
def execKeyProgram (ag : Agent) (slot : Nat) (st : State) : Host.Outcome State Fault Refusal :=
  need (ag.ok = true ∧ slot < 4) (st.busSet ag (Reg.SEC_KEY_CMD) (fun _ => packFields [(0, slot), (4, 1)]))

/-- KEY_SET_DEV (R539): SEC_KEY_CMD OP 2 sets a key slot's DEV flag. -/
def execKeySetDev (ag : Agent) (slot : Nat) (st : State) : Host.Outcome State Fault Refusal :=
  need (ag.ok = true ∧ slot < 4) (st.busSet ag (Reg.SEC_KEY_CMD) (fun _ => packFields [(0, slot), (4, 2)]))

/-- KEY_REVOKE (R539): SEC_KEY_CMD OP 3 revokes a key slot unless it is the last production slot. -/
def execKeyRevoke (ag : Agent) (slot : Nat) (st : State) : Host.Outcome State Fault Refusal :=
  need (ag.ok = true ∧ slot < 4) (st.busSet ag (Reg.SEC_KEY_CMD) (fun _ => packFields [(0, slot), (4, 3)]))

/-- IMAGE_KEY_PROGRAM (R539): A write of SEC_IKEY_CMD programs the image key from bank 95. -/
def execImageKeyProgram (ag : Agent) (v : Word) (st : State) : Host.Outcome State Fault Refusal :=
  need (ag.ok = true) (st.busSet ag (Reg.SEC_IKEY_CMD) (fun _ => v))

/-- WIPE (R540): A wipe of bank 95 starts or restarts at a SEC_WIPE_CMD, tamper event or lifecycle change. -/
def execWipe (ag : Agent) (v : Word) (st : State) : Host.Outcome State Fault Refusal :=
  need (ag.ok = true) (st.busSet ag (Reg.SEC_WIPE_CMD) (fun _ => v))

/-- WIPE_DONE (R540): The wipe of bank 95 ends and WIPING clears. -/
def execWipeDone (st : State) : Host.Outcome State Fault Refusal := st.coreRun wipeDoneEvent

/-- TAMPER_EVENT (R542): A tamper monitor fires, latches its bit, counts, wipes bank 95 and raises source 2. -/
def execTamperEvent (mon : Nat) (on : Bool) (st : State) : Host.Outcome State Fault Refusal :=
  need (mon < 6) (st.dev (Machine.tamperEvent mon on))

/-- TAMPER_LOCK (R541): A write of SEC_TAMPER_CFG.LOCK freezes the tamper configuration until POR_N. -/
def execTamperLock (ag : Agent) (st : State) : Host.Outcome State Fault Refusal :=
  need (ag.ok = true) (st.busSet ag (Reg.SEC_TAMPER_CFG) (fun d => fieldWord (d.rg Reg.SEC_TAMPER_CFG) 8 1 1))

/-- VERIFY_GO (R525): A write of SEC_VFY_CMD.GO queues an ECDSA verification on bank 95 data. -/
def execVerifyGo (ag : Agent) (v : Word) (st : State) : Host.Outcome State Fault Refusal :=
  need (ag.ok = true) (st.busSet ag (Reg.SEC_VFY_CMD) (fun _ => v))

/-- VERIFY_DONE (R525): A verification ends after 2,100 µs with its outcome readable. -/
def execVerifyDone (st : State) : Host.Outcome State Fault Refusal := st.coreRun verifyEvent

/-- RNG_REQUEST (R544): A write of SEC_RNG_REQ queues a TRNG request or sets RNG_FULL. -/
def execRngRequest (ag : Agent) (v : Word) (st : State) : Host.Outcome State Fault Refusal :=
  need (ag.ok = true) (st.busSet ag (Reg.SEC_RNG_REQ) (fun _ => v))

/-- RNG_BLOCK (R543): A TRNG output block is formed and written, setting DONE when the request ends. -/
def execRngBlock (st : State) : Host.Outcome State Fault Refusal := st.coreRun rngBlockEvent

/-- RNG_HEALTH_FAIL (R544): A health test fails, failing all queued requests and closing the source. -/
def execRngHealthFail (apt : Bool) (st : State) : Host.Outcome State Fault Refusal := st.coreRun (Machine.rngHealthFail apt)

/-- RNG_RESTART (R544): A write of SEC_RNG_CMD.RESTART runs the start-up test. -/
def execRngRestart (ag : Agent) (v : Word) (st : State) : Host.Outcome State Fault Refusal :=
  need (ag.ok = true) (st.busSet ag (Reg.SEC_RNG_CMD) (fun _ => v))

/-- RNG_STARTUP_DONE (R543): The start-up test ends, opening the source or setting RESTART_FAIL. -/
def execRngStartupDone (fail : Option Bool) (st : State) : Host.Outcome State Fault Refusal := st.coreRun (rngStartupEvent fail)

end Sys2Proof.Machine
end

