-- ==== Sys2Proof/Machine/CmdSystem.lean ====
section
/-!
DEFINITION. Long operations, structure loads, the clock and mailboxes: the meaning of each command of the family, one definition a command.
-/

namespace Sys2Proof.Machine

/-- LOP_START (R500): The START command checks and starts a long operation, queued or refused by the conflict matrix. -/
def execLopStart (ag : Agent) (sl op : Nat) (int : Bool) (st : State) : Host.Outcome State Fault Refusal :=
  need (ag.ok = true ∧ sl < 64 ∧ op < 16) (st.coreRun (Machine.lopStart ag sl op int))

/-- LOP_SUSPEND (R500): The SUSPEND command suspends a queued operation or one running at its next suspend point. -/
def execLopSuspend (ag : Agent) (sl : Nat) (st : State) : Host.Outcome State Fault Refusal :=
  need (ag.ok = true ∧ sl < 64) (st.coreRun (Machine.lopSuspend ag sl))

/-- LOP_RESUME (R500): The RESUME command resumes a suspended operation or withdraws a suspension. -/
def execLopResume (ag : Agent) (sl : Nat) (st : State) : Host.Outcome State Fault Refusal :=
  need (ag.ok = true ∧ sl < 64) (st.coreRun (Machine.lopResume ag sl))

/-- LOP_CANCEL (R500): The CANCEL command cancels an operation at once or at its next suspend point. -/
def execLopCancel (ag : Agent) (sl : Nat) (st : State) : Host.Outcome State Fault Refusal :=
  need (ag.ok = true ∧ sl < 64) (st.coreRun (Machine.lopCancel ag sl))

/-- LOP_STATUS (R500): The STATUS command snapshots a slot's status and progress together. -/
def execLopStatus (sl : Nat) (st : State) : Host.Outcome State Fault Refusal := need (sl < 64) (st.coreDev (Machine.lopStatus sl))

/-- LOP_SUSPEND_POINT (R500): A running operation reaches a suspend point and becomes SUSPENDED or CANCELLED as requested. -/
def execLopSuspendPoint (sl n : Nat) (st : State) : Host.Outcome State Fault Refusal :=
  need (sl < 64) (st.coreRun (lopSuspendEvent sl n))

/-- LOP_COMPLETE (R505): A long operation ends in DONE with its result, starting queued ones and raising source 380. -/
def execLopComplete (sl : Nat) (fail : Option Nat) (st : State) : Host.Outcome State Fault Refusal :=
  need (sl < 64) (st.coreRun (lopCompleteEvent sl fail))

/-- STRUCT_CHECK_DONE (R493): A structure image's checks end, refusing it with a cause or passing it to apply. -/
def execStructCheckDone (sl : Nat) (st : State) : Host.Outcome State Fault Refusal :=
  need (sl < 64) (st.coreRun (Machine.structCheckDone sl))

/-- FULL_LOAD_APPLY (R494): A checked full image stops and rebuilds the composition and audio path and publishes empty indexes. -/
def execFullLoadApply (sl : Nat) (st : State) : Host.Outcome State Fault Refusal :=
  need (sl < 64) (st.coreRun (Machine.fullLoadApply sl))

/-- CLK_POINT_REQUEST (R506): A write of SYS_CLK_CTRL.POINT starts a CCLK change or is refused. -/
def execClkPointRequest (ag : Agent) (v : Word) (st : State) : Host.Outcome State Fault Refusal :=
  need (ag.ok = true) (st.busSet ag (Reg.SYS_CLK_CTRL) (fun _ => v))

/-- CLK_RELOCK_DONE (R25): The core PLL relocks and the fabric leaves the safe clock for the new point. -/
def execClkRelockDone (st : State) : Host.Outcome State Fault Refusal := st.coreRun Machine.clkRelockDone

/-- MBX_TC_WRITE (R508): The host writes word 3 of a to-core mailbox, marking it full and raising source 382. -/
def execMbxTcWrite (ag : Agent) (c : Nat) (v : Word) (st : State) : Host.Outcome State Fault Refusal :=
  need (ag.ok = true ∧ c < 4) (st.busSet ag (Reg.SYS_MBX_TC c 3) (fun _ => v))

/-- MBX_TC_READ (R508): Core c reads word 3 of its to-core mailbox and empties it. -/
def execMbxTcRead (ag : Agent) (c : Nat) (st : State) : Host.Outcome State Fault Refusal :=
  need (ag.ok = true ∧ c < 4) (st.busGet ag (Reg.SYS_MBX_TC c 3))

/-- MBX_TH_WRITE (R508): Core c writes word 3 of its to-host mailbox, marking it full and raising source 383. -/
def execMbxThWrite (ag : Agent) (c : Nat) (v : Word) (st : State) : Host.Outcome State Fault Refusal :=
  need (ag.ok = true ∧ c < 4) (st.busSet ag (Reg.SYS_MBX_TH c 3) (fun _ => v))

/-- MBX_TH_READ (R508): The host reads word 3 of a to-host mailbox and empties it. -/
def execMbxThRead (ag : Agent) (c : Nat) (st : State) : Host.Outcome State Fault Refusal :=
  need (ag.ok = true ∧ c < 4) (st.busGet ag (Reg.SYS_MBX_TH c 3))

end Sys2Proof.Machine
end

