-- ==== Sys2Proof/Machine/CmdTick.lean ====
section
/-!
DEFINITION. The mill tick: the meaning of each command of the family, one definition a command.
-/

namespace Sys2Proof.Machine

/-- TICK_ISSUE (R38): The flywheel issues a mill tick on the last TBCLK edge at or before its fixed time, raising the tick number by
1. -/
def execTickIssue (st : State) : Host.Outcome State Fault Refusal := st.aonDev tickIssueEvent

/-- TICK_IN_EDGE (R40, R44): An active TICK_IN edge, time-stamped and compensated, is judged valid or not against the tick window and
corrects the flywheel.  IN_POL says whether it is the rising or the falling edge. -/
def execTickInEdge (st : State) : Host.Outcome State Fault Refusal := st.aonDev tickInEvent

/-- TICK_WINDOW_CLOSE (R40): A tick's reference window closes without a valid edge and adds 1 to TG_TICK_MISS_CNT. -/
def execTickWindowClose (st : State) : Host.Outcome State Fault Refusal := st.aonDev tickWindowEvent

/-- TICK_SRC_SELECT (R39): A write of TG_TICK_CTRL.SRC selects internal, TICK_IN or ring; 0 clears HOLDOVER and SLEWING, 1 or 2 starts
re-acquisition, 3 sets RATE_ERR. -/
def execTickSrcSelect (ag : Agent) (src : Nat) (st : State) : Host.Outcome State Fault Refusal :=
  need (ag.ok = true ∧ src < 4) (st.busSet ag (Reg.TG_TICK_CTRL) (fun d => fieldWord (d.rg Reg.TG_TICK_CTRL) 8 2 src))

/-- TICK_RATE_SUBMIT (R46): A write of TG_TICK_RATE_DEN submits the rate with the staged numerator, which is checked and scheduled or
refused with RATE_ERR. -/
def execTickRateSubmit (ag : Agent) (den : Word) (st : State) : Host.Outcome State Fault Refusal :=
  need (ag.ok = true) (st.busSet ag (Reg.TG_TICK_RATE_DEN) (fun _ => den))

/-- TICK_PROFILE_WRITE (R49): A write that applies a tick PROFILE at the basic level submits the profile's rate and settings for the
tick R48 names. -/
def execTickProfileWrite (ag : Agent) (p : Nat) (st : State) : Host.Outcome State Fault Refusal :=
  need (ag.ok = true ∧ p < 16) (st.busSet ag (Reg.TG_TICK_CTRL) (fun d => d.ctrlWord .tick false p))

end Sys2Proof.Machine
end

