-- ==== Sys2Proof/Machine/CmdTiming.lean ====
section
/-!
DEFINITION. The timing generators: the meaning of each command of the family, one definition a command.
-/

namespace Sys2Proof.Machine

/-- TG_ENABLE (R53): Enabling a timing generator with a non-zero profile takes it from OFF into ACQUIRING and clears its frame count. -/
def execTgEnable (ag : Agent) (n p : Nat) (st : State) : Host.Outcome State Fault Refusal :=
  need (ag.ok = true ∧ n < 48 ∧ p < 256) (st.busSet ag (Reg.TG_CTRL n) (fun d => fieldWord (fieldWord (d.rg (Reg.TG_CTRL n)) 4 8 p) 1 1 1))

/-- TG_DISABLE (R53): Clearing ENABLE or selecting PROFILE 0 puts the generator in OFF. -/
def execTgDisable (ag : Agent) (n : Nat) (st : State) : Host.Outcome State Fault Refusal :=
  need (ag.ok = true ∧ n < 48) (st.busSet ag (Reg.TG_CTRL n) (fun d => fieldWord (d.rg (Reg.TG_CTRL n)) 1 1 0))

/-- TG_TIMING_WRITE (R52): A new timing is checked by R47 and R51 and takes effect at the next frame start after the next tick, or is
refused with RATE_ERR. -/
def execTgTimingWrite (ag : Agent) (n ix : Nat) (v : Word) (st : State) : Host.Outcome State Fault Refusal :=
  need (ag.ok = true ∧ n < 48 ∧ ix < 8) (st.busSet ag (Reg.TG_HTIMING n + 4 * ix) (fun _ => v))

/-- PCLK_PLL_LOCK (R53): The pixel PLL locks within 100 µs of ACQUIRING and the generator fixes its start point and lead-in. -/
def execPclkPllLock (n : Nat) (st : State) : Host.Outcome State Fault Refusal := need (n < 48) (st.coreDev (pllLock n))

/-- TG_LINE_BEGIN (R54): The beam begins a line: the trim is set anew and the line's LINE_START packet is formed 20 PCLK later. -/
def execTgLineBegin (n line : Nat) (st : State) : Host.Outcome State Fault Refusal := need (n < 48) (st.coreDev (lineEvent n line))

/-- GLIDE_LOCK (R62): The PLL reports lock at the new frequency; the generator fixes its start point and later returns to LOCKED and
counts the glide. -/
def execGlideLock (n : Nat) (st : State) : Host.Outcome State Fault Refusal := need (n < 48) (st.coreDev (glideLockEvent n))

/-- FRAME_START (R59): An output's frame start counts the frame, latches the flip timestamp and epoch for a newly taken-up epoch and
raises source 8 + n. -/
def execFrameStart (n : Nat) (st : State) : Host.Outcome State Fault Refusal := need (n < 48) (st.coreDev (frameStartEvent n))

end Sys2Proof.Machine
end

