-- ==== Sys2Proof/Machine/CmdTransfer.lean ====
section
/-!
DEFINITION. DMA, blitters and reads that meet an error: the meaning of each command of the family, one definition a command.
-/

namespace Sys2Proof.Machine

/-- A write of ABORT (R414, R419): the bytes of host memory that the beats before the stop had read come with the command. -/
def dmaAbortBy (ag : Agent) (ch : Nat) (data : List Byte) (w : W) : W :=
  if ownerIs ag (w.d.dmaOwner ch) then Machine.dmaAbort ch data w else w.dev (fun d => d.sb Reg.DMA_STAT 1)

/-- DMA_START (R414): A write of START checks the transfer and begins it or refuses it with a cause. -/
def execDmaStart (ag : Agent) (ch : Nat) (st : State) : Host.Outcome State Fault Refusal :=
  need (ag.ok = true ∧ ch < 32) (st.busSet ag (Reg.DMA_CH_CMD ch) (fun _ => 1))

/-- DMA_ABORT (R419): A write of ABORT stops a busy channel after the beat in progress. -/
def execDmaAbort (ag : Agent) (ch : Nat) (data : List Byte) (st : State) : Host.Outcome State Fault Refusal :=
  need (ag.ok = true ∧ ch < 32) (st.coreRun (dmaAbortBy ag ch data))

/-- DMA_COMPLETE (R418): The last write takes effect, DONE sets, the tracker is written and the source raised. -/
def execDmaComplete (ch : Nat) (data : List Byte) (st : State) : Host.Outcome State Fault Refusal :=
  need (ch < 32) (st.coreRun (dmaEvent ch data))

/-- BLT_START (R433): A write of START checks the blit, chooses its direction and begins it or refuses it. -/
def execBltStart (ag : Agent) (e : Nat) (st : State) : Host.Outcome State Fault Refusal :=
  need (ag.ok = true ∧ e < 4) (st.busSet ag (Reg.BLT_CMD e) (fun _ => 1))

/-- BLT_ABORT (R437): A write of ABORT stops a busy blitter after the beat in progress. -/
def execBltAbort (ag : Agent) (e : Nat) (st : State) : Host.Outcome State Fault Refusal :=
  need (ag.ok = true ∧ e < 4) (st.busSet ag (Reg.BLT_CMD e) (fun _ => 2))

/-- BLT_WATERMARK (R438): The rows up to WM.LINE become complete, WM sets and the timebase latches. -/
def execBltWatermark (e : Nat) (st : State) : Host.Outcome State Fault Refusal := need (e < 4) (st.coreRun (bltWmEvent e))

/-- BLT_COMPLETE (R437): Every write of the blit takes effect, DONE sets, the tracker is written and the source raised. -/
def execBltComplete (e : Nat) (st : State) : Host.Outcome State Fault Refusal := need (e < 4) (st.coreRun (bltEndEvent e))

/-- UNCORRECTABLE_READ (R468): A read meets an uncorrectable error, delivers it to its requester and raises source 1. -/
def execUncorrectableRead (place : UeAt) (addr : Nat) (who : Reader) (st : State) : Host.Outcome State Fault Refusal :=
  st.coreRun (Machine.uncorrectableRead place addr who)

/-- CORRECTABLE_READ (R549): A read meets a correctable SRAM error, returns corrected data, counts and writes the word back. -/
def execCorrectableRead (place : UeAt) (addr : Nat) (st : State) : Host.Outcome State Fault Refusal :=
  st.coreDev (Machine.correctableRead place addr)

end Sys2Proof.Machine
end

