-- ==== Sys2Proof/Machine/CmdUpdate.lean ====
section
/-!
DEFINITION. Field update: the meaning of each command of the family, one definition a command.
-/

namespace Sys2Proof.Machine

/-- ARM (R530): The ARM command checks ACTIVATE, copies core parts and writes a TRIAL control record for the target tick. -/
def execArm (ag : Agent) (st : State) : Host.Outcome State Fault Refusal :=
  need (ag.ok = true) (st.busSet ag (Reg.UPD_CMD) (fun _ => 1))

/-- ARMING_DONE (R530): Arming ends with the control record written and the state ARMED, or returns to READY with ARM_FAIL. -/
def execArmingDone (st : State) : Host.Outcome State Fault Refusal := st.coreRun Machine.armingDone

/-- DISARM (R530): The DISARM command writes a STABLE record with LAST DISARMED. -/
def execDisarm (ag : Agent) (st : State) : Host.Outcome State Fault Refusal :=
  need (ag.ok = true) (st.busSet ag (Reg.UPD_CMD) (fun _ => 2))

/-- COLD (R534): The COLD command writes a COLD_TRIAL record and resets the core domain to boot the trial set once. -/
def execCold (ag : Agent) (st : State) : Host.Outcome State Fault Refusal :=
  need (ag.ok = true) (st.busSet ag (Reg.UPD_CMD) (fun _ => 3))

/-- CONFIRM_TOKEN (R532): A write of UPD_CONFIRM_HI submits the health token, which confirms the trial or sets BAD_TOKEN. -/
def execConfirmToken (ag : Agent) (hi : Word) (st : State) : Host.Outcome State Fault Refusal :=
  need (ag.ok = true) (st.busSet ag (Reg.UPD_CONFIRM_HI) (fun _ => hi))

/-- TRIAL_WINDOW_END (R533): With no token by the window's end the device falls back to the old set and restarts the cores. -/
def execTrialWindowEnd (st : State) : Host.Outcome State Fault Refusal := st.coreRun Machine.trialWindowEnd

/-- CONTROL_RECORD_WRITTEN (R528): The update sequencer's control-record program completes and the update state moves on. -/
def execControlRecordWritten (st : State) : Host.Outcome State Fault Refusal := st.coreRun recordWritten

end Sys2Proof.Machine
end

