-- ==== Sys2Proof/Machine/Dispatch.lean ====
section
/-!
DEFINITION. The meaning of every command: one arm per constructor, each one call of the command's definition.
-/

namespace Sys2Proof.Machine

/-- The effect of a command on everything but the queue. -/
def exec (i : Instr) (s : State) : Host.Outcome State Fault Refusal :=
  match i with
  | .registerWrite ag off data => Sys2Proof.Machine.execRegisterWrite ag off data s
  | .rcRead ag off n => Sys2Proof.Machine.execRcRead ag off n s
  | .shadowLoRead ag off => Sys2Proof.Machine.execShadowLoRead ag off s
  | .levelToExpert ag b p => Sys2Proof.Machine.execLevelToExpert ag b p s
  | .levelToBasic ag b p => Sys2Proof.Machine.execLevelToBasic ag b p s
  | .profileWrite ag b p => Sys2Proof.Machine.execProfileWrite ag b p s
  | .profileStoreExpert ag b p => Sys2Proof.Machine.execProfileStoreExpert ag b p s
  | .expertRegisterWrite ag off v => Sys2Proof.Machine.execExpertRegisterWrite ag off v s
  | .porAssert => Sys2Proof.Machine.execPorAssert s
  | .porRelease node => Sys2Proof.Machine.execPorRelease node s
  | .coreRstAssert => Sys2Proof.Machine.execCoreRstAssert s
  | .coreRstRelease => Sys2Proof.Machine.execCoreRstRelease s
  | .lpTrained => Sys2Proof.Machine.execLpTrained s
  | .hostSet ag v => Sys2Proof.Machine.execHostSet ag v s
  | .sysCoreStart ag v => Sys2Proof.Machine.execSysCoreStart ag v s
  | .softReset ag v => Sys2Proof.Machine.execSoftReset ag v s
  | .corePowerOff => Sys2Proof.Machine.execCorePowerOff s
  | .vddSramLoss => Sys2Proof.Machine.execVddSramLoss s
  | .vddAonLoss => Sys2Proof.Machine.execVddAonLoss s
  | .tickIssue => Sys2Proof.Machine.execTickIssue s
  | .tickInEdge => Sys2Proof.Machine.execTickInEdge s
  | .tickWindowClose => Sys2Proof.Machine.execTickWindowClose s
  | .tickSrcSelect ag src => Sys2Proof.Machine.execTickSrcSelect ag src s
  | .tickRateSubmit ag den => Sys2Proof.Machine.execTickRateSubmit ag den s
  | .tickProfileWrite ag p => Sys2Proof.Machine.execTickProfileWrite ag p s
  | .tgEnable ag n p => Sys2Proof.Machine.execTgEnable ag n p s
  | .tgDisable ag n => Sys2Proof.Machine.execTgDisable ag n s
  | .tgTimingWrite ag n ix v => Sys2Proof.Machine.execTgTimingWrite ag n ix v s
  | .pclkPllLock n => Sys2Proof.Machine.execPclkPllLock n s
  | .tgLineBegin n line => Sys2Proof.Machine.execTgLineBegin n line s
  | .glideLock n => Sys2Proof.Machine.execGlideLock n s
  | .frameStart n => Sys2Proof.Machine.execFrameStart n s
  | .commitDecision => Sys2Proof.Machine.execCommitDecision s
  | .flipEnd => Sys2Proof.Machine.execFlipEnd s
  | .bolterBuildComplete => Sys2Proof.Machine.execBolterBuildComplete s
  | .takeUpEdge n => Sys2Proof.Machine.execTakeUpEdge n s
  | .lineBuildStart sl line => Sys2Proof.Machine.execLineBuildStart sl line s
  | .objectBuildBegin sl => Sys2Proof.Machine.execObjectBuildBegin sl s
  | .objectBuildEnd sl => Sys2Proof.Machine.execObjectBuildEnd sl s
  | .lineDuePoint sl line => Sys2Proof.Machine.execLineDuePoint sl line s
  | .cacheFill line => Sys2Proof.Machine.execCacheFill line s
  | .videoRowArrival sl p => Sys2Proof.Machine.execVideoRowArrival sl p s
  | .mixGroup n x miss => Sys2Proof.Machine.execMixGroup n x miss s
  | .objPeek ag v => Sys2Proof.Machine.execObjPeek ag v s
  | .objGpeek ag v => Sys2Proof.Machine.execObjGpeek ag v s
  | .frameValueWrite ag off v => Sys2Proof.Machine.execFrameValueWrite ag off v s
  | .cacheInvalidate ag => Sys2Proof.Machine.execCacheInvalidate ag s
  | .invalidateDone => Sys2Proof.Machine.execInvalidateDone s
  | .stagedWrite ag n ix v => Sys2Proof.Machine.execStagedWrite ag n ix v s
  | .slLcommit ag n v => Sys2Proof.Machine.execSlLcommit ag n v s
  | .slLenSet ag n hi v => Sys2Proof.Machine.execSlLenSet ag n hi v s
  | .slLenClr ag n hi v => Sys2Proof.Machine.execSlLenClr ag n hi v s
  | .slLrouteWrite ag n ix v => Sys2Proof.Machine.execSlLrouteWrite ag n ix v s
  | .tableWindowWrite ag n off v => Sys2Proof.Machine.execTableWindowWrite ag n off v s
  | .tableCopy ag n => Sys2Proof.Machine.execTableCopy ag n s
  | .tableCopyDone n => Sys2Proof.Machine.execTableCopyDone n s
  | .mxFmtWrite ag n v => Sys2Proof.Machine.execMxFmtWrite ag n v s
  | .dmStop n => Sys2Proof.Machine.execDmStop n s
  | .dmWait n => Sys2Proof.Machine.execDmWait n s
  | .dmPointReached n => Sys2Proof.Machine.execDmPointReached n s
  | .dmWaitEv n => Sys2Proof.Machine.execDmWaitEv n s
  | .dmWaitEvComplete n => Sys2Proof.Machine.execDmWaitEvComplete n s
  | .dmWrite n => Sys2Proof.Machine.execDmWrite n s
  | .dmWriteM n => Sys2Proof.Machine.execDmWriteM n s
  | .dmSkipIf n => Sys2Proof.Machine.execDmSkipIf n s
  | .dmJump n => Sys2Proof.Machine.execDmJump n s
  | .dmLoop n => Sys2Proof.Machine.execDmLoop n s
  | .dmEvTrig ag n v => Sys2Proof.Machine.execDmEvTrig ag n v s
  | .dmEvSelWrite ag n ix v => Sys2Proof.Machine.execDmEvSelWrite ag n ix v s
  | .dmPmWrite ag n a v => Sys2Proof.Machine.execDmPmWrite ag n a v s
  | .tailWrite ag r v => Sys2Proof.Machine.execTailWrite ag r v s
  | .ringEnable ag r v => Sys2Proof.Machine.execRingEnable ag r v s
  | .ringDisable ag r => Sys2Proof.Machine.execRingDisable ag r s
  | .descriptorWrite ag r ix v => Sys2Proof.Machine.execDescriptorWrite ag r ix v s
  | .ringService data => Sys2Proof.Machine.execRingService data s
  | .hopNop r => Sys2Proof.Machine.execHopNop r s
  | .hopObjWrite r => Sys2Proof.Machine.execHopObjWrite r s
  | .hopObjPatch r => Sys2Proof.Machine.execHopObjPatch r s
  | .hopGroupSet r => Sys2Proof.Machine.execHopGroupSet r s
  | .hopTileRun r => Sys2Proof.Machine.execHopTileRun r s
  | .hopPalWrite r => Sys2Proof.Machine.execHopPalWrite r s
  | .hopPlaneFlip r => Sys2Proof.Machine.execHopPlaneFlip r s
  | .hopRegAtTick r => Sys2Proof.Machine.execHopRegAtTick r s
  | .hopRegNow r => Sys2Proof.Machine.execHopRegNow r s
  | .hopFence r => Sys2Proof.Machine.execHopFence r s
  | .fenceRelease r => Sys2Proof.Machine.execFenceRelease r s
  | .hopMarker r => Sys2Proof.Machine.execHopMarker r s
  | .markerWrite r => Sys2Proof.Machine.execMarkerWrite r s
  | .hopAudCmd r => Sys2Proof.Machine.execHopAudCmd r s
  | .trackerCutLatch => Sys2Proof.Machine.execTrackerCutLatch s
  | .hopTrkDoneWrite ag t v => Sys2Proof.Machine.execHopTrkDoneWrite ag t v s
  | .flRetrain ag n => Sys2Proof.Machine.execFlRetrain ag n s
  | .flCfgWrite ag n isCtrl v => Sys2Proof.Machine.execFlCfgWrite ag n isCtrl v s
  | .trainingComplete n => Sys2Proof.Machine.execTrainingComplete n s
  | .alignGroup n => Sys2Proof.Machine.execAlignGroup n s
  | .packetSend n => Sys2Proof.Machine.execPacketSend n s
  | .idleStatusTimer n => Sys2Proof.Machine.execIdleStatusTimer n s
  | .auxArm ag n k v => Sys2Proof.Machine.execAuxArm ag n k v s
  | .flPllLoss n => Sys2Proof.Machine.execFlPllLoss n s
  | .flPllRelock n => Sys2Proof.Machine.execFlPllRelock n s
  | .laneFault n lane => Sys2Proof.Machine.execLaneFault n lane s
  | .ringLinkTrained leat node linkBit => Sys2Proof.Machine.execRingLinkTrained leat node linkBit s
  | .ringRecord leat f => Sys2Proof.Machine.execRingRecord leat f s
  | .ringRecordPair leat f => Sys2Proof.Machine.execRingRecordPair leat f s
  | .ringTick leat f sub => Sys2Proof.Machine.execRingTick leat f sub s
  | .ringState leat f => Sys2Proof.Machine.execRingState leat f s
  | .ringProbe leat f sub => Sys2Proof.Machine.execRingProbe leat f sub s
  | .ringEvent leat f => Sys2Proof.Machine.execRingEvent leat f s
  | .ringInputDead leat => Sys2Proof.Machine.execRingInputDead leat s
  | .ringInputReturn => Sys2Proof.Machine.execRingInputReturn s
  | .frameInject => Sys2Proof.Machine.execFrameInject s
  | .depart ag => Sys2Proof.Machine.execDepart ag s
  | .probeCmd ag => Sys2Proof.Machine.execProbeCmd ag s
  | .probeTimeout => Sys2Proof.Machine.execProbeTimeout s
  | .segmentTimeout => Sys2Proof.Machine.execSegmentTimeout s
  | .sourceTimeout => Sys2Proof.Machine.execSourceTimeout s
  | .horizonRequest ag v => Sys2Proof.Machine.execHorizonRequest ag v s
  | .mbxSend ag v => Sys2Proof.Machine.execMbxSend ag v s
  | .mbxPop ag => Sys2Proof.Machine.execMbxPop ag s
  | .sampleTick ins late => Sys2Proof.Machine.execSampleTick ins late s
  | .graphPhase ops wait late => Sys2Proof.Machine.execGraphPhase ops wait late s
  | .keyon ag v => Sys2Proof.Machine.execKeyon ag v s
  | .keyoff ag v => Sys2Proof.Machine.execKeyoff ag v s
  | .audCmdParam body => Sys2Proof.Machine.execAudCmdParam body s
  | .audCmdKeyon body => Sys2Proof.Machine.execAudCmdKeyon body s
  | .audCmdKeyoff body => Sys2Proof.Machine.execAudCmdKeyoff body s
  | .audCmdVoice body => Sys2Proof.Machine.execAudCmdVoice body s
  | .paramWrite ag off v => Sys2Proof.Machine.execParamWrite ag off v s
  | .safeLoad ag v => Sys2Proof.Machine.execSafeLoad ag v s
  | .tdmPortCfgWrite ag input port v => Sys2Proof.Machine.execTdmPortCfgWrite ag input port v s
  | .kAdd c => Sys2Proof.Machine.execKAdd c s
  | .kSub c => Sys2Proof.Machine.execKSub c s
  | .kAnd c => Sys2Proof.Machine.execKAnd c s
  | .kOr c => Sys2Proof.Machine.execKOr c s
  | .kXor c => Sys2Proof.Machine.execKXor c s
  | .kNor c => Sys2Proof.Machine.execKNor c s
  | .kSlt c => Sys2Proof.Machine.execKSlt c s
  | .kSltu c => Sys2Proof.Machine.execKSltu c s
  | .kSll c => Sys2Proof.Machine.execKSll c s
  | .kSrl c => Sys2Proof.Machine.execKSrl c s
  | .kSra c => Sys2Proof.Machine.execKSra c s
  | .kSlli c => Sys2Proof.Machine.execKSlli c s
  | .kSrli c => Sys2Proof.Machine.execKSrli c s
  | .kSrai c => Sys2Proof.Machine.execKSrai c s
  | .kMin c => Sys2Proof.Machine.execKMin c s
  | .kMax c => Sys2Proof.Machine.execKMax c s
  | .kMinu c => Sys2Proof.Machine.execKMinu c s
  | .kMaxu c => Sys2Proof.Machine.execKMaxu c s
  | .kAddi c => Sys2Proof.Machine.execKAddi c s
  | .kAndi c => Sys2Proof.Machine.execKAndi c s
  | .kOri c => Sys2Proof.Machine.execKOri c s
  | .kXori c => Sys2Proof.Machine.execKXori c s
  | .kSlti c => Sys2Proof.Machine.execKSlti c s
  | .kSltiu c => Sys2Proof.Machine.execKSltiu c s
  | .kLui c => Sys2Proof.Machine.execKLui c s
  | .kLw c => Sys2Proof.Machine.execKLw c s
  | .kLh c => Sys2Proof.Machine.execKLh c s
  | .kLhu c => Sys2Proof.Machine.execKLhu c s
  | .kLb c => Sys2Proof.Machine.execKLb c s
  | .kLbu c => Sys2Proof.Machine.execKLbu c s
  | .kSw c => Sys2Proof.Machine.execKSw c s
  | .kSh c => Sys2Proof.Machine.execKSh c s
  | .kSb c => Sys2Proof.Machine.execKSb c s
  | .kBeq c => Sys2Proof.Machine.execKBeq c s
  | .kBne c => Sys2Proof.Machine.execKBne c s
  | .kBlt c => Sys2Proof.Machine.execKBlt c s
  | .kBge c => Sys2Proof.Machine.execKBge c s
  | .kBltu c => Sys2Proof.Machine.execKBltu c s
  | .kBgeu c => Sys2Proof.Machine.execKBgeu c s
  | .kJ c => Sys2Proof.Machine.execKJ c s
  | .kCall c => Sys2Proof.Machine.execKCall c s
  | .kJr c => Sys2Proof.Machine.execKJr c s
  | .kCallr c => Sys2Proof.Machine.execKCallr c s
  | .kRet c => Sys2Proof.Machine.execKRet c s
  | .kBld c => Sys2Proof.Machine.execKBld c s
  | .kBldn c => Sys2Proof.Machine.execKBldn c s
  | .kBst c => Sys2Proof.Machine.execKBst c s
  | .kBstn c => Sys2Proof.Machine.execKBstn c s
  | .kBset c => Sys2Proof.Machine.execKBset c s
  | .kBclr c => Sys2Proof.Machine.execKBclr c s
  | .kBtgl c => Sys2Proof.Machine.execKBtgl c s
  | .kBand c => Sys2Proof.Machine.execKBand c s
  | .kBandn c => Sys2Proof.Machine.execKBandn c s
  | .kBor c => Sys2Proof.Machine.execKBor c s
  | .kBorn c => Sys2Proof.Machine.execKBorn c s
  | .kBxor c => Sys2Proof.Machine.execKBxor c s
  | .kBts c => Sys2Proof.Machine.execKBts c s
  | .kBtc c => Sys2Proof.Machine.execKBtc c s
  | .kBbs c => Sys2Proof.Machine.execKBbs c s
  | .kBbc c => Sys2Proof.Machine.execKBbc c s
  | .kBba c => Sys2Proof.Machine.execKBba c s
  | .kTli c => Sys2Proof.Machine.execKTli c s
  | .kMul c => Sys2Proof.Machine.execKMul c s
  | .kMulh c => Sys2Proof.Machine.execKMulh c s
  | .kMulhu c => Sys2Proof.Machine.execKMulhu c s
  | .kDiv c => Sys2Proof.Machine.execKDiv c s
  | .kDivu c => Sys2Proof.Machine.execKDivu c s
  | .kRem c => Sys2Proof.Machine.execKRem c s
  | .kRemu c => Sys2Proof.Machine.execKRemu c s
  | .kCsrr c => Sys2Proof.Machine.execKCsrr c s
  | .kCsrw c => Sys2Proof.Machine.execKCsrw c s
  | .kSyscall c => Sys2Proof.Machine.execKSyscall c s
  | .kBreak c => Sys2Proof.Machine.execKBreak c s
  | .kRetx c => Sys2Proof.Machine.execKRetx c s
  | .kWfi c => Sys2Proof.Machine.execKWfi c s
  | .kFence c => Sys2Proof.Machine.execKFence c s
  | .loadDataReturn c => Sys2Proof.Machine.execLoadDataReturn c s
  | .loadTimeout c => Sys2Proof.Machine.execLoadTimeout c s
  | .postedStoreComplete c => Sys2Proof.Machine.execPostedStoreComplete c s
  | .interruptTake c => Sys2Proof.Machine.execInterruptTake c s
  | .idleWake c => Sys2Proof.Machine.execIdleWake c s
  | .wdtKick ag c v => Sys2Proof.Machine.execWdtKick ag c v s
  | .wdtExpiry c => Sys2Proof.Machine.execWdtExpiry c s
  | .coreRestart ag c v => Sys2Proof.Machine.execCoreRestart ag c v s
  | .coreRestartComplete c => Sys2Proof.Machine.execCoreRestartComplete c s
  | .intcClaim ag c => Sys2Proof.Machine.execIntcClaim ag c s
  | .intcComplete ag c v => Sys2Proof.Machine.execIntcComplete ag c v s
  | .intcPendClear ag c j v => Sys2Proof.Machine.execIntcPendClear ag c j v s
  | .moderationRelease c g => Sys2Proof.Machine.execModerationRelease c g s
  | .msixSend v => Sys2Proof.Machine.execMsixSend v s
  | .intSwRaise ag v => Sys2Proof.Machine.execIntSwRaise ag v s
  | .cmpArm ag c v => Sys2Proof.Machine.execCmpArm ag c v s
  | .cmpFire c => Sys2Proof.Machine.execCmpFire c s
  | .tmrCapLoRead ag c => Sys2Proof.Machine.execTmrCapLoRead ag c s
  | .dmaStart ag ch => Sys2Proof.Machine.execDmaStart ag ch s
  | .dmaAbort ag ch data => Sys2Proof.Machine.execDmaAbort ag ch data s
  | .dmaComplete ch data => Sys2Proof.Machine.execDmaComplete ch data s
  | .bltStart ag e => Sys2Proof.Machine.execBltStart ag e s
  | .bltAbort ag e => Sys2Proof.Machine.execBltAbort ag e s
  | .bltWatermark e => Sys2Proof.Machine.execBltWatermark e s
  | .bltComplete e => Sys2Proof.Machine.execBltComplete e s
  | .uncorrectableRead place addr who => Sys2Proof.Machine.execUncorrectableRead place addr who s
  | .correctableRead place addr => Sys2Proof.Machine.execCorrectableRead place addr s
  | .pinChange p v => Sys2Proof.Machine.execPinChange p v s
  | .glitchFilterSettle g => Sys2Proof.Machine.execGlitchFilterSettle g s
  | .debounceSettle g => Sys2Proof.Machine.execDebounceSettle g s
  | .gpOutWrite ag j op v => Sys2Proof.Machine.execGpOutWrite ag j op v s
  | .pinCfgWrite ag p v => Sys2Proof.Machine.execPinCfgWrite ag p v s
  | .pinOwnerWrite ag p v => Sys2Proof.Machine.execPinOwnerWrite ag p v s
  | .grpCfgWrite ag g isMatch v => Sys2Proof.Machine.execGrpCfgWrite ag g isMatch v s
  | .pioTick e => Sys2Proof.Machine.execPioTick e s
  | .pioGo e => Sys2Proof.Machine.execPioGo e s
  | .pioAwait e => Sys2Proof.Machine.execPioAwait e s
  | .pioShin e => Sys2Proof.Machine.execPioShin e s
  | .pioShout e => Sys2Proof.Machine.execPioShout e s
  | .pioDrive e => Sys2Proof.Machine.execPioDrive e s
  | .pioLoad e => Sys2Proof.Machine.execPioLoad e s
  | .pioStore e => Sys2Proof.Machine.execPioStore e s
  | .pioLdi e => Sys2Proof.Machine.execPioLdi e s
  | .pioXfer e => Sys2Proof.Machine.execPioXfer e s
  | .pioSignal e => Sys2Proof.Machine.execPioSignal e s
  | .pioStart ag m => Sys2Proof.Machine.execPioStart ag m s
  | .pioStop ag m => Sys2Proof.Machine.execPioStop ag m s
  | .pioClkrst ag m => Sys2Proof.Machine.execPioClkrst ag m s
  | .contextEnable ag e v => Sys2Proof.Machine.execContextEnable ag e v s
  | .pioTxfWrite ag e c v => Sys2Proof.Machine.execPioTxfWrite ag e c v s
  | .pioRxfRead ag e c => Sys2Proof.Machine.execPioRxfRead ag e c s
  | .pioImWrite ag e a v => Sys2Proof.Machine.execPioImWrite ag e a v s
  | .bankRetain ag b => Sys2Proof.Machine.execBankRetain ag b s
  | .bankWake ag b => Sys2Proof.Machine.execBankWake ag b s
  | .bankWakeDone b => Sys2Proof.Machine.execBankWakeDone b s
  | .pagedWindowAccess write off data n => Sys2Proof.Machine.execPagedWindowAccess write off data n s
  | .bar2Write off data => Sys2Proof.Machine.execBar2Write off data s
  | .bar2Read off n => Sys2Proof.Machine.execBar2Read off n s
  | .bar2Flush => Sys2Proof.Machine.execBar2Flush s
  | .pcieRequestFail kind ident status => Sys2Proof.Machine.execPcieRequestFail kind ident status s
  | .linkDown => Sys2Proof.Machine.execLinkDown s
  | .functionLevelReset => Sys2Proof.Machine.execFunctionLevelReset s
  | .linkUp speed width => Sys2Proof.Machine.execLinkUp speed width s
  | .mr4Report ch code => Sys2Proof.Machine.execMr4Report ch code s
  | .channelFence ch refresh => Sys2Proof.Machine.execChannelFence ch refresh s
  | .avFenceCmd ag v => Sys2Proof.Machine.execAvFenceCmd ag v s
  | .lopStart ag sl op int => Sys2Proof.Machine.execLopStart ag sl op int s
  | .lopSuspend ag sl => Sys2Proof.Machine.execLopSuspend ag sl s
  | .lopResume ag sl => Sys2Proof.Machine.execLopResume ag sl s
  | .lopCancel ag sl => Sys2Proof.Machine.execLopCancel ag sl s
  | .lopStatus sl => Sys2Proof.Machine.execLopStatus sl s
  | .lopSuspendPoint sl n => Sys2Proof.Machine.execLopSuspendPoint sl n s
  | .lopComplete sl fail => Sys2Proof.Machine.execLopComplete sl fail s
  | .structCheckDone sl => Sys2Proof.Machine.execStructCheckDone sl s
  | .fullLoadApply sl => Sys2Proof.Machine.execFullLoadApply sl s
  | .clkPointRequest ag v => Sys2Proof.Machine.execClkPointRequest ag v s
  | .clkRelockDone => Sys2Proof.Machine.execClkRelockDone s
  | .mbxTcWrite ag c v => Sys2Proof.Machine.execMbxTcWrite ag c v s
  | .mbxTcRead ag c => Sys2Proof.Machine.execMbxTcRead ag c s
  | .mbxThWrite ag c v => Sys2Proof.Machine.execMbxThWrite ag c v s
  | .mbxThRead ag c => Sys2Proof.Machine.execMbxThRead ag c s
  | .arm ag => Sys2Proof.Machine.execArm ag s
  | .armingDone => Sys2Proof.Machine.execArmingDone s
  | .disarm ag => Sys2Proof.Machine.execDisarm ag s
  | .cold ag => Sys2Proof.Machine.execCold ag s
  | .confirmToken ag hi => Sys2Proof.Machine.execConfirmToken ag hi s
  | .trialWindowEnd => Sys2Proof.Machine.execTrialWindowEnd s
  | .controlRecordWritten => Sys2Proof.Machine.execControlRecordWritten s
  | .lifecycleChange ag v => Sys2Proof.Machine.execLifecycleChange ag v s
  | .keyProgram ag slot => Sys2Proof.Machine.execKeyProgram ag slot s
  | .keySetDev ag slot => Sys2Proof.Machine.execKeySetDev ag slot s
  | .keyRevoke ag slot => Sys2Proof.Machine.execKeyRevoke ag slot s
  | .imageKeyProgram ag v => Sys2Proof.Machine.execImageKeyProgram ag v s
  | .wipe ag v => Sys2Proof.Machine.execWipe ag v s
  | .wipeDone => Sys2Proof.Machine.execWipeDone s
  | .tamperEvent mon on => Sys2Proof.Machine.execTamperEvent mon on s
  | .tamperLock ag => Sys2Proof.Machine.execTamperLock ag s
  | .verifyGo ag v => Sys2Proof.Machine.execVerifyGo ag v s
  | .verifyDone => Sys2Proof.Machine.execVerifyDone s
  | .rngRequest ag v => Sys2Proof.Machine.execRngRequest ag v s
  | .rngBlock => Sys2Proof.Machine.execRngBlock s
  | .rngHealthFail apt => Sys2Proof.Machine.execRngHealthFail apt s
  | .rngRestart ag v => Sys2Proof.Machine.execRngRestart ag v s
  | .rngStartupDone fail => Sys2Proof.Machine.execRngStartupDone fail s
  | .patrolScrubRead => Sys2Proof.Machine.execPatrolScrubRead s
  | .rowRepair ag v => Sys2Proof.Machine.execRowRepair ag v s
  | .rowSwitch b r => Sys2Proof.Machine.execRowSwitch b r s
  | .selfTestDone sl fail => Sys2Proof.Machine.execSelfTestDone sl fail s
  | .ftCheck ag sl => Sys2Proof.Machine.execFtCheck ag sl s
  | .ftRemapCmd ag sl => Sys2Proof.Machine.execFtRemapCmd ag sl s
  | .ftReturn ag sl => Sys2Proof.Machine.execFtReturn ag sl s
  | .avOutResume ag n => Sys2Proof.Machine.execAvOutResume ag n s
  | .avOutShed ag n => Sys2Proof.Machine.execAvOutShed ag n s
  | .logPop ag => Sys2Proof.Machine.execLogPop ag s
  | .tapReset => Sys2Proof.Machine.execTapReset s
  | .extest cells => Sys2Proof.Machine.execExtest cells s
  | .samplePreload cells => Sys2Proof.Machine.execSamplePreload cells s
  | .idcode => Sys2Proof.Machine.execIdcode s
  | .clamp => Sys2Proof.Machine.execClamp s
  | .highz => Sys2Proof.Machine.execHighz s
  | .bypass => Sys2Proof.Machine.execBypass s
  | .dbgAcc go write ix v => Sys2Proof.Machine.execDbgAcc go write ix v s
  | .dbgMemAccess => Sys2Proof.Machine.execDbgMemAccess s
  | .dbgAccessTimeout => Sys2Proof.Machine.execDbgAccessTimeout s
  | .dbgAttachWrite v => Sys2Proof.Machine.execDbgAttachWrite v s
  | .rcHalt => Sys2Proof.Machine.execRcHalt s
  | .rcRun => Sys2Proof.Machine.execRcRun s
  | .rcStep => Sys2Proof.Machine.execRcStep s
  | .breakpointHit c => Sys2Proof.Machine.execBreakpointHit c s
  | .rcGdataWrite isPc v => Sys2Proof.Machine.execRcGdataWrite isPc v s
  | .vtTxWrite c v => Sys2Proof.Machine.execVtTxWrite c v s
  | .vtTxRead c => Sys2Proof.Machine.execVtTxRead c s
  | .vtRxWrite c v => Sys2Proof.Machine.execVtRxWrite c v s
  | .vtRxRead c => Sys2Proof.Machine.execVtRxRead c s
  | .kIllegal c => Sys2Proof.Machine.execKIllegal c s
  | .dmReserved n => Sys2Proof.Machine.execDmReserved n s
  | .ringPllLock => Sys2Proof.Machine.execRingPllLock s
  | .busMasterEnable msix => Sys2Proof.Machine.execBusMasterEnable msix s
  | .aerError uncorrectable => Sys2Proof.Machine.execAerError uncorrectable s

end Sys2Proof.Machine
end

