-- ==== Sys2Proof/Machine/Step.lean ====
section
/-!
DEFINITION. One step of the part: the command that has waited longest takes its effect.  While none waits, one TBCLK (1 ns) passes and
every counter of time moves on (log entry 1).
-/

namespace Sys2Proof.Machine

/-- Take the command at the front of the queue and run it with the rest of the queue; with an empty queue, let 1 ns pass. -/
def step (s : State) : Host.Outcome State Fault Refusal :=
  match s.pending with
  | [] => s.dev (fun d => d.idle 1)
  | c :: q => exec c { s with pending := q }

/-- The state with the command that a word spells at the front of the queue; unchanged where the word spells none. -/
def State.withFetchWord (s : State) (nbits w : Nat) : State :=
  match decodeTableWord nbits w with
  | some c => { s with pending := c :: s.pending }
  | none => s

end Sys2Proof.Machine
end

