-- ==== Sys2Proof/WellFormed.lean ====
section
/-!
DEFINITION. Which commands are well formed: every number names a unit, a register or an operand that the part has (the index ranges of
the register tables and of R1).  A command that is not well formed is answered by the fault `noSuchUnit`.
-/

namespace Sys2Proof

open Machine

/-- Does the command name only what the part has? -/
def Instr.wf : Instr → Bool
  | .registerWrite ag off _ => decide (ag.ok = true ∧ off < barBytes)
  | .rcRead ag off _ => decide (ag.ok = true ∧ off < barBytes)
  | .shadowLoRead ag off => decide (ag.ok = true ∧ off < barBytes ∧ shadowOf off ≠ [])
  | .levelToExpert ag b _ => decide (ag.ok = true ∧ b.ok = true)
  | .levelToBasic ag b _ => decide (ag.ok = true ∧ b.ok = true)
  | .profileWrite ag b _ => decide (ag.ok = true ∧ b.ok = true)
  | .profileStoreExpert ag b _ => decide (ag.ok = true ∧ b.ok = true)
  | .expertRegisterWrite ag off _ => decide (ag.ok = true ∧ isExpert off = true)
  | .porAssert => true
  | .porRelease node => decide (node < 64)
  | .coreRstAssert => true
  | .coreRstRelease => true
  | .lpTrained => true
  | .hostSet ag _ => decide (ag.ok = true)
  | .sysCoreStart ag _ => decide (ag.ok = true)
  | .softReset ag _ => decide (ag.ok = true)
  | .corePowerOff => true
  | .vddSramLoss => true
  | .vddAonLoss => true
  | .tickIssue => true
  | .tickInEdge => true
  | .tickWindowClose => true
  | .tickSrcSelect ag src => decide (ag.ok = true ∧ src < 4)
  | .tickRateSubmit ag _ => decide (ag.ok = true)
  | .tickProfileWrite ag p => decide (ag.ok = true ∧ p < 16)
  | .tgEnable ag n p => decide (ag.ok = true ∧ n < 48 ∧ p < 256)
  | .tgDisable ag n => decide (ag.ok = true ∧ n < 48)
  | .tgTimingWrite ag n ix _ => decide (ag.ok = true ∧ n < 48 ∧ ix < 8)
  | .pclkPllLock n => decide (n < 48)
  | .tgLineBegin n _ => decide (n < 48)
  | .glideLock n => decide (n < 48)
  | .frameStart n => decide (n < 48)
  | .commitDecision => true
  | .flipEnd => true
  | .bolterBuildComplete => true
  | .takeUpEdge n => decide (n < 48)
  | .lineBuildStart sl _ => decide (sl < 52)
  | .objectBuildBegin sl => decide (sl < 52)
  | .objectBuildEnd sl => decide (sl < 52)
  | .lineDuePoint sl _ => decide (sl < 52)
  | .cacheFill _ => true
  | .videoRowArrival sl p => decide (sl < 52 ∧ p < 2)
  | .mixGroup n _ _ => decide (n < 48)
  | .objPeek ag _ => decide (ag.ok = true)
  | .objGpeek ag _ => decide (ag.ok = true)
  | .frameValueWrite ag off _ => decide (ag.ok = true ∧ (frameOutput off).isSome = true)
  | .cacheInvalidate ag => decide (ag.ok = true)
  | .invalidateDone => true
  | .stagedWrite ag n ix _ => decide (ag.ok = true ∧ n < 48 ∧ ix < 256)
  | .slLcommit ag n _ => decide (ag.ok = true ∧ n < 48)
  | .slLenSet ag n _ _ => decide (ag.ok = true ∧ n < 48)
  | .slLenClr ag n _ _ => decide (ag.ok = true ∧ n < 48)
  | .slLrouteWrite ag n ix _ => decide (ag.ok = true ∧ n < 48 ∧ ix < 8)
  | .tableWindowWrite ag n off _ => decide (ag.ok = true ∧ n < 48 ∧ off < 0x8000 ∧ off % 4 = 0)
  | .tableCopy ag n => decide (ag.ok = true ∧ n < 48)
  | .tableCopyDone n => decide (n < 48)
  | .mxFmtWrite ag n _ => decide (ag.ok = true ∧ n < 48)
  | .dmStop n => decide (n < 48)
  | .dmWait n => decide (n < 48)
  | .dmPointReached n => decide (n < 48)
  | .dmWaitEv n => decide (n < 48)
  | .dmWaitEvComplete n => decide (n < 48)
  | .dmWrite n => decide (n < 48)
  | .dmWriteM n => decide (n < 48)
  | .dmSkipIf n => decide (n < 48)
  | .dmJump n => decide (n < 48)
  | .dmLoop n => decide (n < 48)
  | .dmEvTrig ag n _ => decide (ag.ok = true ∧ n < 48)
  | .dmEvSelWrite ag n ix _ => decide (ag.ok = true ∧ n < 48 ∧ ix < 8)
  | .dmPmWrite ag n a _ => decide (ag.ok = true ∧ n < 48 ∧ a < 4096)
  | .tailWrite ag r _ => decide (ag.ok = true ∧ r < 16384)
  | .ringEnable ag r _ => decide (ag.ok = true ∧ r < 16384)
  | .ringDisable ag r => decide (ag.ok = true ∧ r < 16384)
  | .descriptorWrite ag r ix _ => decide (ag.ok = true ∧ r < 16384 ∧ ix < 8)
  | .ringService _ => true
  | .hopNop r => decide (r < 16384)
  | .hopObjWrite r => decide (r < 16384)
  | .hopObjPatch r => decide (r < 16384)
  | .hopGroupSet r => decide (r < 16384)
  | .hopTileRun r => decide (r < 16384)
  | .hopPalWrite r => decide (r < 16384)
  | .hopPlaneFlip r => decide (r < 16384)
  | .hopRegAtTick r => decide (r < 16384)
  | .hopRegNow r => decide (r < 16384)
  | .hopFence r => decide (r < 16384)
  | .fenceRelease r => decide (r < 16384)
  | .hopMarker r => decide (r < 16384)
  | .markerWrite r => decide (r < 16384)
  | .hopAudCmd r => decide (r < 16384)
  | .trackerCutLatch => true
  | .hopTrkDoneWrite ag t _ => decide (ag.ok = true ∧ t < 64)
  | .flRetrain ag n => decide (ag.ok = true ∧ n < 48)
  | .flCfgWrite ag n _ _ => decide (ag.ok = true ∧ n < 48)
  | .trainingComplete n => decide (n < 48)
  | .alignGroup n => decide (n < 48)
  | .packetSend n => decide (n < 48)
  | .idleStatusTimer n => decide (n < 48)
  | .auxArm ag n k _ => decide (ag.ok = true ∧ n < 48 ∧ k < 2)
  | .flPllLoss n => decide (n < 48)
  | .flPllRelock n => decide (n < 48)
  | .laneFault n lane => decide (n < 48 ∧ lane < 4)
  | .ringLinkTrained _ node _ => decide (node < 64)
  | .ringRecord _ _ => true
  | .ringRecordPair _ _ => true
  | .ringTick _ _ sub => decide (sub < 1000)
  | .ringState _ _ => true
  | .ringProbe _ _ sub => decide (sub < 1000)
  | .ringEvent _ _ => true
  | .ringInputDead _ => true
  | .ringInputReturn => true
  | .frameInject => true
  | .depart ag => decide (ag.ok = true)
  | .probeCmd ag => decide (ag.ok = true)
  | .probeTimeout => true
  | .segmentTimeout => true
  | .sourceTimeout => true
  | .horizonRequest ag _ => decide (ag.ok = true)
  | .mbxSend ag _ => decide (ag.ok = true)
  | .mbxPop ag => decide (ag.ok = true)
  | .sampleTick _ _ => true
  | .graphPhase _ _ _ => true
  | .keyon ag v => decide (ag.ok = true ∧ v < 1024)
  | .keyoff ag v => decide (ag.ok = true ∧ v < 1024)
  | .audCmdParam body => decide (body.length = 6 ∧ bits (body.headD 0).toNat 0 3 = 0)
  | .audCmdKeyon body => decide (body.length = 6 ∧ bits (body.headD 0).toNat 0 3 = 1)
  | .audCmdKeyoff body => decide (body.length = 6 ∧ bits (body.headD 0).toNat 0 3 = 2)
  | .audCmdVoice body => decide (body.length = 6 ∧ bits (body.headD 0).toNat 0 3 = 3)
  | .paramWrite ag off _ => decide (ag.ok = true ∧ 0x1208000 ≤ off ∧ off < 0x1220000 ∧ off % 4 = 0)
  | .safeLoad ag _ => decide (ag.ok = true)
  | .tdmPortCfgWrite ag input port _ => decide (ag.ok = true ∧ port < if input then 8 else 24)
  | .kAdd c => decide (c < 4)
  | .kSub c => decide (c < 4)
  | .kAnd c => decide (c < 4)
  | .kOr c => decide (c < 4)
  | .kXor c => decide (c < 4)
  | .kNor c => decide (c < 4)
  | .kSlt c => decide (c < 4)
  | .kSltu c => decide (c < 4)
  | .kSll c => decide (c < 4)
  | .kSrl c => decide (c < 4)
  | .kSra c => decide (c < 4)
  | .kSlli c => decide (c < 4)
  | .kSrli c => decide (c < 4)
  | .kSrai c => decide (c < 4)
  | .kMin c => decide (c < 4)
  | .kMax c => decide (c < 4)
  | .kMinu c => decide (c < 4)
  | .kMaxu c => decide (c < 4)
  | .kAddi c => decide (c < 4)
  | .kAndi c => decide (c < 4)
  | .kOri c => decide (c < 4)
  | .kXori c => decide (c < 4)
  | .kSlti c => decide (c < 4)
  | .kSltiu c => decide (c < 4)
  | .kLui c => decide (c < 4)
  | .kLw c => decide (c < 4)
  | .kLh c => decide (c < 4)
  | .kLhu c => decide (c < 4)
  | .kLb c => decide (c < 4)
  | .kLbu c => decide (c < 4)
  | .kSw c => decide (c < 4)
  | .kSh c => decide (c < 4)
  | .kSb c => decide (c < 4)
  | .kBeq c => decide (c < 4)
  | .kBne c => decide (c < 4)
  | .kBlt c => decide (c < 4)
  | .kBge c => decide (c < 4)
  | .kBltu c => decide (c < 4)
  | .kBgeu c => decide (c < 4)
  | .kJ c => decide (c < 4)
  | .kCall c => decide (c < 4)
  | .kJr c => decide (c < 4)
  | .kCallr c => decide (c < 4)
  | .kRet c => decide (c < 4)
  | .kBld c => decide (c < 4)
  | .kBldn c => decide (c < 4)
  | .kBst c => decide (c < 4)
  | .kBstn c => decide (c < 4)
  | .kBset c => decide (c < 4)
  | .kBclr c => decide (c < 4)
  | .kBtgl c => decide (c < 4)
  | .kBand c => decide (c < 4)
  | .kBandn c => decide (c < 4)
  | .kBor c => decide (c < 4)
  | .kBorn c => decide (c < 4)
  | .kBxor c => decide (c < 4)
  | .kBts c => decide (c < 4)
  | .kBtc c => decide (c < 4)
  | .kBbs c => decide (c < 4)
  | .kBbc c => decide (c < 4)
  | .kBba c => decide (c < 4)
  | .kTli c => decide (c < 4)
  | .kMul c => decide (c < 4)
  | .kMulh c => decide (c < 4)
  | .kMulhu c => decide (c < 4)
  | .kDiv c => decide (c < 4)
  | .kDivu c => decide (c < 4)
  | .kRem c => decide (c < 4)
  | .kRemu c => decide (c < 4)
  | .kCsrr c => decide (c < 4)
  | .kCsrw c => decide (c < 4)
  | .kSyscall c => decide (c < 4)
  | .kBreak c => decide (c < 4)
  | .kRetx c => decide (c < 4)
  | .kWfi c => decide (c < 4)
  | .kFence c => decide (c < 4)
  | .loadDataReturn c => decide (c < 4)
  | .loadTimeout c => decide (c < 4)
  | .postedStoreComplete c => decide (c < 4)
  | .interruptTake c => decide (c < 4)
  | .idleWake c => decide (c < 4)
  | .wdtKick ag c _ => decide (ag.ok = true ∧ c < 4)
  | .wdtExpiry c => decide (c < 4)
  | .coreRestart ag c _ => decide (ag.ok = true ∧ c < 4)
  | .coreRestartComplete c => decide (c < 4)
  | .intcClaim ag c => decide (ag.ok = true ∧ c < 4)
  | .intcComplete ag c _ => decide (ag.ok = true ∧ c < 4)
  | .intcPendClear ag c j _ => decide (ag.ok = true ∧ c < 4 ∧ j < 16)
  | .moderationRelease c g => decide (c < 4 ∧ g < 32)
  | .msixSend v => decide (v < 512)
  | .intSwRaise ag _ => decide (ag.ok = true)
  | .cmpArm ag c _ => decide (ag.ok = true ∧ c < 16)
  | .cmpFire c => decide (c < 16)
  | .tmrCapLoRead ag c => decide (ag.ok = true ∧ c < 16)
  | .dmaStart ag ch => decide (ag.ok = true ∧ ch < 32)
  | .dmaAbort ag ch _ => decide (ag.ok = true ∧ ch < 32)
  | .dmaComplete ch _ => decide (ch < 32)
  | .bltStart ag e => decide (ag.ok = true ∧ e < 4)
  | .bltAbort ag e => decide (ag.ok = true ∧ e < 4)
  | .bltWatermark e => decide (e < 4)
  | .bltComplete e => decide (e < 4)
  | .uncorrectableRead _ _ _ => true
  | .correctableRead _ _ => true
  | .pinChange p _ => decide (p < 128)
  | .glitchFilterSettle g => decide (g < 16)
  | .debounceSettle g => decide (g < 16)
  | .gpOutWrite ag j op _ => decide (ag.ok = true ∧ j < 4 ∧ op < 3)
  | .pinCfgWrite ag p _ => decide (ag.ok = true ∧ p < 128)
  | .pinOwnerWrite ag p _ => decide (ag.ok = true ∧ p < 128)
  | .grpCfgWrite ag g _ _ => decide (ag.ok = true ∧ g < 16)
  | .pioTick e => decide (e < 8)
  | .pioGo e => decide (e < 8)
  | .pioAwait e => decide (e < 8)
  | .pioShin e => decide (e < 8)
  | .pioShout e => decide (e < 8)
  | .pioDrive e => decide (e < 8)
  | .pioLoad e => decide (e < 8)
  | .pioStore e => decide (e < 8)
  | .pioLdi e => decide (e < 8)
  | .pioXfer e => decide (e < 8)
  | .pioSignal e => decide (e < 8)
  | .pioStart ag m => decide (ag.ok = true ∧ m < 256)
  | .pioStop ag m => decide (ag.ok = true ∧ m < 256)
  | .pioClkrst ag m => decide (ag.ok = true ∧ m < 256)
  | .contextEnable ag e _ => decide (ag.ok = true ∧ e < 8)
  | .pioTxfWrite ag e c _ => decide (ag.ok = true ∧ e < 8 ∧ c < 16)
  | .pioRxfRead ag e c => decide (ag.ok = true ∧ e < 8 ∧ c < 16)
  | .pioImWrite ag e a _ => decide (ag.ok = true ∧ e < 8 ∧ a < 1024)
  | .bankRetain ag b => decide (ag.ok = true ∧ b < 96)
  | .bankWake ag b => decide (ag.ok = true ∧ b < 96)
  | .bankWakeDone b => decide (b < 96)
  | .pagedWindowAccess _ off _ _ => decide (off < 0x2000000)
  | .bar2Write off data => decide (off + data.length ≤ bar2Bytes)
  | .bar2Read off n => decide (off + n ≤ bar2Bytes)
  | .bar2Flush => true
  | .pcieRequestFail _ _ _ => true
  | .linkDown => true
  | .functionLevelReset => true
  | .linkUp _ _ => true
  | .mr4Report ch code => decide (ch < 8 ∧ code < 8)
  | .channelFence ch _ => decide (ch < 8)
  | .avFenceCmd ag _ => decide (ag.ok = true)
  | .lopStart ag sl op _ => decide (ag.ok = true ∧ sl < 64 ∧ op < 16)
  | .lopSuspend ag sl => decide (ag.ok = true ∧ sl < 64)
  | .lopResume ag sl => decide (ag.ok = true ∧ sl < 64)
  | .lopCancel ag sl => decide (ag.ok = true ∧ sl < 64)
  | .lopStatus sl => decide (sl < 64)
  | .lopSuspendPoint sl _ => decide (sl < 64)
  | .lopComplete sl _ => decide (sl < 64)
  | .structCheckDone sl => decide (sl < 64)
  | .fullLoadApply sl => decide (sl < 64)
  | .clkPointRequest ag _ => decide (ag.ok = true)
  | .clkRelockDone => true
  | .mbxTcWrite ag c _ => decide (ag.ok = true ∧ c < 4)
  | .mbxTcRead ag c => decide (ag.ok = true ∧ c < 4)
  | .mbxThWrite ag c _ => decide (ag.ok = true ∧ c < 4)
  | .mbxThRead ag c => decide (ag.ok = true ∧ c < 4)
  | .arm ag => decide (ag.ok = true)
  | .armingDone => true
  | .disarm ag => decide (ag.ok = true)
  | .cold ag => decide (ag.ok = true)
  | .confirmToken ag _ => decide (ag.ok = true)
  | .trialWindowEnd => true
  | .controlRecordWritten => true
  | .lifecycleChange ag _ => decide (ag.ok = true)
  | .keyProgram ag slot => decide (ag.ok = true ∧ slot < 4)
  | .keySetDev ag slot => decide (ag.ok = true ∧ slot < 4)
  | .keyRevoke ag slot => decide (ag.ok = true ∧ slot < 4)
  | .imageKeyProgram ag _ => decide (ag.ok = true)
  | .wipe ag _ => decide (ag.ok = true)
  | .wipeDone => true
  | .tamperEvent mon _ => decide (mon < 6)
  | .tamperLock ag => decide (ag.ok = true)
  | .verifyGo ag _ => decide (ag.ok = true)
  | .verifyDone => true
  | .rngRequest ag _ => decide (ag.ok = true)
  | .rngBlock => true
  | .rngHealthFail _ => true
  | .rngRestart ag _ => decide (ag.ok = true)
  | .rngStartupDone _ => true
  | .patrolScrubRead => true
  | .rowRepair ag _ => decide (ag.ok = true)
  | .rowSwitch b r => decide (b < 96 ∧ r < 2048)
  | .selfTestDone sl _ => decide (sl < 52)
  | .ftCheck ag sl => decide (ag.ok = true ∧ sl < 52)
  | .ftRemapCmd ag sl => decide (ag.ok = true ∧ sl < 52)
  | .ftReturn ag sl => decide (ag.ok = true ∧ sl < 52)
  | .avOutResume ag n => decide (ag.ok = true ∧ n < 48)
  | .avOutShed ag n => decide (ag.ok = true ∧ n < 48)
  | .logPop ag => decide (ag.ok = true)
  | .tapReset => true
  | .extest _ => true
  | .samplePreload _ => true
  | .idcode => true
  | .clamp => true
  | .highz => true
  | .bypass => true
  | .dbgAcc _ _ ix _ => decide (ix < 1024)
  | .dbgMemAccess => true
  | .dbgAccessTimeout => true
  | .dbgAttachWrite _ => true
  | .rcHalt => true
  | .rcRun => true
  | .rcStep => true
  | .breakpointHit c => decide (c < 4)
  | .rcGdataWrite _ _ => true
  | .vtTxWrite c _ => decide (c < 4)
  | .vtTxRead c => decide (c < 4)
  | .vtRxWrite c _ => decide (c < 4)
  | .vtRxRead c => decide (c < 4)
  | .kIllegal c => decide (c < 4)
  | .dmReserved n => decide (n < 48)
  | .ringPllLock => true
  | .busMasterEnable _ => true
  | .aerError _ => true

end Sys2Proof
end

