-- ==== Sys2Proof/Safety.lean ====
section
/-!
DEFINITION. What counts as a safe state and a safe run: every memory list is in its canonical form, every command that waits is well
formed, and no step stops.
-/

namespace Sys2Proof.Machine

/-- Every memory is in canonical form. -/
def State.wf (s : State) : Bool := s.mem.wf

/-- Every waiting command names only what the part has. -/
def State.queueWf (s : State) : Bool := s.pending.all Instr.wf

/-- Does the outcome carry on? -/
def completes (o : Host.Outcome State Fault Refusal) : Bool :=
  match o with
  | .next _ => true
  | .fault _ => false
  | .refused _ => false

/-- Core `c` issues the word `i` at its PC now: it runs and waits for nothing, no interrupt, breakpoint or halt comes first, and the
word lies in the ITCM and holds no error (R380, R388, R582). -/
def State.atInstr (s : State) (c : Nat) (i : Word) : Prop :=
  s.d.issues c = true ∧ (s.d.coreAt c).pc < 0x20000 ∧ s.d.badWords.contains (tcmKey c (s.d.coreAt c).pc) = false ∧
    s.ctx.tcmWord c (s.d.coreAt c).pc = i

/-- Between `s` and `t` core `c` has completed one instruction: the next one lies at `pc` and is a slot instruction as `slot` says, RD
holds `v` (g0 discards it), and every other register, core status register, posted store, user bit, core and register of the part but
KC_STAT is as before. -/
def State.retires (s t : State) (c pc : Nat) (slot : Option (Nat × Word)) (rd : Nat) (v : Word) : Prop :=
  t.pending = s.pending ∧ (t.d.coreAt c).pc = pc ∧ (t.d.coreAt c).slot = slot ∧ (t.d.coreAt c).wait = .none ∧
    (t.d.coreAt c).instret = (s.d.coreAt c).instret + 1 ∧
    (∀ r, (t.d.coreAt c).reg r = if r = rd ∧ r ≠ 0 then v else (s.d.coreAt c).reg r) ∧
    (∀ n, n ≠ 11 → (t.d.coreAt c).csr c n = (s.d.coreAt c).csr c n) ∧ (t.d.coreAt c).posted = (s.d.coreAt c).posted ∧
    (t.d.coreAt c).user = (s.d.coreAt c).user ∧ (∀ c', c' ≠ c → t.d.coreAt c' = s.d.coreAt c') ∧
    (∀ a, a ≠ Reg.KC_STAT c → t.d.rg a = s.d.rg a)

/-- From `s` to `t` no register but those of `l` changes, no memory changes and no command enters or leaves the queue. -/
def State.onlyRegs (s t : State) (l : List Nat) : Prop :=
  t.mem = s.mem ∧ t.pending = s.pending ∧ ∀ a, a ∉ l → t.d.rg a = s.d.rg a

end Sys2Proof.Machine
end

