-- ==== Sys2Proof/Certificates/Slice0/Obligations.lean ====
section
/-!
DEFINITION. The statements for the provers, O1 to O60 in the order of OBLIGATIONS.json.
-/

open Sys2Proof Sys2Proof.Machine

/-- Log entry 1 and the row's own form: a step takes the command at the front of the queue and gives it the rest of the queue. -/
def Obligations.StepRunsFrontCommand : Prop :=
  ∀ (c : Instr) (q : List Instr) (s : State), step { s with pending := c :: q } = exec c { s with pending := q }

/-- On an empty queue a step lets one TBCLK (1 ns) pass: no command is taken or added and no memory is written; the timebase moves on by 1
unless POR_N is low. With nothing on its way to a sluice route or a Damsel input, on a standalone node, no register moves but the two counts
of CCLK spent waiting, HOP_BP_CNT and MEM_URG_CNT; whatever is on its way and whatever the ring, the mill tick stays (the model's choice, log
entry 1). -/
def Obligations.EmptyQueueIdles : Prop :=
  ∀ s : State, s.pending = [] →
    ∃ t, step s = .next t ∧ t.pending = [] ∧ t.mem = s.mem ∧
      t.d.tb = (if s.d.power.por = true then s.d.tb else s.d.tb + 1) ∧
      (s.d.later = [] → s.d.standalone = true → ∀ a, a ≠ Reg.HOP_BP_CNT → a ≠ Reg.MEM_URG_CNT → t.d.rg a = s.d.rg a) ∧
      t.d.tick = s.d.tick

/-- Every command whose numbers name what the part has answers a next state, whatever the state: it takes no waiting command and adds none,
and it leaves canonical memories in canonical form. A command one of whose numbers names what the part has not stops with `noSuchUnit`. -/
def Obligations.CommandsCompleteIffWellFormed : Prop :=
  ∀ (c : Instr) (s : State),
    (c.wf = true → ∃ t, exec c s = .next t ∧ t.pending = s.pending ∧ (s.mem.wf = true → t.mem.wf = true)) ∧
      (c.wf = false → exec c s = .fault .noSuchUnit)

/-- The six memories stay in canonical form through every step, from every state in which they have it. -/
def Obligations.StepKeepsMemoryCanonical : Prop :=
  ∀ s t : State, s.mem.wf = true → step s = .next t → t.mem.wf = true

/-- Only reset and power events, the pads and the tamper monitors act on a part whose POR_N is low: any other command leaves the whole state
as it is (R18, R19). -/
def Obligations.PorLowStopsEveryDomain : Prop :=
  ∀ (c : Instr) (s t : State), s.d.power.por = true → exec c s = .next t →
    t = s ∨ c = .porAssert ∨ (∃ n, c = .porRelease n) ∨ c = .coreRstAssert ∨ c = .coreRstRelease ∨ c = .corePowerOff ∨
      c = .vddSramLoss ∨ c = .vddAonLoss ∨ (∃ p v, c = .pinChange p v) ∨ (∃ m on, c = .tamperEvent m on)

/-- After reset the queue is empty, no memory lists a byte, the memories are canonical, both domains are out of reset, and every register
reads its reset word. The words that the register tables state are read off for one register of each kind: an identification, a status that
reads 1 or 3 at reset, an index-dependent word, a full-scale weight, a counter. (A register whose table states no reset word reads 0: log
entries 6 and 7.) -/
def Obligations.ResetState : Prop :=
  State.reset.pending = [] ∧ State.reset.mem = {} ∧ State.reset.mem.wf = true ∧ State.reset.d.coreUp = true ∧
    State.reset.d.aonUp = true ∧ ∀ a, State.reset.d.rg a = Reg.resetWord a ∧
  State.reset.d.rg Reg.SYS_ID = 0x485210a0 ∧ State.reset.d.rg Reg.SYS_RST_CAUSE = 1 ∧ State.reset.d.rg Reg.SYS_CLK_CTRL = 3 ∧
    State.reset.d.rg Reg.SYS_BOOT_STAT = 1 ∧ (∀ s, s < 512 → State.reset.d.rg (Reg.INT_ROUTE s) = BitVec.ofNat 32 (s * 0x100 + if s = 2 then 8 else if s = 3 then 7 else 0)) ∧
    State.reset.d.rg Reg.TG_TICK_NUM_LO = 0 ∧ State.reset.d.tick.num = 0 ∧ State.reset.d.tb = 0

/-- R18, R19, R597: POR_N low, and loss of VDD_AON, reset both domains: neither runs afterwards; every register but the raw pin inputs holds
its reset word, the tick, ring, hopper, timing and audio engines, the controllers and the cores hold their reset state. Beside the flash
pages and sectors that a long operation had in progress (R505), and what the DMA channels and blitters still wrote (R420, R439), no byte of a
memory changes. -/
def Obligations.PorResetsBothDomains : Prop :=
  ∀ (c : Instr) (s : State), c = .porAssert ∨ c = .vddAonLoss →
    ∃ t, exec c s = .next t ∧ t.d.aonUp = false ∧ t.d.coreUp = false ∧
      (∀ a, indexOf (Reg.GP_IN 0) 4 4 a = none → t.d.rg a = Reg.resetWord a) ∧
      t.d.tick = {} ∧ t.d.ring = {} ∧ t.d.hop = {} ∧ t.d.tg = [] ∧ t.d.obj = {} ∧ t.d.aud = {} ∧ t.d.intc = [] ∧ t.d.core = [] ∧
      t.d.upd = {} ∧ t.d.dbg = {} ∧ (s.d.coreUp = false → t.mem = s.mem) ∧
      (∀ sp a, sp = .otp ∨ sp = .tcm ∨ (sp ≠ .flash ∧ s.d.noEngine = true) ∨
          (sp = .flash ∧ ∀ i p n, i < 64 → s.d.flashUnit i = some (p, n) → a < p ∨ p + n ≤ a) →
        t.mem.read sp a = s.mem.read sp a) ∧ t.pending = s.pending

/-- R18, R19, R20, R507, R595: CORE_RST_N low, and the fall of the core rails, reset the core domain alone. The core domain stops; the tick,
the timebase, ring time and every register marked POR_N keep their values, but SYS_RST_CAUSE, whose PIN bit sets; an unmarked register other
than those of the pads, bank retention and bank repair holds its reset word; RET of every bank stays (a bank that an access kept out of
retention goes into it, R470). Beside the flash pages and sectors in progress (R505), and what the DMA channels and blitters still wrote
(R420, R439), no byte of a memory changes. Rails that fall while CORE_RST_N is low find the core domain in reset: only its power goes, and everything else stays. -/
def Obligations.CoreResetKeepsAlwaysOn : Prop :=
  (∀ (c : Instr) (s : State), s.d.power.por = false → (c = .coreRstAssert ∨ (c = .corePowerOff ∧ s.d.power.coreRst = false)) →
    ∃ t, exec c s = .next t ∧ t.d.coreUp = false ∧ t.d.aonUp = true ∧ t.d.bt Reg.SYS_RST_CAUSE 1 = true ∧
      t.d.tick = s.d.tick ∧ t.d.tb = s.d.tb ∧ t.d.ringTime = s.d.ringTime ∧
      (∀ a, a ≠ Reg.SYS_RST_CAUSE → indexOf (Reg.AV_BANK 0) 4 96 a = none → indexOf (Reg.MEM_BANK_CTRL 0) 4 96 a = none →
        keptReg a = true → t.d.rg a = s.d.rg a) ∧
      (∀ b, b < 96 → t.d.bt (Reg.MEM_BANK_CTRL b) 0 = s.d.bt (Reg.MEM_BANK_CTRL b) 0) ∧
      (∀ a, a ≠ Reg.SYS_RST_CAUSE → indexOf (Reg.AV_BANK 0) 4 96 a = none → keptReg a = false → t.d.rg a = Reg.resetWord a) ∧
      (s.d.coreUp = false → t.mem = s.mem) ∧
      (∀ sp a, sp = .otp ∨ sp = .tcm ∨ (sp ≠ .flash ∧ s.d.noEngine = true) ∨
          (sp = .flash ∧ ∀ i p n, i < 64 → s.d.flashUnit i = some (p, n) → a < p ∨ p + n ≤ a) →
        t.mem.read sp a = s.mem.read sp a) ∧ t.pending = s.pending) ∧
  (∀ s : State, s.d.power.coreRst = true →
    exec .corePowerOff s = .next (s.afterDev (fun d => { d with power := { d.power with coreOff := true } })))

/-- R509, R510: the releases of POR_N and CORE_RST_N. POR_N: the straps latch, the timebase starts from 0 and the always-on domain runs;
with CORE_RST_N still low nothing else happens. CORE_RST_N: the core domain runs again, and the boot sequencer runs its phases unless it has
begun them. -/
def Obligations.ReleaseStartsBoot : Prop :=
  (∀ (s : State) (node : Nat), node < 64 → s.d.power.por = true → s.d.power.coreRst = true →
    ∃ t, exec (.porRelease node) s = .next t ∧ t.d.aonUp = true ∧ t.d.tb = 0 ∧ t.d.fd Reg.RING_NODE 0 6 = node ∧
      (∀ a, a ≠ Reg.RING_NODE → t.d.rg a = s.d.rg a) ∧ t.mem = s.mem) ∧
  (∀ s : State, s.d.power.por = false →
    exec .coreRstRelease s = .next (s.afterRun (fun w =>
      let w1 := w.dev (fun d => { d with power := { d.power with coreRst := false, coreOff := false } })
      if w.d.phase = 1 then w1.boot else w1)))

/-- The key written to SYS_RST_CMD by the host, KC0 or the debug master resets the core domain, records SOFT and starts the boot sequencer;
any other value or writer sets SYS_STAT.RST_DENIED and changes nothing else. The end of LPDDR5X training sets LP_READY; HOST_SET outside
NO_IMAGE is ignored, and within it the host's set is checked; SYS_CORE_START goes to the start rules with its writer; the loss of VDD_SRAM
with no bank in retention changes nothing. -/
def Obligations.BootCommands : Prop :=
  ∀ (s : State) (ag : Agent) (v : Word), s.d.coreUp = true → ag.ok = true →
    (exec (.softReset ag v) s =
      if v = 0xA5C3 ∧ (ag = .host ∨ ag = .core 0 ∨ ag = .dbg) then
        .next (s.afterRun (fun w => (w.abandonFlash.stopEngines.dev (fun d => d.coreReset.sb Reg.SYS_RST_CAUSE 2)).boot))
      else .next (s.afterDev (fun d => d.sb Reg.SYS_STAT 6))) ∧
    exec .lpTrained s = .next (s.afterDev (fun d => d.sb Reg.MEM_STAT 5)) ∧
    exec (.hostSet ag v) s = .next (s.afterRun (hostSet v)) ∧
    ((v.getLsbD 0 = false ∨ s.d.bt Reg.SYS_BOOT_STAT 5 = false) → exec (.hostSet ag v) s = .next s) ∧
    exec (.sysCoreStart ag v) s = .next (s.afterDev (sysCoreStart ag v)) ∧
    exec .vddSramLoss s = .next (s.afterRun vddSramLoss) ∧
    ((∀ b, b < 96 → s.d.bankState b = 0) → exec .vddSramLoss s = .next s)

/-- R596: when VDD_SRAM is lost with banks in retention, RET of every bank clears, the bytes of the retained banks are lost (they read 0),
the spare rows are given up and no other register changes. -/
def Obligations.VddSramLossClearsRetention : Prop :=
  ∀ s : State, (∃ b, b < 96 ∧ s.d.bankState b ≠ 0) →
    ∃ t, exec .vddSramLoss s = .next t ∧ (∀ b, b < 96 → t.d.bankState b = 0) ∧
      (∀ a, a / 2 ^ 21 < 96 → s.d.bankState (a / 2 ^ 21) ≠ 0 → t.mem.read .sram a = 0) ∧
      (∀ a, 96 ≤ a / 2 ^ 21 ∨ s.d.bankState (a / 2 ^ 21) = 0 → t.mem.read .sram a = s.mem.read .sram a) ∧
      (∀ sp a, sp ≠ .sram → t.mem.read sp a = s.mem.read sp a) ∧
      (∀ a, indexOf (Reg.MEM_BANK_CTRL 0) 4 96 a = none → indexOf (Reg.AV_BANK 0) 4 96 a = none → t.d.rg a = s.d.rg a)

/-- R8, R9: a word written to a register that has no rule of its own (the hopper's registers beyond the descriptors stand for them) acts by
the access codes of its table: RW fields take the data, W1C fields clear where the data hold 1, W1S fields set, RO and RC fields keep their
values; every other register, and the memories, stay. A write to an offset that no register occupies is ignored. -/
def Obligations.RegisterWriteByAccessCode : Prop :=
  ∀ (s : State) (ag : Agent) (off : Nat) (data : List Byte) (r : Option RegDesc),
    s.d.coreUp = true → ag.ok = true → 0xC80000 ≤ off → off < 0x1000000 → off % 4 = 0 → data.length = 4 →
    off ≠ Reg.HOP_CTRL → indexOf (Reg.HOP_TRK_DONE 0) 8 64 off = none → RegTable.find off = r →
    (∀ x, r = some x → x.expert = false) →
    ∃ t, exec (.registerWrite ag off data) s = .next t ∧ t.mem = s.mem ∧ (∀ a, a ≠ off → t.d.rg a = s.d.rg a) ∧
      t.d.rg off = (match r with
        | none => s.d.rg off
        | some x =>
          let v := BitVec.ofNat 32 (leNat data)
          let m := fun (n : Nat) => (BitVec.ofNat 32 n : Word)
          (((s.d.rg off &&& ~~~ m x.rw) ||| (v &&& m x.rw)) &&& ~~~ (v &&& m x.w1c)) ||| (v &&& m x.w1s))

/-- R8: reads. A read of any size of any BAR0 offset, by any agent, completes and takes no waiting command. An aligned word read of a
register that has fields which clear on reading returns the register as it reads and clears those fields; every other field and register
stays, and no memory changes. -/
def Obligations.ReadClears : Prop :=
  ∀ (s : State) (ag : Agent) (off : Nat), s.d.coreUp = true → ag.ok = true → off < barBytes →
    (∀ n, ∃ t, exec (.rcRead ag off n) s = .next t ∧ t.pending = s.pending) ∧
    (∀ r, RegTable.find off = some r → r.rc ≠ 0 → off % 4 = 0 → off < 0x2000000 →
      ∃ t, exec (.rcRead ag off 4) s = .next t ∧ t.d.rdata = s.ctx.regValue ag off ∧ t.mem = s.mem ∧ t.pending = s.pending ∧
        t.d.rg off = s.d.rg off &&& ~~~ (BitVec.ofNat 32 r.rc) ∧ ∀ a, a ≠ off → t.d.rg a = s.d.rg a)

/-- R59 and each chapter's like: a read of the LO half of a 64-bit value, by any agent, copies its companions into the shadows that the
reads which follow return, changes no register and no memory, and returns the half itself: read off for the flip timestamp and the tick
number, and stated for every LO half that has companions. -/
def Obligations.LoReadCopiesCompanions : Prop :=
  ∀ (s : State) (ag : Agent), s.d.coreUp = true → ag.ok = true →
    (∀ off, off < barBytes → shadowOf off ≠ [] → ∃ t, exec (.shadowLoRead ag off) s = .next t ∧ t.d.rdata = s.ctx.regValue ag off ∧
      (∀ b ∈ shadowOf off, Tab.at none t.d.shadow b = some (s.d.companionValue b)) ∧ (∀ a, t.d.rg a = s.d.rg a) ∧ t.mem = s.mem ∧
      t.pending = s.pending) ∧
    (∀ n, n < 48 → ∃ t, exec (.shadowLoRead ag (Reg.TG_FLIP_TS_LO n)) s = .next t ∧ t.d.rdata = BitVec.ofNat 32 (s.d.tgAt n).flipTs ∧
      Tab.at none t.d.shadow (Reg.TG_FLIP_TS_HI n) = some (BitVec.ofNat 32 ((s.d.tgAt n).flipTs / 2 ^ 32)) ∧
      Tab.at none t.d.shadow (Reg.TG_FLIP_EPOCH n) = some (BitVec.ofNat 32 (s.d.tgAt n).flipEpoch) ∧
      (∀ a, t.d.rg a = s.d.rg a) ∧ t.mem = s.mem) ∧
    (∃ t, exec (.shadowLoRead ag Reg.TG_TICK_NUM_LO) s = .next t ∧ t.d.rdata = BitVec.ofNat 32 s.d.tick.num ∧
      Tab.at none t.d.shadow Reg.TG_TICK_NUM_HI = some (BitVec.ofNat 32 (s.d.tick.num / 2 ^ 32)) ∧ (∀ a, t.d.rg a = s.d.rg a) ∧
      t.mem = s.mem)

/-- Every command of this family is the one register access that it names, made with the whole word; no form of the family stops. An aligned
word written to the register space is the bus write of its register; other sizes and places reach the byte-addressable stores (R178, R296)
and are otherwise answered by MEM_STAT.SIZE_ERR and source 370 if enabled, and only the host reaches the paged window, whose banks in
retention it waits for (R471). -/
def Obligations.RegisterCommandsAreAccesses : Prop :=
  ∀ (s : State) (ag : Agent) (b : Block) (off n p : Nat) (v : Word) (data : List Byte), s.d.coreUp = true → ag.ok = true →
    (off < barBytes → exec (.registerWrite ag off data) s =
      if off < 0x2000000 then
        if off % 4 = 0 ∧ data.length = 4 then
          .next (s.afterRun (fun w => w.busWrite ag off (BitVec.ofNat 32 (leNat data)) 0xFFFFFFFF))
        else if ∀ i, i < data.length → byteStore (off + i) = true then .next (s.afterRun (fun w => w.storeWrite ag off data))
        else .next (s.afterDev (fun d => (d.sb Reg.MEM_STAT 1).raiseIf (d.bt Reg.MEM_INT_EN 6) 370))
      else if ag = .host then .next (s.afterRun (fun w => winWrite (off - 0x2000000) data (w.winReady ag off data.length)))
      else .next s) ∧
    (off < barBytes → exec (.rcRead ag off n) s = .next (s.afterRun (fun w => (w.winReady ag off n).bar0Read ag off n))) ∧
    (off < barBytes → shadowOf off ≠ [] → exec (.shadowLoRead ag off) s = .next (s.afterRun (fun w => w.busRead ag off))) ∧
    (isExpert off = true → exec (.expertRegisterWrite ag off v) s = .next (s.afterRun (fun w => w.busWrite ag off v 0xFFFFFFFF))) ∧
    (b.ok = true →
      exec (.levelToExpert ag b p) s = .next (s.afterRun (fun w => w.busWrite ag b.ctrl (w.d.ctrlWord b true p) 0xFFFFFFFF)) ∧
      exec (.levelToBasic ag b p) s = .next (s.afterRun (fun w => w.busWrite ag b.ctrl (w.d.ctrlWord b false p) 0xFFFFFFFF)) ∧
      exec (.profileWrite ag b p) s = .next (s.afterRun (fun w => w.busWrite ag b.ctrl (w.d.ctrlWord b false p) 0xFFFFFFFF)) ∧
      exec (.profileStoreExpert ag b p) s = .next (s.afterRun (fun w => w.busWrite ag b.ctrl (w.d.ctrlWord b true p) 0xFFFFFFFF)))

/-- R13, R14, R15, R16, R615, R617: what the four kinds of CTRL write leave, for the blocks whose update point is a later event. From basic
to expert level the expert registers read the words of the PROFILE carried; a PROFILE changed at the basic level, and the return to it, wait
for the update point, the expert registers reading the words in force; at the expert level another PROFILE is only stored; a reserved
PROFILE keeps the one held and sets IGNWR; a block fixed by the image ignores a write that sets LEVEL and sets IGNWR. No word in force
changes by any of them, and no register outside the block. -/
def Obligations.ControlWriteResults : Prop :=
  ∀ (s : State) (ag : Agent) (b : Block) (p : Nat), s.d.coreUp = true → ag.ok = true → p < 16 →
    b ∈ [Block.obj, .tp, .hop, .aud, .dma, .blt, .sys, .upd, .av] →
    (s.d.fixed.contains b.ctrl = true → s.d.level b = false →
      exec (.levelToExpert ag b p) s = .next (s.afterDev (fun d => d.sb b.stat 0))) ∧
    (s.d.fixed.contains b.ctrl = false → ∀ l, b.profile p 0 = some l →
      (s.d.level b = false → ∃ t, exec (.levelToExpert ag b p) s = .next t ∧ t.d.level b = true ∧
        b.profileOf (t.d.rg b.ctrl).toNat = p ∧ (∀ q ∈ l, t.d.rg q.1 = q.2) ∧ (Tab.at none t.d.upds b.ctrl).isSome = true ∧
        (∀ a, t.d.fr a = s.d.fr a) ∧ (∀ a, a ≠ b.ctrl → a ∉ b.experts → t.d.rg a = s.d.rg a)) ∧
      (s.d.level b = true → ∃ t, exec (.levelToBasic ag b p) s = .next t ∧ t.d.level b = false ∧
        b.profileOf (t.d.rg b.ctrl).toNat = p ∧ (∀ a ∈ b.experts, t.d.rg a = s.d.fr a) ∧
        (Tab.at none t.d.upds b.ctrl).isSome = true ∧ (∀ a, t.d.fr a = s.d.fr a) ∧
        (∀ a, a ≠ b.ctrl → a ∉ b.experts → t.d.rg a = s.d.rg a)) ∧
      (s.d.level b = false → b.profileOf (s.d.rg b.ctrl).toNat ≠ p → ∃ t, exec (.profileWrite ag b p) s = .next t ∧
        t.d.level b = false ∧ b.profileOf (t.d.rg b.ctrl).toNat = p ∧ (Tab.at none t.d.upds b.ctrl).isSome = true ∧
        (∀ a, t.d.fr a = s.d.fr a) ∧ (∀ a, a ≠ b.ctrl → t.d.rg a = s.d.rg a)) ∧
      (s.d.level b = true → ∃ t, exec (.profileStoreExpert ag b p) s = .next t ∧ t.d.level b = true ∧
        b.profileOf (t.d.rg b.ctrl).toNat = p ∧ t.d.upds = s.d.upds ∧ (∀ a, t.d.fr a = s.d.fr a) ∧
        (∀ a, a ≠ b.ctrl → t.d.rg a = s.d.rg a))) ∧
    (b.profile p 0 = none → s.d.level b = false → ∃ t, exec (.profileWrite ag b p) s = .next t ∧
      b.profileOf (t.d.rg b.ctrl).toNat = b.profileOf (s.d.rg b.ctrl).toNat ∧ t.d.bt b.stat 0 = true ∧
      (∀ a, t.d.fr a = s.d.fr a) ∧ (∀ a, a ≠ b.ctrl → a ≠ b.stat → t.d.rg a = s.d.rg a))

/-- R12, R616: an expert register written at the basic level keeps its value and IGNWR sets; at the expert level it reads back the fields
written at once, while the word in force waits for the update point. -/
def Obligations.ExpertWriteResults : Prop :=
  ∀ (s : State) (ag : Agent) (b : Block) (off : Nat) (v : Word), s.d.coreUp = true → ag.ok = true →
    b ∈ [Block.obj, .tp, .hop, .aud, .dma, .blt, .sys, .upd, .av] → off ∈ b.experts →
    (s.d.level b = false → exec (.expertRegisterWrite ag off v) s = .next (s.afterDev (fun d => d.sb b.stat 0))) ∧
    (s.d.level b = true → ∃ t, exec (.expertRegisterWrite ag off v) s = .next t ∧
      t.d.rg off = (s.d.rg off &&& ~~~ rwMask off) ||| (v &&& rwMask off) ∧ (∀ a, t.d.fr a = s.d.fr a) ∧
      (∀ a, a ≠ off → t.d.rg a = s.d.rg a) ∧ (Tab.at none t.d.upds b.ctrl).isSome = true)

/-- R380: the register operations of OP 0x00. RD takes the result of the operation on the two sources, the next instruction in order
follows, and nothing else of the core, of another core, of memory or of the part's registers changes; g0 discards the result. -/
def Obligations.CoreRegisterOperations : Prop :=
  ∀ (s : State) (c : Nat) (i : Word), s.atInstr c i →
    let k := s.d.coreAt c
    let x := k.src (kRs1 i)
    let y := k.src (kRs2 i)
    let does := fun (cmd : Instr) (v : Word) =>
      ∃ t, exec cmd s = .next t ∧ t.mem = s.mem ∧ s.retires t c (nextPc k.pc) none (kRd i) v
    kOp i = 0x00 →
      (kFn i = 0 → does (.kAdd c) (x + y)) ∧
      (kFn i = 1 → does (.kSub c) (x - y)) ∧
      (kFn i = 2 → does (.kAnd c) (x &&& y)) ∧
      (kFn i = 3 → does (.kOr c) (x ||| y)) ∧
      (kFn i = 4 → does (.kXor c) (x ^^^ y)) ∧
      (kFn i = 5 → does (.kNor c) (~~~(x ||| y))) ∧
      (kFn i = 6 → does (.kSlt c) (if x.slt y then 1 else 0)) ∧
      (kFn i = 7 → does (.kSltu c) (if x.ult y then 1 else 0)) ∧
      (kFn i = 8 → does (.kSll c) (x <<< (y.toNat % 32))) ∧
      (kFn i = 9 → does (.kSrl c) (x >>> (y.toNat % 32))) ∧
      (kFn i = 10 → does (.kSra c) (x.sshiftRight (y.toNat % 32))) ∧
      (kFn i = 11 → does (.kSlli c) (x <<< kRs2 i)) ∧
      (kFn i = 12 → does (.kSrli c) (x >>> kRs2 i)) ∧
      (kFn i = 13 → does (.kSrai c) (x.sshiftRight (kRs2 i))) ∧
      (kFn i = 14 → does (.kMin c) (if x.slt y then x else y)) ∧
      (kFn i = 15 → does (.kMax c) (if x.slt y then y else x)) ∧
      (kFn i = 16 → does (.kMinu c) (if x.ult y then x else y)) ∧
      (kFn i = 17 → does (.kMaxu c) (if x.ult y then y else x))

/-- R380, R381: products, quotients and remainders. A division by 0 gives all ones and its remainder is the dividend; otherwise the quotient
is rounded toward 0 and the remainder has the dividend's sign, each kept to 32 bits (so that −2³¹ by −1 gives −2³¹ and 0). -/
def Obligations.CoreMultiplyAndDivide : Prop :=
  ∀ (s : State) (c : Nat) (i : Word), s.atInstr c i →
    let k := s.d.coreAt c
    let x := k.src (kRs1 i)
    let y := k.src (kRs2 i)
    let does := fun (cmd : Instr) (v : Word) =>
      ∃ t, exec cmd s = .next t ∧ t.mem = s.mem ∧ s.retires t c (nextPc k.pc) none (kRd i) v
    kOp i = 0x20 →
      (kFn i = 0 → does (.kMul c) (x * y)) ∧
      (kFn i = 1 → does (.kMulh c) (BitVec.ofInt 32 (x.toInt * y.toInt / 2 ^ 32))) ∧
      (kFn i = 2 → does (.kMulhu c) (BitVec.ofNat 32 (x.toNat * y.toNat / 2 ^ 32))) ∧
      (kFn i = 4 → does (.kDiv c) (if y = 0 then 0xFFFFFFFF else BitVec.ofInt 32 (x.toInt.tdiv y.toInt))) ∧
      (kFn i = 5 → does (.kDivu c) (if y = 0 then 0xFFFFFFFF else BitVec.ofNat 32 (x.toNat / y.toNat))) ∧
      (kFn i = 6 → does (.kRem c) (if y = 0 then x else BitVec.ofInt 32 (x.toInt.tmod y.toInt))) ∧
      (kFn i = 7 → does (.kRemu c) (if y = 0 then x else BitVec.ofNat 32 (x.toNat % y.toNat)))

/-- R379, R380: the operations on a register and an immediate, sign-extended for sums and comparisons, zero-extended for the rest. -/
def Obligations.CoreImmediateOperations : Prop :=
  ∀ (s : State) (c : Nat) (i : Word), s.atInstr c i →
    let k := s.d.coreAt c
    let x := k.src (kRs1 i)
    let does := fun (cmd : Instr) (v : Word) =>
      ∃ t, exec cmd s = .next t ∧ t.mem = s.mem ∧ s.retires t c (nextPc k.pc) none (kRd i) v
    (kOp i = 1 → does (.kAddi c) (x + sImm i)) ∧
    (kOp i = 2 → does (.kAndi c) (x &&& zImm i)) ∧
    (kOp i = 3 → does (.kOri c) (x ||| zImm i)) ∧
    (kOp i = 4 → does (.kXori c) (x ^^^ zImm i)) ∧
    (kOp i = 5 → does (.kSlti c) (if x.slt (sImm i) then 1 else 0)) ∧
    (kOp i = 6 → does (.kSltiu c) (if x.ult (sImm i) then 1 else 0)) ∧
    (kOp i = 7 → does (.kLui c) (zImm i <<< 16))

/-- R371, R373, R377: loads. A misaligned address raises ALIGN and an address that nothing answers LOAD; a TCM word without error is read at
once, RD takes it, sign- or zero-extended, and the next instruction is a slot instruction that still sees RD's old value; any other access
begins a load wait, and so does one through a window that an earlier store of the core has yet to move (R374). -/
def Obligations.CoreLoads : Prop :=
  ∀ (s : State) (c : Nat) (i : Word), s.atInstr c i →
    let k := s.d.coreAt c
    let a := (k.src (kRs1 i) + sImm i).toNat
    let loads := fun (cmd : Instr) (kind : LoadKind) =>
      (a % kind.size ≠ 0 → exec cmd s = .next (s.afterRun (fun w => w.kRaise c .align a))) ∧
      (a % kind.size = 0 → s.d.winWaits c a = true → exec cmd s = .next (s.afterDev (fun d => d.beginWait c (.load (kRd i) a kind)))) ∧
      (a % kind.size = 0 → s.d.winWaits c a = false → s.d.coreTarget c a kind.size = .bad →
        exec cmd s = .next (s.afterRun (fun w => w.kRaise c .load a))) ∧
      (∀ b, a % kind.size = 0 → s.d.coreTarget c a kind.size = .tcm b → s.d.badWords.contains (tcmKey c b) = true →
        exec cmd s = .next (s.afterRun (fun w => w.kRaise c .memerr b))) ∧
      (∀ b, a % kind.size = 0 → s.d.coreTarget c a kind.size = .tcm b → s.d.badWords.contains (tcmKey c b) = false →
        ∃ t, exec cmd s = .next t ∧ t.mem = s.mem ∧ s.retires t c (nextPc k.pc) (some (kRd i, k.reg (kRd i))) (kRd i)
          (kind.extend (leNat ((List.range kind.size).map (fun j => s.mem.read .tcm (tcmAddr c b + j)))))) ∧
      (a % kind.size = 0 → (∀ b, s.d.coreTarget c a kind.size ≠ .tcm b) → s.d.coreTarget c a kind.size ≠ .bad →
        exec cmd s = .next (s.afterDev (fun d => d.beginWait c (.load (kRd i) a kind))))
    (kOp i = 8 → loads (.kLw c) { size := 4 }) ∧
    (kOp i = 9 → loads (.kLh c) { size := 2, signed := true }) ∧
    (kOp i = 10 → loads (.kLhu c) { size := 2 }) ∧
    (kOp i = 11 → loads (.kLb c) { size := 1, signed := true }) ∧
    (kOp i = 12 → loads (.kLbu c) { size := 1 })

/-- R371 to R375: stores. A misaligned address raises ALIGN and an address that nothing answers STORE; a store to the TCMs writes the low
bytes of the source there, lowest first, and no other byte; a store elsewhere waits as the newest of at most eight posted stores, with the
LPDDR5X address that its window gives it now, or, with eight waiting or the window still to be moved by an earlier one (R374), stalls; a store
to the private port takes effect at once. -/
def Obligations.CoreStores : Prop :=
  ∀ (s : State) (c : Nat) (i : Word), s.atInstr c i →
    let k := s.d.coreAt c
    let a := (k.src (kRs1 i) + sImm i).toNat
    let v := k.src (kRd i)
    let stores := fun (cmd : Instr) (size : Nat) =>
      (a % size ≠ 0 → exec cmd s = .next (s.afterRun (fun w => w.kRaise c .align a))) ∧
      (a % size = 0 → s.d.coreTarget c a size = .bad → exec cmd s = .next (s.afterRun (fun w =>
        if s.d.winWaits c a = true then w.dev (fun d => d.beginWait c (.store a size v)) else w.kRaise c .store a))) ∧
      (∀ b, a % size = 0 → s.d.coreTarget c a size = .tcm b →
        ∃ t, exec cmd s = .next t ∧ s.retires t c (nextPc k.pc) none 0 0 ∧
          (∀ j, j < size → t.mem.read .tcm (tcmAddr c b + j) = BitVec.ofNat 8 (v.toNat / 256 ^ j)) ∧
          (∀ sp x, ¬(sp = .tcm ∧ tcmAddr c b ≤ x ∧ x < tcmAddr c b + size) → t.mem.read sp x = s.mem.read sp x)) ∧
      (a % size = 0 → (∀ b, s.d.coreTarget c a size ≠ .tcm b) → s.d.coreTarget c a size ≠ .bad →
        exec cmd s = .next (s.afterRun (fun w =>
          if privateStore a = true then (w.storeNow c { addr := a, size := size, v := v }).dev (fun d => d.complete c)
          else w.dev (fun d => if 8 ≤ k.posted.length ∨ s.d.winWaits c a = true then d.beginWait c (.store a size v)
            else (d.onCore c (fun k => { k with posted := k.posted ++ [{ addr := a, size := size, v := v, lp := (match s.d.coreTarget c a size with
              | .lp b => some b
              | _ => none) }] })).complete c))))
    (kOp i = 13 → stores (.kSw c) 4) ∧
    (kOp i = 14 → stores (.kSh c) 2) ∧
    (kOp i = 15 → stores (.kSb c) 1)

/-- R379, R380, R384, R381: branches and plain jumps. A conditional branch compares the sources of format B and goes to PC + 4 × OFF or to
the next instruction; J goes by 26 bits of offset, JR to its register when that is a multiple of 4 and raises ALIGN otherwise; BBS and BBC
test the bit space, BBA the bit accumulator. No register changes. -/
def Obligations.CoreBranches : Prop :=
  ∀ (s : State) (c : Nat) (i : Word), s.atInstr c i →
    let k := s.d.coreAt c
    let x := k.src (kRd i)
    let y := k.src (kRs1 i)
    let goes := fun (cmd : Instr) (pc : Nat) => ∃ t, exec cmd s = .next t ∧ t.mem = s.mem ∧ s.retires t c pc none 0 0
    (kOp i = 0x10 → goes (.kBeq c) (if x = y then jumpPc k.pc (kSimm i) else nextPc k.pc)) ∧
    (kOp i = 0x11 → goes (.kBne c) (if x ≠ y then jumpPc k.pc (kSimm i) else nextPc k.pc)) ∧
    (kOp i = 0x12 → goes (.kBlt c) (if x.slt y = true then jumpPc k.pc (kSimm i) else nextPc k.pc)) ∧
    (kOp i = 0x13 → goes (.kBge c) (if x.slt y = false then jumpPc k.pc (kSimm i) else nextPc k.pc)) ∧
    (kOp i = 0x14 → goes (.kBltu c) (if x.ult y = true then jumpPc k.pc (kSimm i) else nextPc k.pc)) ∧
    (kOp i = 0x15 → goes (.kBgeu c) (if x.ult y = false then jumpPc k.pc (kSimm i) else nextPc k.pc)) ∧
    (kOp i = 0x16 → goes (.kJ c) (jumpPc k.pc (signed 26 i.toNat))) ∧
    (kOp i = 0x18 → y.toNat % 4 = 0 → goes (.kJr c) y.toNat) ∧
    (kOp i = 0x18 → y.toNat % 4 ≠ 0 → exec (.kJr c) s = .next (s.afterRun (fun w => w.kRaise c .align y.toNat))) ∧
    (kOp i = 0x1C → goes (.kBbs c) (if s.d.readBit c (bits i.toNat 10 16) = true then jumpPc k.pc (signed 10 i.toNat) else nextPc k.pc)) ∧
    (kOp i = 0x1D → goes (.kBbc c) (if s.d.readBit c (bits i.toNat 10 16) = false then jumpPc k.pc (signed 10 i.toNat) else nextPc k.pc)) ∧
    (kOp i = 0x1E → goes (.kBba c) (if (k.ba ^^ i.getLsbD 25) = true then jumpPc k.pc (kSimm i) else nextPc k.pc))

/-- R382: calls and returns. With the slot below g30 inside the stack limits a call writes the return address there, little-endian, moves
g30 down by 4 and goes to its target, and no other byte changes; a return with g30 inside the limits goes to the word at g30 and moves g30
up by 4; an address that fails the check raises STACK or ALIGN, with the address, before anything changes. -/
def Obligations.CoreCallsAndReturns : Prop :=
  ∀ (s : State) (c : Nat) (i : Word), s.atInstr c i →
    let k := s.d.coreAt c
    let down := below (k.src 30).toNat 4
    let at_ := (k.src 30).toNat
    let calls := fun (cmd : Instr) (target : Nat) =>
      (∀ e, k.stackCheck down = some e → exec cmd s = .next (s.afterRun (fun w => w.kRaise c e down))) ∧
      (k.stackCheck down = none → ∃ t, exec cmd s = .next t ∧ s.retires t c target none 30 (BitVec.ofNat 32 down) ∧
        (∀ j, j < 4 → t.mem.read .tcm (tcmAddr c down + j) = BitVec.ofNat 8 (nextPc k.pc / 256 ^ j)) ∧
        (∀ sp x, ¬(sp = .tcm ∧ tcmAddr c down ≤ x ∧ x < tcmAddr c down + 4) → t.mem.read sp x = s.mem.read sp x))
    (kOp i = 0x17 → calls (.kCall c) (jumpPc k.pc (signed 26 i.toNat))) ∧
    (kOp i = 0x19 → (k.src (kRs1 i)).toNat % 4 = 0 → calls (.kCallr c) (k.src (kRs1 i)).toNat) ∧
    (kOp i = 0x19 → (k.src (kRs1 i)).toNat % 4 ≠ 0 →
      exec (.kCallr c) s = .next (s.afterRun (fun w => w.kRaise c .align (k.src (kRs1 i)).toNat))) ∧
    (kOp i = 0x1A → ∀ e, k.stackCheck at_ = some e → exec (.kRet c) s = .next (s.afterRun (fun w => w.kRaise c e at_))) ∧
    (kOp i = 0x1A → k.stackCheck at_ = none → s.d.badWords.contains (tcmKey c at_) = true →
      exec (.kRet c) s = .next (s.afterRun (fun w => w.kRaise c .memerr at_))) ∧
    (kOp i = 0x1A → k.stackCheck at_ = none → s.d.badWords.contains (tcmKey c at_) = false →
      ∃ t, exec (.kRet c) s = .next t ∧ t.mem = s.mem ∧
        s.retires t c ((s.ctx.tcmWord c at_).toNat / 4 * 4) none 30 (BitVec.ofNat 32 (at_ + 4)))

/-- R384, R385: the bit operations of Table 12-6 on bit (x + BIT) mod 65,536, on a user bit: the accumulator and the bit take the values
that the table gives, no other user bit changes, the next instruction follows, no register of the part changes but KC_STAT, and no memory.
On any bit the operation is the accumulator's change, then the write of the bit space if there is one, then the completion. -/
def Obligations.CoreBitOperations : Prop :=
  ∀ (s : State) (c : Nat) (i : Word), s.atInstr c i →
    let k := s.d.coreAt c
    let n := ((k.src (kRd i)).toNat + kImm i) % 65536
    let b := s.d.readBit c n
    let acts := fun (cmd : Instr) (ba : Bool) (out : Option Bool) =>
      (exec cmd s = .next (s.afterDev (fun d =>
        let d1 := d.onCore c (fun k => { k with ba := ba })
        (match out with
          | some v => d1.writeBit c n v
          | none => d1).complete c))) ∧
      (0x8000 ≤ n → ∃ t, exec cmd s = .next t ∧ t.mem = s.mem ∧ (t.d.coreAt c).ba = ba ∧ t.d.readBit c n = out.getD b ∧
        (∀ m, 0x8000 ≤ m → m ≠ n → t.d.readBit c m = s.d.readBit c m) ∧ (t.d.coreAt c).pc = nextPc k.pc ∧
        (∀ r, (t.d.coreAt c).reg r = k.reg r) ∧ (∀ a, a ≠ Reg.KC_STAT c → t.d.rg a = s.d.rg a))
    kOp i = 0x1B →
      (kRs1 i = 0 → acts (.kBld c) (b) none) ∧
      (kRs1 i = 1 → acts (.kBldn c) (!b) none) ∧
      (kRs1 i = 2 → acts (.kBst c) (k.ba) (some k.ba)) ∧
      (kRs1 i = 3 → acts (.kBstn c) (k.ba) (some (!k.ba))) ∧
      (kRs1 i = 4 → acts (.kBset c) (k.ba) (some true)) ∧
      (kRs1 i = 5 → acts (.kBclr c) (k.ba) (some false)) ∧
      (kRs1 i = 6 → acts (.kBtgl c) (k.ba) (some (!b))) ∧
      (kRs1 i = 7 → acts (.kBand c) (k.ba && b) none) ∧
      (kRs1 i = 8 → acts (.kBandn c) (k.ba && !b) none) ∧
      (kRs1 i = 9 → acts (.kBor c) (k.ba || b) none) ∧
      (kRs1 i = 10 → acts (.kBorn c) (k.ba || !b) none) ∧
      (kRs1 i = 11 → acts (.kBxor c) (k.ba ^^ b) none) ∧
      (kRs1 i = 12 → acts (.kBts c) (b) (some true)) ∧
      (kRs1 i = 13 → acts (.kBtc c) (b) (some false))

/-- R387: SYSCALL, BREAK (unarmed by a debugger) and a reserved word, outside a handler and with room on the stack: the status word and the
return address are pushed, g30 moves down by 8, ECAUSE holds the cause and the 15 bits of the instruction, HND sets, IEN clears, and the
core goes to the word at XBASE + 4 × cause; no byte changes but the eight of the push. Inside a handler the same is a double fault. -/
def Obligations.CoreExceptionEntry : Prop :=
  ∀ (s : State) (c : Nat) (i : Word), s.atInstr c i →
    let k := s.d.coreAt c
    let sp := (k.reg 30).toNat
    let enters := fun (cmd : Instr) (cause : Cause) (ret code : Nat) =>
      (k.hnd = true → exec cmd s = .next (s.afterDev (fun d => (d.doubleFault c cause).boundary c))) ∧
      (k.hnd = false → k.stackCheck (below sp 4) = none → k.stackCheck (below sp 8) = none → k.xbase.toNat + 4 * cause.code + 4 ≤ 0x20000 →
        ∃ t, exec cmd s = .next t ∧ (t.d.coreAt c).hnd = true ∧ (t.d.coreAt c).ien = false ∧ (t.d.coreAt c).slot = none ∧
          (t.d.coreAt c).ecause = packFields [(0, cause.code), (16, code)] ∧
          (t.d.coreAt c).pc = (s.ctx.tcmWord c (k.xbase.toNat + 4 * cause.code)).toNat / 4 * 4 ∧
          (∀ r, (t.d.coreAt c).reg r = if r = 30 then BitVec.ofNat 32 (below sp 8) else k.reg r) ∧
          (∀ j, j < 4 → t.mem.read .tcm (tcmAddr c (below sp 4) + j) = BitVec.ofNat 8 ((k.statusWord cause).toNat / 256 ^ j)) ∧
          (∀ j, j < 4 → t.mem.read .tcm (tcmAddr c (below sp 8) + j) = BitVec.ofNat 8 (ret / 256 ^ j)) ∧
          (∀ p x, ¬(p = .tcm ∧ tcmAddr c (below sp 8) ≤ x ∧ x < tcmAddr c (below sp 8) + 8) → t.mem.read p x = s.mem.read p x) ∧
          (∀ c', c' ≠ c → t.d.coreAt c' = s.d.coreAt c') ∧ (∀ a, a ≠ Reg.KC_STAT c → t.d.rg a = s.d.rg a))
    (kOp i = 0x23 → kFn i = 0 → enters (.kSyscall c) .syscall (nextPc k.pc) (bits i.toNat 11 15)) ∧
    (kOp i = 0x23 → kFn i = 1 → (s.d.attached && k.rcCfg.getLsbD 0) = false →
      enters (.kBreak c) .brk (nextPc k.pc) (bits i.toNat 11 15)) ∧
    (kIllegal i = true → enters (.kIllegal c) .illegal k.pc 0)

/-- R386, R390, R374, R582: the other system instructions. CSRR puts a listed status register in RD; CSRW writes one; a number that is not
listed raises ILLEGAL; RETX pops the return address and the status word, whose IEN and HND come back; WFI goes on at once with the request
line high and otherwise puts the core to sleep; FENCE goes on at once with no store posted and otherwise waits; BREAK halts the core while a
debugger has armed it. -/
def Obligations.CoreSystemInstructions : Prop :=
  ∀ (s : State) (c : Nat) (i : Word), s.atInstr c i →
    let k := s.d.coreAt c
    let sp := (k.src 30).toNat
    let up := (sp + 4) % 2 ^ 32
    (kOp i = 0x21 → ∀ v, k.csr c (kImm i) = some v →
      exec (.kCsrr c) s = .next (s.afterDev (fun d =>
        ((d.onCore c (fun k => k.csrShadow (kImm i))).onCore c (fun k => k.setReg (kRd i) v)).complete c))) ∧
    (kOp i = 0x21 → k.csr c (kImm i) = none → exec (.kCsrr c) s = .next (s.afterRun (fun w => w.kRaise c .illegal 0))) ∧
    (kOp i = 0x22 → ∀ v, k.csr c (kImm i) = some v →
      ∃ t, exec (.kCsrw c) s = .next t ∧ t.mem = s.mem ∧ (t.d.coreAt c).pc = nextPc k.pc ∧
        (kImm i ∈ [0, 1, 3, 4, 6, 7, 8, 14, 15] → (t.d.coreAt c).csr c (kImm i) = (k.setCsr (kImm i) (k.src (kRs1 i))).csr c (kImm i)) ∧
        (∀ r, (t.d.coreAt c).reg r = k.reg r) ∧ (∀ a, a ≠ Reg.KC_STAT c → t.d.rg a = s.d.rg a)) ∧
    (kOp i = 0x22 → k.csr c (kImm i) = none → exec (.kCsrw c) s = .next (s.afterRun (fun w => w.kRaise c .illegal 0))) ∧
    (kOp i = 0x23 → kFn i = 2 → k.stackCheck sp = none → k.stackCheck up = none →
      s.d.badWords.contains (tcmKey c sp) = false → s.d.badWords.contains (tcmKey c up) = false →
      ∃ t, exec (.kRetx c) s = .next t ∧ t.mem = s.mem ∧ (t.d.coreAt c).pc = (s.ctx.tcmWord c sp).toNat / 4 * 4 ∧
        (t.d.coreAt c).ien = (s.ctx.tcmWord c up).getLsbD 0 ∧ (t.d.coreAt c).hnd = (s.ctx.tcmWord c up).getLsbD 1 ∧
        (∀ r, (t.d.coreAt c).reg r = if r = 30 then BitVec.ofNat 32 (up + 4) else k.reg r)) ∧
    (kOp i = 0x23 → kFn i = 3 → s.d.requestLine c = true → exec (.kWfi c) s = .next (s.afterDev (fun d => d.complete c))) ∧
    (kOp i = 0x23 → kFn i = 3 → s.d.requestLine c = false → k.haltReq = false →
      ∃ t, exec (.kWfi c) s = .next t ∧ t.mem = s.mem ∧ t.d.kIs c .idle = true ∧ (t.d.coreAt c).pc = k.pc) ∧
    (kOp i = 0x23 → kFn i = 4 → exec (.kFence c) s = .next (s.afterDev (fun d =>
      if k.posted = [] then d.complete c else d.beginWait c .fence))) ∧
    (kOp i = 0x23 → kFn i = 1 → (s.d.attached && k.rcCfg.getLsbD 0) = true →
      ∃ t, exec (.kBreak c) s = .next t ∧ t.mem = s.mem ∧ t.d.kIs c .halted = true ∧ (t.d.coreAt c).reason = 3 ∧
        (t.d.coreAt c).pc = nextPc k.pc)

/-- R383: TLI. With the base aligned and both entries in the TCMs, neither word in error, RD takes e0 + (((e1 − e0) × f + 0x8000) >> 16),
kept to 32 bits, and the next instruction is a slot instruction; a misaligned base raises ALIGN, a format above 4 ILLEGAL. -/
def Obligations.CoreTableLookUp : Prop :=
  ∀ (s : State) (c : Nat) (i : Word), s.atInstr c i →
    let k := s.d.coreAt c
    let fmt := bits i.toNat 0 3
    let base := (k.src (kRs1 i)).toNat
    let y := (k.src (kRs2 i)).toNat
    let size := [1, 1, 2, 2, 4].getD fmt 1
    let a0 := (base + y / 65536 * size) % 2 ^ 32
    let a1 := (base + (y / 65536 + 1) * size) % 2 ^ 32
    let entry := fun (b : Nat) =>
      let v := leNat ((List.range size).map (fun j => s.mem.read .tcm (tcmAddr c b + j)))
      if fmt = 0 ∨ fmt = 2 then (v : Int) else signed (8 * size) v
    kOp i = 0x1F →
      (5 ≤ fmt → exec (.kTli c) s = .next (s.afterRun (fun w => w.kRaise c .illegal 0))) ∧
      (fmt < 5 → base % size ≠ 0 → exec (.kTli c) s = .next (s.afterRun (fun w => w.kRaise c .align base))) ∧
      (∀ b0 b1, fmt < 5 → base % size = 0 → s.d.coreTarget c a0 size = .tcm b0 → s.d.coreTarget c a1 size = .tcm b1 →
        s.d.badWords.contains (tcmKey c b0) = false → s.d.badWords.contains (tcmKey c b1) = false →
        ∃ t, exec (.kTli c) s = .next t ∧ t.mem = s.mem ∧ s.retires t c (nextPc k.pc) (some (kRd i, k.reg (kRd i))) (kRd i)
          (BitVec.ofInt 32 (entry b0 + ((entry b1 - entry b0) * (y % 65536 : Nat) + 0x8000) / 65536)))

/-- R399: a claim. Read by its core, INTC_CLAIM makes the lowest-numbered eligible source active, returns its number and count with VALID,
and zeroes that count; with a source active or none eligible, and for every other reader, it returns 0. Nothing else changes. -/
def Obligations.InterruptClaim : Prop :=
  ∀ (s : State) (ag : Agent) (c : Nat), s.d.coreUp = true → ag.ok = true → c < 4 →
    ((ag ≠ .core c ∨ (s.d.intcAt c).active ≠ none ∨ ∀ x, s.d.eligible c x = false) →
      exec (.intcClaim ag c) s = .next (s.afterDev (fun d => { d with rdata := 0 }))) ∧
    (∀ x, ag = .core c → (s.d.intcAt c).active = none → s.d.eligible c x = true → (∀ y, s.d.eligible c y = true → x ≤ y) →
      ∃ t, exec (.intcClaim ag c) s = .next t ∧ s.onlyRegs t [] ∧ t.d = { s.d with intc := t.d.intc, rdata := t.d.rdata } ∧
        t.d.rdata = packFields [(0, x), (12, Tab.at 0 (s.d.intcAt c).count x), (31, 1)] ∧ (t.d.intcAt c).active = some x ∧
        (∀ y, Tab.at 0 (t.d.intcAt c).count y = if y = x then 0 else Tab.at 0 (s.d.intcAt c).count y) ∧
        (t.d.intcAt c).groups = (s.d.intcAt c).groups ∧ ∀ c', c' ≠ c → t.d.intcAt c' = s.d.intcAt c')

/-- R400, R397: the end of a claim, and the clearing of counts. A completion by the owner that names the active source ends it; one that
does not sets CMPL_ERR; another agent's is ignored. Each 1 written to INTC_PEND zeroes the count of its source and no other; KC3's
controller is KC3's alone. -/
def Obligations.InterruptCompletion : Prop :=
  ∀ (s : State) (ag : Agent) (c j : Nat) (v : Word), s.d.coreUp = true → ag.ok = true → c < 4 → j < 16 →
    ((ag = .core c ∨ (ag = .dbg ∧ c ≠ 3)) →
      ((s.d.intcAt c).active = some (v.toNat % 1024) → ∃ t, exec (.intcComplete ag c v) s = .next t ∧ s.onlyRegs t [] ∧
        t.d = { s.d with intc := t.d.intc } ∧ (t.d.intcAt c) = { s.d.intcAt c with active := none } ∧
        ∀ c', c' ≠ c → t.d.intcAt c' = s.d.intcAt c') ∧
      ((s.d.intcAt c).active ≠ some (v.toNat % 1024) →
        exec (.intcComplete ag c v) s = .next (s.afterDev (fun d => d.sb (Reg.INTC_STAT c) 2)))) ∧
    ((ag ≠ .core c ∧ (ag ≠ .dbg ∨ c = 3)) → exec (.intcComplete ag c v) s = .next s) ∧
    ((c ≠ 3 ∨ ag = .core 3) → ∃ t, exec (.intcPendClear ag c j v) s = .next t ∧ s.onlyRegs t [] ∧
      t.d = { s.d with intc := t.d.intc } ∧ (t.d.intcAt c).active = (s.d.intcAt c).active ∧
      (∀ y, Tab.at 0 (t.d.intcAt c).count y =
        if y / 32 = j ∧ v.getLsbD (y % 32) = true then 0 else Tab.at 0 (s.d.intcAt c).count y) ∧
      ∀ c', c' ≠ c → t.d.intcAt c' = s.d.intcAt c') ∧
    (c = 3 → ag ≠ .core 3 → exec (.intcPendClear ag c j v) s = .next s)

/-- A software source (R406; R396, R397 and R404 give the delivery). A number below 384 sets SW_ERR and raises nothing. Otherwise each
controller that the route names takes one event: below 15 the count rises by 1, at 15 the event is lost, shown in OVF and INTC_LAST_OVF; a
controller that the route does not name keeps its counts; and a route to the host sets the source's pending bit and its MSI-X vector. Until
a structure load has completed, no source of these reaches a controller or the host. -/
def Obligations.SoftwareInterrupt : Prop :=
  ∀ (s : State) (ag : Agent) (v : Word), s.d.coreUp = true → ag.ok = true →
    let x := v.toNat % 512
    (x < 384 → exec (.intSwRaise ag v) s = .next (s.afterDev (fun d => d.sb Reg.INT_GSTAT 0))) ∧
    (384 ≤ x → s.d.loaded = false → exec (.intSwRaise ag v) s = .next s) ∧
    (384 ≤ x → s.d.loaded = true → ∃ t, exec (.intSwRaise ag v) s = .next t ∧ t.mem = s.mem ∧ t.pending = s.pending ∧
      (∀ c, c < 4 → s.d.bt (Reg.INT_ROUTE x) c = true → Tab.at 0 (s.d.intcAt c).count x < 15 →
        Tab.at 0 (t.d.intcAt c).count x = Tab.at 0 (s.d.intcAt c).count x + 1) ∧
      (∀ c, c < 4 → s.d.bt (Reg.INT_ROUTE x) c = true → 15 ≤ Tab.at 0 (s.d.intcAt c).count x →
        Tab.at 0 (t.d.intcAt c).count x = Tab.at 0 (s.d.intcAt c).count x ∧ t.d.bt (Reg.INTC_STAT c) 1 = true ∧
          t.d.rg (Reg.INTC_LAST_OVF c) = BitVec.ofNat 32 x ∧ t.d.rg (Reg.INTC_OVF_CNT c) = s.d.rg (Reg.INTC_OVF_CNT c) + 1) ∧
      (∀ c, s.d.bt (Reg.INT_ROUTE x) c = false ∨ 4 ≤ c → t.d.intcAt c = s.d.intcAt c) ∧
      (∀ c y, y ≠ x → Tab.at 0 (t.d.intcAt c).count y = Tab.at 0 (s.d.intcAt c).count y) ∧
      (s.d.bt (Reg.INT_ROUTE x) 4 = true → t.d.bt (Reg.INT_HOST_PEND (x / 32)) (x % 32) = true ∧
        Tab.at false t.d.msixPend (s.d.fd (Reg.INT_ROUTE x) 8 9) = true) ∧
      (s.d.bt (Reg.INT_ROUTE x) 4 = false → t.d.msixPend = s.d.msixPend))

/-- R408, R412: a timer channel. The write of TMR_CMP_HI arms the compare with the 64-bit value of both halves and shows ARMED. A read of
TMR_CAP_LO returns the low half of the oldest capture, puts its high half where TMR_CAP_HI returns it and leaves the others; from an empty
queue both halves are 0. -/
def Obligations.TimerCompareAndCapture : Prop :=
  ∀ (s : State) (ag : Agent) (c : Nat) (v : Word), s.d.coreUp = true → ag.ok = true → c < 16 →
    (∃ t, exec (.cmpArm ag c v) s = .next t ∧ s.onlyRegs t [Reg.TMR_CMP_HI c, Reg.TMR_CH_CTRL c] ∧
      t.d = { s.d with regs := t.d.regs, tmr := t.d.tmr } ∧ t.d.rg (Reg.TMR_CMP_HI c) = v ∧
      t.d.rg (Reg.TMR_CH_CTRL c) = s.d.rg (Reg.TMR_CH_CTRL c) ||| 1 ∧
      t.d.tmrAt c = { s.d.tmrAt c with armed := true, cmp := (s.d.rg (Reg.TMR_CMP_LO c)).toNat + v.toNat * 2 ^ 32 } ∧
      ∀ c', c' ≠ c → t.d.tmrAt c' = s.d.tmrAt c') ∧
    (∀ x l, (s.d.tmrAt c).caps = x :: l → ∃ t, exec (.tmrCapLoRead ag c) s = .next t ∧
      s.onlyRegs t [Reg.TMR_CAP_HI c, Reg.TMR_CH_STAT c] ∧ t.d = { s.d with regs := t.d.regs, tmr := t.d.tmr, rdata := t.d.rdata } ∧
      t.d.rdata = BitVec.ofNat 32 x ∧ t.d.rg (Reg.TMR_CAP_HI c) = BitVec.ofNat 32 (x / 2 ^ 32) ∧
      t.d.tmrAt c = { s.d.tmrAt c with caps := l } ∧ ∀ c', c' ≠ c → t.d.tmrAt c' = s.d.tmrAt c') ∧
    ((s.d.tmrAt c).caps = [] → ∃ t, exec (.tmrCapLoRead ag c) s = .next t ∧ s.onlyRegs t [Reg.TMR_CAP_HI c] ∧
      t.d.rdata = 0 ∧ t.d.rg (Reg.TMR_CAP_HI c) = 0 ∧ t.d.tmr = s.d.tmr)

/-- R508: a mailbox. The host's write of word 3 to an empty to-core mailbox stores the word, marks the mailbox full and raises source 382;
the core's write to an empty to-host mailbox does the same with source 383; another agent's write, and a write to a full mailbox, set
MBX_ERR alone. Every read returns the word; the read by the receiver empties the mailbox. -/
def Obligations.Mailboxes : Prop :=
  ∀ (s : State) (ag : Agent) (c : Nat) (v : Word), s.d.coreUp = true → ag.ok = true → c < 4 →
    exec (.mbxTcWrite ag c v) s = .next (s.afterDev (fun d =>
      if (ag = .host ∨ ag = .dbg) ∧ d.bt (Reg.SYS_MBX_STAT c) 0 = false then
        ((d.sg (Reg.SYS_MBX_TC c 3) v).sb (Reg.SYS_MBX_STAT c) 0).raise 382
      else d.sb Reg.SYS_STAT 4)) ∧
    exec (.mbxThWrite ag c v) s = .next (s.afterDev (fun d =>
      if (ag = .core c ∨ ag = .dbg) ∧ d.bt (Reg.SYS_MBX_STAT c) 1 = false then
        ((d.sg (Reg.SYS_MBX_TH c 3) v).sb (Reg.SYS_MBX_STAT c) 1).raise 383
      else d.sb Reg.SYS_STAT 4)) ∧
    (∃ t, exec (.mbxTcRead ag c) s = .next t ∧ t.d.rdata = s.d.rg (Reg.SYS_MBX_TC c 3) ∧ s.onlyRegs t [Reg.SYS_MBX_STAT c] ∧
      t.d.rg (Reg.SYS_MBX_STAT c) = if ag = .core c then s.d.rg (Reg.SYS_MBX_STAT c) &&& ~~~1 else s.d.rg (Reg.SYS_MBX_STAT c)) ∧
    (∃ t, exec (.mbxThRead ag c) s = .next t ∧ t.d.rdata = s.d.rg (Reg.SYS_MBX_TH c 3) ∧ s.onlyRegs t [Reg.SYS_MBX_STAT c] ∧
      t.d.rg (Reg.SYS_MBX_STAT c) =
        if ag = .host ∨ ag = .dbg then s.d.rg (Reg.SYS_MBX_STAT c) &&& ~~~2 else s.d.rg (Reg.SYS_MBX_STAT c))

/-- R587: the virtual terminals. A word written to a FIFO with fewer than 16 words enters it last; to a full one it is lost and sets the
FIFO's overflow bit alone. A read removes and returns the oldest word, or returns 0 from an empty FIFO. The other FIFO, the other cores and
the rest of the core stay. -/
def Obligations.VirtualTerminals : Prop :=
  ∀ (s : State) (c : Nat) (v : Word), s.d.coreUp = true → c < 4 →
    let k := s.d.coreAt c
    let goes := fun (cmd : Instr) (k' : Core) => ∃ t, exec cmd s = .next t ∧ s.onlyRegs t [Reg.DBG_VT_STAT c] ∧ t.d.coreAt c = k' ∧
      t.d.fd (Reg.DBG_VT_STAT c) 0 5 = k'.vtTx.length % 32 ∧ t.d.fd (Reg.DBG_VT_STAT c) 8 5 = k'.vtRx.length % 32 ∧
      ∀ c', c' ≠ c → t.d.coreAt c' = s.d.coreAt c'
    (k.vtTx.length < 16 → goes (.vtTxWrite c v) { k with vtTx := k.vtTx ++ [v] }) ∧
    (16 ≤ k.vtTx.length → exec (.vtTxWrite c v) s = .next (s.afterDev (fun d => d.sb (Reg.DBG_VT_STAT c) 16))) ∧
    (k.vtRx.length < 16 → goes (.vtRxWrite c v) { k with vtRx := k.vtRx ++ [v] }) ∧
    (16 ≤ k.vtRx.length → exec (.vtRxWrite c v) s = .next (s.afterDev (fun d => d.sb (Reg.DBG_VT_STAT c) 17))) ∧
    goes (.vtTxRead c) { k with vtTx := k.vtTx.drop 1 } ∧ goes (.vtRxRead c) { k with vtRx := k.vtRx.drop 1 } ∧
    (∃ t, exec (.vtTxRead c) s = .next t ∧ t.d.rdata = k.vtTx.headD 0) ∧
    (∃ t, exec (.vtRxRead c) s = .next t ∧ t.d.rdata = k.vtRx.headD 0)

/-- R414, R415, R416: the start of a DMA channel. An agent that does not own the channel sets OWN_ERR alone, a start of a busy channel
BUSY_WR alone. A start is refused, with the first cause that applies in the order RANGE, ALIGN, OVERLAP; it sets ERR and CAUSE and raises
the channel's source if INT_EN is 1. An accepted start of COUNT bytes makes the channel busy at SRC and DST with COUNT bytes to go. -/
def Obligations.DmaStartChecks : Prop :=
  ∀ (s : State) (ag : Agent) (ch : Nat), s.d.coreUp = true → ag.ok = true → ch < 32 →
    let cfg := (s.d.rg (Reg.DMA_CH_CFG ch)).toNat
    let src := (s.d.rg (Reg.DMA_SRC_LO ch)).toNat + (s.d.rg (Reg.DMA_SRC_HI ch)).toNat * 2 ^ 32
    let dst := (s.d.rg (Reg.DMA_DST_LO ch)).toNat + (s.d.rg (Reg.DMA_DST_HI ch)).toNat * 2 ^ 32
    let n := (s.d.rg (Reg.DMA_COUNT ch)).toNat
    let e := if bits cfg 4 2 = 0 then 1 else if bits cfg 4 2 = 1 then 2 else 4
    let range := s.d.rangeOk (bits cfg 0 2) src n = true ∧ s.d.rangeOk (bits cfg 2 2) dst n = true
    let align := src % e = 0 ∧ dst % e = 0 ∧ n % e = 0
    let overlap := bits cfg 0 2 = bits cfg 2 2 ∧ src < dst ∧ dst < src + n
    let mine := ownerIs ag (s.d.fd (Reg.DMA_CH_STAT ch) 8 3) = true
    let refuses := fun cause => exec (.dmaStart ag ch) s = .next (s.afterDev (fun d =>
      ((d.sb (Reg.DMA_CH_STAT ch) 3).sf (Reg.DMA_CH_STAT ch) 4 3 cause).raiseIf (d.bt (Reg.DMA_CH_CFG ch) 6) (272 + ch)))
    (¬mine → exec (.dmaStart ag ch) s = .next (s.afterDev (fun d => d.sb Reg.DMA_STAT 1))) ∧
    (mine → (s.d.dmaAt ch).busy = true → exec (.dmaStart ag ch) s = .next (s.afterDev (fun d => d.sb Reg.DMA_STAT 2))) ∧
    (mine → (s.d.dmaAt ch).busy = false →
      (¬range → refuses 2) ∧ (range → ¬align → refuses 1) ∧ (range → align → overlap → refuses 5) ∧
      (range → align → ¬overlap → n ≠ 0 → ∃ t, exec (.dmaStart ag ch) s = .next t ∧
        s.onlyRegs t [Reg.DMA_CH_STAT ch, Reg.DMA_BUSY, Reg.DMA_REMAIN ch] ∧ t.d = { s.d with regs := t.d.regs, dma := t.d.dma } ∧
        t.d.dmaAt ch = { busy := true, src := src, dst := dst, remain := n, startAt := s.d.cclks } ∧ (∀ k, k ≠ ch → t.d.dmaAt k = s.d.dmaAt k) ∧
        t.d.bt (Reg.DMA_CH_STAT ch) 0 = true ∧ t.d.fd (Reg.DMA_CH_STAT ch) 4 3 = 0 ∧ t.d.bt Reg.DMA_BUSY ch = true ∧
        t.d.rg (Reg.DMA_REMAIN ch) = BitVec.ofNat 32 n))

/-- R414, R416, R418: the end of a transfer from LPDDR5X to LPDDR5X, on channels that no fence closes and with no word in error, that no
other channel runs beside and of which nothing has been read ahead. The bytes still to go, reordered by SWAP, stand at DST as they stood at
SRC, no other byte of any memory changes, and the channel is busy no more, with DONE set. -/
def Obligations.DmaMovesBytes : Prop :=
  ∀ (s : State) (ch : Nat) (data : List Byte), s.d.coreUp = true → ch < 32 → (s.d.dmaAt ch).busy = true →
    s.d.fd (Reg.DMA_CH_CFG ch) 0 2 = 0 → s.d.fd (Reg.DMA_CH_CFG ch) 2 2 = 0 → (∀ a, s.d.fenced a = false) → s.d.badWords = [] →
    (∀ k, k < 32 → k ≠ ch → (s.d.dmaAt k).busy = false) → (s.d.dmaAt ch).buf = [] →
    ¬((s.d.dmaAt ch).src < (s.d.dmaAt ch).dst ∧ (s.d.dmaAt ch).dst < (s.d.dmaAt ch).src + (s.d.dmaAt ch).remain) →
    ∃ t, exec (.dmaComplete ch data) s = .next t ∧ (t.d.dmaAt ch).busy = false ∧ t.d.bt (Reg.DMA_CH_STAT ch) 1 = true ∧
      (let c := s.d.dmaAt ch
       let l := swapRun (s.d.fd (Reg.DMA_CH_CFG ch) 4 2) c.remain ((List.range c.remain).map (fun i => s.mem.read .lpddr (c.src + i)))
       ∀ sp a, t.mem.read sp a =
        if sp = .lpddr ∧ c.dst ≤ a ∧ a < c.dst + l.length then l.getD (a - c.dst) 0 else s.mem.read sp a)

/-- R442, R446: a write to a word of the output latch, whole (op 0), setting (op 1) or clearing (op 2), changes the bits of the pins that
the writer owns and no others; OWN_ERR sets when another bit would have changed. -/
def Obligations.OutputLatch : Prop :=
  ∀ (s : State) (ag : Agent) (j op : Nat) (v : Word), s.d.coreUp = true → ag.ok = true → j < 4 → op < 3 →
    let old := s.d.rg (Reg.GP_OUT j)
    let new := if op = 0 then v else if op = 1 then old ||| v else old &&& ~~~v
    ∃ t, exec (.gpOutWrite ag j op v) s = .next t ∧ s.onlyRegs t [Reg.GP_OUT j, Reg.GP_STAT] ∧ t.d = { s.d with regs := t.d.regs } ∧
      (∀ i, i < 32 → t.d.bt (Reg.GP_OUT j) i =
        if ownerIs ag (s.d.fd (Reg.GP_PIN_OWN (32 * j + i)) 0 3) = true then new.getLsbD i else old.getLsbD i) ∧
      ((∃ i, i < 32 ∧ ownerIs ag (s.d.fd (Reg.GP_PIN_OWN (32 * j + i)) 0 3) = false ∧ new.getLsbD i ≠ old.getLsbD i) →
        t.d.rg Reg.GP_STAT = s.d.rg Reg.GP_STAT ||| 2) ∧
      ((∀ i, i < 32 → ownerIs ag (s.d.fd (Reg.GP_PIN_OWN (32 * j + i)) 0 3) = false → new.getLsbD i = old.getLsbD i) →
        t.d.rg Reg.GP_STAT = s.d.rg Reg.GP_STAT)

/-- The configuration and the owner of a pin (R443; the owner test is that of R442 and the fields are tested by R445). An agent that does
not own the pin sets OWN_ERR alone; the owner's write takes the fields of GP_PIN_CFG, unless FUNC or FSEL is one that Table 15-1 has not,
which sets CFG_ERR alone; the owner's write of OWNER takes effect unless LOCK is 1, which sets OWN_ERR alone. -/
def Obligations.PinOwnership : Prop :=
  ∀ (s : State) (ag : Agent) (p : Nat) (v : Word), s.d.coreUp = true → ag.ok = true → p < 128 →
    let mine := ownerIs ag (s.d.fd (Reg.GP_PIN_OWN p) 0 3) = true
    let func := v.toNat % 16
    let fsel := v.toNat / 16 % 64
    let allowed := func ≤ 1 ∨ (func = 2 ∧ fsel < 32) ∨ (func = 3 ∧ fsel < 16) ∨ (func = 4 ∧ fsel < 48)
    (¬mine → exec (.pinCfgWrite ag p v) s = .next (s.afterDev (fun d => d.sb Reg.GP_STAT 1)) ∧
      exec (.pinOwnerWrite ag p v) s = .next (s.afterDev (fun d => d.sb Reg.GP_STAT 1))) ∧
    (mine → ¬allowed → exec (.pinCfgWrite ag p v) s = .next (s.afterDev (fun d => d.sb Reg.GP_STAT 2))) ∧
    (mine → allowed → ∃ t, exec (.pinCfgWrite ag p v) s = .next t ∧ s.onlyRegs t [Reg.GP_PIN_CFG p] ∧
      t.d.rg (Reg.GP_PIN_CFG p) = (s.d.rg (Reg.GP_PIN_CFG p) &&& ~~~0x3FFFFF) ||| (v &&& 0x3FFFFF)) ∧
    (mine → s.d.bt (Reg.GP_PIN_OWN p) 3 = true → exec (.pinOwnerWrite ag p v) s = .next (s.afterDev (fun d => d.sb Reg.GP_STAT 1))) ∧
    (mine → s.d.bt (Reg.GP_PIN_OWN p) 3 = false → ∃ t, exec (.pinOwnerWrite ag p v) s = .next t ∧ s.onlyRegs t [Reg.GP_PIN_OWN p] ∧
      t.d.rg (Reg.GP_PIN_OWN p) = (s.d.rg (Reg.GP_PIN_OWN p) &&& ~~~7) ||| (v &&& 7))

/-- R447: a pad that changes changes its bit of GP_IN and no other pin's; a pad at the level it has changes nothing. -/
def Obligations.PadChange : Prop :=
  ∀ (s : State) (p : Nat) (v : Bool), p < 128 →
    (s.d.bt (Reg.GP_IN (p / 32)) (p % 32) = v → exec (.pinChange p v) s = .next s) ∧
    ∃ t, exec (.pinChange p v) s = .next t ∧ t.mem = s.mem ∧ t.pending = s.pending ∧ t.d.bt (Reg.GP_IN (p / 32)) (p % 32) = v ∧
      ∀ q, q < 128 → q ≠ p → t.d.bt (Reg.GP_IN (q / 32)) (q % 32) = s.d.bt (Reg.GP_IN (q / 32)) (q % 32)

/-- R481, R566: BAR2. Within the installed size a write stores its bytes at MEM_BAR2_BASE × 4 GiB plus its offset, lowest first, but for
those of a fenced channel, and no other byte; a read that meets no word in error returns those bytes, 0 for a fenced one. Beyond the installed size a write stores
nothing and a read returns zeros, and both set BAR2_RANGE and raise source 379 if enabled. -/
def Obligations.Bar2Accesses : Prop :=
  ∀ (s : State) (off n : Nat) (data : List Byte), s.d.coreUp = true → off + data.length ≤ bar2Bytes → off + n ≤ bar2Bytes →
    let base := s.d.fd Reg.MEM_BAR2_BASE 0 4 * 2 ^ 32 + off
    let beyond := fun (d : Dev) => (d.sb Reg.MEM_STAT 4).raiseIf (d.bt Reg.MEM_INT_EN 15) 379
    (base + data.length ≤ s.d.lpSize → ∃ t, exec (.bar2Write off data) s = .next t ∧ t.pending = s.pending ∧
      (∀ sp a, t.mem.read sp a = if sp = .lpddr ∧ base ≤ a ∧ a < base + data.length ∧ s.d.fenced a = false then data.getD (a - base) 0
        else s.mem.read sp a) ∧ ∀ a, t.d.rg a = s.d.rg a) ∧
    (s.d.lpSize < base + data.length → exec (.bar2Write off data) s = .next (s.afterDev beyond)) ∧
    (base + n ≤ s.d.lpSize → s.d.meetsBad 0 base n = false → ∃ t, exec (.bar2Read off n) s = .next t ∧ s.onlyRegs t [] ∧
      t.d.rbytes = (List.range n).map (fun i => if s.d.fenced (base + i) = true then 0 else s.mem.read .lpddr (base + i))) ∧
    (s.d.lpSize < base + n → exec (.bar2Read off n) s =
      .next (s.afterDev (fun d => { beyond d with rdata := 0, rbytes := List.replicate n 0 })))

/-- R470, R471: retention. RET of an active bank from 86 to 93 sets it retaining, at once with no core's load or store to it outstanding
and else only RET; of any other bank the write sets RET_DENIED alone, with source 370 if enabled. A write of 0 starts the wake of a retained
bank and withdraws a RET that waits; the wake's end, 2 µs later, makes the bank active, clears RET, counts in MEM_WAKE_CNT and raises source
369 if enabled. No memory changes by any of them, with no hopper write waiting for the bank. -/
def Obligations.BankRetention : Prop :=
  ∀ (s : State) (ag : Agent) (b : Nat), s.d.coreUp = true → ag.ok = true → b < 96 →
    let reg := Reg.MEM_BANK_CTRL b
    ((b < 86 ∨ 93 < b) → exec (.bankRetain ag b) s =
      .next (s.afterDev (fun d => (d.sb Reg.MEM_STAT 3).raiseIf (d.bt Reg.MEM_INT_EN 6) 370))) ∧
    (86 ≤ b → b ≤ 93 → s.d.fd reg 1 2 = 0 → ∃ t, exec (.bankRetain ag b) s = .next t ∧ s.onlyRegs t [reg] ∧
      t.d = { s.d with regs := t.d.regs } ∧ t.d.bt reg 0 = true ∧ t.d.fd reg 1 2 = if s.d.bankUsed b = true then 0 else 1) ∧
    (86 ≤ b → b ≤ 93 → s.d.fd reg 1 2 ≠ 0 → exec (.bankRetain ag b) s = .next s) ∧
    (s.d.fd reg 1 2 = 1 → ∃ t, exec (.bankWake ag b) s = .next t ∧ s.onlyRegs t [reg] ∧ t.d.fd reg 1 2 = 2 ∧
      t.d.bt reg 0 = s.d.bt reg 0 ∧ Tab.at 0 t.d.wakeAt b = s.d.tb + 1) ∧
    (s.d.fd reg 1 2 = 0 → ∃ t, exec (.bankWake ag b) s = .next t ∧ s.onlyRegs t [reg] ∧ t.d = { s.d with regs := t.d.regs } ∧
      t.d.bt reg 0 = false ∧ t.d.fd reg 1 2 = 0) ∧
    (2 ≤ s.d.fd reg 1 2 → exec (.bankWake ag b) s = .next s) ∧
    (s.d.fd reg 1 2 = 2 → s.d.bt Reg.MEM_INT_EN 5 = false → (∀ x ∈ s.d.av.repWait, x.bank ≠ b) → s.d.winq = [] →
      ∃ t, exec (.bankWakeDone b) s = .next t ∧ t.d.tb = max s.d.tb (Tab.at 0 s.d.wakeAt b + 1999) ∧ t.mem = s.mem ∧
      t.pending = s.pending ∧ t.d.fd reg 1 2 = 0 ∧ t.d.bt reg 0 = false ∧
      t.d.rg Reg.MEM_WAKE_CNT = s.d.rg Reg.MEM_WAKE_CNT + 1 ∧
      (s.d.later = [] → s.d.standalone = true →
        ∀ a, a ∉ [reg, Reg.MEM_WAKE_CNT, Reg.HOP_BP_CNT, Reg.MEM_URG_CNT] → t.d.rg a = s.d.rg a))

/-- R38: a mill tick raises the tick number by exactly 1, whether or not the core domain runs; the tick's time is the one fixed for it,
unless it was to jump to a reference edge that did not come; no memory changes. -/
def Obligations.TickNumberRisesByOne : Prop :=
  ∀ s : State, s.d.aonUp = true → ∃ t, exec .tickIssue s = .next t ∧ t.d.tick.num = s.d.tick.num + 1 ∧
    (s.d.tick.jump = false → t.d.tick.ts = s.d.tick.next) ∧ t.mem = s.mem ∧ t.pending = s.pending

/-- R87, R88: the snapshots. OBJ_PEEK_W0 to W7 take the eight words of the slot selected, its pending state and slot in OBJ_PEEK_STAT;
OBJ_GPEEK_W0 to W2 take the three words of a group slot. No other register changes, and no slot. -/
def Obligations.ObjectSnapshots : Prop :=
  ∀ (s : State) (ag : Agent) (v : Word), s.d.coreUp = true → ag.ok = true →
    (let o := s.d.objAt (v.toNat % 2 ^ 20)
     let isB := slotIsB o.sel (v.toNat / 2 ^ 20 % 4)
     ∃ t, exec (.objPeek ag v) s = .next t ∧ t.d = { s.d with regs := t.d.regs } ∧
      s.onlyRegs t (Reg.OBJ_PEEK_SEL :: Reg.OBJ_PEEK_STAT :: (List.range 8).map Reg.OBJ_PEEK_W) ∧
      (∀ i, i < 8 → t.d.rg (Reg.OBJ_PEEK_W i) = (if isB = true then o.b else o.a).word i) ∧
      t.d.bt Reg.OBJ_PEEK_STAT 0 = isB ∧ t.d.bt Reg.OBJ_PEEK_STAT 1 = o.pending ∧ t.d.rg Reg.OBJ_PEEK_SEL = v &&& 0x3FFFFF) ∧
    (let g := s.d.grpAt (v.toNat % 2 ^ 12)
     let r := if slotIsB g.sel (v.toNat / 2 ^ 12 % 4) = true then g.b else g.a
     ∃ t, exec (.objGpeek ag v) s = .next t ∧ t.d = { s.d with regs := t.d.regs } ∧
      s.onlyRegs t [Reg.OBJ_GPEEK_SEL, Reg.OBJ_GPEEK_W 0, Reg.OBJ_GPEEK_W 1, Reg.OBJ_GPEEK_W 2] ∧
      t.d.rg (Reg.OBJ_GPEEK_W 0) = r.w0 ∧ t.d.rg (Reg.OBJ_GPEEK_W 1) = r.w1 ∧ t.d.rg (Reg.OBJ_GPEEK_W 2) = r.w2 ∧
      t.d.rg Reg.OBJ_GPEEK_SEL = v &&& 0x3FFF)

/-- R169, R170: sluice objects. A staged write changes its staged word's fields alone; SL_LCOMMIT copies the four staged words of every
object from FIRST to LAST into the live ones, and nothing when LAST is below FIRST; SL_LEN_SET and SL_LEN_CLR set and clear the EN bits that
their word names. So in every state whose noted changes all reached their units on an earlier CCLK edge. -/
def Obligations.SluiceObjects : Prop :=
  ∀ (s : State) (ag : Agent) (n ix : Nat) (hi : Bool) (v : Word), s.d.coreUp = true → ag.ok = true → n < 48 → ix < 256 →
    (∀ c ∈ s.d.slLog, c.arrives < s.d.edgeTime s.d.cclks) →
    let live := fun (k j : Nat) => Reg.SL_LO_POS n k + 4 * j
    let copied := fun (k : Nat) => v.toNat % 64 ≤ k ∧ k ≤ v.toNat / 256 % 64
    (∃ t, exec (.stagedWrite ag n ix v) s = .next t ∧ s.onlyRegs t [Reg.SL_STAGED n ix] ∧ t.d = { s.d with regs := t.d.regs, slLog := t.d.slLog } ∧
      t.d.rg (Reg.SL_STAGED n ix) = (s.d.rg (Reg.SL_STAGED n ix) &&& ~~~ slMask (ix % 4)) ||| (v &&& slMask (ix % 4))) ∧
    (∃ t, exec (.slLcommit ag n v) s = .next t ∧ t.mem = s.mem ∧ t.pending = s.pending ∧
      (∀ k j, k < 64 → j < 4 → t.d.rg (live k j) = if copied k then s.d.rg (Reg.SL_STAGED n (4 * k + j)) else s.d.rg (live k j)) ∧
      ∀ a, (∀ k j, k < 64 → j < 4 → a ≠ live k j) → t.d.rg a = s.d.rg a) ∧
    (∃ t, exec (.slLenSet ag n hi v) s = .next t ∧ t.mem = s.mem ∧ t.pending = s.pending ∧
      (∀ i, i < 32 → t.d.rg (Reg.SL_LO_CTRL n (32 * hi.toNat + i)) =
        if v.getLsbD i = true then s.d.rg (Reg.SL_LO_CTRL n (32 * hi.toNat + i)) ||| 1
        else s.d.rg (Reg.SL_LO_CTRL n (32 * hi.toNat + i))) ∧
      ∀ a, (∀ i, i < 32 → a ≠ Reg.SL_LO_CTRL n (32 * hi.toNat + i)) → t.d.rg a = s.d.rg a) ∧
    (∃ t, exec (.slLenClr ag n hi v) s = .next t ∧ t.mem = s.mem ∧ t.pending = s.pending ∧
      (∀ i, i < 32 → t.d.rg (Reg.SL_LO_CTRL n (32 * hi.toNat + i)) =
        if v.getLsbD i = true then s.d.rg (Reg.SL_LO_CTRL n (32 * hi.toNat + i)) &&& ~~~1
        else s.d.rg (Reg.SL_LO_CTRL n (32 * hi.toNat + i))) ∧
      ∀ a, (∀ i, i < 32 → a ≠ Reg.SL_LO_CTRL n (32 * hi.toNat + i)) → t.d.rg a = s.d.rg a)

/-- R169: a pin-route action on an EN bit comes last among the changes of its CCLK. The bit that it left stands after an SL_LEN_SET or an
SL_LEN_CLR of the same CCLK, whichever objects their word names and though the command comes later. -/
def Obligations.SluiceRouteStands : Prop :=
  ∀ (s : State) (ag : Agent) (n k : Nat) (v : Word) (e : SlChange), s.d.coreUp = true → ag.ok = true → n < 48 → k < 64 →
    s.d.slLog = [e] → e.kind = 6 → e.act = .put → e.mask = 1 → e.off = Reg.SL_LO_CTRL n k → e.arrives = s.d.edgeTime s.d.cclks →
    120 * s.d.tb ≤ e.arrives + 48000 → s.d.bt (Reg.SL_LO_CTRL n k) 0 = e.val.getLsbD 0 →
    (∃ t, exec (.slLenSet ag n (decide (32 ≤ k)) v) s = .next t ∧ t.d.bt (Reg.SL_LO_CTRL n k) 0 = e.val.getLsbD 0) ∧
    (∃ t, exec (.slLenClr ag n (decide (32 ≤ k)) v) s = .next t ∧ t.d.bt (Reg.SL_LO_CTRL n k) 0 = e.val.getLsbD 0)

/-- R219, R222, R224, R225: Damsel's control operations on a running engine whose word `w` at PC is fetched without error. The operation
begins when the one before has ended (`s0` is the state then) and takes the CCLK of R219. STOP stops the engine; JUMP goes to TARGET; LOOP
goes there and lowers its counter unless that is 0; WAITEV waits; SKIPIF of a defined kind goes past the next instruction when its
condition, inverted by NEG, holds, and faults when that instruction cannot be fetched. No memory changes and no other engine. -/
def Obligations.DamselControl : Prop :=
  ∀ (s : State) (n w : Nat), s.d.coreUp = true → n < 48 → s.d.fd (Reg.DM_STAT n) 8 2 = 1 → s.d.dmFetch n (s.d.dmAt n).pc = .ok w →
    let m := s.d.dmAt n
    let s0 := s.afterDev (fun d => d.waitCclk m.at_)
    let ends := fun (t : State) => t.afterDev (fun d => d.waitCclk (d.dmAt n).at_)
    let goes := fun (cmd : Instr) (st len : Nat) (m' : Dm) => ∃ t, exec cmd s = .next (ends t) ∧ s0.onlyRegs t [Reg.DM_STAT n] ∧
      t.d = { s0.d with regs := t.d.regs, dm := t.d.dm } ∧ t.d.dmAt n = { m' with at_ := max m.at_ s0.d.cclks + len } ∧
      t.d.fd (Reg.DM_STAT n) 8 2 = st ∧ ∀ k, k ≠ n → t.d.dmAt k = s.d.dmAt k
    let faults := fun (cmd : Instr) (cause : Nat) => exec cmd s = .next (ends (s0.afterDev (fun d => d.dmFault n m.pc cause)))
    (bits w 28 4 = 0 → goes (.dmStop n) 0 1 m) ∧
    (bits w 28 4 = 6 → goes (.dmJump n) 1 2 { m with pc := bits w 0 12 }) ∧
    (bits w 28 4 = 7 → m.c (bits w 26 2) ≠ 0 → goes (.dmLoop n) 1 2 { m.setC (bits w 26 2) (m.c (bits w 26 2) - 1) with pc := bits w 0 12 }) ∧
    (bits w 28 4 = 7 → m.c (bits w 26 2) = 0 → goes (.dmLoop n) 1 1 { m with pc := m.pc + 1 }) ∧
    (bits w 28 4 = 2 → goes (.dmWaitEv n) 2 1
      { m with pc := m.pc + 1, wait := .event (bits w 25 3) (if bits w 24 1 = 1 then some (bits w 0 13) else none) }) ∧
    (bits w 28 4 = 5 → bits w 24 3 < 5 → s0.d.dmCond n (bits w 24 3) (bits w 0 13) = (bits w 27 1 == 1) →
      goes (.dmSkipIf n) 1 1 { m with pc := m.pc + 1 }) ∧
    (∀ w1, bits w 28 4 = 5 → bits w 24 3 < 5 → s0.d.dmCond n (bits w 24 3) (bits w 0 13) ≠ (bits w 27 1 == 1) →
      s.d.dmFetch n (m.pc + 1) = .ok w1 → goes (.dmSkipIf n) 1 2 { m with pc := m.pc + 1 + dmLength w1 }) ∧
    (bits w 28 4 = 5 → 5 ≤ bits w 24 3 → faults (.dmSkipIf n) 1) ∧
    (8 ≤ bits w 28 4 → faults (.dmReserved n) 0)

/-- R226, R231: the event counts and the program memory of a Damsel engine. Each 1 written to DM_EV_TRIG adds 1 to its 4-bit count, or at 15
sets its overflow bit; a write of DM_EV_SEL zeroes the count; a word written to the program memory is stored and free of error, unless the
engine is enabled, which sets PM_DENIED alone. -/
def Obligations.DamselEventsAndProgram : Prop :=
  ∀ (s : State) (ag : Agent) (n i a : Nat) (v : Word), s.d.coreUp = true → ag.ok = true → n < 48 → i < 8 → a < 4096 →
    (∃ t, exec (.dmEvTrig ag n v) s = .next t ∧ s.onlyRegs t [Reg.DM_EV_CNT n, Reg.DM_EV_OVF n] ∧
      t.d.fd (Reg.DM_EV_CNT n) (4 * i) 4 =
        (if v.getLsbD i = true ∧ s.d.fd (Reg.DM_EV_CNT n) (4 * i) 4 < 15 then s.d.fd (Reg.DM_EV_CNT n) (4 * i) 4 + 1
         else s.d.fd (Reg.DM_EV_CNT n) (4 * i) 4) ∧
      t.d.bt (Reg.DM_EV_OVF n) i =
        (s.d.bt (Reg.DM_EV_OVF n) i || (v.getLsbD i && s.d.fd (Reg.DM_EV_CNT n) (4 * i) 4 == 15))) ∧
    (∃ t, exec (.dmEvSelWrite ag n i v) s = .next t ∧ s.onlyRegs t [Reg.DM_EV_SEL n i, Reg.DM_EV_CNT n] ∧
      t.d.rg (Reg.DM_EV_SEL n i) = v &&& 0x7F7 ∧
      ∀ j, j < 8 → t.d.fd (Reg.DM_EV_CNT n) (4 * j) 4 = if j = i then 0 else s.d.fd (Reg.DM_EV_CNT n) (4 * j) 4) ∧
    (s.d.fbt (Reg.DM_CFG n) 0 = false → ∃ t, exec (.dmPmWrite ag n a v) s = .next t ∧ s.onlyRegs t [] ∧
      t.d.dmFetch n a = .ok v.toNat ∧ ∀ k b, (k, b) ≠ (n, a) → k < 48 → b < 4096 → t.d.dmFetch k b = s.d.dmFetch k b) ∧
    (s.d.fbt (Reg.DM_CFG n) 0 = true → exec (.dmPmWrite ag n a v) s = .next (s.afterDev (fun d => d.sb (Reg.DM_STAT n) 5)))

/-- R235, R236, R261: hopper rings as their descriptors are written. Another agent than the owner sets HOP_STAT.OWN_ERR and nothing of the
ring. The owner's TAIL is stored, has the ring's first record looked at anew, and stops the ring when it publishes more records than the ring
holds; EN starts a disabled ring of 16 to 1,048,576 records; a write that clears EN stops it; a tracker takes its 16 bits. -/
def Obligations.HopperRings : Prop :=
  ∀ (s : State) (ag : Agent) (r k : Nat) (v : Word), s.d.coreUp = true → ag.ok = true → r < 16384 → k < 64 →
    let cfg := s.d.rg (Reg.HOP_RD_CFG r)
    let mine := ownerIs ag (bits cfg.toNat 15 3) = true
    (¬mine → exec (.tailWrite ag r v) s = .next (s.afterDev Dev.hopOwnErr) ∧ exec (.ringEnable ag r v) s = .next (s.afterDev Dev.hopOwnErr) ∧
      exec (.ringDisable ag r) s = .next (s.afterDev Dev.hopOwnErr) ∧
      ∀ ix, ix < 8 → exec (.descriptorWrite ag r ix v) s = .next (s.afterDev Dev.hopOwnErr)) ∧
    (mine → ((s.afterDev (fun d => d.sg (Reg.HOP_RD_TAIL r) v)).d.published r ≤ 2 ^ bits cfg.toNat 2 5) →
      ∃ t, exec (.tailWrite ag r v) s = .next t ∧ s.onlyRegs t [Reg.HOP_RD_TAIL r] ∧ t.d.rg (Reg.HOP_RD_TAIL r) = v ∧
        t.d = { s.d with regs := t.d.regs, hop := { s.d.hop with noBody := t.d.hop.noBody } }) ∧
    (mine → cfg.getLsbD 0 = false → 4 ≤ v.toNat / 4 % 32 → v.toNat / 4 % 32 ≤ 20 →
      (s.d.published r ≤ 2 ^ (v.toNat / 4 % 32)) →
      ∃ t, exec (.ringEnable ag r v) s = .next t ∧ s.onlyRegs t [Reg.HOP_RD_CFG r, Reg.HOP_RD_STAT r] ∧
        t.d.rg (Reg.HOP_RD_CFG r) = ((v ||| 1) &&& 0x3FFF) ||| (cfg &&& 0x38000) ∧ t.d.bt (Reg.HOP_RD_STAT r) 0 = true) ∧
    (mine → cfg.getLsbD 0 = true → ∃ t, exec (.ringDisable ag r) s = .next t ∧
      s.onlyRegs t [Reg.HOP_RD_CFG r, Reg.HOP_RD_STAT r] ∧ t.d.bt (Reg.HOP_RD_CFG r) 0 = false ∧
      t.d.bt (Reg.HOP_RD_STAT r) 0 = false) ∧
    exec (.hopTrkDoneWrite ag k v) s = .next (s.afterDev (fun d => d.sg (Reg.HOP_TRK_DONE k) (v &&& 0xFFFF)))

/-- R539, R540, R541, R544, R547: the secure block takes no command of any agent but KC3; KC3's wipe sets WIPING and counts in SEC_WIPE_CNT;
its request to the TRNG with eight queued sets RNG_FULL alone; a lifecycle request without the key, or for no later state, sets LC_ERR
alone; and TAMPER_CFG once locked stays. -/
def Obligations.SecureBlock : Prop :=
  ∀ (s : State) (ag : Agent) (slot : Nat) (v : Word), s.d.coreUp = true → ag.ok = true → slot < 4 →
    (ag ≠ .core 3 → ∀ c ∈ [Instr.lifecycleChange ag v, .keyProgram ag slot, .keySetDev ag slot, .keyRevoke ag slot,
      .imageKeyProgram ag v, .wipe ag v, .tamperLock ag, .verifyGo ag v, .rngRequest ag v, .rngRestart ag v], exec c s = .next s) ∧
    (ag = .core 3 →
      (v.getLsbD 0 = true → ∃ t, exec (.wipe ag v) s = .next t ∧ s.onlyRegs t [Reg.SEC_STAT, Reg.SEC_WIPE_CNT] ∧
        t.d.bt Reg.SEC_STAT 1 = true ∧ t.d.rg Reg.SEC_WIPE_CNT = s.d.rg Reg.SEC_WIPE_CNT + 1 ∧ t.d.sec.wipeAt = some s.d.tb) ∧
      (8 ≤ s.d.sec.rng.length → exec (.rngRequest ag v) s = .next (s.afterDev (fun d => d.sb Reg.SEC_STAT 5))) ∧
      ((v.toNat / 2 ^ 16 ≠ 0x4C43 ∨ v.toNat % 8 ≤ s.ctx.lifecycle ∨ 4 < v.toNat % 8) →
        exec (.lifecycleChange ag v) s = .next (s.afterDev (fun d => d.sb Reg.SEC_STAT 3))) ∧
      (s.d.bt Reg.SEC_TAMPER_CFG 8 = true → exec (.tamperLock ag) s = .next s) ∧
      (s.d.bt Reg.SEC_TAMPER_CFG 8 = false → ∃ t, exec (.tamperLock ag) s = .next t ∧ s.onlyRegs t [Reg.SEC_TAMPER_CFG] ∧
        t.d.bt Reg.SEC_TAMPER_CFG 8 = true ∧ ∀ i, i < 6 → t.d.bt Reg.SEC_TAMPER_CFG i = s.d.bt Reg.SEC_TAMPER_CFG i))

/-- R540: the end of a wipe with no lifecycle change in progress and no TRNG block waiting: every byte of bank 95 reads 0, no other byte
changes, WIPING clears and no wipe is in progress. -/
def Obligations.WipeZeroesBank95 : Prop :=
  ∀ (s : State) (t0 : Nat), s.d.coreUp = true → s.d.sec.wipeAt = some t0 → s.d.sec.lc = none → s.d.sec.rngWait = 0 →
    ∃ t, exec .wipeDone s = .next t ∧ t.d.bt Reg.SEC_STAT 1 = false ∧ t.d.sec.wipeAt = none ∧
      ∀ sp a, t.mem.read sp a = if sp = .sram ∧ a / 2 ^ 21 = 95 then 0 else s.mem.read sp a

/-- R444, R456, R461: a PIO engine as its owner and others reach it. A write to a context's TX FIFO, to the context enables or to the
instruction memory by another agent than the owner sets OWN_ERR alone. The owner's word enters the FIFO last while it holds fewer than four,
and a full FIFO sets TX_OVF alone; a read of RXF removes and returns the oldest word, or returns 0 and sets RX_UNF; a word written to the
instruction memory of a stopped engine is stored, and of a running one sets the denial alone. -/
def Obligations.PioAccesses : Prop :=
  ∀ (s : State) (ag : Agent) (e c a : Nat) (v : Word), s.d.coreUp = true → ag.ok = true → e < 8 → c < 16 → a < 1024 →
    let mine := ownerIs ag (s.d.fd (Reg.PIO_E_CFG e) 4 3) = true
    let x := s.d.ctxAt e c
    let goes := fun (cmd : Instr) (x' : PioCtx) => ∃ t, exec cmd s = .next t ∧
      s.onlyRegs t [Reg.PIO_C_FSTAT e c, Reg.PIO_C_STATE e c] ∧ t.d.ctxAt e c = x' ∧
      t.d.fd (Reg.PIO_C_FSTAT e c) 0 3 = x'.tx.length % 8 ∧ t.d.fd (Reg.PIO_C_FSTAT e c) 4 3 = x'.rx.length % 8 ∧
      ∀ e' c', (e', c') ≠ (e, c) → t.d.ctxAt e' c' = s.d.ctxAt e' c'
    (¬mine → ∀ cmd ∈ [Instr.pioTxfWrite ag e c v, .contextEnable ag e v, .pioImWrite ag e a v],
      exec cmd s = .next (s.afterDev (fun d => d.sb Reg.PIO_STAT 1))) ∧
    (mine → x.tx.length < 4 → goes (.pioTxfWrite ag e c v) { x with tx := x.tx ++ [v] }) ∧
    (mine → 4 ≤ x.tx.length → exec (.pioTxfWrite ag e c v) s = .next (s.afterDev (fun d => d.sb (Reg.PIO_C_FSTAT e c) 8))) ∧
    (∀ w l, x.rx = w :: l → goes (.pioRxfRead ag e c) { x with rx := l } ∧
      ∃ t, exec (.pioRxfRead ag e c) s = .next t ∧ t.d.rdata = w) ∧
    (x.rx = [] → exec (.pioRxfRead ag e c) s =
      .next (s.afterDev (fun d => { d.sb (Reg.PIO_C_FSTAT e c) 9 with rdata := 0 }))) ∧
    (mine → s.d.bt (Reg.PIO_E_CFG e) 0 = true → exec (.pioImWrite ag e a v) s = .next (s.afterDev (fun d => d.sb Reg.PIO_STAT 3))) ∧
    (mine → s.d.bt (Reg.PIO_E_CFG e) 0 = false → ∃ t, exec (.pioImWrite ag e a v) s = .next t ∧ s.onlyRegs t [] ∧
      Tab.at 0 t.d.aux (pioWord e a) = v ∧ ∀ k, k ≠ pioWord e a → Tab.at 0 t.d.aux k = Tab.at 0 s.d.aux k)

/-- R499, R500: the commands of a long operation's slot, whose states are 0 IDLE, 1 QUEUED, 2 RUNNING, 3 SUSPENDING, 4 SUSPENDED, 5
CANCELLING, 6 DONE. Another agent than the owner sets OWN_ERR alone; a command in a state that R500 does not name, or to a structure load in
its APPLY phase, sets LOP_CMD_ERR alone; SUSPEND, RESUME and CANCEL lead to the states that R500 gives, a structure load that waits for its
tick being at a suspend point already (Table 17-6). -/
def Obligations.LongOperationCommands : Prop :=
  ∀ (s : State) (ag : Agent) (sl op : Nat) (int : Bool), s.d.coreUp = true → ag.ok = true → sl < 64 → op < 16 →
    let reg := Reg.SYS_LOP_STAT sl
    let st := s.d.fd reg 0 3
    let mine := s.d.ownsSlot ag sl = true
    let errs := fun (cmd : Instr) (bit : Nat) => exec cmd s = .next (s.afterDev (fun d => d.sb Reg.SYS_STAT bit))
    let goes := fun (cmd : Instr) (n : Nat) => ∃ t, exec cmd s = .next t ∧
      s.onlyRegs t [reg, Reg.SYS_LOP_BUSY_LO, Reg.SYS_LOP_BUSY_HI] ∧ t.d = { s.d with regs := t.d.regs } ∧ t.d.fd reg 0 3 = n
    (¬mine → errs (.lopStart ag sl op int) 3 ∧ errs (.lopSuspend ag sl) 3 ∧ errs (.lopResume ag sl) 3 ∧ errs (.lopCancel ag sl) 3) ∧
    (mine →
      (1 ≤ st → st ≤ 5 → errs (.lopStart ag sl op int) 2) ∧
      (st = 1 → ∃ t, exec (.lopSuspend ag sl) s = .next t ∧ t.d.fd reg 0 3 = 4 ∧ t.mem = s.mem) ∧
      (st = 2 → s.d.lopApplies sl = false → s.d.lopAwaits sl = false → goes (.lopSuspend ag sl) 3 ∧ goes (.lopCancel ag sl) 5) ∧
      (st = 2 → s.d.lopAwaits sl = true → (∃ t, exec (.lopSuspend ag sl) s = .next t ∧ t.d.fd reg 0 3 = 4 ∧ t.mem = s.mem) ∧
        ∃ t, exec (.lopCancel ag sl) s = .next t ∧ t.d.fd reg 0 3 = 6 ∧ t.d.fd reg 4 3 = 3 ∧ t.mem = s.mem) ∧
      (st = 2 → s.d.lopApplies sl = true → errs (.lopSuspend ag sl) 2 ∧ errs (.lopCancel ag sl) 2) ∧
      (st ≠ 1 → st ≠ 2 → errs (.lopSuspend ag sl) 2) ∧
      (st = 3 → goes (.lopResume ag sl) 2) ∧
      (st = 4 → ∃ t, exec (.lopResume ag sl) s = .next t ∧ s.onlyRegs t [reg, Reg.SYS_LOP_BUSY_LO, Reg.SYS_LOP_BUSY_HI] ∧
        t.d = { s.d with regs := t.d.regs, lop := t.d.lop, sec := { s.d.sec with vfyEnd := t.d.sec.vfyEnd } } ∧
        t.d.fd reg 0 3 = (if s.ctx.lopWaits sl = true then 1 else 2) ∧ ∀ k, k ≠ sl → t.d.lopAt k = s.d.lopAt k) ∧
      (st ≠ 3 → st ≠ 4 → errs (.lopResume ag sl) 2) ∧
      ((st = 1 ∨ st = 4) → ∃ t, exec (.lopCancel ag sl) s = .next t ∧ t.d.fd reg 0 3 = 6 ∧ t.d.fd reg 4 3 = 3 ∧ t.mem = s.mem) ∧
      (st = 3 → goes (.lopCancel ag sl) 5) ∧
      ((st = 0 ∨ 5 ≤ st) → errs (.lopCancel ag sl) 2))

/-- R529, R530, R532: the update commands. From an agent other than the host, KC1 and the debug master, and in a state that does not take
it, a command sets CMD_ERR alone: ARM and COLD are for READY (1), DISARM is for ARMED (3). DISARM taken has a record written with STATE
STABLE and LAST DISARMED. A token from an agent other than KC0, KC1 and the debug master, or outside TRIAL (4), sets BAD_TOKEN alone. -/
def Obligations.UpdateCommands : Prop :=
  ∀ (s : State) (ag : Agent) (hi : Word), s.d.coreUp = true → ag.ok = true →
    let st := s.d.fd Reg.UPD_STATE 0 3
    let may := ag = .host ∨ ag = .core 1 ∨ ag = .dbg
    let errs := fun (cmd : Instr) (bit : Nat) => exec cmd s = .next (s.afterDev (fun d => d.sb Reg.UPD_STAT bit))
    ((¬may ∨ st ≠ 1) → errs (.arm ag) 1 ∧ errs (.cold ag) 1) ∧
    ((¬may ∨ st ≠ 3) → errs (.disarm ag) 1) ∧
    (may → st = 3 → s.d.upd.rec_ = none → ∃ t, exec (.disarm ag) s = .next t ∧ s.onlyRegs t [] ∧
      t.d = { s.d with upd := { s.d.upd with rec_ := t.d.upd.rec_ } } ∧
      (t.d.upd.rec_.map (fun r => (r.state, r.last, r.why))) = some (0, 4, .disarm)) ∧
    ((¬(ag = .core 0 ∨ ag = .core 1 ∨ ag = .dbg) ∨ st ≠ 4) → errs (.confirmToken ag hi) 2)

/-- R327: the ring mailbox of this node. A pop removes the oldest message received and shows the next, or zeros, in the receive registers; a
send while one is under way, or while the node does not tap, sets MBX_ERR and sends nothing. -/
def Obligations.RingMailbox : Prop :=
  ∀ (s : State) (ag : Agent) (v : Word), s.d.coreUp = true → ag.ok = true →
    (∃ t, exec (.mbxPop ag) s = .next t ∧ t.d = { s.d with regs := t.d.regs, ring := { s.d.ring with mbx := s.d.ring.mbx.drop 1 } } ∧
      s.onlyRegs t (Reg.RING_MBX_RX_INFO :: Reg.RING_MBX_RX_TS_LO :: Reg.RING_MBX_RX_TS_HI :: (List.range 8).map Reg.RING_MBX_RX) ∧
      ∀ i, i < 8 → t.d.rg (Reg.RING_MBX_RX i) =
        match s.d.ring.mbx.drop 1 with
        | [] => 0
        | m :: _ => m.2.2.getD i 0) ∧
    ((s.d.bt Reg.RING_MBX_TX_CTRL 8 = true ∨ s.d.tapping = false) → ∃ t, exec (.mbxSend ag v) s = .next t ∧
      s.onlyRegs t [Reg.RING_MBX_TX_CTRL] ∧ t.d = { s.d with regs := t.d.regs } ∧ t.d.bt Reg.RING_MBX_TX_CTRL 9 = true)

/-- R38 to R232: the tick, the timing generators, the commits and builds, the content writes and the Damsel engines. Each command completes,
with the operation that its rule gives as its whole effect: every other part of the state, the queue and, where the operation works on the
device alone, every memory stay as they are. -/
def Obligations.DisplayCommandsComplete : Prop :=
  ∀ s : State,
    (s.d.aonUp = true →
      exec .tickInEdge s = .next (s.afterDev tickInEvent) ∧
      exec .tickWindowClose s = .next (s.afterDev tickWindowEvent)) ∧
    (s.d.coreUp = true →
      (∀ (ag : Agent) (src : Nat), ag.ok = true → src < 4 → exec (.tickSrcSelect ag src) s = .next (s.afterDev (fun d => tickCtrlWrite
          (fieldWord (d.rg Reg.TG_TICK_CTRL) 8 2 src) d))) ∧
      (∀ (ag : Agent) (den : Word), ag.ok = true → exec (.tickRateSubmit ag den) s = .next (s.afterDev (tickRateSubmit den))) ∧
      (∀ (ag : Agent) (p : Nat), ag.ok = true → p < 16 → exec (.tickProfileWrite ag p) s = .next (s.afterDev (fun d => tickCtrlWrite
          (d.ctrlWord .tick false p) d))) ∧
      (∀ (ag : Agent) (n : Nat) (p : Nat), ag.ok = true → n < 48 → p < 256 → exec (.tgEnable ag n p) s = .next (s.afterDev (fun d =>
          tgCtrlWrite n (fieldWord (fieldWord (d.rg (Reg.TG_CTRL n)) 4 8 p) 1 1 1) d))) ∧
      (∀ (ag : Agent) (n : Nat), ag.ok = true → n < 48 → exec (.tgDisable ag n) s = .next (s.afterDev (fun d => tgCtrlWrite n (fieldWord
          (d.rg (Reg.TG_CTRL n)) 1 1 0) d))) ∧
      (∀ (ag : Agent) (n : Nat) (ix : Nat) (v : Word), ag.ok = true → n < 48 → ix < 8 → exec (.tgTimingWrite ag n ix v) s = .next
          (s.afterDev (fun d => let a := Reg.TG_HTIMING n + 4 * ix; if d.portFollower n then d.sb (Reg.TG_STAT n) 0 else tgTimingWrite n
          a (mergeWord (d.rg a) v (rwMask a)) d))) ∧
      (∀ (n : Nat), n < 48 → exec (.pclkPllLock n) s = .next (s.afterDev (pllLock n))) ∧
      (∀ (n : Nat) (line : Nat), n < 48 → exec (.tgLineBegin n line) s = .next (s.afterDev (lineEvent n line))) ∧
      (∀ (n : Nat), n < 48 → exec (.glideLock n) s = .next (s.afterDev (glideLockEvent n))) ∧
      (∀ (n : Nat), n < 48 → exec (.frameStart n) s = .next (s.afterDev (frameStartEvent n))) ∧
      exec .commitDecision s = .next (s.afterRun commitEvent) ∧
      exec .flipEnd s = .next (s.afterDev flipEvent) ∧
      exec .bolterBuildComplete s = .next (s.afterDev boltEvent) ∧
      (∀ (n : Nat), n < 48 → exec (.takeUpEdge n) s = .next (s.afterDev (takeUpEvent n))) ∧
      (∀ (sl : Nat) (line : Nat), sl < 52 → exec (.lineBuildStart sl line) s = .next (s.afterRun (buildStartEvent sl line))) ∧
      (∀ (sl : Nat), sl < 52 → exec (.objectBuildBegin sl) s = .next (s.afterRun (Machine.objectBuildBegin sl))) ∧
      (∀ (sl : Nat), sl < 52 → exec (.objectBuildEnd sl) s = .next (s.afterRun (buildEndEvent sl))) ∧
      (∀ (sl : Nat) (line : Nat), sl < 52 → exec (.lineDuePoint sl line) s = .next (s.afterRun (duePointEvent sl line))) ∧
      (∀ (line : Nat), exec (.cacheFill line) s = .next (s.afterRun (Machine.cacheFill line))) ∧
      (∀ (sl : Nat) (p : Nat), sl < 52 → p < 2 → exec (.videoRowArrival sl p) s = .next (s.afterRun (fun w => w.rowArrive sl p))) ∧
      (∀ (n : Nat) (x : Nat) (miss : Bool), n < 48 → exec (.mixGroup n x miss) s = .next (s.afterRun (mixEvent n x miss))) ∧
      (∀ (ag : Agent) (off : Nat) (v : Word), ag.ok = true → (frameOutput off).isSome = true → exec (.frameValueWrite ag off v) s = .next
          (s.afterDev (fun d => if isExpert off = true ∧ d.level (.mx ((frameOutput off).getD 0)) = false then d.sb (Reg.MX_STAT
          ((frameOutput off).getD 0)) 0 else d.frameWrite ((frameOutput off).getD 0) off v (rwMask off)))) ∧
      (∀ (ag : Agent), ag.ok = true → exec (.cacheInvalidate ag) s = .next (s.afterDev cacheInvalidate)) ∧
      exec .invalidateDone s = .next (s.afterRun invalidateEvent) ∧
      (∀ (ag : Agent) (n : Nat) (ix : Nat) (v : Word), ag.ok = true → n < 48 → ix < 8 → exec (.slLrouteWrite ag n ix v) s = .next
          (s.afterDev (fun d => d.routeBy ag n ix v 0xFFFFFFFF))) ∧
      (∀ (ag : Agent) (n : Nat) (off : Nat) (v : Word), ag.ok = true → n < 48 → off < 0x8000 → off % 4 = 0 → exec (.tableWindowWrite ag n
          off v) s = .next (s.afterDev (tableWrite n off v 0xFFFFFFFF))) ∧
      (∀ (ag : Agent) (n : Nat), ag.ok = true → n < 48 → exec (.tableCopy ag n) s = .next (s.afterDev (fun d => if d.bt (Reg.MX_TBL_CMD
          n) 1 = true ∨ d.bankPending n = true then d.sb (Reg.MX_STAT n) 4 else (d.sb (Reg.MX_TBL_CMD n) 1).onMx n (fun m => { m with copyAt := d.cclks + 848 })))) ∧
      (∀ (n : Nat), n < 48 → exec (.tableCopyDone n) s = .next (s.afterDev (tableCopyEvent n))) ∧
      (∀ (ag : Agent) (n : Nat) (v : Word), ag.ok = true → n < 48 → exec (.mxFmtWrite ag n v) s = .next (s.afterDev (fun d => if v.toNat
          % 4 = 3 ∨ v.toNat / 4 % 4 = 3 then d.sb (Reg.MX_STAT n) 3 else (d.sg (Reg.MX_FMT n) (v &&& 0x7F)).onMx n (fun m =>
          { m with fmtPend := some (v &&& 0x7F) })))) ∧
      (∀ (n : Nat), n < 48 → exec (.dmStop n) s = .next (s.afterDev (dmEvent Machine.dmStop n))) ∧
      (∀ (n : Nat), n < 48 → exec (.dmWait n) s = .next (s.afterDev (dmEvent Machine.dmWait n))) ∧
      (∀ (n : Nat), n < 48 → exec (.dmPointReached n) s = .next (s.afterDev (dmPointEvent n))) ∧
      (∀ (n : Nat), n < 48 → exec (.dmWaitEv n) s = .next (s.afterDev (dmEvent Machine.dmWaitEv n))) ∧
      (∀ (n : Nat), n < 48 → exec (.dmWaitEvComplete n) s = .next (s.afterDev (dmWaitEvEvent n))) ∧
      (∀ (n : Nat), n < 48 → exec (.dmWrite n) s = .next (s.afterDev (dmEvent Machine.dmWrite n))) ∧
      (∀ (n : Nat), n < 48 → exec (.dmWriteM n) s = .next (s.afterDev (dmEvent Machine.dmWriteM n))) ∧
      (∀ (n : Nat), n < 48 → exec (.dmSkipIf n) s = .next (s.afterDev (dmEvent Machine.dmSkipIf n))) ∧
      (∀ (n : Nat), n < 48 → exec (.dmJump n) s = .next (s.afterDev (dmEvent Machine.dmJump n))) ∧
      (∀ (n : Nat), n < 48 → exec (.dmLoop n) s = .next (s.afterDev (dmEvent Machine.dmLoop n))) ∧
      (∀ (n : Nat), n < 48 → exec (.dmReserved n) s = .next (s.afterDev (dmEvent Machine.dmReserved n))))

/-- The hopper rings, their records, fences, markers and trackers; the Flume ports and the ring node. Each command completes, with the
operation that its rule gives as its whole effect: every other part of the state, the queue and, where the operation works on the device
alone, every memory stay as they are. -/
def Obligations.LinkAndHopperCommandsComplete : Prop :=
  ∀ s : State,
    (s.d.coreUp = true →
      (∀ (ag : Agent) (r : Nat) (v : Word), ag.ok = true → r < 16384 → exec (.tailWrite ag r v) s = .next (s.afterDev (fun d => if
          ownerIs ag (d.fd (Reg.HOP_RD_CFG r) 15 3) = true then d.ringTailWrite r v else d.hopOwnErr))) ∧
      (∀ (ag : Agent) (r : Nat) (v : Word), ag.ok = true → r < 16384 → exec (.ringEnable ag r v) s = .next (s.afterDev (fun d => if
          ownerIs ag (d.fd (Reg.HOP_RD_CFG r) 15 3) = true then d.ringCfgWrite r (fieldWord v 0 1 1) else d.hopOwnErr))) ∧
      (∀ (ag : Agent) (r : Nat), ag.ok = true → r < 16384 → exec (.ringDisable ag r) s = .next (s.afterDev (fun d => if ownerIs ag (d.fd
          (Reg.HOP_RD_CFG r) 15 3) = true then d.ringCfgWrite r (fieldWord (d.rg (Reg.HOP_RD_CFG r)) 0 1 0) else d.hopOwnErr))) ∧
      (∀ (ag : Agent) (r : Nat) (ix : Nat) (v : Word), ag.ok = true → r < 16384 → ix < 8 → exec (.descriptorWrite ag r ix v) s = .next
          (s.afterDev (descWrite ag (Reg.HOP_RD_BASE_LO r + 4 * ix) v 0xFFFFFFFF))) ∧
      (∀ (data : List Word), exec (.ringService data) s = .next (s.afterRun (Machine.ringService data))) ∧
      (∀ (r : Nat), r < 16384 → exec (.hopNop r) s = .next (s.afterRun (Machine.hopNop r))) ∧
      (∀ (r : Nat), r < 16384 → exec (.hopObjWrite r) s = .next (s.afterRun (Machine.hopObjWrite r))) ∧
      (∀ (r : Nat), r < 16384 → exec (.hopObjPatch r) s = .next (s.afterRun (Machine.hopObjPatch r))) ∧
      (∀ (r : Nat), r < 16384 → exec (.hopGroupSet r) s = .next (s.afterRun (Machine.hopGroupSet r))) ∧
      (∀ (r : Nat), r < 16384 → exec (.hopTileRun r) s = .next (s.afterRun (Machine.hopTileRun r))) ∧
      (∀ (r : Nat), r < 16384 → exec (.hopPalWrite r) s = .next (s.afterRun (Machine.hopPalWrite r))) ∧
      (∀ (r : Nat), r < 16384 → exec (.hopPlaneFlip r) s = .next (s.afterRun (Machine.hopPlaneFlip r))) ∧
      (∀ (r : Nat), r < 16384 → exec (.hopRegAtTick r) s = .next (s.afterRun (Machine.hopRegAtTick r))) ∧
      (∀ (r : Nat), r < 16384 → exec (.hopRegNow r) s = .next (s.afterRun (Machine.hopRegNow r))) ∧
      (∀ (r : Nat), r < 16384 → exec (.hopFence r) s = .next (s.afterRun (Machine.hopFence r))) ∧
      (∀ (r : Nat), r < 16384 → exec (.fenceRelease r) s = .next (s.afterRun (Machine.fenceRelease r))) ∧
      (∀ (r : Nat), r < 16384 → exec (.hopMarker r) s = .next (s.afterRun (Machine.hopMarker r))) ∧
      (∀ (r : Nat), r < 16384 → exec (.markerWrite r) s = .next (s.afterRun (Machine.markerWrite r))) ∧
      (∀ (r : Nat), r < 16384 → exec (.hopAudCmd r) s = .next (s.afterRun (Machine.hopAudCmd r))) ∧
      exec .trackerCutLatch s = .next (s.afterDev trackerEvent) ∧
      (∀ (ag : Agent) (k : Nat) (v : Word), ag.ok = true → k < 64 → exec (.hopTrkDoneWrite ag k v) s = .next (s.afterDev (fun d => d.sg
          (Reg.HOP_TRK_DONE k) (v &&& 0xFFFF))))) ∧
    (s.d.aonUp = true →
      (∀ (leat : Bool) (node : Nat) (linkBit : Bool), node < 64 → exec (.ringLinkTrained leat node linkBit) s = .next (s.afterDev
          (Machine.ringLinkTrained leat node linkBit))) ∧
      (∀ (leat : Bool) (f : RFrame), exec (.ringRecord leat f) s = .next (s.afterDev (Machine.ringRecord leat f))) ∧
      (∀ (leat : Bool) (f : RFrame), exec (.ringRecordPair leat f) s = .next (s.afterDev (Machine.ringRecordPair leat f))) ∧
      (∀ (leat : Bool) (f : RFrame) (sub : Nat), sub < 1000 → exec (.ringTick leat f sub) s = .next (s.afterDev (ringTickEvent leat f
          sub))) ∧
      (∀ (leat : Bool) (f : RFrame), exec (.ringState leat f) s = .next (s.afterDev (Machine.ringState leat f))) ∧
      (∀ (leat : Bool) (f : RFrame) (sub : Nat), sub < 1000 → exec (.ringProbe leat f sub) s = .next (s.afterDev (Machine.ringProbe leat
          f sub))) ∧
      (∀ (leat : Bool) (f : RFrame), exec (.ringEvent leat f) s = .next (s.afterDev (Machine.ringEvent leat f))) ∧
      (∀ (leat : Bool), exec (.ringInputDead leat) s = .next (s.afterDev (Machine.ringInputDead leat))) ∧
      exec .ringInputReturn s = .next (s.afterDev ringReturnEvent) ∧
      exec .frameInject s = .next (s.afterDev frameInjectEvent) ∧
      exec .probeTimeout s = .next (s.afterDev probeTimeoutEvent) ∧
      exec .segmentTimeout s = .next (s.afterDev segmentTimeoutEvent) ∧
      exec .sourceTimeout s = .next (s.afterDev sourceTimeoutEvent) ∧
      exec .ringPllLock s = .next (s.afterDev Machine.ringPllLock)) ∧
    (s.d.coreUp = true →
      (∀ (ag : Agent) (n : Nat), ag.ok = true → n < 48 → exec (.flRetrain ag n) s = .next (s.afterDev (flCmdWrite n 1))) ∧
      (∀ (ag : Agent) (n : Nat) (isCtrl : Bool) (v : Word), ag.ok = true → n < 48 → exec (.flCfgWrite ag n isCtrl v) s = .next
          (s.afterDev (fun d => if isCtrl = true then flCtrlWrite n v d else flCfgWrite n v d))) ∧
      (∀ (n : Nat), n < 48 → exec (.trainingComplete n) s = .next (s.afterDev (trainingEvent n))) ∧
      (∀ (n : Nat), n < 48 → exec (.alignGroup n) s = .next (s.afterDev (alignEvent n))) ∧
      (∀ (n : Nat), n < 48 → exec (.packetSend n) s = .next (s.afterDev (packetEvent n))) ∧
      (∀ (n : Nat), n < 48 → exec (.idleStatusTimer n) s = .next (s.afterDev (idleStatusEvent n))) ∧
      (∀ (ag : Agent) (n : Nat) (k : Nat) (v : Word), ag.ok = true → n < 48 → k < 2 → exec (.auxArm ag n k v) s = .next (s.afterDev (fun
          d => d.sg (Reg.FL_AUX_CTRL n k) ((d.rg (Reg.FL_AUX_CTRL n k) &&& 0xFF000000) ||| (fieldWord v 17 1 1 &&& 0x0003FF1F))))) ∧
      (∀ (n : Nat), n < 48 → exec (.flPllLoss n) s = .next (s.afterDev (Machine.flPllLoss n))) ∧
      (∀ (n : Nat), n < 48 → exec (.flPllRelock n) s = .next (s.afterDev (Machine.flPllRelock n))) ∧
      (∀ (n : Nat) (lane : Nat), n < 48 → lane < 4 → exec (.laneFault n lane) s = .next (s.afterDev (fun d => d.flAlarm n (4 + lane) 1))) ∧
      (∀ (ag : Agent), ag.ok = true → exec (.depart ag) s = .next (s.afterDev (fun d => (ringCmdWrite 1 d).stateIfChanged))) ∧
      (∀ (ag : Agent), ag.ok = true → exec (.probeCmd ag) s = .next (s.afterDev (fun d => (ringCmdWrite 2 d).stateIfChanged))) ∧
      (∀ (ag : Agent) (v : Word), ag.ok = true → exec (.horizonRequest ag v) s = .next (s.afterDev (horizonRequest v))) ∧
      (∀ (ag : Agent) (v : Word), ag.ok = true → exec (.mbxSend ag v) s = .next (s.afterDev (mbxSend (fieldWord v 7 1 1)))))

/-- R332 to R413: the audio engine, the events of the cores, their controllers and the timers. Each command completes, with the operation
that its rule gives as its whole effect: every other part of the state, the queue and, where the operation works on the device alone, every
memory stay as they are. -/
def Obligations.AudioAndCoreCommandsComplete : Prop :=
  ∀ s : State,
    s.d.coreUp = true →
      (∀ (ins : List (Nat × Nat)) (late : List Nat), exec (.sampleTick ins late) s = .next (s.afterRun (sampleEvent ins late))) ∧
      (∀ (ops : Nat) (wait : Nat) (late : List Nat), exec (.graphPhase ops wait late) s = .next (s.afterDev (graphEvent ops wait late))) ∧
      (∀ (ag : Agent) (v : Nat), ag.ok = true → v < 1024 → exec (.keyon ag v) s = .next (s.afterDev (fun d =>
          { d with aud := { d.aud with direct := d.aud.direct ++ [(Reg.AUD_V_CTRL v, 1, 3)] } }))) ∧
      (∀ (ag : Agent) (v : Nat), ag.ok = true → v < 1024 → exec (.keyoff ag v) s = .next (s.afterDev (fun d =>
          { d with aud := { d.aud with direct := d.aud.direct ++ [(Reg.AUD_V_CTRL v, 2, 3)] } }))) ∧
      (∀ (body : List Word), body.length = 6 → bits (body.headD 0).toNat 0 3 = 0 → exec (.audCmdParam body) s = .next (s.afterDev (fun d
          => d.handOverNow body))) ∧
      (∀ (body : List Word), body.length = 6 → bits (body.headD 0).toNat 0 3 = 1 → exec (.audCmdKeyon body) s = .next (s.afterDev (fun d
          => d.handOverNow body))) ∧
      (∀ (body : List Word), body.length = 6 → bits (body.headD 0).toNat 0 3 = 2 → exec (.audCmdKeyoff body) s = .next (s.afterDev (fun d
          => d.handOverNow body))) ∧
      (∀ (body : List Word), body.length = 6 → bits (body.headD 0).toNat 0 3 = 3 → exec (.audCmdVoice body) s = .next (s.afterDev (fun d
          => d.handOverNow body))) ∧
      (∀ (ag : Agent) (off : Nat) (v : Word), ag.ok = true → 0x1208000 ≤ off → off < 0x1220000 → off % 4 = 0 → exec (.paramWrite ag off
          v) s = .next (s.afterDev (fun d => d.audWrite off v 0xFFFFFFFF))) ∧
      (∀ (ag : Agent) (v : Word), ag.ok = true → exec (.safeLoad ag v) s = .next (s.afterDev (safeCtrlWrite (fieldWord v 10 1 1)))) ∧
      (∀ (ag : Agent) (input : Bool) (port : Nat) (v : Word), ag.ok = true → (port < if input then 8 else 24) → exec (.tdmPortCfgWrite ag
          input port v) s = .next (s.afterDev (tdmCfgWrite (if input then Reg.AUD_TI_CFG port else Reg.AUD_TO_CFG port) v))) ∧
      (∀ (c : Nat), c < 4 → exec (.loadDataReturn c) s = .next (s.afterRun (Machine.loadDataReturn c))) ∧
      (∀ (c : Nat), c < 4 → exec (.loadTimeout c) s = .next (s.afterRun (Machine.loadTimeout c))) ∧
      (∀ (c : Nat), c < 4 → exec (.postedStoreComplete c) s = .next (s.afterRun (Machine.postedStoreComplete c))) ∧
      (∀ (c : Nat), c < 4 → exec (.interruptTake c) s = .next (s.afterRun (Machine.interruptTake c))) ∧
      (∀ (c : Nat), c < 4 → exec (.idleWake c) s = .next (s.afterDev (Machine.idleWake c))) ∧
      (∀ (ag : Agent) (c : Nat) (v : Word), ag.ok = true → c < 4 → exec (.wdtKick ag c v) s = .next (s.afterDev (fun d => if c = 3 ∧ ag ≠
          .core 3 then d else if v = 0xC0DE then d.wdtReload c false else d.sb (Reg.KC_STAT c) 8))) ∧
      (∀ (c : Nat), c < 4 → exec (.wdtExpiry c) s = .next (s.afterDev (wdtEvent c))) ∧
      (∀ (ag : Agent) (c : Nat) (v : Word), ag.ok = true → c < 4 → exec (.coreRestart ag c v) s = .next (s.afterDev (coreRestart ag c
          v))) ∧
      (∀ (c : Nat), c < 4 → exec (.coreRestartComplete c) s = .next (s.afterRun (restartEvent c))) ∧
      (∀ (c : Nat) (g : Nat), c < 4 → g < 32 → exec (.moderationRelease c g) s = .next (s.afterDev (moderationEvent c g))) ∧
      (∀ (v : Nat), v < 512 → exec (.msixSend v) s = .next (s.afterRun (Machine.msixSend v))) ∧
      (∀ (ag : Agent) (v : Word), ag.ok = true → exec (.intSwRaise ag v) s = .next (s.afterDev (intSwRaise v))) ∧
      (∀ (c : Nat), c < 16 → exec (.cmpFire c) s = .next (s.afterDev (cmpFireEvent c)))

/-- The DMA channels, the blitters, words in error, the bank events, the window and the endpoint; the pins, their filters and groups, and
the PIO engines. Each command completes, with the operation that its rule gives as its whole effect: every other part of the state, the
queue and, where the operation works on the device alone, every memory stay as they are. -/
def Obligations.TransferAndPinCommandsComplete : Prop :=
  ∀ s : State,
    (s.d.coreUp = true →
      (∀ (ag : Agent) (ch : Nat) (data : List Byte), ag.ok = true → ch < 32 → exec (.dmaAbort ag ch data) s = .next (s.afterRun
          (dmaAbortBy ag ch data))) ∧
      (∀ (ch : Nat) (data : List Byte), ch < 32 → exec (.dmaComplete ch data) s = .next (s.afterRun (dmaEvent ch data))) ∧
      (∀ (ag : Agent) (e : Nat), ag.ok = true → e < 4 → exec (.bltStart ag e) s = .next (s.afterDev (fun d => if ownerIs ag (d.bltOwner
          e) = true then (if d.bltBusy e = true then d.sb Reg.BLT_STAT 2 else d.bltStart e) else d.sb Reg.BLT_STAT 1))) ∧
      (∀ (ag : Agent) (e : Nat), ag.ok = true → e < 4 → exec (.bltAbort ag e) s = .next (s.afterRun (fun w => if ownerIs ag (w.d.bltOwner
          e) = true then bltAbort e w else w.dev (fun d => d.sb Reg.BLT_STAT 1)))) ∧
      (∀ (e : Nat), e < 4 → exec (.bltWatermark e) s = .next (s.afterRun (bltWmEvent e))) ∧
      (∀ (e : Nat), e < 4 → exec (.bltComplete e) s = .next (s.afterRun (bltEndEvent e))) ∧
      (∀ (place : UeAt) (addr : Nat) (who : Reader), exec (.uncorrectableRead place addr who) s = .next (s.afterRun
          (Machine.uncorrectableRead place addr who))) ∧
      (∀ (place : UeAt) (addr : Nat), exec (.correctableRead place addr) s = .next (s.afterDev (Machine.correctableRead place addr))) ∧
      (∀ (ag : Agent) (b : Nat), ag.ok = true → b < 96 → exec (.bankRetain ag b) s = .next (s.afterDev (fun d => if 86 ≤ b ∧ b ≤ 93 then
          (if d.bankState b = 0 then (d.sb (Reg.MEM_BANK_CTRL b) 0).retainBank b else d) else (d.sb Reg.MEM_STAT
          3).raiseIf (d.bt Reg.MEM_INT_EN 6) 370))) ∧
      (∀ (ag : Agent) (b : Nat), ag.ok = true → b < 96 → exec (.bankWake ag b) s = .next (s.afterDev (fun d => if d.bankState b = 0 then
          d.cb (Reg.MEM_BANK_CTRL b) 0 else if d.bankState b = 1 then
          { (d.sf (Reg.MEM_BANK_CTRL b) 1 2 2) with wakeAt := Tab.put 0 d.wakeAt b (d.tb + 1) } else d))) ∧
      (∀ (b : Nat), b < 96 → exec (.bankWakeDone b) s = .next (s.afterRun (bankWakeEvent b))) ∧
      (∀ (write : Bool) (off : Nat) (data : List Byte) (n : Nat), off < 0x2000000 → exec (.pagedWindowAccess write off data n) s = .next
          (s.afterRun (fun w => if write then (w.winReady .host (0x2000000 + off) data.length).bar0Write .host (0x2000000 + off) data
            else (w.winReady .host (0x2000000 + off) n).bar0Read .host (0x2000000 + off) n))) ∧
      exec .bar2Flush s = .next (s.afterDev (fun d => { d with rdata := 0 })) ∧
      (∀ (kind : Nat) (ident : Nat) (status : Nat), exec (.pcieRequestFail kind ident status) s = .next (s.afterRun
          (Machine.pcieRequestFail kind ident status))) ∧
      exec .linkDown s = .next (s.afterRun Machine.linkDown) ∧
      exec .functionLevelReset s = .next (s.afterRun Machine.functionLevelReset) ∧
      (∀ (speed : Nat) (width : Nat), exec (.linkUp speed width) s = .next (s.afterDev (fun d => (((d.sb Reg.MEM_PCIE_STAT 0).sf
          Reg.MEM_PCIE_STAT 1 3 speed).sf Reg.MEM_PCIE_STAT 4 5 width).raiseIf (d.bt Reg.MEM_INT_EN 9) 373))) ∧
      (∀ (ch : Nat) (code : Nat), ch < 8 → code < 8 → exec (.mr4Report ch code) s = .next (s.afterDev (fun d => (d.sf (Reg.MEM_CH_STAT
          ch) 1 3 code).raiseIf (d.bt Reg.MEM_INT_EN 4) 368))) ∧
      (∀ (ch : Nat) (refresh : Bool), ch < 8 → exec (.channelFence ch refresh) s = .next (s.afterDev (Machine.channelFence ch refresh))) ∧
      (∀ (ag : Agent) (v : Word), ag.ok = true → exec (.avFenceCmd ag v) s = .next (s.afterDev (fenceCmd ag v))) ∧
      (∀ (msix : Bool), exec (.busMasterEnable msix) s = .next (s.afterRun (Machine.busMasterEnable msix))) ∧
      (∀ (uncorrectable : Bool), exec (.aerError uncorrectable) s = .next (s.afterDev (fun d => if uncorrectable = true then
          ({ d with pcie.aer := d.pcie.aer ++ [true] } : Dev).raiseIf (d.bt Reg.MEM_INT_EN 11) 375
        else ({ d with pcie.aer := d.pcie.aer ++ [false] } : Dev).raiseIf (d.bt Reg.MEM_INT_EN 10) 374)))) ∧
    (s.d.coreUp = true →
      (∀ (g : Nat), g < 16 → exec (.glitchFilterSettle g) s = .next (s.afterDev (glitchEvent g))) ∧
      (∀ (g : Nat), g < 16 → exec (.debounceSettle g) s = .next (s.afterDev (debounceEvent g))) ∧
      (∀ (ag : Agent) (g : Nat) (isMatch : Bool) (v : Word), ag.ok = true → g < 16 → exec (.grpCfgWrite ag g isMatch v) s = .next
          (s.afterDev (grpWrite ag g (if isMatch then Reg.GP_GRP_MATCH g else Reg.GP_GRP_CFG g) v 0xFFFFFFFF))) ∧
      (∀ (e : Nat), e < 8 → exec (.pioTick e) s = .next (s.afterDev (pioTickEvent e))) ∧
      (∀ (e : Nat), e < 8 → exec (.pioGo e) s = .next (s.afterDev (pioOpEvent 0 e))) ∧
      (∀ (e : Nat), e < 8 → exec (.pioAwait e) s = .next (s.afterDev (pioOpEvent 1 e))) ∧
      (∀ (e : Nat), e < 8 → exec (.pioShin e) s = .next (s.afterDev (pioOpEvent 2 e))) ∧
      (∀ (e : Nat), e < 8 → exec (.pioShout e) s = .next (s.afterDev (pioOpEvent 3 e))) ∧
      (∀ (e : Nat), e < 8 → exec (.pioDrive e) s = .next (s.afterDev (pioOpEvent 4 e))) ∧
      (∀ (e : Nat), e < 8 → exec (.pioLoad e) s = .next (s.afterDev (pioOpEvent 5 e))) ∧
      (∀ (e : Nat), e < 8 → exec (.pioStore e) s = .next (s.afterDev (pioOpEvent 6 e))) ∧
      (∀ (e : Nat), e < 8 → exec (.pioLdi e) s = .next (s.afterDev (pioOpEvent 7 e))) ∧
      (∀ (e : Nat), e < 8 → exec (.pioXfer e) s = .next (s.afterDev (pioOpEvent 8 e))) ∧
      (∀ (e : Nat), e < 8 → exec (.pioSignal e) s = .next (s.afterDev (pioOpEvent 9 e))) ∧
      (∀ (ag : Agent) (m : Nat), ag.ok = true → m < 256 → exec (.pioStart ag m) s = .next (s.afterDev (pioSync ag (BitVec.ofNat 32 m)))) ∧
      (∀ (ag : Agent) (m : Nat), ag.ok = true → m < 256 → exec (.pioStop ag m) s = .next (s.afterDev (pioSync ag (BitVec.ofNat 32 (m * 2
          ^ 8))))) ∧
      (∀ (ag : Agent) (m : Nat), ag.ok = true → m < 256 → exec (.pioClkrst ag m) s = .next (s.afterDev (pioSync ag (BitVec.ofNat 32 (m *
          2 ^ 16))))) ∧
      (∀ (ag : Agent) (e : Nat) (v : Word), ag.ok = true → e < 8 → exec (.contextEnable ag e v) s = .next (s.afterDev (fun d => if
          d.ownsEng ag e = true then ctxEnable e v d else d.pioOwnErr))) ∧
      (∀ (ag : Agent) (e : Nat) (c : Nat) (v : Word), ag.ok = true → e < 8 → c < 16 → exec (.pioTxfWrite ag e c v) s = .next (s.afterDev
          (fun d => if d.ownsEng ag e = true then txfWrite e c v d else d.pioOwnErr))) ∧
      (∀ (ag : Agent) (e : Nat) (c : Nat), ag.ok = true → e < 8 → c < 16 → exec (.pioRxfRead ag e c) s = .next (s.afterDev (rxfRead e
          c))) ∧
      (∀ (ag : Agent) (e : Nat) (a : Nat) (v : Word), ag.ok = true → e < 8 → a < 1024 → exec (.pioImWrite ag e a v) s = .next (s.afterDev
          (pioImWrite ag e a v 0xFFFFFFFF))))

/-- R499 to R547: long operations, clock points, updates and the secure block. Each command completes, with the operation that its rule
gives as its whole effect: every other part of the state, the queue and, where the operation works on the device alone, every memory stay as
they are. -/
def Obligations.SystemCommandsComplete : Prop :=
  ∀ s : State,
    (∀ (mon : Nat) (on : Bool), mon < 6 → exec (.tamperEvent mon on) s = .next (s.afterDev (Machine.tamperEvent mon on))) ∧
    (s.d.coreUp = true →
      (∀ (ag : Agent) (sl : Nat) (op : Nat) (int : Bool), ag.ok = true → sl < 64 → op < 16 → exec (.lopStart ag sl op int) s = .next
          (s.afterRun (Machine.lopStart ag sl op int))) ∧
      (∀ (ag : Agent) (sl : Nat), ag.ok = true → sl < 64 → exec (.lopSuspend ag sl) s = .next (s.afterRun (Machine.lopSuspend ag sl))) ∧
      (∀ (ag : Agent) (sl : Nat), ag.ok = true → sl < 64 → exec (.lopResume ag sl) s = .next (s.afterRun (Machine.lopResume ag sl))) ∧
      (∀ (ag : Agent) (sl : Nat), ag.ok = true → sl < 64 → exec (.lopCancel ag sl) s = .next (s.afterRun (Machine.lopCancel ag sl))) ∧
      (∀ (sl : Nat), sl < 64 → exec (.lopStatus sl) s = .next (s.afterDev (fun d => (d.sg (Reg.SYS_LOP_SNAP_STAT sl) (d.rg
          (Reg.SYS_LOP_STAT sl))).sg (Reg.SYS_LOP_SNAP_PROG sl) (d.rg (Reg.SYS_LOP_PROG sl))))) ∧
      (∀ (sl : Nat) (n : Nat), sl < 64 → exec (.lopSuspendPoint sl n) s = .next (s.afterRun (lopSuspendEvent sl n))) ∧
      (∀ (sl : Nat) (fail : Option Nat), sl < 64 → exec (.lopComplete sl fail) s = .next (s.afterRun (lopCompleteEvent sl fail))) ∧
      (∀ (sl : Nat), sl < 64 → exec (.structCheckDone sl) s = .next (s.afterRun (Machine.structCheckDone sl))) ∧
      (∀ (sl : Nat), sl < 64 → exec (.fullLoadApply sl) s = .next (s.afterRun (Machine.fullLoadApply sl))) ∧
      (∀ (ag : Agent) (v : Word), ag.ok = true → exec (.clkPointRequest ag v) s = .next (s.afterDev (clkPointRequest v 0xFFFFFFFF))) ∧
      exec .clkRelockDone s = .next (s.afterRun Machine.clkRelockDone) ∧
      (∀ (ag : Agent), ag.ok = true → exec (.arm ag) s = .next (s.afterRun (Machine.arm ag))) ∧
      exec .armingDone s = .next (s.afterRun Machine.armingDone) ∧
      (∀ (ag : Agent), ag.ok = true → exec (.disarm ag) s = .next (s.afterRun (Machine.disarm ag))) ∧
      (∀ (ag : Agent), ag.ok = true → exec (.cold ag) s = .next (s.afterRun (Machine.cold ag))) ∧
      (∀ (ag : Agent) (hi : Word), ag.ok = true → exec (.confirmToken ag hi) s = .next (s.afterRun (Machine.confirmToken ag hi))) ∧
      exec .trialWindowEnd s = .next (s.afterRun Machine.trialWindowEnd) ∧
      exec .controlRecordWritten s = .next (s.afterRun recordWritten) ∧
      (∀ (ag : Agent) (v : Word), ag.ok = true → exec (.lifecycleChange ag v) s = .next (s.afterRun (fun w => if ag = .core 3 then
          Machine.lifecycleChange v w else w))) ∧
      (∀ (ag : Agent) (slot : Nat), ag.ok = true → slot < 4 → exec (.keyProgram ag slot) s = .next (s.afterRun (fun w => if ag = .core 3
          then Machine.keyProgram slot w else w))) ∧
      (∀ (ag : Agent) (slot : Nat), ag.ok = true → slot < 4 → exec (.keySetDev ag slot) s = .next (s.afterRun (fun w => if ag = .core 3
          then Machine.keySetDev slot w else w))) ∧
      (∀ (ag : Agent) (slot : Nat), ag.ok = true → slot < 4 → exec (.keyRevoke ag slot) s = .next (s.afterRun (fun w => if ag = .core 3
          then Machine.keyRevoke slot w else w))) ∧
      (∀ (ag : Agent) (v : Word), ag.ok = true → exec (.imageKeyProgram ag v) s = .next (s.afterRun (fun w => if ag = .core 3 then
          Machine.imageKeyProgram v w else w))) ∧
      (∀ (ag : Agent) (v : Word), ag.ok = true → exec (.wipe ag v) s = .next (s.afterDev (fun d => if ag = .core 3 then wipeCmd v d else
          d))) ∧
      exec .wipeDone s = .next (s.afterRun wipeDoneEvent) ∧
      (∀ (ag : Agent), ag.ok = true → exec (.tamperLock ag) s = .next (s.afterRun (fun w => if ag = .core 3 then tamperCfgWrite
          (fieldWord (w.d.rg Reg.SEC_TAMPER_CFG) 8 1 1) 0xFFFFFFFF w else w))) ∧
      (∀ (ag : Agent) (v : Word), ag.ok = true → exec (.verifyGo ag v) s = .next (s.afterDev (fun d => if ag = .core 3 then
          Machine.verifyGo v d else d))) ∧
      exec .verifyDone s = .next (s.afterRun verifyEvent) ∧
      (∀ (ag : Agent) (v : Word), ag.ok = true → exec (.rngRequest ag v) s = .next (s.afterDev (fun d => if ag = .core 3 then
          Machine.rngRequest v d else d))) ∧
      exec .rngBlock s = .next (s.afterRun rngBlockEvent) ∧
      (∀ (apt : Bool), exec (.rngHealthFail apt) s = .next (s.afterRun (Machine.rngHealthFail apt))) ∧
      (∀ (ag : Agent) (v : Word), ag.ok = true → exec (.rngRestart ag v) s = .next (s.afterDev (fun d => if ag = .core 3 then
          Machine.rngRestart v d else d))) ∧
      (∀ (fail : Option Bool), exec (.rngStartupDone fail) s = .next (s.afterRun (rngStartupEvent fail))))

/-- R548 to R590: patrol, repair, Fantail, shedding, the log, the test access port and run control. Each command completes, with the
operation that its rule gives as its whole effect: every other part of the state, the queue and, where the operation works on the device
alone, every memory stay as they are. -/
def Obligations.AvailabilityAndDebugCommandsComplete : Prop :=
  ∀ s : State,
    s.d.coreUp = true →
      exec .patrolScrubRead s = .next (s.afterDev patrolEvent) ∧
      (∀ (ag : Agent) (v : Word), ag.ok = true → exec (.rowRepair ag v) s = .next (s.afterDev (repCmdWrite v 0xFFFFFFFF))) ∧
      (∀ (b : Nat) (r : Nat), b < 96 → r < 2048 → exec (.rowSwitch b r) s = .next (s.afterDev (rowSwitchEvent b r))) ∧
      (∀ (sl : Nat) (fail : Option Nat), sl < 52 → exec (.selfTestDone sl fail) s = .next (s.afterDev (selfTestEvent sl fail))) ∧
      (∀ (ag : Agent) (sl : Nat), ag.ok = true → sl < 52 → exec (.ftCheck ag sl) s = .next (s.afterDev (Machine.ftCheck sl))) ∧
      (∀ (ag : Agent) (sl : Nat), ag.ok = true → sl < 52 → exec (.ftRemapCmd ag sl) s = .next (s.afterDev (ftRemap sl))) ∧
      (∀ (ag : Agent) (sl : Nat), ag.ok = true → sl < 52 → exec (.ftReturn ag sl) s = .next (s.afterDev (Machine.ftReturn sl))) ∧
      (∀ (ag : Agent) (n : Nat), ag.ok = true → n < 48 → exec (.avOutResume ag n) s = .next (s.afterDev (avOutResume n))) ∧
      (∀ (ag : Agent) (n : Nat), ag.ok = true → n < 48 → exec (.avOutShed ag n) s = .next (s.afterDev (avOutShed n))) ∧
      (∀ (ag : Agent), ag.ok = true → exec (.logPop ag) s = .next (s.afterDev (fun d => { d with avlog := d.avlog.drop 1 }))) ∧
      exec .tapReset s = .next (s.afterDev Machine.tapReset) ∧
      (∀ (cells : List (Nat × Bool × Bool)), exec (.extest cells) s = .next (s.afterDev (Machine.extest cells))) ∧
      (∀ (cells : List (Nat × Bool × Bool)), exec (.samplePreload cells) s = .next (s.afterDev (Machine.samplePreload cells))) ∧
      exec .idcode s = .next (s.afterDev (fun d => { d with dbg := { d.dbg with ir := 0x02, dr := 0x1485295B } })) ∧
      exec .clamp s = .next (s.afterDev (fun d => { d with dbg := { d.dbg with ir := 0x03, dr := 0 } })) ∧
      exec .highz s = .next (s.afterDev (fun d => { d with dbg := { d.dbg with ir := 0x04, dr := 0 } })) ∧
      exec .bypass s = .next (s.afterDev (fun d => { d with dbg := { d.dbg with ir := 0x1F, dr := 0 } })) ∧
      (∀ (go : Bool) (write : Bool) (ix : Nat) (v : Word), ix < 1024 → exec (.dbgAcc go write ix v) s = .next (s.afterDev (Machine.dbgAcc
          go write ix v))) ∧
      exec .dbgMemAccess s = .next (s.afterRun Machine.dbgMemAccess) ∧
      exec .dbgAccessTimeout s = .next (s.afterDev dbgTimeout) ∧
      (∀ (v : Word), exec (.dbgAttachWrite v) s = .next (s.afterDev (Machine.dbgAttachWrite v))) ∧
      exec .rcHalt s = .next (s.afterDev (fun d => if d.rcSel = 3 then d.sb Reg.DBG_MEM_STAT 0 else d.rcHalt d.rcSel)) ∧
      exec .rcRun s = .next (s.afterDev (fun d => if d.rcSel = 3 then d.sb Reg.DBG_MEM_STAT 0 else d.rcRun d.rcSel)) ∧
      exec .rcStep s = .next (s.afterDev (fun d => if d.rcSel = 3 then d.sb Reg.DBG_MEM_STAT 0 else d.rcStep d.rcSel)) ∧
      (∀ (c : Nat), c < 4 → exec (.breakpointHit c) s = .next (s.afterDev (Machine.breakpointHit c))) ∧
      (∀ (isPc : Bool) (v : Word), exec (.rcGdataWrite isPc v) s = .next (s.afterDev (if isPc then rcPcWrite v else rcDataWrite v)))
end

