-- ==== Sys2Proof/Laws/Tab.lean ====
section
/-!
SUPPORT. Laws of the sparse tables: reading after writing, and the canonical form, which every write keeps.
-/

namespace Sys2Proof

variable {α : Type} [DecidableEq α] {d : Nat → α} {t : Tab α} {lo : Option Nat} {k j : Nat} {v : α}

omit [DecidableEq α] in
@[simp] theorem Tab.get_nil : Tab.get d ([] : Tab α) k = d k := rfl

omit [DecidableEq α] in
theorem Tab.get_erase_self : Tab.get d (Tab.erase t k) k = d k := by
  induction t with
  | nil => rfl
  | cons p t ih =>
    obtain ⟨i, w⟩ := p
    by_cases h : i = k
    · subst h; simpa [Tab.erase] using ih
    · simpa [Tab.erase, h, Tab.get] using ih

omit [DecidableEq α] in
theorem Tab.get_erase_of_ne (h : j ≠ k) : Tab.get d (Tab.erase t k) j = Tab.get d t j := by
  induction t with
  | nil => rfl
  | cons p t ih =>
    obtain ⟨i, w⟩ := p
    by_cases hi : i = k
    · subst hi; simpa [Tab.erase, Tab.get, Ne.symm h] using ih
    · by_cases hj : i = j
      · simp [Tab.erase, Tab.get, hj, h]
      · simpa [Tab.erase, hi, Tab.get, hj] using ih

omit [DecidableEq α] in
theorem Tab.get_insert (h : ∀ p ∈ t, p.1 ≠ k) : Tab.get d (Tab.insert t k v) j = if k = j then v else Tab.get d t j := by
  induction t with
  | nil => rfl
  | cons p t ih =>
    obtain ⟨i, w⟩ := p
    have hi : i ≠ k := h (i, w) (by simp)
    have ht := ih (fun p hp => h p (by simp [hp]))
    by_cases hl : k < i
    · simp [Tab.insert, hl, Tab.get]
    · simp only [Tab.insert, hl, if_false, Tab.get, ht]
      by_cases hij : i = j
      · subst hij; simp [Ne.symm hi]
      · simp [hij]

omit [DecidableEq α] in
theorem Tab.erase_ne : ∀ p ∈ Tab.erase t k, p.1 ≠ k := by
  intro p hp
  simpa using (List.mem_filter.mp hp).2

/-- Reading after a write: the value written at its key, every other key as before. -/
@[simp] theorem Tab.get_set : Tab.get d (Tab.set d t k v) j = if k = j then v else Tab.get d t j := by
  unfold Tab.set
  split
  · rename_i h
    by_cases hj : k = j
    · subst hj; simp [h, Tab.get_erase_self]
    · rw [if_neg hj, Tab.get_erase_of_ne (Ne.symm hj)]
  · rw [Tab.get_insert Tab.erase_ne]
    split
    · rfl
    · rename_i hj; exact Tab.get_erase_of_ne (Ne.symm hj)

theorem Tab.get_put (x : α) : Tab.at x (Tab.put x t k v) j = if k = j then v else Tab.at x t j := Tab.get_set

theorem Tab.get_modify {f : α → α} : Tab.get d (Tab.modify d t k f) j = if k = j then f (Tab.get d t k) else Tab.get d t j := Tab.get_set

/-! ### The canonical form -/

theorem Tab.wfFrom_weaken (h : Tab.wfFrom d (some k) t = true) (hl : ∀ l, lo = some l → l < k ∨ l = k) : Tab.wfFrom d lo t = true := by
  cases t with
  | nil => rfl
  | cons p t =>
    obtain ⟨i, w⟩ := p
    simp only [Tab.wfFrom, Bool.and_eq_true, decide_eq_true_eq] at h ⊢
    obtain ⟨⟨hk, hv⟩, ht⟩ := h
    refine ⟨⟨?_, hv⟩, ht⟩
    cases lo with
    | none => rfl
    | some l => simp only [decide_eq_true_eq]; rcases hl l rfl with h | h <;> omega

theorem Tab.wfFrom_filter (p : Nat × α → Bool) (h : Tab.wfFrom d lo t = true) : Tab.wfFrom d lo (t.filter p) = true := by
  induction t generalizing lo with
  | nil => rfl
  | cons q t ih =>
    obtain ⟨i, w⟩ := q
    have h' := h
    simp only [Tab.wfFrom, Bool.and_eq_true] at h
    by_cases hp : p (i, w) = true
    · simp only [List.filter_cons, hp, if_true, Tab.wfFrom, Bool.and_eq_true]
      exact ⟨h.1, ih h.2⟩
    · simp only [List.filter_cons, hp, Bool.false_eq_true, if_false]
      refine ih (Tab.wfFrom_weaken h.2 ?_)
      intro l hl
      subst hl
      simp only [decide_eq_true_eq] at h
      exact Or.inl h.1.1

theorem Tab.wfFrom_insert (hv : v ≠ d k) (hlo : ∀ l, lo = some l → l < k) (hne : ∀ p ∈ t, p.1 ≠ k) (h : Tab.wfFrom d lo t = true) :
    Tab.wfFrom d lo (Tab.insert t k v) = true := by
  induction t generalizing lo with
  | nil =>
    cases lo with
    | none => simp [Tab.insert, Tab.wfFrom, hv]
    | some l => simp [Tab.insert, Tab.wfFrom, hv, hlo l rfl]
  | cons q t ih =>
    obtain ⟨i, w⟩ := q
    have hi : i ≠ k := hne (i, w) (by simp)
    simp only [Tab.wfFrom, Bool.and_eq_true, decide_eq_true_eq] at h
    by_cases hk : k < i
    · simp only [Tab.insert, hk, if_true, Tab.wfFrom, Bool.and_eq_true, decide_eq_true_eq]
      refine ⟨⟨?_, hv⟩, ⟨trivial, h.1.2⟩, h.2⟩
      cases lo with
      | none => rfl
      | some l => simp [hlo l rfl]
    · simp only [Tab.insert, hk, if_false, Tab.wfFrom, Bool.and_eq_true, decide_eq_true_eq]
      refine ⟨h.1, ih ?_ (fun p hp => hne p (by simp [hp])) h.2⟩
      intro l hl
      cases hl
      omega

/-- A write keeps the canonical form. -/
theorem Tab.wf_set (h : Tab.wf d t = true) : Tab.wf d (Tab.set d t k v) = true := by
  unfold Tab.set Tab.erase
  split
  · exact Tab.wfFrom_filter _ h
  · rename_i hv
    exact Tab.wfFrom_insert hv (by intro l hl; cases hl) Tab.erase_ne (Tab.wfFrom_filter _ h)

end Sys2Proof
end

