-- ==== Sys2Proof/Laws/Memory.lean ====
section
/-!
SUPPORT. Laws of the memories: what a byte write changes, and the canonical form, which every operation of `Memory.lean` keeps.
-/

namespace Sys2Proof.Machine

variable {m : Mem} {x : MWr} {ws : List MWr} {sp : MemSp} {a : Nat}

@[simp] theorem Mem.cells_setCells_self {l : List Host.Cell} : (m.setCells sp l).cells sp = l := by cases sp <;> rfl

theorem Mem.cells_setCells_of_ne {sp' : MemSp} {l : List Host.Cell} (h : sp' ≠ sp) : (m.setCells sp l).cells sp' = m.cells sp' := by
  cases sp <;> cases sp' <;> first | rfl | exact absurd rfl h

/-- One byte after a byte write. -/
theorem Mem.read_write : (m.write x).read sp a = if x.sp = sp ∧ x.addr = a then x.val else m.read sp a := by
  unfold Mem.write Mem.read
  by_cases h : x.sp = sp
  · subst h; simp
  · simp [h, Mem.cells_setCells_of_ne (Ne.symm h)]

/-- A byte that no write of the list names keeps its value. -/
theorem Mem.read_apply_of_not_mem (h : ∀ x ∈ ws, ¬(x.sp = sp ∧ x.addr = a)) : (m.apply ws).read sp a = m.read sp a := by
  induction ws generalizing m with
  | nil => rfl
  | cons x ws ih =>
    have := ih (m := m.write x) (fun y hy => h y (by simp [hy]))
    rw [Mem.apply, List.foldl_cons, ← Mem.apply, this, Mem.read_write, if_neg (h x (by simp))]

theorem Mem.wf_iff : m.wf = true ↔ ∀ sp, Tab.wf (Mem.dflt sp) (m.cells sp) = true := by
  constructor
  · intro h sp
    simp only [Mem.wf, Bool.and_eq_true] at h
    obtain ⟨⟨⟨⟨⟨h1, h2⟩, h3⟩, h4⟩, h5⟩, h6⟩ := h
    cases sp <;> assumption
  · intro h
    simp only [Mem.wf, Bool.and_eq_true]
    exact ⟨⟨⟨⟨⟨h .sram, h .lpddr⟩, h .host⟩, h .tcm⟩, h .flash⟩, h .otp⟩

theorem Mem.wf_write (h : m.wf = true) : (m.write x).wf = true := by
  rw [Mem.wf_iff] at h ⊢
  intro sp
  by_cases hs : sp = x.sp
  · subst hs; rw [Mem.write, Mem.cells_setCells_self]; exact Tab.wf_set (h _)
  · rw [Mem.write, Mem.cells_setCells_of_ne hs]; exact h _

theorem Mem.wf_apply (h : m.wf = true) : (m.apply ws).wf = true := by
  induction ws generalizing m with
  | nil => exact h
  | cons x ws ih => exact ih (Mem.wf_write h)

theorem Mem.wf_zeroBanks {l : List Nat} (h : m.wf = true) : (m.zeroBanks l).wf = true := by
  rw [Mem.wf_iff] at h ⊢
  intro sp
  cases sp
  case sram => exact Tab.wfFrom_filter _ (h .sram)
  all_goals first | exact h .lpddr | exact h .host | exact h .tcm | exact h .flash | exact h .otp

theorem Mem.zeroBanks_nil : m.zeroBanks [] = m := by
  obtain ⟨l, _, _, _, _, _⟩ := m
  show Mem.mk (l.filter (fun _ => true)) .. = _
  rw [List.filter_eq_self.mpr (fun _ _ => rfl)]

end Sys2Proof.Machine
end

