-- ==== Sys2Proof/Laws/PerInstr.lean ====
section
/-!
SUPPORT. Statements about every command as syntax, one lemma for each constructor.
-/

namespace Sys2Proof.Laws.NoWord

/-- No word of the opcode table spells the command: the commands of this part are register accesses, link events and points in time, and
none of the table's rows gives bits. -/
def Statement (i : Instr) : Prop := ∀ nbits w : Nat, decodeTableWord nbits w ≠ some i

theorem of_none {i : Instr} : Statement i := fun _ _ h => nomatch h

theorem registerWrite a0 a1 a2 : Statement (.registerWrite a0 a1 a2) := of_none
theorem rcRead a0 a1 a2 : Statement (.rcRead a0 a1 a2) := of_none
theorem shadowLoRead a0 a1 : Statement (.shadowLoRead a0 a1) := of_none
theorem levelToExpert a0 a1 a2 : Statement (.levelToExpert a0 a1 a2) := of_none
theorem levelToBasic a0 a1 a2 : Statement (.levelToBasic a0 a1 a2) := of_none
theorem profileWrite a0 a1 a2 : Statement (.profileWrite a0 a1 a2) := of_none
theorem profileStoreExpert a0 a1 a2 : Statement (.profileStoreExpert a0 a1 a2) := of_none
theorem expertRegisterWrite a0 a1 a2 : Statement (.expertRegisterWrite a0 a1 a2) := of_none
theorem porAssert : Statement .porAssert := of_none
theorem porRelease a0 : Statement (.porRelease a0) := of_none
theorem coreRstAssert : Statement .coreRstAssert := of_none
theorem coreRstRelease : Statement .coreRstRelease := of_none
theorem lpTrained : Statement .lpTrained := of_none
theorem hostSet a0 a1 : Statement (.hostSet a0 a1) := of_none
theorem sysCoreStart a0 a1 : Statement (.sysCoreStart a0 a1) := of_none
theorem softReset a0 a1 : Statement (.softReset a0 a1) := of_none
theorem corePowerOff : Statement .corePowerOff := of_none
theorem vddSramLoss : Statement .vddSramLoss := of_none
theorem vddAonLoss : Statement .vddAonLoss := of_none
theorem tickIssue : Statement .tickIssue := of_none
theorem tickInEdge : Statement .tickInEdge := of_none
theorem tickWindowClose : Statement .tickWindowClose := of_none
theorem tickSrcSelect a0 a1 : Statement (.tickSrcSelect a0 a1) := of_none
theorem tickRateSubmit a0 a1 : Statement (.tickRateSubmit a0 a1) := of_none
theorem tickProfileWrite a0 a1 : Statement (.tickProfileWrite a0 a1) := of_none
theorem tgEnable a0 a1 a2 : Statement (.tgEnable a0 a1 a2) := of_none
theorem tgDisable a0 a1 : Statement (.tgDisable a0 a1) := of_none
theorem tgTimingWrite a0 a1 a2 a3 : Statement (.tgTimingWrite a0 a1 a2 a3) := of_none
theorem pclkPllLock a0 : Statement (.pclkPllLock a0) := of_none
theorem tgLineBegin a0 a1 : Statement (.tgLineBegin a0 a1) := of_none
theorem glideLock a0 : Statement (.glideLock a0) := of_none
theorem frameStart a0 : Statement (.frameStart a0) := of_none
theorem commitDecision : Statement .commitDecision := of_none
theorem flipEnd : Statement .flipEnd := of_none
theorem bolterBuildComplete : Statement .bolterBuildComplete := of_none
theorem takeUpEdge a0 : Statement (.takeUpEdge a0) := of_none
theorem lineBuildStart a0 a1 : Statement (.lineBuildStart a0 a1) := of_none
theorem objectBuildBegin a0 : Statement (.objectBuildBegin a0) := of_none
theorem objectBuildEnd a0 : Statement (.objectBuildEnd a0) := of_none
theorem lineDuePoint a0 a1 : Statement (.lineDuePoint a0 a1) := of_none
theorem cacheFill a0 : Statement (.cacheFill a0) := of_none
theorem videoRowArrival a0 a1 : Statement (.videoRowArrival a0 a1) := of_none
theorem mixGroup a0 a1 a2 : Statement (.mixGroup a0 a1 a2) := of_none
theorem objPeek a0 a1 : Statement (.objPeek a0 a1) := of_none
theorem objGpeek a0 a1 : Statement (.objGpeek a0 a1) := of_none
theorem frameValueWrite a0 a1 a2 : Statement (.frameValueWrite a0 a1 a2) := of_none
theorem cacheInvalidate a0 : Statement (.cacheInvalidate a0) := of_none
theorem invalidateDone : Statement .invalidateDone := of_none
theorem stagedWrite a0 a1 a2 a3 : Statement (.stagedWrite a0 a1 a2 a3) := of_none
theorem slLcommit a0 a1 a2 : Statement (.slLcommit a0 a1 a2) := of_none
theorem slLenSet a0 a1 a2 a3 : Statement (.slLenSet a0 a1 a2 a3) := of_none
theorem slLenClr a0 a1 a2 a3 : Statement (.slLenClr a0 a1 a2 a3) := of_none
theorem slLrouteWrite a0 a1 a2 a3 : Statement (.slLrouteWrite a0 a1 a2 a3) := of_none
theorem tableWindowWrite a0 a1 a2 a3 : Statement (.tableWindowWrite a0 a1 a2 a3) := of_none
theorem tableCopy a0 a1 : Statement (.tableCopy a0 a1) := of_none
theorem tableCopyDone a0 : Statement (.tableCopyDone a0) := of_none
theorem mxFmtWrite a0 a1 a2 : Statement (.mxFmtWrite a0 a1 a2) := of_none
theorem dmStop a0 : Statement (.dmStop a0) := of_none
theorem dmWait a0 : Statement (.dmWait a0) := of_none
theorem dmPointReached a0 : Statement (.dmPointReached a0) := of_none
theorem dmWaitEv a0 : Statement (.dmWaitEv a0) := of_none
theorem dmWaitEvComplete a0 : Statement (.dmWaitEvComplete a0) := of_none
theorem dmWrite a0 : Statement (.dmWrite a0) := of_none
theorem dmWriteM a0 : Statement (.dmWriteM a0) := of_none
theorem dmSkipIf a0 : Statement (.dmSkipIf a0) := of_none
theorem dmJump a0 : Statement (.dmJump a0) := of_none
theorem dmLoop a0 : Statement (.dmLoop a0) := of_none
theorem dmEvTrig a0 a1 a2 : Statement (.dmEvTrig a0 a1 a2) := of_none
theorem dmEvSelWrite a0 a1 a2 a3 : Statement (.dmEvSelWrite a0 a1 a2 a3) := of_none
theorem dmPmWrite a0 a1 a2 a3 : Statement (.dmPmWrite a0 a1 a2 a3) := of_none
theorem tailWrite a0 a1 a2 : Statement (.tailWrite a0 a1 a2) := of_none
theorem ringEnable a0 a1 a2 : Statement (.ringEnable a0 a1 a2) := of_none
theorem ringDisable a0 a1 : Statement (.ringDisable a0 a1) := of_none
theorem descriptorWrite a0 a1 a2 a3 : Statement (.descriptorWrite a0 a1 a2 a3) := of_none
theorem ringService a0 : Statement (.ringService a0) := of_none
theorem hopNop a0 : Statement (.hopNop a0) := of_none
theorem hopObjWrite a0 : Statement (.hopObjWrite a0) := of_none
theorem hopObjPatch a0 : Statement (.hopObjPatch a0) := of_none
theorem hopGroupSet a0 : Statement (.hopGroupSet a0) := of_none
theorem hopTileRun a0 : Statement (.hopTileRun a0) := of_none
theorem hopPalWrite a0 : Statement (.hopPalWrite a0) := of_none
theorem hopPlaneFlip a0 : Statement (.hopPlaneFlip a0) := of_none
theorem hopRegAtTick a0 : Statement (.hopRegAtTick a0) := of_none
theorem hopRegNow a0 : Statement (.hopRegNow a0) := of_none
theorem hopFence a0 : Statement (.hopFence a0) := of_none
theorem fenceRelease a0 : Statement (.fenceRelease a0) := of_none
theorem hopMarker a0 : Statement (.hopMarker a0) := of_none
theorem markerWrite a0 : Statement (.markerWrite a0) := of_none
theorem hopAudCmd a0 : Statement (.hopAudCmd a0) := of_none
theorem trackerCutLatch : Statement .trackerCutLatch := of_none
theorem hopTrkDoneWrite a0 a1 a2 : Statement (.hopTrkDoneWrite a0 a1 a2) := of_none
theorem flRetrain a0 a1 : Statement (.flRetrain a0 a1) := of_none
theorem flCfgWrite a0 a1 a2 a3 : Statement (.flCfgWrite a0 a1 a2 a3) := of_none
theorem trainingComplete a0 : Statement (.trainingComplete a0) := of_none
theorem alignGroup a0 : Statement (.alignGroup a0) := of_none
theorem packetSend a0 : Statement (.packetSend a0) := of_none
theorem idleStatusTimer a0 : Statement (.idleStatusTimer a0) := of_none
theorem auxArm a0 a1 a2 a3 : Statement (.auxArm a0 a1 a2 a3) := of_none
theorem flPllLoss a0 : Statement (.flPllLoss a0) := of_none
theorem flPllRelock a0 : Statement (.flPllRelock a0) := of_none
theorem laneFault a0 a1 : Statement (.laneFault a0 a1) := of_none
theorem ringLinkTrained a0 a1 a2 : Statement (.ringLinkTrained a0 a1 a2) := of_none
theorem ringRecord a0 a1 : Statement (.ringRecord a0 a1) := of_none
theorem ringRecordPair a0 a1 : Statement (.ringRecordPair a0 a1) := of_none
theorem ringTick a0 a1 a2 : Statement (.ringTick a0 a1 a2) := of_none
theorem ringState a0 a1 : Statement (.ringState a0 a1) := of_none
theorem ringProbe a0 a1 a2 : Statement (.ringProbe a0 a1 a2) := of_none
theorem ringEvent a0 a1 : Statement (.ringEvent a0 a1) := of_none
theorem ringInputDead a0 : Statement (.ringInputDead a0) := of_none
theorem ringInputReturn : Statement .ringInputReturn := of_none
theorem frameInject : Statement .frameInject := of_none
theorem depart a0 : Statement (.depart a0) := of_none
theorem probeCmd a0 : Statement (.probeCmd a0) := of_none
theorem probeTimeout : Statement .probeTimeout := of_none
theorem segmentTimeout : Statement .segmentTimeout := of_none
theorem sourceTimeout : Statement .sourceTimeout := of_none
theorem horizonRequest a0 a1 : Statement (.horizonRequest a0 a1) := of_none
theorem mbxSend a0 a1 : Statement (.mbxSend a0 a1) := of_none
theorem mbxPop a0 : Statement (.mbxPop a0) := of_none
theorem sampleTick a0 a1 : Statement (.sampleTick a0 a1) := of_none
theorem graphPhase a0 a1 a2 : Statement (.graphPhase a0 a1 a2) := of_none
theorem keyon a0 a1 : Statement (.keyon a0 a1) := of_none
theorem keyoff a0 a1 : Statement (.keyoff a0 a1) := of_none
theorem audCmdParam a0 : Statement (.audCmdParam a0) := of_none
theorem audCmdKeyon a0 : Statement (.audCmdKeyon a0) := of_none
theorem audCmdKeyoff a0 : Statement (.audCmdKeyoff a0) := of_none
theorem audCmdVoice a0 : Statement (.audCmdVoice a0) := of_none
theorem paramWrite a0 a1 a2 : Statement (.paramWrite a0 a1 a2) := of_none
theorem safeLoad a0 a1 : Statement (.safeLoad a0 a1) := of_none
theorem tdmPortCfgWrite a0 a1 a2 a3 : Statement (.tdmPortCfgWrite a0 a1 a2 a3) := of_none
theorem kAdd a0 : Statement (.kAdd a0) := of_none
theorem kSub a0 : Statement (.kSub a0) := of_none
theorem kAnd a0 : Statement (.kAnd a0) := of_none
theorem kOr a0 : Statement (.kOr a0) := of_none
theorem kXor a0 : Statement (.kXor a0) := of_none
theorem kNor a0 : Statement (.kNor a0) := of_none
theorem kSlt a0 : Statement (.kSlt a0) := of_none
theorem kSltu a0 : Statement (.kSltu a0) := of_none
theorem kSll a0 : Statement (.kSll a0) := of_none
theorem kSrl a0 : Statement (.kSrl a0) := of_none
theorem kSra a0 : Statement (.kSra a0) := of_none
theorem kSlli a0 : Statement (.kSlli a0) := of_none
theorem kSrli a0 : Statement (.kSrli a0) := of_none
theorem kSrai a0 : Statement (.kSrai a0) := of_none
theorem kMin a0 : Statement (.kMin a0) := of_none
theorem kMax a0 : Statement (.kMax a0) := of_none
theorem kMinu a0 : Statement (.kMinu a0) := of_none
theorem kMaxu a0 : Statement (.kMaxu a0) := of_none
theorem kAddi a0 : Statement (.kAddi a0) := of_none
theorem kAndi a0 : Statement (.kAndi a0) := of_none
theorem kOri a0 : Statement (.kOri a0) := of_none
theorem kXori a0 : Statement (.kXori a0) := of_none
theorem kSlti a0 : Statement (.kSlti a0) := of_none
theorem kSltiu a0 : Statement (.kSltiu a0) := of_none
theorem kLui a0 : Statement (.kLui a0) := of_none
theorem kLw a0 : Statement (.kLw a0) := of_none
theorem kLh a0 : Statement (.kLh a0) := of_none
theorem kLhu a0 : Statement (.kLhu a0) := of_none
theorem kLb a0 : Statement (.kLb a0) := of_none
theorem kLbu a0 : Statement (.kLbu a0) := of_none
theorem kSw a0 : Statement (.kSw a0) := of_none
theorem kSh a0 : Statement (.kSh a0) := of_none
theorem kSb a0 : Statement (.kSb a0) := of_none
theorem kBeq a0 : Statement (.kBeq a0) := of_none
theorem kBne a0 : Statement (.kBne a0) := of_none
theorem kBlt a0 : Statement (.kBlt a0) := of_none
theorem kBge a0 : Statement (.kBge a0) := of_none
theorem kBltu a0 : Statement (.kBltu a0) := of_none
theorem kBgeu a0 : Statement (.kBgeu a0) := of_none
theorem kJ a0 : Statement (.kJ a0) := of_none
theorem kCall a0 : Statement (.kCall a0) := of_none
theorem kJr a0 : Statement (.kJr a0) := of_none
theorem kCallr a0 : Statement (.kCallr a0) := of_none
theorem kRet a0 : Statement (.kRet a0) := of_none
theorem kBld a0 : Statement (.kBld a0) := of_none
theorem kBldn a0 : Statement (.kBldn a0) := of_none
theorem kBst a0 : Statement (.kBst a0) := of_none
theorem kBstn a0 : Statement (.kBstn a0) := of_none
theorem kBset a0 : Statement (.kBset a0) := of_none
theorem kBclr a0 : Statement (.kBclr a0) := of_none
theorem kBtgl a0 : Statement (.kBtgl a0) := of_none
theorem kBand a0 : Statement (.kBand a0) := of_none
theorem kBandn a0 : Statement (.kBandn a0) := of_none
theorem kBor a0 : Statement (.kBor a0) := of_none
theorem kBorn a0 : Statement (.kBorn a0) := of_none
theorem kBxor a0 : Statement (.kBxor a0) := of_none
theorem kBts a0 : Statement (.kBts a0) := of_none
theorem kBtc a0 : Statement (.kBtc a0) := of_none
theorem kBbs a0 : Statement (.kBbs a0) := of_none
theorem kBbc a0 : Statement (.kBbc a0) := of_none
theorem kBba a0 : Statement (.kBba a0) := of_none
theorem kTli a0 : Statement (.kTli a0) := of_none
theorem kMul a0 : Statement (.kMul a0) := of_none
theorem kMulh a0 : Statement (.kMulh a0) := of_none
theorem kMulhu a0 : Statement (.kMulhu a0) := of_none
theorem kDiv a0 : Statement (.kDiv a0) := of_none
theorem kDivu a0 : Statement (.kDivu a0) := of_none
theorem kRem a0 : Statement (.kRem a0) := of_none
theorem kRemu a0 : Statement (.kRemu a0) := of_none
theorem kCsrr a0 : Statement (.kCsrr a0) := of_none
theorem kCsrw a0 : Statement (.kCsrw a0) := of_none
theorem kSyscall a0 : Statement (.kSyscall a0) := of_none
theorem kBreak a0 : Statement (.kBreak a0) := of_none
theorem kRetx a0 : Statement (.kRetx a0) := of_none
theorem kWfi a0 : Statement (.kWfi a0) := of_none
theorem kFence a0 : Statement (.kFence a0) := of_none
theorem loadDataReturn a0 : Statement (.loadDataReturn a0) := of_none
theorem loadTimeout a0 : Statement (.loadTimeout a0) := of_none
theorem postedStoreComplete a0 : Statement (.postedStoreComplete a0) := of_none
theorem interruptTake a0 : Statement (.interruptTake a0) := of_none
theorem idleWake a0 : Statement (.idleWake a0) := of_none
theorem wdtKick a0 a1 a2 : Statement (.wdtKick a0 a1 a2) := of_none
theorem wdtExpiry a0 : Statement (.wdtExpiry a0) := of_none
theorem coreRestart a0 a1 a2 : Statement (.coreRestart a0 a1 a2) := of_none
theorem coreRestartComplete a0 : Statement (.coreRestartComplete a0) := of_none
theorem intcClaim a0 a1 : Statement (.intcClaim a0 a1) := of_none
theorem intcComplete a0 a1 a2 : Statement (.intcComplete a0 a1 a2) := of_none
theorem intcPendClear a0 a1 a2 a3 : Statement (.intcPendClear a0 a1 a2 a3) := of_none
theorem moderationRelease a0 a1 : Statement (.moderationRelease a0 a1) := of_none
theorem msixSend a0 : Statement (.msixSend a0) := of_none
theorem intSwRaise a0 a1 : Statement (.intSwRaise a0 a1) := of_none
theorem cmpArm a0 a1 a2 : Statement (.cmpArm a0 a1 a2) := of_none
theorem cmpFire a0 : Statement (.cmpFire a0) := of_none
theorem tmrCapLoRead a0 a1 : Statement (.tmrCapLoRead a0 a1) := of_none
theorem dmaStart a0 a1 : Statement (.dmaStart a0 a1) := of_none
theorem dmaAbort a0 a1 a2 : Statement (.dmaAbort a0 a1 a2) := of_none
theorem dmaComplete a0 a1 : Statement (.dmaComplete a0 a1) := of_none
theorem bltStart a0 a1 : Statement (.bltStart a0 a1) := of_none
theorem bltAbort a0 a1 : Statement (.bltAbort a0 a1) := of_none
theorem bltWatermark a0 : Statement (.bltWatermark a0) := of_none
theorem bltComplete a0 : Statement (.bltComplete a0) := of_none
theorem uncorrectableRead a0 a1 a2 : Statement (.uncorrectableRead a0 a1 a2) := of_none
theorem correctableRead a0 a1 : Statement (.correctableRead a0 a1) := of_none
theorem pinChange a0 a1 : Statement (.pinChange a0 a1) := of_none
theorem glitchFilterSettle a0 : Statement (.glitchFilterSettle a0) := of_none
theorem debounceSettle a0 : Statement (.debounceSettle a0) := of_none
theorem gpOutWrite a0 a1 a2 a3 : Statement (.gpOutWrite a0 a1 a2 a3) := of_none
theorem pinCfgWrite a0 a1 a2 : Statement (.pinCfgWrite a0 a1 a2) := of_none
theorem pinOwnerWrite a0 a1 a2 : Statement (.pinOwnerWrite a0 a1 a2) := of_none
theorem grpCfgWrite a0 a1 a2 a3 : Statement (.grpCfgWrite a0 a1 a2 a3) := of_none
theorem pioTick a0 : Statement (.pioTick a0) := of_none
theorem pioGo a0 : Statement (.pioGo a0) := of_none
theorem pioAwait a0 : Statement (.pioAwait a0) := of_none
theorem pioShin a0 : Statement (.pioShin a0) := of_none
theorem pioShout a0 : Statement (.pioShout a0) := of_none
theorem pioDrive a0 : Statement (.pioDrive a0) := of_none
theorem pioLoad a0 : Statement (.pioLoad a0) := of_none
theorem pioStore a0 : Statement (.pioStore a0) := of_none
theorem pioLdi a0 : Statement (.pioLdi a0) := of_none
theorem pioXfer a0 : Statement (.pioXfer a0) := of_none
theorem pioSignal a0 : Statement (.pioSignal a0) := of_none
theorem pioStart a0 a1 : Statement (.pioStart a0 a1) := of_none
theorem pioStop a0 a1 : Statement (.pioStop a0 a1) := of_none
theorem pioClkrst a0 a1 : Statement (.pioClkrst a0 a1) := of_none
theorem contextEnable a0 a1 a2 : Statement (.contextEnable a0 a1 a2) := of_none
theorem pioTxfWrite a0 a1 a2 a3 : Statement (.pioTxfWrite a0 a1 a2 a3) := of_none
theorem pioRxfRead a0 a1 a2 : Statement (.pioRxfRead a0 a1 a2) := of_none
theorem pioImWrite a0 a1 a2 a3 : Statement (.pioImWrite a0 a1 a2 a3) := of_none
theorem bankRetain a0 a1 : Statement (.bankRetain a0 a1) := of_none
theorem bankWake a0 a1 : Statement (.bankWake a0 a1) := of_none
theorem bankWakeDone a0 : Statement (.bankWakeDone a0) := of_none
theorem pagedWindowAccess a0 a1 a2 a3 : Statement (.pagedWindowAccess a0 a1 a2 a3) := of_none
theorem bar2Write a0 a1 : Statement (.bar2Write a0 a1) := of_none
theorem bar2Read a0 a1 : Statement (.bar2Read a0 a1) := of_none
theorem bar2Flush : Statement .bar2Flush := of_none
theorem pcieRequestFail a0 a1 a2 : Statement (.pcieRequestFail a0 a1 a2) := of_none
theorem linkDown : Statement .linkDown := of_none
theorem functionLevelReset : Statement .functionLevelReset := of_none
theorem linkUp a0 a1 : Statement (.linkUp a0 a1) := of_none
theorem mr4Report a0 a1 : Statement (.mr4Report a0 a1) := of_none
theorem channelFence a0 a1 : Statement (.channelFence a0 a1) := of_none
theorem avFenceCmd a0 a1 : Statement (.avFenceCmd a0 a1) := of_none
theorem lopStart a0 a1 a2 a3 : Statement (.lopStart a0 a1 a2 a3) := of_none
theorem lopSuspend a0 a1 : Statement (.lopSuspend a0 a1) := of_none
theorem lopResume a0 a1 : Statement (.lopResume a0 a1) := of_none
theorem lopCancel a0 a1 : Statement (.lopCancel a0 a1) := of_none
theorem lopStatus a0 : Statement (.lopStatus a0) := of_none
theorem lopSuspendPoint a0 a1 : Statement (.lopSuspendPoint a0 a1) := of_none
theorem lopComplete a0 a1 : Statement (.lopComplete a0 a1) := of_none
theorem structCheckDone a0 : Statement (.structCheckDone a0) := of_none
theorem fullLoadApply a0 : Statement (.fullLoadApply a0) := of_none
theorem clkPointRequest a0 a1 : Statement (.clkPointRequest a0 a1) := of_none
theorem clkRelockDone : Statement .clkRelockDone := of_none
theorem mbxTcWrite a0 a1 a2 : Statement (.mbxTcWrite a0 a1 a2) := of_none
theorem mbxTcRead a0 a1 : Statement (.mbxTcRead a0 a1) := of_none
theorem mbxThWrite a0 a1 a2 : Statement (.mbxThWrite a0 a1 a2) := of_none
theorem mbxThRead a0 a1 : Statement (.mbxThRead a0 a1) := of_none
theorem arm a0 : Statement (.arm a0) := of_none
theorem armingDone : Statement .armingDone := of_none
theorem disarm a0 : Statement (.disarm a0) := of_none
theorem cold a0 : Statement (.cold a0) := of_none
theorem confirmToken a0 a1 : Statement (.confirmToken a0 a1) := of_none
theorem trialWindowEnd : Statement .trialWindowEnd := of_none
theorem controlRecordWritten : Statement .controlRecordWritten := of_none
theorem lifecycleChange a0 a1 : Statement (.lifecycleChange a0 a1) := of_none
theorem keyProgram a0 a1 : Statement (.keyProgram a0 a1) := of_none
theorem keySetDev a0 a1 : Statement (.keySetDev a0 a1) := of_none
theorem keyRevoke a0 a1 : Statement (.keyRevoke a0 a1) := of_none
theorem imageKeyProgram a0 a1 : Statement (.imageKeyProgram a0 a1) := of_none
theorem wipe a0 a1 : Statement (.wipe a0 a1) := of_none
theorem wipeDone : Statement .wipeDone := of_none
theorem tamperEvent a0 a1 : Statement (.tamperEvent a0 a1) := of_none
theorem tamperLock a0 : Statement (.tamperLock a0) := of_none
theorem verifyGo a0 a1 : Statement (.verifyGo a0 a1) := of_none
theorem verifyDone : Statement .verifyDone := of_none
theorem rngRequest a0 a1 : Statement (.rngRequest a0 a1) := of_none
theorem rngBlock : Statement .rngBlock := of_none
theorem rngHealthFail a0 : Statement (.rngHealthFail a0) := of_none
theorem rngRestart a0 a1 : Statement (.rngRestart a0 a1) := of_none
theorem rngStartupDone a0 : Statement (.rngStartupDone a0) := of_none
theorem patrolScrubRead : Statement .patrolScrubRead := of_none
theorem rowRepair a0 a1 : Statement (.rowRepair a0 a1) := of_none
theorem rowSwitch a0 a1 : Statement (.rowSwitch a0 a1) := of_none
theorem selfTestDone a0 a1 : Statement (.selfTestDone a0 a1) := of_none
theorem ftCheck a0 a1 : Statement (.ftCheck a0 a1) := of_none
theorem ftRemapCmd a0 a1 : Statement (.ftRemapCmd a0 a1) := of_none
theorem ftReturn a0 a1 : Statement (.ftReturn a0 a1) := of_none
theorem avOutResume a0 a1 : Statement (.avOutResume a0 a1) := of_none
theorem avOutShed a0 a1 : Statement (.avOutShed a0 a1) := of_none
theorem logPop a0 : Statement (.logPop a0) := of_none
theorem tapReset : Statement .tapReset := of_none
theorem extest a0 : Statement (.extest a0) := of_none
theorem samplePreload a0 : Statement (.samplePreload a0) := of_none
theorem idcode : Statement .idcode := of_none
theorem clamp : Statement .clamp := of_none
theorem highz : Statement .highz := of_none
theorem bypass : Statement .bypass := of_none
theorem dbgAcc a0 a1 a2 a3 : Statement (.dbgAcc a0 a1 a2 a3) := of_none
theorem dbgMemAccess : Statement .dbgMemAccess := of_none
theorem dbgAccessTimeout : Statement .dbgAccessTimeout := of_none
theorem dbgAttachWrite a0 : Statement (.dbgAttachWrite a0) := of_none
theorem rcHalt : Statement .rcHalt := of_none
theorem rcRun : Statement .rcRun := of_none
theorem rcStep : Statement .rcStep := of_none
theorem breakpointHit a0 : Statement (.breakpointHit a0) := of_none
theorem rcGdataWrite a0 a1 : Statement (.rcGdataWrite a0 a1) := of_none
theorem vtTxWrite a0 a1 : Statement (.vtTxWrite a0 a1) := of_none
theorem vtTxRead a0 : Statement (.vtTxRead a0) := of_none
theorem vtRxWrite a0 a1 : Statement (.vtRxWrite a0 a1) := of_none
theorem vtRxRead a0 : Statement (.vtRxRead a0) := of_none
theorem kIllegal a0 : Statement (.kIllegal a0) := of_none
theorem dmReserved a0 : Statement (.dmReserved a0) := of_none
theorem ringPllLock : Statement .ringPllLock := of_none
theorem busMasterEnable a0 : Statement (.busMasterEnable a0) := of_none
theorem aerError a0 : Statement (.aerError a0) := of_none

end Sys2Proof.Laws.NoWord
end

