-- ==== Sys2Proof/Laws/State.lean ====
section
/-!
SUPPORT. Laws of the state: one lemma for each field and each named update of it, so that no later proof unfolds a record update; and
what each way in which a command acts (`afterDev`, `afterRun`, `need`, the gates of `Gate.lean`) can do.
-/

namespace Sys2Proof.Machine

/-! ### The state -/

section
variable (s : State) (f : Dev → Dev) (g : W → W) (q : List Instr) (m : Mem) (d : Dev)

@[simp] theorem State.afterDev_pending : (s.afterDev f).pending = s.pending := rfl
@[simp] theorem State.afterDev_mem : (s.afterDev f).mem = s.mem := rfl
@[simp] theorem State.afterDev_d : (s.afterDev f).d = f s.d := rfl
@[simp] theorem State.afterRun_pending : (s.afterRun g).pending = s.pending := rfl
theorem State.afterRun_mem : (s.afterRun g).mem = (s.mem.zeroBanks (g s.ctx).zero).apply (g s.ctx).ws.reverse := rfl
theorem State.afterRun_d : (s.afterRun g).d =
    { (g s.ctx).d with badWords := (g s.ctx).d.badWords.filter (fun k => !rewritten (g s.ctx).ws k) } := rfl
@[simp] theorem State.ctx_m : s.ctx.m = s.mem := rfl
@[simp] theorem State.ctx_d : s.ctx.d = s.d := rfl
@[simp] theorem State.ctx_ws : s.ctx.ws = [] := rfl
@[simp] theorem State.ctx_zero : s.ctx.zero = [] := rfl

/-- Whatever it computes, an effect leaves the memories in canonical form. -/
theorem State.afterRun_wf (h : s.mem.wf = true) : (s.afterRun g).mem.wf = true := Mem.wf_apply (Mem.wf_zeroBanks h)

/-- An effect that writes nothing leaves the memories as they are. -/
theorem State.afterRun_mem_of_quiet (hz : (g s.ctx).zero = []) (hw : (g s.ctx).ws = []) : (s.afterRun g).mem = s.mem := by
  rw [State.afterRun_mem, hz, hw, Mem.zeroBanks_nil]; rfl

/-- A word in error that nothing writes stays in error. -/
theorem rewritten_nil (k : Nat) : rewritten [] k = false := by
  unfold rewritten
  simp only [List.any_nil]
  split
  · decide
  · split
    · decide
    · split <;> decide

/-- An effect that writes no memory is an effect on the device. -/
theorem State.afterRun_eq_afterDev (h : g s.ctx = { s.ctx with d := f s.d }) : s.afterRun g = s.afterDev f := by
  have hb : (f s.d).badWords.filter (fun _ => !false) = (f s.d).badWords := List.filter_eq_self.mpr (fun _ _ => rfl)
  unfold State.afterRun State.afterDev
  simp only [h, State.ctx_zero, State.ctx_ws, Mem.zeroBanks_nil, List.reverse_nil, rewritten_nil, hb]
  rfl
end

/-! ### The gates -/

section
variable {s : State} {p : Prop} [Decidable p] {k : Host.Outcome State Fault Refusal} {f : Dev → Dev} {g : W → W}

theorem need_pos (h : p) : need p k = k := if_pos h
theorem need_neg (h : ¬p) : need p k = .fault .noSuchUnit := if_neg h
theorem coreDev_up (h : s.d.coreUp = true) : s.coreDev f = .next (s.afterDev f) := by simp [State.coreDev, State.dev, State.afterDev, h]
theorem coreDev_down (h : s.d.coreUp = false) : s.coreDev f = .next s := by simp [State.coreDev, State.dev, State.afterDev, h]
theorem coreRun_up (h : s.d.coreUp = true) : s.coreRun g = .next (s.afterRun g) := by simp [State.coreRun, State.run, State.afterRun, h]
theorem coreRun_down (h : s.d.coreUp = false) : s.coreRun g = .next s := by
  have : s.afterRun (fun w => if w.d.coreUp then g w else w) = s.afterDev id :=
    State.afterRun_eq_afterDev s id _ (by simp [h, State.ctx])
  rw [State.coreRun, State.run, this]; rfl
theorem aonDev_up (h : s.d.aonUp = true) : s.aonDev f = .next (s.afterDev f) := by simp [State.aonDev, State.dev, State.afterDev, h]
theorem aonDev_down (h : s.d.aonUp = false) : s.aonDev f = .next s := by simp [State.aonDev, State.dev, State.afterDev, h]
end

/-! ### The working context -/

section
variable (w : W) (f : Dev → Dev) (sp : MemSp) (a : Nat) (v : Byte)

@[simp] theorem W.dev_m : (w.dev f).m = w.m := rfl
@[simp] theorem W.dev_zero : (w.dev f).zero = w.zero := rfl
@[simp] theorem W.dev_ws : (w.dev f).ws = w.ws := rfl
@[simp] theorem W.dev_d : (w.dev f).d = f w.d := rfl
@[simp] theorem W.wr_m : (w.wr sp a v).m = w.m := rfl
@[simp] theorem W.wr_zero : (w.wr sp a v).zero = w.zero := rfl
@[simp] theorem W.wr_ws : (w.wr sp a v).ws = ⟨sp, a, v⟩ :: w.ws := rfl
@[simp] theorem W.wr_d : (w.wr sp a v).d = w.d := rfl
end

/-! ### The register file -/

section
variable (d : Dev) (a b i lo n x : Nat) (v : Word)

/-- Reading a register after a register write. -/
theorem Dev.rg_sg : (d.sg a v).rg b = if a = b then v else d.rg b := Tab.get_set
@[simp] theorem Dev.rg_sg_self : (d.sg a v).rg a = v := by simp [Dev.rg_sg]
theorem Dev.rg_sg_of_ne (h : a ≠ b) : (d.sg a v).rg b = d.rg b := by simp [Dev.rg_sg, h]
/-- Reading the word in force after it is stored. -/
theorem Dev.fr_sfr : (d.sfr a v).fr b = if a = b then v else d.fr b := Tab.get_set
@[simp] theorem Dev.rg_sfr : (d.sfr a v).rg b = d.rg b := rfl
@[simp] theorem Dev.fr_sg : (d.sg a v).fr b = d.fr b := rfl

@[simp] theorem Dev.sg_inForce : (d.sg a v).inForce = d.inForce := rfl
@[simp] theorem Dev.sg_frames : (d.sg a v).frames = d.frames := rfl
@[simp] theorem Dev.sg_upds : (d.sg a v).upds = d.upds := rfl
@[simp] theorem Dev.sg_imgPhase : (d.sg a v).imgPhase = d.imgPhase := rfl
@[simp] theorem Dev.sg_fixed : (d.sg a v).fixed = d.fixed := rfl
@[simp] theorem Dev.sg_shadow : (d.sg a v).shadow = d.shadow := rfl
@[simp] theorem Dev.sg_rdata : (d.sg a v).rdata = d.rdata := rfl
@[simp] theorem Dev.sg_free : (d.sg a v).free = d.free := rfl
@[simp] theorem Dev.sg_tb : (d.sg a v).tb = d.tb := rfl
@[simp] theorem Dev.sg_tick : (d.sg a v).tick = d.tick := rfl
@[simp] theorem Dev.sg_tg : (d.sg a v).tg = d.tg := rfl
@[simp] theorem Dev.sg_intc : (d.sg a v).intc = d.intc := rfl
@[simp] theorem Dev.sg_msixPend : (d.sg a v).msixPend = d.msixPend := rfl
@[simp] theorem Dev.sg_tmr : (d.sg a v).tmr = d.tmr := rfl
@[simp] theorem Dev.sg_obj : (d.sg a v).obj = d.obj := rfl
@[simp] theorem Dev.sg_tile : (d.sg a v).tile = d.tile := rfl
@[simp] theorem Dev.sg_slice : (d.sg a v).slice = d.slice := rfl
@[simp] theorem Dev.sg_aux : (d.sg a v).aux = d.aux := rfl
@[simp] theorem Dev.sg_slLog : (d.sg a v).slLog = d.slLog := rfl
@[simp] theorem Dev.sg_dmLog : (d.sg a v).dmLog = d.dmLog := rfl
@[simp] theorem Dev.sg_mx : (d.sg a v).mx = d.mx := rfl
@[simp] theorem Dev.sg_vid : (d.sg a v).vid = d.vid := rfl
@[simp] theorem Dev.sg_dm : (d.sg a v).dm = d.dm := rfl
@[simp] theorem Dev.sg_fl : (d.sg a v).fl = d.fl := rfl
@[simp] theorem Dev.sg_ftReq : (d.sg a v).ftReq = d.ftReq := rfl
@[simp] theorem Dev.sg_dma : (d.sg a v).dma = d.dma := rfl
@[simp] theorem Dev.sg_dmaHi : (d.sg a v).dmaHi = d.dmaHi := rfl
@[simp] theorem Dev.sg_dmaLo : (d.sg a v).dmaLo = d.dmaLo := rfl
@[simp] theorem Dev.sg_loaded : (d.sg a v).loaded = d.loaded := rfl
@[simp] theorem Dev.sg_news : (d.sg a v).news = d.news := rfl
@[simp] theorem Dev.sg_emuIdle : (d.sg a v).emuIdle = d.emuIdle := rfl
@[simp] theorem Dev.sg_badWords : (d.sg a v).badWords = d.badWords := rfl
@[simp] theorem Dev.sg_aud : (d.sg a v).aud = d.aud := rfl
@[simp] theorem Dev.sg_hop : (d.sg a v).hop = d.hop := rfl
@[simp] theorem Dev.sg_ring : (d.sg a v).ring = d.ring := rfl
@[simp] theorem Dev.sg_hostq : (d.sg a v).hostq = d.hostq := rfl
@[simp] theorem Dev.sg_pcie : (d.sg a v).pcie = d.pcie := rfl
@[simp] theorem Dev.sg_winq : (d.sg a v).winq = d.winq := rfl
@[simp] theorem Dev.sg_avlog : (d.sg a v).avlog = d.avlog := rfl
@[simp] theorem Dev.sg_ceLog : (d.sg a v).ceLog = d.ceLog := rfl
@[simp] theorem Dev.sg_msixEn : (d.sg a v).msixEn = d.msixEn := rfl
@[simp] theorem Dev.sg_bltWm : (d.sg a v).bltWm = d.bltWm := rfl
@[simp] theorem Dev.sg_bltSrc : (d.sg a v).bltSrc = d.bltSrc := rfl
@[simp] theorem Dev.sg_bltAt : (d.sg a v).bltAt = d.bltAt := rfl
@[simp] theorem Dev.sg_wakeAt : (d.sg a v).wakeAt = d.wakeAt := rfl
@[simp] theorem Dev.sg_rbytes : (d.sg a v).rbytes = d.rbytes := rfl
@[simp] theorem Dev.sg_cclk : (d.sg a v).cclk = d.cclk := rfl
@[simp] theorem Dev.sg_later : (d.sg a v).later = d.later := rfl
@[simp] theorem Dev.sg_pins : (d.sg a v).pins = d.pins := rfl
@[simp] theorem Dev.sg_pio : (d.sg a v).pio = d.pio := rfl
@[simp] theorem Dev.sg_core : (d.sg a v).core = d.core := rfl
@[simp] theorem Dev.sg_coreFlags : (d.sg a v).coreFlags = d.coreFlags := rfl
@[simp] theorem Dev.sg_startQ : (d.sg a v).startQ = d.startQ := rfl
@[simp] theorem Dev.sg_restartQ : (d.sg a v).restartQ = d.restartQ := rfl
@[simp] theorem Dev.sg_ue : (d.sg a v).ue = d.ue := rfl
@[simp] theorem Dev.sg_av : (d.sg a v).av = d.av := rfl
@[simp] theorem Dev.sg_lop : (d.sg a v).lop = d.lop := rfl
@[simp] theorem Dev.sg_boot : (d.sg a v).boot = d.boot := rfl
@[simp] theorem Dev.sg_upd : (d.sg a v).upd = d.upd := rfl
@[simp] theorem Dev.sg_sec : (d.sg a v).sec = d.sec := rfl
@[simp] theorem Dev.sg_dbg : (d.sg a v).dbg = d.dbg := rfl
@[simp] theorem Dev.sg_power : (d.sg a v).power = d.power := rfl
@[simp] theorem Dev.sg_lineShare : (d.sg a v).lineShare = d.lineShare := rfl
@[simp] theorem Dev.sg_strSecs : (d.sg a v).strSecs = d.strSecs := rfl
@[simp] theorem Dev.sg_dmWait : (d.sg a v).dmWait = d.dmWait := rfl
@[simp] theorem Dev.sg_audWait : (d.sg a v).audWait = d.audWait := rfl
@[simp] theorem Dev.sg_rawKeep : (d.sg a v).rawKeep = d.rawKeep := rfl
@[simp] theorem Dev.sfr_regs : (d.sfr a v).regs = d.regs := rfl
@[simp] theorem Dev.sfr_frames : (d.sfr a v).frames = d.frames := rfl
@[simp] theorem Dev.sfr_upds : (d.sfr a v).upds = d.upds := rfl
@[simp] theorem Dev.sfr_imgPhase : (d.sfr a v).imgPhase = d.imgPhase := rfl
@[simp] theorem Dev.sfr_fixed : (d.sfr a v).fixed = d.fixed := rfl
@[simp] theorem Dev.sfr_shadow : (d.sfr a v).shadow = d.shadow := rfl
@[simp] theorem Dev.sfr_rdata : (d.sfr a v).rdata = d.rdata := rfl
@[simp] theorem Dev.sfr_free : (d.sfr a v).free = d.free := rfl
@[simp] theorem Dev.sfr_tb : (d.sfr a v).tb = d.tb := rfl
@[simp] theorem Dev.sfr_tick : (d.sfr a v).tick = d.tick := rfl
@[simp] theorem Dev.sfr_tg : (d.sfr a v).tg = d.tg := rfl
@[simp] theorem Dev.sfr_intc : (d.sfr a v).intc = d.intc := rfl
@[simp] theorem Dev.sfr_msixPend : (d.sfr a v).msixPend = d.msixPend := rfl
@[simp] theorem Dev.sfr_tmr : (d.sfr a v).tmr = d.tmr := rfl
@[simp] theorem Dev.sfr_obj : (d.sfr a v).obj = d.obj := rfl
@[simp] theorem Dev.sfr_tile : (d.sfr a v).tile = d.tile := rfl
@[simp] theorem Dev.sfr_slice : (d.sfr a v).slice = d.slice := rfl
@[simp] theorem Dev.sfr_aux : (d.sfr a v).aux = d.aux := rfl
@[simp] theorem Dev.sfr_slLog : (d.sfr a v).slLog = d.slLog := rfl
@[simp] theorem Dev.sfr_dmLog : (d.sfr a v).dmLog = d.dmLog := rfl
@[simp] theorem Dev.sfr_mx : (d.sfr a v).mx = d.mx := rfl
@[simp] theorem Dev.sfr_vid : (d.sfr a v).vid = d.vid := rfl
@[simp] theorem Dev.sfr_dm : (d.sfr a v).dm = d.dm := rfl
@[simp] theorem Dev.sfr_fl : (d.sfr a v).fl = d.fl := rfl
@[simp] theorem Dev.sfr_ftReq : (d.sfr a v).ftReq = d.ftReq := rfl
@[simp] theorem Dev.sfr_dma : (d.sfr a v).dma = d.dma := rfl
@[simp] theorem Dev.sfr_dmaHi : (d.sfr a v).dmaHi = d.dmaHi := rfl
@[simp] theorem Dev.sfr_dmaLo : (d.sfr a v).dmaLo = d.dmaLo := rfl
@[simp] theorem Dev.sfr_loaded : (d.sfr a v).loaded = d.loaded := rfl
@[simp] theorem Dev.sfr_news : (d.sfr a v).news = d.news := rfl
@[simp] theorem Dev.sfr_emuIdle : (d.sfr a v).emuIdle = d.emuIdle := rfl
@[simp] theorem Dev.sfr_badWords : (d.sfr a v).badWords = d.badWords := rfl
@[simp] theorem Dev.sfr_aud : (d.sfr a v).aud = d.aud := rfl
@[simp] theorem Dev.sfr_hop : (d.sfr a v).hop = d.hop := rfl
@[simp] theorem Dev.sfr_ring : (d.sfr a v).ring = d.ring := rfl
@[simp] theorem Dev.sfr_hostq : (d.sfr a v).hostq = d.hostq := rfl
@[simp] theorem Dev.sfr_pcie : (d.sfr a v).pcie = d.pcie := rfl
@[simp] theorem Dev.sfr_winq : (d.sfr a v).winq = d.winq := rfl
@[simp] theorem Dev.sfr_avlog : (d.sfr a v).avlog = d.avlog := rfl
@[simp] theorem Dev.sfr_ceLog : (d.sfr a v).ceLog = d.ceLog := rfl
@[simp] theorem Dev.sfr_msixEn : (d.sfr a v).msixEn = d.msixEn := rfl
@[simp] theorem Dev.sfr_bltWm : (d.sfr a v).bltWm = d.bltWm := rfl
@[simp] theorem Dev.sfr_bltSrc : (d.sfr a v).bltSrc = d.bltSrc := rfl
@[simp] theorem Dev.sfr_bltAt : (d.sfr a v).bltAt = d.bltAt := rfl
@[simp] theorem Dev.sfr_wakeAt : (d.sfr a v).wakeAt = d.wakeAt := rfl
@[simp] theorem Dev.sfr_rbytes : (d.sfr a v).rbytes = d.rbytes := rfl
@[simp] theorem Dev.sfr_cclk : (d.sfr a v).cclk = d.cclk := rfl
@[simp] theorem Dev.sfr_later : (d.sfr a v).later = d.later := rfl
@[simp] theorem Dev.sfr_pins : (d.sfr a v).pins = d.pins := rfl
@[simp] theorem Dev.sfr_pio : (d.sfr a v).pio = d.pio := rfl
@[simp] theorem Dev.sfr_core : (d.sfr a v).core = d.core := rfl
@[simp] theorem Dev.sfr_coreFlags : (d.sfr a v).coreFlags = d.coreFlags := rfl
@[simp] theorem Dev.sfr_startQ : (d.sfr a v).startQ = d.startQ := rfl
@[simp] theorem Dev.sfr_restartQ : (d.sfr a v).restartQ = d.restartQ := rfl
@[simp] theorem Dev.sfr_ue : (d.sfr a v).ue = d.ue := rfl
@[simp] theorem Dev.sfr_av : (d.sfr a v).av = d.av := rfl
@[simp] theorem Dev.sfr_lop : (d.sfr a v).lop = d.lop := rfl
@[simp] theorem Dev.sfr_boot : (d.sfr a v).boot = d.boot := rfl
@[simp] theorem Dev.sfr_upd : (d.sfr a v).upd = d.upd := rfl
@[simp] theorem Dev.sfr_sec : (d.sfr a v).sec = d.sec := rfl
@[simp] theorem Dev.sfr_dbg : (d.sfr a v).dbg = d.dbg := rfl
@[simp] theorem Dev.sfr_power : (d.sfr a v).power = d.power := rfl
@[simp] theorem Dev.sfr_lineShare : (d.sfr a v).lineShare = d.lineShare := rfl
@[simp] theorem Dev.sfr_strSecs : (d.sfr a v).strSecs = d.strSecs := rfl
@[simp] theorem Dev.sfr_dmWait : (d.sfr a v).dmWait = d.dmWait := rfl
@[simp] theorem Dev.sfr_audWait : (d.sfr a v).audWait = d.audWait := rfl
@[simp] theorem Dev.sfr_rawKeep : (d.sfr a v).rawKeep = d.rawKeep := rfl
@[simp] theorem Dev.sb_inForce : (d.sb a i).inForce = d.inForce := rfl
@[simp] theorem Dev.sb_frames : (d.sb a i).frames = d.frames := rfl
@[simp] theorem Dev.sb_upds : (d.sb a i).upds = d.upds := rfl
@[simp] theorem Dev.sb_imgPhase : (d.sb a i).imgPhase = d.imgPhase := rfl
@[simp] theorem Dev.sb_fixed : (d.sb a i).fixed = d.fixed := rfl
@[simp] theorem Dev.sb_shadow : (d.sb a i).shadow = d.shadow := rfl
@[simp] theorem Dev.sb_rdata : (d.sb a i).rdata = d.rdata := rfl
@[simp] theorem Dev.sb_free : (d.sb a i).free = d.free := rfl
@[simp] theorem Dev.sb_tb : (d.sb a i).tb = d.tb := rfl
@[simp] theorem Dev.sb_tick : (d.sb a i).tick = d.tick := rfl
@[simp] theorem Dev.sb_tg : (d.sb a i).tg = d.tg := rfl
@[simp] theorem Dev.sb_intc : (d.sb a i).intc = d.intc := rfl
@[simp] theorem Dev.sb_msixPend : (d.sb a i).msixPend = d.msixPend := rfl
@[simp] theorem Dev.sb_tmr : (d.sb a i).tmr = d.tmr := rfl
@[simp] theorem Dev.sb_obj : (d.sb a i).obj = d.obj := rfl
@[simp] theorem Dev.sb_tile : (d.sb a i).tile = d.tile := rfl
@[simp] theorem Dev.sb_slice : (d.sb a i).slice = d.slice := rfl
@[simp] theorem Dev.sb_aux : (d.sb a i).aux = d.aux := rfl
@[simp] theorem Dev.sb_slLog : (d.sb a i).slLog = d.slLog := rfl
@[simp] theorem Dev.sb_dmLog : (d.sb a i).dmLog = d.dmLog := rfl
@[simp] theorem Dev.sb_mx : (d.sb a i).mx = d.mx := rfl
@[simp] theorem Dev.sb_vid : (d.sb a i).vid = d.vid := rfl
@[simp] theorem Dev.sb_dm : (d.sb a i).dm = d.dm := rfl
@[simp] theorem Dev.sb_fl : (d.sb a i).fl = d.fl := rfl
@[simp] theorem Dev.sb_ftReq : (d.sb a i).ftReq = d.ftReq := rfl
@[simp] theorem Dev.sb_dma : (d.sb a i).dma = d.dma := rfl
@[simp] theorem Dev.sb_dmaHi : (d.sb a i).dmaHi = d.dmaHi := rfl
@[simp] theorem Dev.sb_dmaLo : (d.sb a i).dmaLo = d.dmaLo := rfl
@[simp] theorem Dev.sb_loaded : (d.sb a i).loaded = d.loaded := rfl
@[simp] theorem Dev.sb_news : (d.sb a i).news = d.news := rfl
@[simp] theorem Dev.sb_emuIdle : (d.sb a i).emuIdle = d.emuIdle := rfl
@[simp] theorem Dev.sb_badWords : (d.sb a i).badWords = d.badWords := rfl
@[simp] theorem Dev.sb_aud : (d.sb a i).aud = d.aud := rfl
@[simp] theorem Dev.sb_hop : (d.sb a i).hop = d.hop := rfl
@[simp] theorem Dev.sb_ring : (d.sb a i).ring = d.ring := rfl
@[simp] theorem Dev.sb_hostq : (d.sb a i).hostq = d.hostq := rfl
@[simp] theorem Dev.sb_pcie : (d.sb a i).pcie = d.pcie := rfl
@[simp] theorem Dev.sb_winq : (d.sb a i).winq = d.winq := rfl
@[simp] theorem Dev.sb_avlog : (d.sb a i).avlog = d.avlog := rfl
@[simp] theorem Dev.sb_ceLog : (d.sb a i).ceLog = d.ceLog := rfl
@[simp] theorem Dev.sb_msixEn : (d.sb a i).msixEn = d.msixEn := rfl
@[simp] theorem Dev.sb_bltWm : (d.sb a i).bltWm = d.bltWm := rfl
@[simp] theorem Dev.sb_bltSrc : (d.sb a i).bltSrc = d.bltSrc := rfl
@[simp] theorem Dev.sb_bltAt : (d.sb a i).bltAt = d.bltAt := rfl
@[simp] theorem Dev.sb_wakeAt : (d.sb a i).wakeAt = d.wakeAt := rfl
@[simp] theorem Dev.sb_rbytes : (d.sb a i).rbytes = d.rbytes := rfl
@[simp] theorem Dev.sb_cclk : (d.sb a i).cclk = d.cclk := rfl
@[simp] theorem Dev.sb_later : (d.sb a i).later = d.later := rfl
@[simp] theorem Dev.sb_pins : (d.sb a i).pins = d.pins := rfl
@[simp] theorem Dev.sb_pio : (d.sb a i).pio = d.pio := rfl
@[simp] theorem Dev.sb_core : (d.sb a i).core = d.core := rfl
@[simp] theorem Dev.sb_coreFlags : (d.sb a i).coreFlags = d.coreFlags := rfl
@[simp] theorem Dev.sb_startQ : (d.sb a i).startQ = d.startQ := rfl
@[simp] theorem Dev.sb_restartQ : (d.sb a i).restartQ = d.restartQ := rfl
@[simp] theorem Dev.sb_ue : (d.sb a i).ue = d.ue := rfl
@[simp] theorem Dev.sb_av : (d.sb a i).av = d.av := rfl
@[simp] theorem Dev.sb_lop : (d.sb a i).lop = d.lop := rfl
@[simp] theorem Dev.sb_boot : (d.sb a i).boot = d.boot := rfl
@[simp] theorem Dev.sb_upd : (d.sb a i).upd = d.upd := rfl
@[simp] theorem Dev.sb_sec : (d.sb a i).sec = d.sec := rfl
@[simp] theorem Dev.sb_dbg : (d.sb a i).dbg = d.dbg := rfl
@[simp] theorem Dev.sb_power : (d.sb a i).power = d.power := rfl
@[simp] theorem Dev.sb_lineShare : (d.sb a i).lineShare = d.lineShare := rfl
@[simp] theorem Dev.sb_strSecs : (d.sb a i).strSecs = d.strSecs := rfl
@[simp] theorem Dev.sb_dmWait : (d.sb a i).dmWait = d.dmWait := rfl
@[simp] theorem Dev.sb_audWait : (d.sb a i).audWait = d.audWait := rfl
@[simp] theorem Dev.sb_rawKeep : (d.sb a i).rawKeep = d.rawKeep := rfl
@[simp] theorem Dev.cb_inForce : (d.cb a i).inForce = d.inForce := rfl
@[simp] theorem Dev.cb_frames : (d.cb a i).frames = d.frames := rfl
@[simp] theorem Dev.cb_upds : (d.cb a i).upds = d.upds := rfl
@[simp] theorem Dev.cb_imgPhase : (d.cb a i).imgPhase = d.imgPhase := rfl
@[simp] theorem Dev.cb_fixed : (d.cb a i).fixed = d.fixed := rfl
@[simp] theorem Dev.cb_shadow : (d.cb a i).shadow = d.shadow := rfl
@[simp] theorem Dev.cb_rdata : (d.cb a i).rdata = d.rdata := rfl
@[simp] theorem Dev.cb_free : (d.cb a i).free = d.free := rfl
@[simp] theorem Dev.cb_tb : (d.cb a i).tb = d.tb := rfl
@[simp] theorem Dev.cb_tick : (d.cb a i).tick = d.tick := rfl
@[simp] theorem Dev.cb_tg : (d.cb a i).tg = d.tg := rfl
@[simp] theorem Dev.cb_intc : (d.cb a i).intc = d.intc := rfl
@[simp] theorem Dev.cb_msixPend : (d.cb a i).msixPend = d.msixPend := rfl
@[simp] theorem Dev.cb_tmr : (d.cb a i).tmr = d.tmr := rfl
@[simp] theorem Dev.cb_obj : (d.cb a i).obj = d.obj := rfl
@[simp] theorem Dev.cb_tile : (d.cb a i).tile = d.tile := rfl
@[simp] theorem Dev.cb_slice : (d.cb a i).slice = d.slice := rfl
@[simp] theorem Dev.cb_aux : (d.cb a i).aux = d.aux := rfl
@[simp] theorem Dev.cb_slLog : (d.cb a i).slLog = d.slLog := rfl
@[simp] theorem Dev.cb_dmLog : (d.cb a i).dmLog = d.dmLog := rfl
@[simp] theorem Dev.cb_mx : (d.cb a i).mx = d.mx := rfl
@[simp] theorem Dev.cb_vid : (d.cb a i).vid = d.vid := rfl
@[simp] theorem Dev.cb_dm : (d.cb a i).dm = d.dm := rfl
@[simp] theorem Dev.cb_fl : (d.cb a i).fl = d.fl := rfl
@[simp] theorem Dev.cb_ftReq : (d.cb a i).ftReq = d.ftReq := rfl
@[simp] theorem Dev.cb_dma : (d.cb a i).dma = d.dma := rfl
@[simp] theorem Dev.cb_dmaHi : (d.cb a i).dmaHi = d.dmaHi := rfl
@[simp] theorem Dev.cb_dmaLo : (d.cb a i).dmaLo = d.dmaLo := rfl
@[simp] theorem Dev.cb_loaded : (d.cb a i).loaded = d.loaded := rfl
@[simp] theorem Dev.cb_news : (d.cb a i).news = d.news := rfl
@[simp] theorem Dev.cb_emuIdle : (d.cb a i).emuIdle = d.emuIdle := rfl
@[simp] theorem Dev.cb_badWords : (d.cb a i).badWords = d.badWords := rfl
@[simp] theorem Dev.cb_aud : (d.cb a i).aud = d.aud := rfl
@[simp] theorem Dev.cb_hop : (d.cb a i).hop = d.hop := rfl
@[simp] theorem Dev.cb_ring : (d.cb a i).ring = d.ring := rfl
@[simp] theorem Dev.cb_hostq : (d.cb a i).hostq = d.hostq := rfl
@[simp] theorem Dev.cb_pcie : (d.cb a i).pcie = d.pcie := rfl
@[simp] theorem Dev.cb_winq : (d.cb a i).winq = d.winq := rfl
@[simp] theorem Dev.cb_avlog : (d.cb a i).avlog = d.avlog := rfl
@[simp] theorem Dev.cb_ceLog : (d.cb a i).ceLog = d.ceLog := rfl
@[simp] theorem Dev.cb_msixEn : (d.cb a i).msixEn = d.msixEn := rfl
@[simp] theorem Dev.cb_bltWm : (d.cb a i).bltWm = d.bltWm := rfl
@[simp] theorem Dev.cb_bltSrc : (d.cb a i).bltSrc = d.bltSrc := rfl
@[simp] theorem Dev.cb_bltAt : (d.cb a i).bltAt = d.bltAt := rfl
@[simp] theorem Dev.cb_wakeAt : (d.cb a i).wakeAt = d.wakeAt := rfl
@[simp] theorem Dev.cb_rbytes : (d.cb a i).rbytes = d.rbytes := rfl
@[simp] theorem Dev.cb_cclk : (d.cb a i).cclk = d.cclk := rfl
@[simp] theorem Dev.cb_later : (d.cb a i).later = d.later := rfl
@[simp] theorem Dev.cb_pins : (d.cb a i).pins = d.pins := rfl
@[simp] theorem Dev.cb_pio : (d.cb a i).pio = d.pio := rfl
@[simp] theorem Dev.cb_core : (d.cb a i).core = d.core := rfl
@[simp] theorem Dev.cb_coreFlags : (d.cb a i).coreFlags = d.coreFlags := rfl
@[simp] theorem Dev.cb_startQ : (d.cb a i).startQ = d.startQ := rfl
@[simp] theorem Dev.cb_restartQ : (d.cb a i).restartQ = d.restartQ := rfl
@[simp] theorem Dev.cb_ue : (d.cb a i).ue = d.ue := rfl
@[simp] theorem Dev.cb_av : (d.cb a i).av = d.av := rfl
@[simp] theorem Dev.cb_lop : (d.cb a i).lop = d.lop := rfl
@[simp] theorem Dev.cb_boot : (d.cb a i).boot = d.boot := rfl
@[simp] theorem Dev.cb_upd : (d.cb a i).upd = d.upd := rfl
@[simp] theorem Dev.cb_sec : (d.cb a i).sec = d.sec := rfl
@[simp] theorem Dev.cb_dbg : (d.cb a i).dbg = d.dbg := rfl
@[simp] theorem Dev.cb_power : (d.cb a i).power = d.power := rfl
@[simp] theorem Dev.cb_lineShare : (d.cb a i).lineShare = d.lineShare := rfl
@[simp] theorem Dev.cb_strSecs : (d.cb a i).strSecs = d.strSecs := rfl
@[simp] theorem Dev.cb_dmWait : (d.cb a i).dmWait = d.dmWait := rfl
@[simp] theorem Dev.cb_audWait : (d.cb a i).audWait = d.audWait := rfl
@[simp] theorem Dev.cb_rawKeep : (d.cb a i).rawKeep = d.rawKeep := rfl
@[simp] theorem Dev.sf_inForce : (d.sf a lo n x).inForce = d.inForce := rfl
@[simp] theorem Dev.sf_frames : (d.sf a lo n x).frames = d.frames := rfl
@[simp] theorem Dev.sf_upds : (d.sf a lo n x).upds = d.upds := rfl
@[simp] theorem Dev.sf_imgPhase : (d.sf a lo n x).imgPhase = d.imgPhase := rfl
@[simp] theorem Dev.sf_fixed : (d.sf a lo n x).fixed = d.fixed := rfl
@[simp] theorem Dev.sf_shadow : (d.sf a lo n x).shadow = d.shadow := rfl
@[simp] theorem Dev.sf_rdata : (d.sf a lo n x).rdata = d.rdata := rfl
@[simp] theorem Dev.sf_free : (d.sf a lo n x).free = d.free := rfl
@[simp] theorem Dev.sf_tb : (d.sf a lo n x).tb = d.tb := rfl
@[simp] theorem Dev.sf_tick : (d.sf a lo n x).tick = d.tick := rfl
@[simp] theorem Dev.sf_tg : (d.sf a lo n x).tg = d.tg := rfl
@[simp] theorem Dev.sf_intc : (d.sf a lo n x).intc = d.intc := rfl
@[simp] theorem Dev.sf_msixPend : (d.sf a lo n x).msixPend = d.msixPend := rfl
@[simp] theorem Dev.sf_tmr : (d.sf a lo n x).tmr = d.tmr := rfl
@[simp] theorem Dev.sf_obj : (d.sf a lo n x).obj = d.obj := rfl
@[simp] theorem Dev.sf_tile : (d.sf a lo n x).tile = d.tile := rfl
@[simp] theorem Dev.sf_slice : (d.sf a lo n x).slice = d.slice := rfl
@[simp] theorem Dev.sf_aux : (d.sf a lo n x).aux = d.aux := rfl
@[simp] theorem Dev.sf_slLog : (d.sf a lo n x).slLog = d.slLog := rfl
@[simp] theorem Dev.sf_dmLog : (d.sf a lo n x).dmLog = d.dmLog := rfl
@[simp] theorem Dev.sf_mx : (d.sf a lo n x).mx = d.mx := rfl
@[simp] theorem Dev.sf_vid : (d.sf a lo n x).vid = d.vid := rfl
@[simp] theorem Dev.sf_dm : (d.sf a lo n x).dm = d.dm := rfl
@[simp] theorem Dev.sf_fl : (d.sf a lo n x).fl = d.fl := rfl
@[simp] theorem Dev.sf_ftReq : (d.sf a lo n x).ftReq = d.ftReq := rfl
@[simp] theorem Dev.sf_dma : (d.sf a lo n x).dma = d.dma := rfl
@[simp] theorem Dev.sf_dmaHi : (d.sf a lo n x).dmaHi = d.dmaHi := rfl
@[simp] theorem Dev.sf_dmaLo : (d.sf a lo n x).dmaLo = d.dmaLo := rfl
@[simp] theorem Dev.sf_loaded : (d.sf a lo n x).loaded = d.loaded := rfl
@[simp] theorem Dev.sf_news : (d.sf a lo n x).news = d.news := rfl
@[simp] theorem Dev.sf_emuIdle : (d.sf a lo n x).emuIdle = d.emuIdle := rfl
@[simp] theorem Dev.sf_badWords : (d.sf a lo n x).badWords = d.badWords := rfl
@[simp] theorem Dev.sf_aud : (d.sf a lo n x).aud = d.aud := rfl
@[simp] theorem Dev.sf_hop : (d.sf a lo n x).hop = d.hop := rfl
@[simp] theorem Dev.sf_ring : (d.sf a lo n x).ring = d.ring := rfl
@[simp] theorem Dev.sf_hostq : (d.sf a lo n x).hostq = d.hostq := rfl
@[simp] theorem Dev.sf_pcie : (d.sf a lo n x).pcie = d.pcie := rfl
@[simp] theorem Dev.sf_winq : (d.sf a lo n x).winq = d.winq := rfl
@[simp] theorem Dev.sf_avlog : (d.sf a lo n x).avlog = d.avlog := rfl
@[simp] theorem Dev.sf_ceLog : (d.sf a lo n x).ceLog = d.ceLog := rfl
@[simp] theorem Dev.sf_msixEn : (d.sf a lo n x).msixEn = d.msixEn := rfl
@[simp] theorem Dev.sf_bltWm : (d.sf a lo n x).bltWm = d.bltWm := rfl
@[simp] theorem Dev.sf_bltSrc : (d.sf a lo n x).bltSrc = d.bltSrc := rfl
@[simp] theorem Dev.sf_bltAt : (d.sf a lo n x).bltAt = d.bltAt := rfl
@[simp] theorem Dev.sf_wakeAt : (d.sf a lo n x).wakeAt = d.wakeAt := rfl
@[simp] theorem Dev.sf_rbytes : (d.sf a lo n x).rbytes = d.rbytes := rfl
@[simp] theorem Dev.sf_cclk : (d.sf a lo n x).cclk = d.cclk := rfl
@[simp] theorem Dev.sf_later : (d.sf a lo n x).later = d.later := rfl
@[simp] theorem Dev.sf_pins : (d.sf a lo n x).pins = d.pins := rfl
@[simp] theorem Dev.sf_pio : (d.sf a lo n x).pio = d.pio := rfl
@[simp] theorem Dev.sf_core : (d.sf a lo n x).core = d.core := rfl
@[simp] theorem Dev.sf_coreFlags : (d.sf a lo n x).coreFlags = d.coreFlags := rfl
@[simp] theorem Dev.sf_startQ : (d.sf a lo n x).startQ = d.startQ := rfl
@[simp] theorem Dev.sf_restartQ : (d.sf a lo n x).restartQ = d.restartQ := rfl
@[simp] theorem Dev.sf_ue : (d.sf a lo n x).ue = d.ue := rfl
@[simp] theorem Dev.sf_av : (d.sf a lo n x).av = d.av := rfl
@[simp] theorem Dev.sf_lop : (d.sf a lo n x).lop = d.lop := rfl
@[simp] theorem Dev.sf_boot : (d.sf a lo n x).boot = d.boot := rfl
@[simp] theorem Dev.sf_upd : (d.sf a lo n x).upd = d.upd := rfl
@[simp] theorem Dev.sf_sec : (d.sf a lo n x).sec = d.sec := rfl
@[simp] theorem Dev.sf_dbg : (d.sf a lo n x).dbg = d.dbg := rfl
@[simp] theorem Dev.sf_power : (d.sf a lo n x).power = d.power := rfl
@[simp] theorem Dev.sf_lineShare : (d.sf a lo n x).lineShare = d.lineShare := rfl
@[simp] theorem Dev.sf_strSecs : (d.sf a lo n x).strSecs = d.strSecs := rfl
@[simp] theorem Dev.sf_dmWait : (d.sf a lo n x).dmWait = d.dmWait := rfl
@[simp] theorem Dev.sf_audWait : (d.sf a lo n x).audWait = d.audWait := rfl
@[simp] theorem Dev.sf_rawKeep : (d.sf a lo n x).rawKeep = d.rawKeep := rfl
@[simp] theorem Dev.add_inForce : (d.add a n).inForce = d.inForce := rfl
@[simp] theorem Dev.add_frames : (d.add a n).frames = d.frames := rfl
@[simp] theorem Dev.add_upds : (d.add a n).upds = d.upds := rfl
@[simp] theorem Dev.add_imgPhase : (d.add a n).imgPhase = d.imgPhase := rfl
@[simp] theorem Dev.add_fixed : (d.add a n).fixed = d.fixed := rfl
@[simp] theorem Dev.add_shadow : (d.add a n).shadow = d.shadow := rfl
@[simp] theorem Dev.add_rdata : (d.add a n).rdata = d.rdata := rfl
@[simp] theorem Dev.add_free : (d.add a n).free = d.free := rfl
@[simp] theorem Dev.add_tb : (d.add a n).tb = d.tb := rfl
@[simp] theorem Dev.add_tick : (d.add a n).tick = d.tick := rfl
@[simp] theorem Dev.add_tg : (d.add a n).tg = d.tg := rfl
@[simp] theorem Dev.add_intc : (d.add a n).intc = d.intc := rfl
@[simp] theorem Dev.add_msixPend : (d.add a n).msixPend = d.msixPend := rfl
@[simp] theorem Dev.add_tmr : (d.add a n).tmr = d.tmr := rfl
@[simp] theorem Dev.add_obj : (d.add a n).obj = d.obj := rfl
@[simp] theorem Dev.add_tile : (d.add a n).tile = d.tile := rfl
@[simp] theorem Dev.add_slice : (d.add a n).slice = d.slice := rfl
@[simp] theorem Dev.add_aux : (d.add a n).aux = d.aux := rfl
@[simp] theorem Dev.add_slLog : (d.add a n).slLog = d.slLog := rfl
@[simp] theorem Dev.add_dmLog : (d.add a n).dmLog = d.dmLog := rfl
@[simp] theorem Dev.add_mx : (d.add a n).mx = d.mx := rfl
@[simp] theorem Dev.add_vid : (d.add a n).vid = d.vid := rfl
@[simp] theorem Dev.add_dm : (d.add a n).dm = d.dm := rfl
@[simp] theorem Dev.add_fl : (d.add a n).fl = d.fl := rfl
@[simp] theorem Dev.add_ftReq : (d.add a n).ftReq = d.ftReq := rfl
@[simp] theorem Dev.add_dma : (d.add a n).dma = d.dma := rfl
@[simp] theorem Dev.add_dmaHi : (d.add a n).dmaHi = d.dmaHi := rfl
@[simp] theorem Dev.add_dmaLo : (d.add a n).dmaLo = d.dmaLo := rfl
@[simp] theorem Dev.add_loaded : (d.add a n).loaded = d.loaded := rfl
@[simp] theorem Dev.add_news : (d.add a n).news = d.news := rfl
@[simp] theorem Dev.add_emuIdle : (d.add a n).emuIdle = d.emuIdle := rfl
@[simp] theorem Dev.add_badWords : (d.add a n).badWords = d.badWords := rfl
@[simp] theorem Dev.add_aud : (d.add a n).aud = d.aud := rfl
@[simp] theorem Dev.add_hop : (d.add a n).hop = d.hop := rfl
@[simp] theorem Dev.add_ring : (d.add a n).ring = d.ring := rfl
@[simp] theorem Dev.add_hostq : (d.add a n).hostq = d.hostq := rfl
@[simp] theorem Dev.add_pcie : (d.add a n).pcie = d.pcie := rfl
@[simp] theorem Dev.add_winq : (d.add a n).winq = d.winq := rfl
@[simp] theorem Dev.add_avlog : (d.add a n).avlog = d.avlog := rfl
@[simp] theorem Dev.add_ceLog : (d.add a n).ceLog = d.ceLog := rfl
@[simp] theorem Dev.add_msixEn : (d.add a n).msixEn = d.msixEn := rfl
@[simp] theorem Dev.add_bltWm : (d.add a n).bltWm = d.bltWm := rfl
@[simp] theorem Dev.add_bltSrc : (d.add a n).bltSrc = d.bltSrc := rfl
@[simp] theorem Dev.add_bltAt : (d.add a n).bltAt = d.bltAt := rfl
@[simp] theorem Dev.add_wakeAt : (d.add a n).wakeAt = d.wakeAt := rfl
@[simp] theorem Dev.add_rbytes : (d.add a n).rbytes = d.rbytes := rfl
@[simp] theorem Dev.add_cclk : (d.add a n).cclk = d.cclk := rfl
@[simp] theorem Dev.add_later : (d.add a n).later = d.later := rfl
@[simp] theorem Dev.add_pins : (d.add a n).pins = d.pins := rfl
@[simp] theorem Dev.add_pio : (d.add a n).pio = d.pio := rfl
@[simp] theorem Dev.add_core : (d.add a n).core = d.core := rfl
@[simp] theorem Dev.add_coreFlags : (d.add a n).coreFlags = d.coreFlags := rfl
@[simp] theorem Dev.add_startQ : (d.add a n).startQ = d.startQ := rfl
@[simp] theorem Dev.add_restartQ : (d.add a n).restartQ = d.restartQ := rfl
@[simp] theorem Dev.add_ue : (d.add a n).ue = d.ue := rfl
@[simp] theorem Dev.add_av : (d.add a n).av = d.av := rfl
@[simp] theorem Dev.add_lop : (d.add a n).lop = d.lop := rfl
@[simp] theorem Dev.add_boot : (d.add a n).boot = d.boot := rfl
@[simp] theorem Dev.add_upd : (d.add a n).upd = d.upd := rfl
@[simp] theorem Dev.add_sec : (d.add a n).sec = d.sec := rfl
@[simp] theorem Dev.add_dbg : (d.add a n).dbg = d.dbg := rfl
@[simp] theorem Dev.add_power : (d.add a n).power = d.power := rfl
@[simp] theorem Dev.add_lineShare : (d.add a n).lineShare = d.lineShare := rfl
@[simp] theorem Dev.add_strSecs : (d.add a n).strSecs = d.strSecs := rfl
@[simp] theorem Dev.add_dmWait : (d.add a n).dmWait = d.dmWait := rfl
@[simp] theorem Dev.add_audWait : (d.add a n).audWait = d.audWait := rfl
@[simp] theorem Dev.add_rawKeep : (d.add a n).rawKeep = d.rawKeep := rfl
@[simp] theorem Dev.inc_inForce : (d.inc a).inForce = d.inForce := rfl
@[simp] theorem Dev.inc_frames : (d.inc a).frames = d.frames := rfl
@[simp] theorem Dev.inc_upds : (d.inc a).upds = d.upds := rfl
@[simp] theorem Dev.inc_imgPhase : (d.inc a).imgPhase = d.imgPhase := rfl
@[simp] theorem Dev.inc_fixed : (d.inc a).fixed = d.fixed := rfl
@[simp] theorem Dev.inc_shadow : (d.inc a).shadow = d.shadow := rfl
@[simp] theorem Dev.inc_rdata : (d.inc a).rdata = d.rdata := rfl
@[simp] theorem Dev.inc_free : (d.inc a).free = d.free := rfl
@[simp] theorem Dev.inc_tb : (d.inc a).tb = d.tb := rfl
@[simp] theorem Dev.inc_tick : (d.inc a).tick = d.tick := rfl
@[simp] theorem Dev.inc_tg : (d.inc a).tg = d.tg := rfl
@[simp] theorem Dev.inc_intc : (d.inc a).intc = d.intc := rfl
@[simp] theorem Dev.inc_msixPend : (d.inc a).msixPend = d.msixPend := rfl
@[simp] theorem Dev.inc_tmr : (d.inc a).tmr = d.tmr := rfl
@[simp] theorem Dev.inc_obj : (d.inc a).obj = d.obj := rfl
@[simp] theorem Dev.inc_tile : (d.inc a).tile = d.tile := rfl
@[simp] theorem Dev.inc_slice : (d.inc a).slice = d.slice := rfl
@[simp] theorem Dev.inc_aux : (d.inc a).aux = d.aux := rfl
@[simp] theorem Dev.inc_slLog : (d.inc a).slLog = d.slLog := rfl
@[simp] theorem Dev.inc_dmLog : (d.inc a).dmLog = d.dmLog := rfl
@[simp] theorem Dev.inc_mx : (d.inc a).mx = d.mx := rfl
@[simp] theorem Dev.inc_vid : (d.inc a).vid = d.vid := rfl
@[simp] theorem Dev.inc_dm : (d.inc a).dm = d.dm := rfl
@[simp] theorem Dev.inc_fl : (d.inc a).fl = d.fl := rfl
@[simp] theorem Dev.inc_ftReq : (d.inc a).ftReq = d.ftReq := rfl
@[simp] theorem Dev.inc_dma : (d.inc a).dma = d.dma := rfl
@[simp] theorem Dev.inc_dmaHi : (d.inc a).dmaHi = d.dmaHi := rfl
@[simp] theorem Dev.inc_dmaLo : (d.inc a).dmaLo = d.dmaLo := rfl
@[simp] theorem Dev.inc_loaded : (d.inc a).loaded = d.loaded := rfl
@[simp] theorem Dev.inc_news : (d.inc a).news = d.news := rfl
@[simp] theorem Dev.inc_emuIdle : (d.inc a).emuIdle = d.emuIdle := rfl
@[simp] theorem Dev.inc_badWords : (d.inc a).badWords = d.badWords := rfl
@[simp] theorem Dev.inc_aud : (d.inc a).aud = d.aud := rfl
@[simp] theorem Dev.inc_hop : (d.inc a).hop = d.hop := rfl
@[simp] theorem Dev.inc_ring : (d.inc a).ring = d.ring := rfl
@[simp] theorem Dev.inc_hostq : (d.inc a).hostq = d.hostq := rfl
@[simp] theorem Dev.inc_pcie : (d.inc a).pcie = d.pcie := rfl
@[simp] theorem Dev.inc_winq : (d.inc a).winq = d.winq := rfl
@[simp] theorem Dev.inc_avlog : (d.inc a).avlog = d.avlog := rfl
@[simp] theorem Dev.inc_ceLog : (d.inc a).ceLog = d.ceLog := rfl
@[simp] theorem Dev.inc_msixEn : (d.inc a).msixEn = d.msixEn := rfl
@[simp] theorem Dev.inc_bltWm : (d.inc a).bltWm = d.bltWm := rfl
@[simp] theorem Dev.inc_bltSrc : (d.inc a).bltSrc = d.bltSrc := rfl
@[simp] theorem Dev.inc_bltAt : (d.inc a).bltAt = d.bltAt := rfl
@[simp] theorem Dev.inc_wakeAt : (d.inc a).wakeAt = d.wakeAt := rfl
@[simp] theorem Dev.inc_rbytes : (d.inc a).rbytes = d.rbytes := rfl
@[simp] theorem Dev.inc_cclk : (d.inc a).cclk = d.cclk := rfl
@[simp] theorem Dev.inc_later : (d.inc a).later = d.later := rfl
@[simp] theorem Dev.inc_pins : (d.inc a).pins = d.pins := rfl
@[simp] theorem Dev.inc_pio : (d.inc a).pio = d.pio := rfl
@[simp] theorem Dev.inc_core : (d.inc a).core = d.core := rfl
@[simp] theorem Dev.inc_coreFlags : (d.inc a).coreFlags = d.coreFlags := rfl
@[simp] theorem Dev.inc_startQ : (d.inc a).startQ = d.startQ := rfl
@[simp] theorem Dev.inc_restartQ : (d.inc a).restartQ = d.restartQ := rfl
@[simp] theorem Dev.inc_ue : (d.inc a).ue = d.ue := rfl
@[simp] theorem Dev.inc_av : (d.inc a).av = d.av := rfl
@[simp] theorem Dev.inc_lop : (d.inc a).lop = d.lop := rfl
@[simp] theorem Dev.inc_boot : (d.inc a).boot = d.boot := rfl
@[simp] theorem Dev.inc_upd : (d.inc a).upd = d.upd := rfl
@[simp] theorem Dev.inc_sec : (d.inc a).sec = d.sec := rfl
@[simp] theorem Dev.inc_dbg : (d.inc a).dbg = d.dbg := rfl
@[simp] theorem Dev.inc_power : (d.inc a).power = d.power := rfl
@[simp] theorem Dev.inc_lineShare : (d.inc a).lineShare = d.lineShare := rfl
@[simp] theorem Dev.inc_strSecs : (d.inc a).strSecs = d.strSecs := rfl
@[simp] theorem Dev.inc_dmWait : (d.inc a).dmWait = d.dmWait := rfl
@[simp] theorem Dev.inc_audWait : (d.inc a).audWait = d.audWait := rfl
@[simp] theorem Dev.inc_rawKeep : (d.inc a).rawKeep = d.rawKeep := rfl
end

/-! ### The indexed stores: what each change leaves -/

section
variable (d : Dev) (n p a : Nat)

@[simp] theorem Dev.onTg_regs (f : Tg → Tg) : (d.onTg n f).regs = d.regs := rfl
@[simp] theorem Dev.onTg_inForce (f : Tg → Tg) : (d.onTg n f).inForce = d.inForce := rfl
@[simp] theorem Dev.onTg_rdata (f : Tg → Tg) : (d.onTg n f).rdata = d.rdata := rfl
@[simp] theorem Dev.onTg_free (f : Tg → Tg) : (d.onTg n f).free = d.free := rfl
@[simp] theorem Dev.onTg_tb (f : Tg → Tg) : (d.onTg n f).tb = d.tb := rfl
@[simp] theorem Dev.onTg_tick (f : Tg → Tg) : (d.onTg n f).tick = d.tick := rfl
@[simp] theorem Dev.onTg_intc (f : Tg → Tg) : (d.onTg n f).intc = d.intc := rfl
@[simp] theorem Dev.onTg_aux (f : Tg → Tg) : (d.onTg n f).aux = d.aux := rfl
@[simp] theorem Dev.onTg_badWords (f : Tg → Tg) : (d.onTg n f).badWords = d.badWords := rfl
@[simp] theorem Dev.onTg_pins (f : Tg → Tg) : (d.onTg n f).pins = d.pins := rfl
@[simp] theorem Dev.onTg_core (f : Tg → Tg) : (d.onTg n f).core = d.core := rfl
@[simp] theorem Dev.onTg_power (f : Tg → Tg) : (d.onTg n f).power = d.power := rfl
@[simp] theorem Dev.rg_onTg (f : Tg → Tg) : (d.onTg n f).rg a = d.rg a := rfl
theorem Dev.tgAt_onTg (f : Tg → Tg) : (d.onTg n f).tgAt p = if n = p then f (d.tgAt n) else d.tgAt p := Tab.get_modify
@[simp] theorem Dev.onIntc_regs (f : Intc → Intc) : (d.onIntc n f).regs = d.regs := rfl
@[simp] theorem Dev.onIntc_inForce (f : Intc → Intc) : (d.onIntc n f).inForce = d.inForce := rfl
@[simp] theorem Dev.onIntc_rdata (f : Intc → Intc) : (d.onIntc n f).rdata = d.rdata := rfl
@[simp] theorem Dev.onIntc_free (f : Intc → Intc) : (d.onIntc n f).free = d.free := rfl
@[simp] theorem Dev.onIntc_tb (f : Intc → Intc) : (d.onIntc n f).tb = d.tb := rfl
@[simp] theorem Dev.onIntc_tick (f : Intc → Intc) : (d.onIntc n f).tick = d.tick := rfl
@[simp] theorem Dev.onIntc_aux (f : Intc → Intc) : (d.onIntc n f).aux = d.aux := rfl
@[simp] theorem Dev.onIntc_badWords (f : Intc → Intc) : (d.onIntc n f).badWords = d.badWords := rfl
@[simp] theorem Dev.onIntc_pins (f : Intc → Intc) : (d.onIntc n f).pins = d.pins := rfl
@[simp] theorem Dev.onIntc_core (f : Intc → Intc) : (d.onIntc n f).core = d.core := rfl
@[simp] theorem Dev.onIntc_power (f : Intc → Intc) : (d.onIntc n f).power = d.power := rfl
@[simp] theorem Dev.rg_onIntc (f : Intc → Intc) : (d.onIntc n f).rg a = d.rg a := rfl
theorem Dev.intcAt_onIntc (f : Intc → Intc) : (d.onIntc n f).intcAt p = if n = p then f (d.intcAt n) else d.intcAt p := Tab.get_modify
@[simp] theorem Dev.onTmr_regs (f : TmrCh → TmrCh) : (d.onTmr n f).regs = d.regs := rfl
@[simp] theorem Dev.onTmr_inForce (f : TmrCh → TmrCh) : (d.onTmr n f).inForce = d.inForce := rfl
@[simp] theorem Dev.onTmr_rdata (f : TmrCh → TmrCh) : (d.onTmr n f).rdata = d.rdata := rfl
@[simp] theorem Dev.onTmr_free (f : TmrCh → TmrCh) : (d.onTmr n f).free = d.free := rfl
@[simp] theorem Dev.onTmr_tb (f : TmrCh → TmrCh) : (d.onTmr n f).tb = d.tb := rfl
@[simp] theorem Dev.onTmr_tick (f : TmrCh → TmrCh) : (d.onTmr n f).tick = d.tick := rfl
@[simp] theorem Dev.onTmr_intc (f : TmrCh → TmrCh) : (d.onTmr n f).intc = d.intc := rfl
@[simp] theorem Dev.onTmr_aux (f : TmrCh → TmrCh) : (d.onTmr n f).aux = d.aux := rfl
@[simp] theorem Dev.onTmr_badWords (f : TmrCh → TmrCh) : (d.onTmr n f).badWords = d.badWords := rfl
@[simp] theorem Dev.onTmr_pins (f : TmrCh → TmrCh) : (d.onTmr n f).pins = d.pins := rfl
@[simp] theorem Dev.onTmr_core (f : TmrCh → TmrCh) : (d.onTmr n f).core = d.core := rfl
@[simp] theorem Dev.onTmr_power (f : TmrCh → TmrCh) : (d.onTmr n f).power = d.power := rfl
@[simp] theorem Dev.rg_onTmr (f : TmrCh → TmrCh) : (d.onTmr n f).rg a = d.rg a := rfl
theorem Dev.tmrAt_onTmr (f : TmrCh → TmrCh) : (d.onTmr n f).tmrAt p = if n = p then f (d.tmrAt n) else d.tmrAt p := Tab.get_modify
@[simp] theorem Dev.onMx_regs (f : MxOut → MxOut) : (d.onMx n f).regs = d.regs := rfl
@[simp] theorem Dev.onMx_inForce (f : MxOut → MxOut) : (d.onMx n f).inForce = d.inForce := rfl
@[simp] theorem Dev.onMx_rdata (f : MxOut → MxOut) : (d.onMx n f).rdata = d.rdata := rfl
@[simp] theorem Dev.onMx_free (f : MxOut → MxOut) : (d.onMx n f).free = d.free := rfl
@[simp] theorem Dev.onMx_tb (f : MxOut → MxOut) : (d.onMx n f).tb = d.tb := rfl
@[simp] theorem Dev.onMx_tick (f : MxOut → MxOut) : (d.onMx n f).tick = d.tick := rfl
@[simp] theorem Dev.onMx_intc (f : MxOut → MxOut) : (d.onMx n f).intc = d.intc := rfl
@[simp] theorem Dev.onMx_aux (f : MxOut → MxOut) : (d.onMx n f).aux = d.aux := rfl
@[simp] theorem Dev.onMx_badWords (f : MxOut → MxOut) : (d.onMx n f).badWords = d.badWords := rfl
@[simp] theorem Dev.onMx_pins (f : MxOut → MxOut) : (d.onMx n f).pins = d.pins := rfl
@[simp] theorem Dev.onMx_core (f : MxOut → MxOut) : (d.onMx n f).core = d.core := rfl
@[simp] theorem Dev.onMx_power (f : MxOut → MxOut) : (d.onMx n f).power = d.power := rfl
@[simp] theorem Dev.rg_onMx (f : MxOut → MxOut) : (d.onMx n f).rg a = d.rg a := rfl
theorem Dev.mxAt_onMx (f : MxOut → MxOut) : (d.onMx n f).mxAt p = if n = p then f (d.mxAt n) else d.mxAt p := Tab.get_modify
@[simp] theorem Dev.onSlice_regs (f : Slice → Slice) : (d.onSlice n f).regs = d.regs := rfl
@[simp] theorem Dev.onSlice_inForce (f : Slice → Slice) : (d.onSlice n f).inForce = d.inForce := rfl
@[simp] theorem Dev.onSlice_rdata (f : Slice → Slice) : (d.onSlice n f).rdata = d.rdata := rfl
@[simp] theorem Dev.onSlice_free (f : Slice → Slice) : (d.onSlice n f).free = d.free := rfl
@[simp] theorem Dev.onSlice_tb (f : Slice → Slice) : (d.onSlice n f).tb = d.tb := rfl
@[simp] theorem Dev.onSlice_tick (f : Slice → Slice) : (d.onSlice n f).tick = d.tick := rfl
@[simp] theorem Dev.onSlice_intc (f : Slice → Slice) : (d.onSlice n f).intc = d.intc := rfl
@[simp] theorem Dev.onSlice_aux (f : Slice → Slice) : (d.onSlice n f).aux = d.aux := rfl
@[simp] theorem Dev.onSlice_badWords (f : Slice → Slice) : (d.onSlice n f).badWords = d.badWords := rfl
@[simp] theorem Dev.onSlice_pins (f : Slice → Slice) : (d.onSlice n f).pins = d.pins := rfl
@[simp] theorem Dev.onSlice_core (f : Slice → Slice) : (d.onSlice n f).core = d.core := rfl
@[simp] theorem Dev.onSlice_power (f : Slice → Slice) : (d.onSlice n f).power = d.power := rfl
@[simp] theorem Dev.rg_onSlice (f : Slice → Slice) : (d.onSlice n f).rg a = d.rg a := rfl
theorem Dev.sliceAt_onSlice (f : Slice → Slice) : (d.onSlice n f).sliceAt p = if n = p then f (d.sliceAt n) else d.sliceAt p := Tab.get_modify
@[simp] theorem Dev.onVid_regs (f : VidPlane → VidPlane) : (d.onVid n p f).regs = d.regs := rfl
@[simp] theorem Dev.onVid_inForce (f : VidPlane → VidPlane) : (d.onVid n p f).inForce = d.inForce := rfl
@[simp] theorem Dev.onVid_rdata (f : VidPlane → VidPlane) : (d.onVid n p f).rdata = d.rdata := rfl
@[simp] theorem Dev.onVid_free (f : VidPlane → VidPlane) : (d.onVid n p f).free = d.free := rfl
@[simp] theorem Dev.onVid_tb (f : VidPlane → VidPlane) : (d.onVid n p f).tb = d.tb := rfl
@[simp] theorem Dev.onVid_tick (f : VidPlane → VidPlane) : (d.onVid n p f).tick = d.tick := rfl
@[simp] theorem Dev.onVid_intc (f : VidPlane → VidPlane) : (d.onVid n p f).intc = d.intc := rfl
@[simp] theorem Dev.onVid_aux (f : VidPlane → VidPlane) : (d.onVid n p f).aux = d.aux := rfl
@[simp] theorem Dev.onVid_badWords (f : VidPlane → VidPlane) : (d.onVid n p f).badWords = d.badWords := rfl
@[simp] theorem Dev.onVid_pins (f : VidPlane → VidPlane) : (d.onVid n p f).pins = d.pins := rfl
@[simp] theorem Dev.onVid_core (f : VidPlane → VidPlane) : (d.onVid n p f).core = d.core := rfl
@[simp] theorem Dev.onVid_power (f : VidPlane → VidPlane) : (d.onVid n p f).power = d.power := rfl
@[simp] theorem Dev.rg_onVid (f : VidPlane → VidPlane) : (d.onVid n p f).rg a = d.rg a := rfl
@[simp] theorem Dev.onDm_regs (f : Dm → Dm) : (d.onDm n f).regs = d.regs := rfl
@[simp] theorem Dev.onDm_inForce (f : Dm → Dm) : (d.onDm n f).inForce = d.inForce := rfl
@[simp] theorem Dev.onDm_rdata (f : Dm → Dm) : (d.onDm n f).rdata = d.rdata := rfl
@[simp] theorem Dev.onDm_free (f : Dm → Dm) : (d.onDm n f).free = d.free := rfl
@[simp] theorem Dev.onDm_tb (f : Dm → Dm) : (d.onDm n f).tb = d.tb := rfl
@[simp] theorem Dev.onDm_tick (f : Dm → Dm) : (d.onDm n f).tick = d.tick := rfl
@[simp] theorem Dev.onDm_intc (f : Dm → Dm) : (d.onDm n f).intc = d.intc := rfl
@[simp] theorem Dev.onDm_aux (f : Dm → Dm) : (d.onDm n f).aux = d.aux := rfl
@[simp] theorem Dev.onDm_badWords (f : Dm → Dm) : (d.onDm n f).badWords = d.badWords := rfl
@[simp] theorem Dev.onDm_pins (f : Dm → Dm) : (d.onDm n f).pins = d.pins := rfl
@[simp] theorem Dev.onDm_core (f : Dm → Dm) : (d.onDm n f).core = d.core := rfl
@[simp] theorem Dev.onDm_power (f : Dm → Dm) : (d.onDm n f).power = d.power := rfl
@[simp] theorem Dev.rg_onDm (f : Dm → Dm) : (d.onDm n f).rg a = d.rg a := rfl
theorem Dev.dmAt_onDm (f : Dm → Dm) : (d.onDm n f).dmAt p = if n = p then f (d.dmAt n) else d.dmAt p := Tab.get_modify
@[simp] theorem Dev.onFl_regs (f : Fl → Fl) : (d.onFl n f).regs = d.regs := rfl
@[simp] theorem Dev.onFl_inForce (f : Fl → Fl) : (d.onFl n f).inForce = d.inForce := rfl
@[simp] theorem Dev.onFl_rdata (f : Fl → Fl) : (d.onFl n f).rdata = d.rdata := rfl
@[simp] theorem Dev.onFl_free (f : Fl → Fl) : (d.onFl n f).free = d.free := rfl
@[simp] theorem Dev.onFl_tb (f : Fl → Fl) : (d.onFl n f).tb = d.tb := rfl
@[simp] theorem Dev.onFl_tick (f : Fl → Fl) : (d.onFl n f).tick = d.tick := rfl
@[simp] theorem Dev.onFl_intc (f : Fl → Fl) : (d.onFl n f).intc = d.intc := rfl
@[simp] theorem Dev.onFl_aux (f : Fl → Fl) : (d.onFl n f).aux = d.aux := rfl
@[simp] theorem Dev.onFl_badWords (f : Fl → Fl) : (d.onFl n f).badWords = d.badWords := rfl
@[simp] theorem Dev.onFl_pins (f : Fl → Fl) : (d.onFl n f).pins = d.pins := rfl
@[simp] theorem Dev.onFl_core (f : Fl → Fl) : (d.onFl n f).core = d.core := rfl
@[simp] theorem Dev.onFl_power (f : Fl → Fl) : (d.onFl n f).power = d.power := rfl
@[simp] theorem Dev.rg_onFl (f : Fl → Fl) : (d.onFl n f).rg a = d.rg a := rfl
theorem Dev.flAt_onFl (f : Fl → Fl) : (d.onFl n f).flAt p = if n = p then f (d.flAt n) else d.flAt p := Tab.get_modify
@[simp] theorem Dev.onCore_regs (f : Core → Core) : (d.onCore n f).regs = d.regs := rfl
@[simp] theorem Dev.onCore_inForce (f : Core → Core) : (d.onCore n f).inForce = d.inForce := rfl
@[simp] theorem Dev.onCore_rdata (f : Core → Core) : (d.onCore n f).rdata = d.rdata := rfl
@[simp] theorem Dev.onCore_free (f : Core → Core) : (d.onCore n f).free = d.free := rfl
@[simp] theorem Dev.onCore_tb (f : Core → Core) : (d.onCore n f).tb = d.tb := rfl
@[simp] theorem Dev.onCore_tick (f : Core → Core) : (d.onCore n f).tick = d.tick := rfl
@[simp] theorem Dev.onCore_intc (f : Core → Core) : (d.onCore n f).intc = d.intc := rfl
@[simp] theorem Dev.onCore_aux (f : Core → Core) : (d.onCore n f).aux = d.aux := rfl
@[simp] theorem Dev.onCore_badWords (f : Core → Core) : (d.onCore n f).badWords = d.badWords := rfl
@[simp] theorem Dev.onCore_pins (f : Core → Core) : (d.onCore n f).pins = d.pins := rfl
@[simp] theorem Dev.onCore_power (f : Core → Core) : (d.onCore n f).power = d.power := rfl
@[simp] theorem Dev.rg_onCore (f : Core → Core) : (d.onCore n f).rg a = d.rg a := rfl
theorem Dev.coreAt_onCore (f : Core → Core) : (d.onCore n f).coreAt p = if n = p then f (d.coreAt n) else d.coreAt p := Tab.get_modify
@[simp] theorem Dev.onDma_regs (f : DmaCh → DmaCh) : (d.onDma n f).regs = d.regs := rfl
@[simp] theorem Dev.onDma_inForce (f : DmaCh → DmaCh) : (d.onDma n f).inForce = d.inForce := rfl
@[simp] theorem Dev.onDma_rdata (f : DmaCh → DmaCh) : (d.onDma n f).rdata = d.rdata := rfl
@[simp] theorem Dev.onDma_free (f : DmaCh → DmaCh) : (d.onDma n f).free = d.free := rfl
@[simp] theorem Dev.onDma_tb (f : DmaCh → DmaCh) : (d.onDma n f).tb = d.tb := rfl
@[simp] theorem Dev.onDma_tick (f : DmaCh → DmaCh) : (d.onDma n f).tick = d.tick := rfl
@[simp] theorem Dev.onDma_intc (f : DmaCh → DmaCh) : (d.onDma n f).intc = d.intc := rfl
@[simp] theorem Dev.onDma_aux (f : DmaCh → DmaCh) : (d.onDma n f).aux = d.aux := rfl
@[simp] theorem Dev.onDma_badWords (f : DmaCh → DmaCh) : (d.onDma n f).badWords = d.badWords := rfl
@[simp] theorem Dev.onDma_pins (f : DmaCh → DmaCh) : (d.onDma n f).pins = d.pins := rfl
@[simp] theorem Dev.onDma_core (f : DmaCh → DmaCh) : (d.onDma n f).core = d.core := rfl
@[simp] theorem Dev.onDma_power (f : DmaCh → DmaCh) : (d.onDma n f).power = d.power := rfl
@[simp] theorem Dev.rg_onDma (f : DmaCh → DmaCh) : (d.onDma n f).rg a = d.rg a := rfl
theorem Dev.dmaAt_onDma (f : DmaCh → DmaCh) : (d.onDma n f).dmaAt p = if n = p then f (d.dmaAt n) else d.dmaAt p := Tab.get_modify
@[simp] theorem Dev.onPio_regs (f : PioEng → PioEng) : (d.onPio n f).regs = d.regs := rfl
@[simp] theorem Dev.onPio_inForce (f : PioEng → PioEng) : (d.onPio n f).inForce = d.inForce := rfl
@[simp] theorem Dev.onPio_rdata (f : PioEng → PioEng) : (d.onPio n f).rdata = d.rdata := rfl
@[simp] theorem Dev.onPio_free (f : PioEng → PioEng) : (d.onPio n f).free = d.free := rfl
@[simp] theorem Dev.onPio_tb (f : PioEng → PioEng) : (d.onPio n f).tb = d.tb := rfl
@[simp] theorem Dev.onPio_tick (f : PioEng → PioEng) : (d.onPio n f).tick = d.tick := rfl
@[simp] theorem Dev.onPio_intc (f : PioEng → PioEng) : (d.onPio n f).intc = d.intc := rfl
@[simp] theorem Dev.onPio_aux (f : PioEng → PioEng) : (d.onPio n f).aux = d.aux := rfl
@[simp] theorem Dev.onPio_badWords (f : PioEng → PioEng) : (d.onPio n f).badWords = d.badWords := rfl
@[simp] theorem Dev.onPio_pins (f : PioEng → PioEng) : (d.onPio n f).pins = d.pins := rfl
@[simp] theorem Dev.onPio_core (f : PioEng → PioEng) : (d.onPio n f).core = d.core := rfl
@[simp] theorem Dev.onPio_power (f : PioEng → PioEng) : (d.onPio n f).power = d.power := rfl
@[simp] theorem Dev.rg_onPio (f : PioEng → PioEng) : (d.onPio n f).rg a = d.rg a := rfl
@[simp] theorem Dev.onLop_regs (f : Lop → Lop) : (d.onLop n f).regs = d.regs := rfl
@[simp] theorem Dev.onLop_inForce (f : Lop → Lop) : (d.onLop n f).inForce = d.inForce := rfl
@[simp] theorem Dev.onLop_rdata (f : Lop → Lop) : (d.onLop n f).rdata = d.rdata := rfl
@[simp] theorem Dev.onLop_free (f : Lop → Lop) : (d.onLop n f).free = d.free := rfl
@[simp] theorem Dev.onLop_tb (f : Lop → Lop) : (d.onLop n f).tb = d.tb := rfl
@[simp] theorem Dev.onLop_tick (f : Lop → Lop) : (d.onLop n f).tick = d.tick := rfl
@[simp] theorem Dev.onLop_intc (f : Lop → Lop) : (d.onLop n f).intc = d.intc := rfl
@[simp] theorem Dev.onLop_aux (f : Lop → Lop) : (d.onLop n f).aux = d.aux := rfl
@[simp] theorem Dev.onLop_badWords (f : Lop → Lop) : (d.onLop n f).badWords = d.badWords := rfl
@[simp] theorem Dev.onLop_pins (f : Lop → Lop) : (d.onLop n f).pins = d.pins := rfl
@[simp] theorem Dev.onLop_core (f : Lop → Lop) : (d.onLop n f).core = d.core := rfl
@[simp] theorem Dev.onLop_power (f : Lop → Lop) : (d.onLop n f).power = d.power := rfl
@[simp] theorem Dev.rg_onLop (f : Lop → Lop) : (d.onLop n f).rg a = d.rg a := rfl
end

/-! ### The blocks held once: what each change leaves -/

section
variable (d : Dev) (a : Nat)

@[simp] theorem Dev.onTick_tick (f : Tick → Tick) : (d.onTick f).tick = f d.tick := rfl
@[simp] theorem Dev.onTick_regs (f : Tick → Tick) : (d.onTick f).regs = d.regs := rfl
@[simp] theorem Dev.onTick_inForce (f : Tick → Tick) : (d.onTick f).inForce = d.inForce := rfl
@[simp] theorem Dev.onTick_rdata (f : Tick → Tick) : (d.onTick f).rdata = d.rdata := rfl
@[simp] theorem Dev.onTick_free (f : Tick → Tick) : (d.onTick f).free = d.free := rfl
@[simp] theorem Dev.onTick_tb (f : Tick → Tick) : (d.onTick f).tb = d.tb := rfl
@[simp] theorem Dev.onTick_intc (f : Tick → Tick) : (d.onTick f).intc = d.intc := rfl
@[simp] theorem Dev.onTick_aux (f : Tick → Tick) : (d.onTick f).aux = d.aux := rfl
@[simp] theorem Dev.onTick_badWords (f : Tick → Tick) : (d.onTick f).badWords = d.badWords := rfl
@[simp] theorem Dev.onTick_pins (f : Tick → Tick) : (d.onTick f).pins = d.pins := rfl
@[simp] theorem Dev.onTick_core (f : Tick → Tick) : (d.onTick f).core = d.core := rfl
@[simp] theorem Dev.onTick_power (f : Tick → Tick) : (d.onTick f).power = d.power := rfl
@[simp] theorem Dev.rg_onTick (f : Tick → Tick) : (d.onTick f).rg a = d.rg a := rfl
@[simp] theorem Dev.onObj_obj (f : ObjSt → ObjSt) : (d.onObj f).obj = f d.obj := rfl
@[simp] theorem Dev.onObj_regs (f : ObjSt → ObjSt) : (d.onObj f).regs = d.regs := rfl
@[simp] theorem Dev.onObj_inForce (f : ObjSt → ObjSt) : (d.onObj f).inForce = d.inForce := rfl
@[simp] theorem Dev.onObj_rdata (f : ObjSt → ObjSt) : (d.onObj f).rdata = d.rdata := rfl
@[simp] theorem Dev.onObj_free (f : ObjSt → ObjSt) : (d.onObj f).free = d.free := rfl
@[simp] theorem Dev.onObj_tb (f : ObjSt → ObjSt) : (d.onObj f).tb = d.tb := rfl
@[simp] theorem Dev.onObj_tick (f : ObjSt → ObjSt) : (d.onObj f).tick = d.tick := rfl
@[simp] theorem Dev.onObj_intc (f : ObjSt → ObjSt) : (d.onObj f).intc = d.intc := rfl
@[simp] theorem Dev.onObj_aux (f : ObjSt → ObjSt) : (d.onObj f).aux = d.aux := rfl
@[simp] theorem Dev.onObj_badWords (f : ObjSt → ObjSt) : (d.onObj f).badWords = d.badWords := rfl
@[simp] theorem Dev.onObj_pins (f : ObjSt → ObjSt) : (d.onObj f).pins = d.pins := rfl
@[simp] theorem Dev.onObj_core (f : ObjSt → ObjSt) : (d.onObj f).core = d.core := rfl
@[simp] theorem Dev.onObj_power (f : ObjSt → ObjSt) : (d.onObj f).power = d.power := rfl
@[simp] theorem Dev.rg_onObj (f : ObjSt → ObjSt) : (d.onObj f).rg a = d.rg a := rfl
@[simp] theorem Dev.onTile_tile (f : TileSt → TileSt) : (d.onTile f).tile = f d.tile := rfl
@[simp] theorem Dev.onTile_regs (f : TileSt → TileSt) : (d.onTile f).regs = d.regs := rfl
@[simp] theorem Dev.onTile_inForce (f : TileSt → TileSt) : (d.onTile f).inForce = d.inForce := rfl
@[simp] theorem Dev.onTile_rdata (f : TileSt → TileSt) : (d.onTile f).rdata = d.rdata := rfl
@[simp] theorem Dev.onTile_free (f : TileSt → TileSt) : (d.onTile f).free = d.free := rfl
@[simp] theorem Dev.onTile_tb (f : TileSt → TileSt) : (d.onTile f).tb = d.tb := rfl
@[simp] theorem Dev.onTile_tick (f : TileSt → TileSt) : (d.onTile f).tick = d.tick := rfl
@[simp] theorem Dev.onTile_intc (f : TileSt → TileSt) : (d.onTile f).intc = d.intc := rfl
@[simp] theorem Dev.onTile_aux (f : TileSt → TileSt) : (d.onTile f).aux = d.aux := rfl
@[simp] theorem Dev.onTile_badWords (f : TileSt → TileSt) : (d.onTile f).badWords = d.badWords := rfl
@[simp] theorem Dev.onTile_pins (f : TileSt → TileSt) : (d.onTile f).pins = d.pins := rfl
@[simp] theorem Dev.onTile_core (f : TileSt → TileSt) : (d.onTile f).core = d.core := rfl
@[simp] theorem Dev.onTile_power (f : TileSt → TileSt) : (d.onTile f).power = d.power := rfl
@[simp] theorem Dev.rg_onTile (f : TileSt → TileSt) : (d.onTile f).rg a = d.rg a := rfl
@[simp] theorem Dev.onAud_aud (f : Aud → Aud) : (d.onAud f).aud = f d.aud := rfl
@[simp] theorem Dev.onAud_regs (f : Aud → Aud) : (d.onAud f).regs = d.regs := rfl
@[simp] theorem Dev.onAud_inForce (f : Aud → Aud) : (d.onAud f).inForce = d.inForce := rfl
@[simp] theorem Dev.onAud_rdata (f : Aud → Aud) : (d.onAud f).rdata = d.rdata := rfl
@[simp] theorem Dev.onAud_free (f : Aud → Aud) : (d.onAud f).free = d.free := rfl
@[simp] theorem Dev.onAud_tb (f : Aud → Aud) : (d.onAud f).tb = d.tb := rfl
@[simp] theorem Dev.onAud_tick (f : Aud → Aud) : (d.onAud f).tick = d.tick := rfl
@[simp] theorem Dev.onAud_intc (f : Aud → Aud) : (d.onAud f).intc = d.intc := rfl
@[simp] theorem Dev.onAud_aux (f : Aud → Aud) : (d.onAud f).aux = d.aux := rfl
@[simp] theorem Dev.onAud_badWords (f : Aud → Aud) : (d.onAud f).badWords = d.badWords := rfl
@[simp] theorem Dev.onAud_pins (f : Aud → Aud) : (d.onAud f).pins = d.pins := rfl
@[simp] theorem Dev.onAud_core (f : Aud → Aud) : (d.onAud f).core = d.core := rfl
@[simp] theorem Dev.onAud_power (f : Aud → Aud) : (d.onAud f).power = d.power := rfl
@[simp] theorem Dev.rg_onAud (f : Aud → Aud) : (d.onAud f).rg a = d.rg a := rfl
@[simp] theorem Dev.onHop_hop (f : Hop → Hop) : (d.onHop f).hop = f d.hop := rfl
@[simp] theorem Dev.onHop_regs (f : Hop → Hop) : (d.onHop f).regs = d.regs := rfl
@[simp] theorem Dev.onHop_inForce (f : Hop → Hop) : (d.onHop f).inForce = d.inForce := rfl
@[simp] theorem Dev.onHop_rdata (f : Hop → Hop) : (d.onHop f).rdata = d.rdata := rfl
@[simp] theorem Dev.onHop_free (f : Hop → Hop) : (d.onHop f).free = d.free := rfl
@[simp] theorem Dev.onHop_tb (f : Hop → Hop) : (d.onHop f).tb = d.tb := rfl
@[simp] theorem Dev.onHop_tick (f : Hop → Hop) : (d.onHop f).tick = d.tick := rfl
@[simp] theorem Dev.onHop_intc (f : Hop → Hop) : (d.onHop f).intc = d.intc := rfl
@[simp] theorem Dev.onHop_aux (f : Hop → Hop) : (d.onHop f).aux = d.aux := rfl
@[simp] theorem Dev.onHop_badWords (f : Hop → Hop) : (d.onHop f).badWords = d.badWords := rfl
@[simp] theorem Dev.onHop_pins (f : Hop → Hop) : (d.onHop f).pins = d.pins := rfl
@[simp] theorem Dev.onHop_core (f : Hop → Hop) : (d.onHop f).core = d.core := rfl
@[simp] theorem Dev.onHop_power (f : Hop → Hop) : (d.onHop f).power = d.power := rfl
@[simp] theorem Dev.rg_onHop (f : Hop → Hop) : (d.onHop f).rg a = d.rg a := rfl
@[simp] theorem Dev.onRing_ring (f : Ring → Ring) : (d.onRing f).ring = f d.ring := rfl
@[simp] theorem Dev.onRing_regs (f : Ring → Ring) : (d.onRing f).regs = d.regs := rfl
@[simp] theorem Dev.onRing_inForce (f : Ring → Ring) : (d.onRing f).inForce = d.inForce := rfl
@[simp] theorem Dev.onRing_rdata (f : Ring → Ring) : (d.onRing f).rdata = d.rdata := rfl
@[simp] theorem Dev.onRing_free (f : Ring → Ring) : (d.onRing f).free = d.free := rfl
@[simp] theorem Dev.onRing_tb (f : Ring → Ring) : (d.onRing f).tb = d.tb := rfl
@[simp] theorem Dev.onRing_tick (f : Ring → Ring) : (d.onRing f).tick = d.tick := rfl
@[simp] theorem Dev.onRing_intc (f : Ring → Ring) : (d.onRing f).intc = d.intc := rfl
@[simp] theorem Dev.onRing_aux (f : Ring → Ring) : (d.onRing f).aux = d.aux := rfl
@[simp] theorem Dev.onRing_badWords (f : Ring → Ring) : (d.onRing f).badWords = d.badWords := rfl
@[simp] theorem Dev.onRing_pins (f : Ring → Ring) : (d.onRing f).pins = d.pins := rfl
@[simp] theorem Dev.onRing_core (f : Ring → Ring) : (d.onRing f).core = d.core := rfl
@[simp] theorem Dev.onRing_power (f : Ring → Ring) : (d.onRing f).power = d.power := rfl
@[simp] theorem Dev.rg_onRing (f : Ring → Ring) : (d.onRing f).rg a = d.rg a := rfl
@[simp] theorem Dev.onPins_pins (f : Pins → Pins) : (d.onPins f).pins = f d.pins := rfl
@[simp] theorem Dev.onPins_regs (f : Pins → Pins) : (d.onPins f).regs = d.regs := rfl
@[simp] theorem Dev.onPins_inForce (f : Pins → Pins) : (d.onPins f).inForce = d.inForce := rfl
@[simp] theorem Dev.onPins_rdata (f : Pins → Pins) : (d.onPins f).rdata = d.rdata := rfl
@[simp] theorem Dev.onPins_free (f : Pins → Pins) : (d.onPins f).free = d.free := rfl
@[simp] theorem Dev.onPins_tb (f : Pins → Pins) : (d.onPins f).tb = d.tb := rfl
@[simp] theorem Dev.onPins_tick (f : Pins → Pins) : (d.onPins f).tick = d.tick := rfl
@[simp] theorem Dev.onPins_intc (f : Pins → Pins) : (d.onPins f).intc = d.intc := rfl
@[simp] theorem Dev.onPins_aux (f : Pins → Pins) : (d.onPins f).aux = d.aux := rfl
@[simp] theorem Dev.onPins_badWords (f : Pins → Pins) : (d.onPins f).badWords = d.badWords := rfl
@[simp] theorem Dev.onPins_core (f : Pins → Pins) : (d.onPins f).core = d.core := rfl
@[simp] theorem Dev.onPins_power (f : Pins → Pins) : (d.onPins f).power = d.power := rfl
@[simp] theorem Dev.rg_onPins (f : Pins → Pins) : (d.onPins f).rg a = d.rg a := rfl
@[simp] theorem Dev.onAv_av (f : Av → Av) : (d.onAv f).av = f d.av := rfl
@[simp] theorem Dev.onAv_regs (f : Av → Av) : (d.onAv f).regs = d.regs := rfl
@[simp] theorem Dev.onAv_inForce (f : Av → Av) : (d.onAv f).inForce = d.inForce := rfl
@[simp] theorem Dev.onAv_rdata (f : Av → Av) : (d.onAv f).rdata = d.rdata := rfl
@[simp] theorem Dev.onAv_free (f : Av → Av) : (d.onAv f).free = d.free := rfl
@[simp] theorem Dev.onAv_tb (f : Av → Av) : (d.onAv f).tb = d.tb := rfl
@[simp] theorem Dev.onAv_tick (f : Av → Av) : (d.onAv f).tick = d.tick := rfl
@[simp] theorem Dev.onAv_intc (f : Av → Av) : (d.onAv f).intc = d.intc := rfl
@[simp] theorem Dev.onAv_aux (f : Av → Av) : (d.onAv f).aux = d.aux := rfl
@[simp] theorem Dev.onAv_badWords (f : Av → Av) : (d.onAv f).badWords = d.badWords := rfl
@[simp] theorem Dev.onAv_pins (f : Av → Av) : (d.onAv f).pins = d.pins := rfl
@[simp] theorem Dev.onAv_core (f : Av → Av) : (d.onAv f).core = d.core := rfl
@[simp] theorem Dev.onAv_power (f : Av → Av) : (d.onAv f).power = d.power := rfl
@[simp] theorem Dev.rg_onAv (f : Av → Av) : (d.onAv f).rg a = d.rg a := rfl
@[simp] theorem Dev.onSec_sec (f : Sec → Sec) : (d.onSec f).sec = f d.sec := rfl
@[simp] theorem Dev.onSec_regs (f : Sec → Sec) : (d.onSec f).regs = d.regs := rfl
@[simp] theorem Dev.onSec_inForce (f : Sec → Sec) : (d.onSec f).inForce = d.inForce := rfl
@[simp] theorem Dev.onSec_rdata (f : Sec → Sec) : (d.onSec f).rdata = d.rdata := rfl
@[simp] theorem Dev.onSec_free (f : Sec → Sec) : (d.onSec f).free = d.free := rfl
@[simp] theorem Dev.onSec_tb (f : Sec → Sec) : (d.onSec f).tb = d.tb := rfl
@[simp] theorem Dev.onSec_tick (f : Sec → Sec) : (d.onSec f).tick = d.tick := rfl
@[simp] theorem Dev.onSec_intc (f : Sec → Sec) : (d.onSec f).intc = d.intc := rfl
@[simp] theorem Dev.onSec_aux (f : Sec → Sec) : (d.onSec f).aux = d.aux := rfl
@[simp] theorem Dev.onSec_badWords (f : Sec → Sec) : (d.onSec f).badWords = d.badWords := rfl
@[simp] theorem Dev.onSec_pins (f : Sec → Sec) : (d.onSec f).pins = d.pins := rfl
@[simp] theorem Dev.onSec_core (f : Sec → Sec) : (d.onSec f).core = d.core := rfl
@[simp] theorem Dev.onSec_power (f : Sec → Sec) : (d.onSec f).power = d.power := rfl
@[simp] theorem Dev.rg_onSec (f : Sec → Sec) : (d.onSec f).rg a = d.rg a := rfl
@[simp] theorem Dev.onDbg_dbg (f : Dbg → Dbg) : (d.onDbg f).dbg = f d.dbg := rfl
@[simp] theorem Dev.onDbg_regs (f : Dbg → Dbg) : (d.onDbg f).regs = d.regs := rfl
@[simp] theorem Dev.onDbg_inForce (f : Dbg → Dbg) : (d.onDbg f).inForce = d.inForce := rfl
@[simp] theorem Dev.onDbg_rdata (f : Dbg → Dbg) : (d.onDbg f).rdata = d.rdata := rfl
@[simp] theorem Dev.onDbg_free (f : Dbg → Dbg) : (d.onDbg f).free = d.free := rfl
@[simp] theorem Dev.onDbg_tb (f : Dbg → Dbg) : (d.onDbg f).tb = d.tb := rfl
@[simp] theorem Dev.onDbg_tick (f : Dbg → Dbg) : (d.onDbg f).tick = d.tick := rfl
@[simp] theorem Dev.onDbg_intc (f : Dbg → Dbg) : (d.onDbg f).intc = d.intc := rfl
@[simp] theorem Dev.onDbg_aux (f : Dbg → Dbg) : (d.onDbg f).aux = d.aux := rfl
@[simp] theorem Dev.onDbg_badWords (f : Dbg → Dbg) : (d.onDbg f).badWords = d.badWords := rfl
@[simp] theorem Dev.onDbg_pins (f : Dbg → Dbg) : (d.onDbg f).pins = d.pins := rfl
@[simp] theorem Dev.onDbg_core (f : Dbg → Dbg) : (d.onDbg f).core = d.core := rfl
@[simp] theorem Dev.onDbg_power (f : Dbg → Dbg) : (d.onDbg f).power = d.power := rfl
@[simp] theorem Dev.rg_onDbg (f : Dbg → Dbg) : (d.onDbg f).rg a = d.rg a := rfl
end

end Sys2Proof.Machine
end

