-- ==== Sys2Proof/Laws/Sluice.lean ====
section
/-!
SUPPORT. Laws of the sluice unit: what a change that reaches it can do, and what it does when no change noted is applied after it.
-/

namespace Sys2Proof.Machine

variable (d : Dev) (c : SlChange)

theorem Dev.rg_slSet_of_ne (off : Nat) (v : Word) (a : Nat) (h : a ≠ off) : (d.slSet off v).rg a = d.rg a := by
  unfold Dev.slSet
  split
  · exact Dev.rg_sg_of_ne _ _ _ _ (Ne.symm h)
  · rfl

theorem Dev.slSet_slLog (off : Nat) (v : Word) : (d.slSet off v).slLog = d.slLog := by unfold Dev.slSet; split <;> rfl

/-- A word that is set reads back. -/
theorem Dev.slWord_slSet (off : Nat) (v : Word) : (d.slSet off v).slWord off = v := by
  unfold Dev.slSet Dev.slWord
  split
  · simp
  · exact (Tab.get_put 0).trans (by simp)

/-- A change settles in its own word, in the pattern stores and in the list of changes. -/
theorem Dev.slSettle_frame (w : Word) :
    d.slSettle c w = { d with regs := (d.slSettle c w).regs, aux := (d.slSettle c w).aux, slLog := (d.slSettle c w).slLog } := by
  unfold Dev.slSettle Dev.slSet
  dsimp only
  split <;> rfl

theorem Dev.rg_slSettle_of_ne (w : Word) (a : Nat) (h : a ≠ c.off) : (d.slSettle c w).rg a = d.rg a :=
  Dev.rg_slSet_of_ne _ _ _ _ h

/-- Copies that settle change the words that they name, the pattern stores and the list of changes. -/
theorem Dev.slSettles_frame (es : List SlChange) :
    let t := es.foldl (fun d e => d.slSettle e (d.slApply e e.old)) d
    t = { d with regs := t.regs, aux := t.aux, slLog := t.slLog } ∧
      ∀ a, (∀ e ∈ es, a ≠ e.off) → t.rg a = d.rg a := by
  induction es generalizing d with
  | nil => exact ⟨rfl, fun _ _ => rfl⟩
  | cons e es ih =>
    obtain ⟨h1, h2⟩ := ih (d.slSettle e (d.slApply e e.old))
    refine ⟨?_, fun a ha => ?_⟩
    · simp only [List.foldl_cons]
      rw [h1, Dev.slSettle_frame d e]
    · simp only [List.foldl_cons]
      rw [h2 a (fun x hx => ha x (List.mem_cons_of_mem _ hx)), Dev.rg_slSettle_of_ne _ _ _ _ (ha e List.mem_cons_self)]

/-- A change that reaches the unit changes its own word, the live word of which it is the staged one, the pattern stores and the list of
changes, and nothing else. -/
theorem Dev.slAdd_frame :
    d.slAdd c = { d with regs := (d.slAdd c).regs, aux := (d.slAdd c).aux, slLog := (d.slAdd c).slLog } ∧
      ∀ a, a ≠ c.off → a + 0x400 ≠ c.off → (d.slAdd c).rg a = d.rg a := by
  unfold Dev.slAdd
  dsimp only
  refine ⟨?_, fun a h h4 => ?_⟩
  · rw [(Dev.slSettles_frame _ _).1, Dev.slSettle_frame]
    rfl
  · rw [(Dev.slSettles_frame _ _).2 a]
    · exact Dev.rg_slSettle_of_ne _ _ _ _ h
    · intro e he
      have := (List.mem_filter.mp he).2
      simp only [Bool.and_eq_true, beq_iff_eq] at this
      omega

/-- No change of the list is applied after `c`: nothing is replayed. -/
theorem Dev.slReplay_of_last (w : Word) (es : List SlChange) (h : ∀ e ∈ es, c.after e = false) : d.slReplay c w es = (es, w) := by
  induction es with
  | nil => rfl
  | cons e es ih =>
    unfold Dev.slReplay
    rw [if_neg (by simp [h e List.mem_cons_self]), ih (fun x hx => h x (List.mem_cons_of_mem _ hx))]

theorem slInsert_of_last (es : List SlChange) (h : ∀ e ∈ es, c.after e = false) : slInsert c es = es ++ [c] := by
  induction es with
  | nil => rfl
  | cons e es ih =>
    unfold slInsert
    rw [if_neg (by simp [h e List.mem_cons_self]), ih (fun x hx => h x (List.mem_cons_of_mem _ hx)), List.cons_append]

theorem Dev.slAsOf_of_last (off : Nat) (h : ∀ e ∈ d.slLog, c.after e = false) : d.slAsOf c off = d.slWord off := by
  unfold Dev.slAsOf
  rw [List.find?_eq_none.mpr (fun e he => by simp [h e he])]

/-- A change that no noted change is applied after sets its word. -/
theorem Dev.slSettle_of_last (w : Word) (h : ∀ e ∈ d.slLog, c.after e = false) : d.slSettle c w = d.slSet c.off w := by
  unfold Dev.slSettle
  rw [Dev.slReplay_of_last _ _ _ _ h]

/-- A change that no noted change is applied after: its word takes it, and it is noted last. -/
theorem Dev.slAdd_of_last (h : ∀ e ∈ d.slLog, c.after e = false) :
    let c1 : SlChange := { c with old := d.slWord c.off }
    let t := d.slPruned.slSet c.off (d.slPruned.slApply c1 c1.old)
    d.slAdd c = { t with slLog := d.slPruned.slLog ++ [c1] } := by
  intro c1 t
  have hk : ∀ e ∈ d.slPruned.slLog, c.after e = false := fun e he => h e (List.mem_filter.mp he).1
  have hold : d.slPruned.slAsOf c c.off = d.slWord c.off := Dev.slAsOf_of_last _ c c.off hk
  have hself : c1.after c1 = false := by simp [SlChange.after]
  have hs : d.slPruned.slSettle c1 (d.slPruned.slApply c1 c1.old) = t := Dev.slSettle_of_last _ c1 _ hk
  have hl : t.slLog = d.slPruned.slLog := Dev.slSet_slLog _ _ _
  unfold Dev.slAdd
  simp only [hold]
  change List.foldl _ _ (List.filter _ (slInsert c1 (d.slPruned.slSettle c1 (d.slPruned.slApply c1 c1.old)).slLog)) = _
  rw [hs, hl, slInsert_of_last c1 _ hk, List.filter_eq_nil_iff.mpr, List.foldl_nil]
  intro e he
  simp only [Bool.and_eq_true, not_and, Bool.not_eq_true]
  rcases List.mem_append.mp he with he | he
  · exact fun _ => hk e he
  · exact fun _ => List.mem_singleton.mp he ▸ hself

end Sys2Proof.Machine
end

