-- ==== Sys2Proof/Tests/Slice0.lean ====
section
/-!
SUPPORT. Tests: ill-formed commands are refused; for every statement with hypotheses a concrete state and operands meet them, clause by
clause and at the ends of the ranges; a few results worked out by hand from the spec.
-/

namespace Sys2Proof.Test

open Sys2Proof.Machine

set_option Elab.async false

/-! ### Small states -/

/-- Reset, with registers written. -/
def withRegs (l : List (Nat × Word)) : State :=
  { State.reset with d := l.foldl (fun d p => d.sg p.1 p.2) State.reset.d }

/-- Reset, in a given power state. -/
def powered (p : Power) : State := { State.reset with d := { State.reset.d with power := p } }

/-- The device of reset changed. -/
def withDev (f : Dev → Dev) : State := { State.reset with d := f State.reset.d }

/-- The four bytes of a word, lowest first, as memory cells from `a`. -/
def cells (a : Nat) (i : Word) : List Host.Cell :=
  ((List.range 4).map (fun j => (a + j, BitVec.ofNat 8 (i.toNat / 256 ^ j)))).filter (fun p => p.2 != 0)

/-- Core 0 runs at PC 0, where the word `i` lies; `g` are its registers. -/
def coreAt0 (i : Word) (g : Tab Word := []) : State :=
  { State.reset with
    mem := { tcm := cells 0 i }
    d := (State.reset.d.sf (Reg.KC_STAT 0) 1 3 2).onCore 0 (fun k => { k with g := g }) }

/-- A word of format R (Table 12-3). -/
def wR (op rd rs1 rs2 fn : Nat) : Word := BitVec.ofNat 32 (op * 2 ^ 26 + rd * 2 ^ 21 + rs1 * 2 ^ 16 + rs2 * 2 ^ 11 + fn)

/-- A word of the formats with two register fields and 16 bits below (I, S, B, BT). -/
def wI (op x y imm : Nat) : Word := BitVec.ofNat 32 (op * 2 ^ 26 + x * 2 ^ 21 + y * 2 ^ 16 + imm)

/-- Does core 0 issue `i` in the small state? -/
def issued (i : Word) (g : Tab Word := []) : Bool :=
  let s := coreAt0 i g
  s.d.issues 0 && decide ((s.d.coreAt 0).pc < 0x20000) && !s.d.badWords.contains (tcmKey 0 (s.d.coreAt 0).pc) &&
    s.ctx.tcmWord 0 (s.d.coreAt 0).pc == i

theorem atInstr_of_issued {i : Word} {g : Tab Word} (h : issued i g = true) : (coreAt0 i g).atInstr 0 i := by
  simp only [issued, Bool.and_eq_true, decide_eq_true_eq, Bool.not_eq_true', beq_iff_eq] at h
  exact ⟨h.1.1.1, h.1.1.2, h.1.2, h.2⟩

/-! ### Well-formedness: every number at the top of its range is taken, and one that breaks one check is refused -/

theorem test_boundary_operands_are_well_formed_0 :
    ([
      .registerWrite (.core 3) 67108863 [], .rcRead (.core 3) 67108863 0, .shadowLoRead (.core 3) Reg.TG_TICK_NUM_LO,
      .levelToExpert (.core 3) .aud 0, .levelToBasic (.core 3) .aud 0, .profileWrite (.core 3) .aud 0,
      .profileStoreExpert (.core 3) .aud 0, .expertRegisterWrite (.core 3) Reg.AUD_CFG 0, .porRelease 63, .hostSet (.core 3) 0,
      .sysCoreStart (.core 3) 0, .softReset (.core 3) 0, .tickSrcSelect (.core 3) 3, .tickRateSubmit (.core 3) 0,
      .tickProfileWrite (.core 3) 15, .tgEnable (.core 3) 47 255, .tgDisable (.core 3) 47, .tgTimingWrite (.core 3) 47 7 0,
      .pclkPllLock 47, .tgLineBegin 47 0, .glideLock 47, .frameStart 47, .takeUpEdge 47, .lineBuildStart 51 0, .objectBuildBegin 51,
      .objectBuildEnd 51, .lineDuePoint 51 0, .videoRowArrival 51 1, .mixGroup 47 0 false, .objPeek (.core 3) 0, .objGpeek (.core 3) 0,
      .frameValueWrite (.core 3) (Reg.MX_CFG 47) 0, .cacheInvalidate (.core 3), .stagedWrite (.core 3) 47 255 0,
      .slLcommit (.core 3) 47 0, .slLenSet (.core 3) 47 false 0, .slLenClr (.core 3) 47 false 0, .slLrouteWrite (.core 3) 47 7 0,
      .tableWindowWrite (.core 3) 47 32764 0, .tableCopy (.core 3) 47, .tableCopyDone 47, .mxFmtWrite (.core 3) 47 0, .dmStop 47,
      .dmWait 47, .dmPointReached 47, .dmWaitEv 47, .dmWaitEvComplete 47, .dmWrite 47, .dmWriteM 47, .dmSkipIf 47, .dmJump 47,
      .dmLoop 47, .dmEvTrig (.core 3) 47 0, .dmEvSelWrite (.core 3) 47 7 0, .dmPmWrite (.core 3) 47 4095 0, .tailWrite (.core 3) 16383 0,
      .ringEnable (.core 3) 16383 0, .ringDisable (.core 3) 16383, .descriptorWrite (.core 3) 16383 7 0, .hopNop 16383] : List Instr).all (fun c => c.wf == true) = true := by decide +kernel

theorem test_boundary_operands_are_well_formed_1 :
    ([
      .hopObjWrite 16383, .hopObjPatch 16383, .hopGroupSet 16383, .hopTileRun 16383, .hopPalWrite 16383, .hopPlaneFlip 16383,
      .hopRegAtTick 16383, .hopRegNow 16383, .hopFence 16383, .fenceRelease 16383, .hopMarker 16383, .markerWrite 16383,
      .hopAudCmd 16383, .hopTrkDoneWrite (.core 3) 63 0, .flRetrain (.core 3) 47, .flCfgWrite (.core 3) 47 false 0, .trainingComplete 47,
      .alignGroup 47, .packetSend 47, .idleStatusTimer 47, .auxArm (.core 3) 47 1 0, .flPllLoss 47, .flPllRelock 47, .laneFault 47 3,
      .ringLinkTrained false 63 false, .ringTick false {} 999, .ringProbe false {} 999, .depart (.core 3), .probeCmd (.core 3),
      .horizonRequest (.core 3) 0, .mbxSend (.core 3) 0, .mbxPop (.core 3), .keyon (.core 3) 1023, .keyoff (.core 3) 1023,
      .audCmdParam [0, 0, 0, 0, 0, 0], .audCmdKeyon [1, 0, 0, 0, 0, 0], .audCmdKeyoff [2, 0, 0, 0, 0, 0],
      .audCmdVoice [3, 0, 0, 0, 0, 0], .paramWrite (.core 3) 19005436 0, .safeLoad (.core 3) 0, .tdmPortCfgWrite (.core 3) false 23 0,
      .kAdd 3, .kSub 3, .kAnd 3, .kOr 3, .kXor 3, .kNor 3, .kSlt 3, .kSltu 3, .kSll 3, .kSrl 3, .kSra 3, .kSlli 3, .kSrli 3, .kSrai 3,
      .kMin 3, .kMax 3, .kMinu 3, .kMaxu 3, .kAddi 3] : List Instr).all (fun c => c.wf == true) = true := by decide +kernel

theorem test_boundary_operands_are_well_formed_2 :
    ([
      .kAndi 3, .kOri 3, .kXori 3, .kSlti 3, .kSltiu 3, .kLui 3, .kLw 3, .kLh 3, .kLhu 3, .kLb 3, .kLbu 3, .kSw 3, .kSh 3, .kSb 3,
      .kBeq 3, .kBne 3, .kBlt 3, .kBge 3, .kBltu 3, .kBgeu 3, .kJ 3, .kCall 3, .kJr 3, .kCallr 3, .kRet 3, .kBld 3, .kBldn 3, .kBst 3,
      .kBstn 3, .kBset 3, .kBclr 3, .kBtgl 3, .kBand 3, .kBandn 3, .kBor 3, .kBorn 3, .kBxor 3, .kBts 3, .kBtc 3, .kBbs 3, .kBbc 3,
      .kBba 3, .kTli 3, .kMul 3, .kMulh 3, .kMulhu 3, .kDiv 3, .kDivu 3, .kRem 3, .kRemu 3, .kCsrr 3, .kCsrw 3, .kSyscall 3, .kBreak 3,
      .kRetx 3, .kWfi 3, .kFence 3, .loadDataReturn 3, .loadTimeout 3, .postedStoreComplete 3] : List Instr).all (fun c => c.wf == true) = true := by decide +kernel

theorem test_boundary_operands_are_well_formed_3 :
    ([
      .interruptTake 3, .idleWake 3, .wdtKick (.core 3) 3 0, .wdtExpiry 3, .coreRestart (.core 3) 3 0, .coreRestartComplete 3,
      .intcClaim (.core 3) 3, .intcComplete (.core 3) 3 0, .intcPendClear (.core 3) 3 15 0, .moderationRelease 3 31, .msixSend 511,
      .intSwRaise (.core 3) 0, .cmpArm (.core 3) 15 0, .cmpFire 15, .tmrCapLoRead (.core 3) 15, .dmaStart (.core 3) 31,
      .dmaAbort (.core 3) 31 [], .dmaComplete 31 [], .bltStart (.core 3) 3, .bltAbort (.core 3) 3, .bltWatermark 3, .bltComplete 3,
      .pinChange 127 false, .glitchFilterSettle 15, .debounceSettle 15, .gpOutWrite (.core 3) 3 2 0, .pinCfgWrite (.core 3) 127 0,
      .pinOwnerWrite (.core 3) 127 0, .grpCfgWrite (.core 3) 15 false 0, .pioTick 7, .pioGo 7, .pioAwait 7, .pioShin 7, .pioShout 7,
      .pioDrive 7, .pioLoad 7, .pioStore 7, .pioLdi 7, .pioXfer 7, .pioSignal 7, .pioStart (.core 3) 255, .pioStop (.core 3) 255,
      .pioClkrst (.core 3) 255, .contextEnable (.core 3) 7 0, .pioTxfWrite (.core 3) 7 15 0, .pioRxfRead (.core 3) 7 15,
      .pioImWrite (.core 3) 7 1023 0, .bankRetain (.core 3) 95, .bankWake (.core 3) 95, .bankWakeDone 95,
      .pagedWindowAccess false 33554431 [] 0, .bar2Write 17179869183 [1], .bar2Read 17179869183 1, .mr4Report 7 7, .channelFence 7 false,
      .avFenceCmd (.core 3) 0, .lopStart (.core 3) 63 15 false, .lopSuspend (.core 3) 63, .lopResume (.core 3) 63,
      .lopCancel (.core 3) 63] : List Instr).all (fun c => c.wf == true) = true := by decide +kernel

theorem test_boundary_operands_are_well_formed_4 :
    ([
      .lopStatus 63, .lopSuspendPoint 63 0, .lopComplete 63 none, .structCheckDone 63, .fullLoadApply 63, .clkPointRequest (.core 3) 0,
      .mbxTcWrite (.core 3) 3 0, .mbxTcRead (.core 3) 3, .mbxThWrite (.core 3) 3 0, .mbxThRead (.core 3) 3, .arm (.core 3),
      .disarm (.core 3), .cold (.core 3), .confirmToken (.core 3) 0, .lifecycleChange (.core 3) 0, .keyProgram (.core 3) 3,
      .keySetDev (.core 3) 3, .keyRevoke (.core 3) 3, .imageKeyProgram (.core 3) 0, .wipe (.core 3) 0, .tamperEvent 5 false,
      .tamperLock (.core 3), .verifyGo (.core 3) 0, .rngRequest (.core 3) 0, .rngRestart (.core 3) 0, .rowRepair (.core 3) 0,
      .rowSwitch 95 2047, .selfTestDone 51 none, .ftCheck (.core 3) 51, .ftRemapCmd (.core 3) 51, .ftReturn (.core 3) 51,
      .avOutResume (.core 3) 47, .avOutShed (.core 3) 47, .logPop (.core 3), .dbgAcc false false 1023 0, .breakpointHit 3,
      .vtTxWrite 3 0, .vtTxRead 3, .vtRxWrite 3 0, .vtRxRead 3, .kIllegal 3, .dmReserved 47] : List Instr).all (fun c => c.wf == true) = true := by decide +kernel

theorem test_ill_formed_commands_are_refused_0 :
    ([
      .registerWrite (.core 4) 67108863 [], .registerWrite (.core 3) 67108864 [], .rcRead (.core 4) 67108863 0,
      .rcRead (.core 3) 67108864 0, .shadowLoRead (.core 4) Reg.TG_TICK_NUM_LO, .shadowLoRead (.core 3) 67108864,
      .shadowLoRead (.core 3) 0, .levelToExpert (.core 4) .aud 0, .levelToExpert (.core 3) (.tg 48) 0, .levelToBasic (.core 4) .aud 0,
      .levelToBasic (.core 3) (.tg 48) 0, .profileWrite (.core 4) .aud 0, .profileWrite (.core 3) (.tg 48) 0,
      .profileStoreExpert (.core 4) .aud 0, .profileStoreExpert (.core 3) (.tg 48) 0, .expertRegisterWrite (.core 4) Reg.AUD_CFG 0,
      .expertRegisterWrite (.core 3) Reg.AUD_CTRL 0, .porRelease 64, .hostSet (.core 4) 0, .sysCoreStart (.core 4) 0,
      .softReset (.core 4) 0, .tickSrcSelect (.core 4) 3, .tickSrcSelect (.core 3) 4, .tickRateSubmit (.core 4) 0,
      .tickProfileWrite (.core 4) 15, .tickProfileWrite (.core 3) 16, .tgEnable (.core 4) 47 255, .tgEnable (.core 3) 48 255,
      .tgEnable (.core 3) 47 256, .tgDisable (.core 4) 47, .tgDisable (.core 3) 48, .tgTimingWrite (.core 4) 47 7 0,
      .tgTimingWrite (.core 3) 48 7 0, .tgTimingWrite (.core 3) 47 8 0, .pclkPllLock 48, .tgLineBegin 48 0, .glideLock 48,
      .frameStart 48, .takeUpEdge 48, .lineBuildStart 52 0, .objectBuildBegin 52, .objectBuildEnd 52, .lineDuePoint 52 0,
      .videoRowArrival 52 1, .videoRowArrival 51 2, .mixGroup 48 0 false, .objPeek (.core 4) 0, .objGpeek (.core 4) 0,
      .frameValueWrite (.core 4) (Reg.MX_CFG 47) 0, .frameValueWrite (.core 3) Reg.AUD_CFG 0, .cacheInvalidate (.core 4),
      .stagedWrite (.core 4) 47 255 0, .stagedWrite (.core 3) 48 255 0, .stagedWrite (.core 3) 47 256 0, .slLcommit (.core 4) 47 0,
      .slLcommit (.core 3) 48 0, .slLenSet (.core 4) 47 false 0, .slLenSet (.core 3) 48 false 0, .slLenClr (.core 4) 47 false 0,
      .slLenClr (.core 3) 48 false 0] : List Instr).all (fun c => c.wf == false) = true := by decide +kernel

theorem test_ill_formed_commands_are_refused_1 :
    ([
      .slLrouteWrite (.core 4) 47 7 0, .slLrouteWrite (.core 3) 48 7 0, .slLrouteWrite (.core 3) 47 8 0,
      .tableWindowWrite (.core 4) 47 32764 0, .tableWindowWrite (.core 3) 48 32764 0, .tableWindowWrite (.core 3) 47 32768 0,
      .tableWindowWrite (.core 3) 47 32766 0, .tableCopy (.core 4) 47, .tableCopy (.core 3) 48, .tableCopyDone 48,
      .mxFmtWrite (.core 4) 47 0, .mxFmtWrite (.core 3) 48 0, .dmStop 48, .dmWait 48, .dmPointReached 48, .dmWaitEv 48,
      .dmWaitEvComplete 48, .dmWrite 48, .dmWriteM 48, .dmSkipIf 48, .dmJump 48, .dmLoop 48, .dmEvTrig (.core 4) 47 0,
      .dmEvTrig (.core 3) 48 0, .dmEvSelWrite (.core 4) 47 7 0, .dmEvSelWrite (.core 3) 48 7 0, .dmEvSelWrite (.core 3) 47 8 0,
      .dmPmWrite (.core 4) 47 4095 0, .dmPmWrite (.core 3) 48 4095 0, .dmPmWrite (.core 3) 47 4096 0, .tailWrite (.core 4) 16383 0,
      .tailWrite (.core 3) 16384 0, .ringEnable (.core 4) 16383 0, .ringEnable (.core 3) 16384 0, .ringDisable (.core 4) 16383,
      .ringDisable (.core 3) 16384, .descriptorWrite (.core 4) 16383 7 0, .descriptorWrite (.core 3) 16384 7 0,
      .descriptorWrite (.core 3) 16383 8 0, .hopNop 16384, .hopObjWrite 16384, .hopObjPatch 16384, .hopGroupSet 16384, .hopTileRun 16384,
      .hopPalWrite 16384, .hopPlaneFlip 16384, .hopRegAtTick 16384, .hopRegNow 16384, .hopFence 16384, .fenceRelease 16384,
      .hopMarker 16384, .markerWrite 16384, .hopAudCmd 16384, .hopTrkDoneWrite (.core 4) 63 0, .hopTrkDoneWrite (.core 3) 64 0,
      .flRetrain (.core 4) 47, .flRetrain (.core 3) 48, .flCfgWrite (.core 4) 47 false 0, .flCfgWrite (.core 3) 48 false 0,
      .trainingComplete 48] : List Instr).all (fun c => c.wf == false) = true := by decide +kernel

theorem test_ill_formed_commands_are_refused_2 :
    ([
      .alignGroup 48, .packetSend 48, .idleStatusTimer 48, .auxArm (.core 4) 47 1 0, .auxArm (.core 3) 48 1 0, .auxArm (.core 3) 47 2 0,
      .flPllLoss 48, .flPllRelock 48, .laneFault 48 3, .laneFault 47 4, .ringLinkTrained false 64 false, .ringTick false {} 1000,
      .ringProbe false {} 1000, .depart (.core 4), .probeCmd (.core 4), .horizonRequest (.core 4) 0, .mbxSend (.core 4) 0,
      .mbxPop (.core 4), .keyon (.core 4) 1023, .keyon (.core 3) 1024, .keyoff (.core 4) 1023, .keyoff (.core 3) 1024,
      .audCmdParam [0, 0, 0, 0, 0], .audCmdParam [1, 0, 0, 0, 0, 0], .audCmdKeyon [1, 0, 0, 0, 0], .audCmdKeyon [2, 0, 0, 0, 0, 0],
      .audCmdKeyoff [2, 0, 0, 0, 0], .audCmdKeyoff [3, 0, 0, 0, 0, 0], .audCmdVoice [3, 0, 0, 0, 0], .audCmdVoice [4, 0, 0, 0, 0, 0],
      .paramWrite (.core 4) 19005436 0, .paramWrite (.core 3) 18907132 0, .paramWrite (.core 3) 19005440 0,
      .paramWrite (.core 3) 19005438 0, .safeLoad (.core 4) 0, .tdmPortCfgWrite (.core 4) false 23 0,
      .tdmPortCfgWrite (.core 3) false 24 0, .kAdd 4, .kSub 4, .kAnd 4, .kOr 4, .kXor 4, .kNor 4, .kSlt 4, .kSltu 4, .kSll 4, .kSrl 4,
      .kSra 4, .kSlli 4, .kSrli 4, .kSrai 4, .kMin 4, .kMax 4, .kMinu 4, .kMaxu 4, .kAddi 4, .kAndi 4, .kOri 4, .kXori 4, .kSlti 4] : List Instr).all (fun c => c.wf == false) = true := by decide +kernel

theorem test_ill_formed_commands_are_refused_3 :
    ([
      .kSltiu 4, .kLui 4, .kLw 4, .kLh 4, .kLhu 4, .kLb 4, .kLbu 4, .kSw 4, .kSh 4, .kSb 4, .kBeq 4, .kBne 4, .kBlt 4, .kBge 4, .kBltu 4,
      .kBgeu 4, .kJ 4, .kCall 4, .kJr 4, .kCallr 4, .kRet 4, .kBld 4, .kBldn 4, .kBst 4, .kBstn 4, .kBset 4, .kBclr 4, .kBtgl 4,
      .kBand 4, .kBandn 4, .kBor 4, .kBorn 4, .kBxor 4, .kBts 4, .kBtc 4, .kBbs 4, .kBbc 4, .kBba 4, .kTli 4, .kMul 4, .kMulh 4,
      .kMulhu 4, .kDiv 4, .kDivu 4, .kRem 4, .kRemu 4, .kCsrr 4, .kCsrw 4, .kSyscall 4, .kBreak 4, .kRetx 4, .kWfi 4, .kFence 4,
      .loadDataReturn 4, .loadTimeout 4, .postedStoreComplete 4, .interruptTake 4, .idleWake 4, .wdtKick (.core 4) 3 0,
      .wdtKick (.core 3) 4 0] : List Instr).all (fun c => c.wf == false) = true := by decide +kernel

theorem test_ill_formed_commands_are_refused_4 :
    ([
      .wdtExpiry 4, .coreRestart (.core 4) 3 0, .coreRestart (.core 3) 4 0, .coreRestartComplete 4, .intcClaim (.core 4) 3,
      .intcClaim (.core 3) 4, .intcComplete (.core 4) 3 0, .intcComplete (.core 3) 4 0, .intcPendClear (.core 4) 3 15 0,
      .intcPendClear (.core 3) 4 15 0, .intcPendClear (.core 3) 3 16 0, .moderationRelease 4 31, .moderationRelease 3 32, .msixSend 512,
      .intSwRaise (.core 4) 0, .cmpArm (.core 4) 15 0, .cmpArm (.core 3) 16 0, .cmpFire 16, .tmrCapLoRead (.core 4) 15,
      .tmrCapLoRead (.core 3) 16, .dmaStart (.core 4) 31, .dmaStart (.core 3) 32, .dmaAbort (.core 4) 31 [], .dmaAbort (.core 3) 32 [],
      .dmaComplete 32 [], .bltStart (.core 4) 3, .bltStart (.core 3) 4, .bltAbort (.core 4) 3, .bltAbort (.core 3) 4, .bltWatermark 4,
      .bltComplete 4, .pinChange 128 false, .glitchFilterSettle 16, .debounceSettle 16, .gpOutWrite (.core 4) 3 2 0,
      .gpOutWrite (.core 3) 4 2 0, .gpOutWrite (.core 3) 3 3 0, .pinCfgWrite (.core 4) 127 0, .pinCfgWrite (.core 3) 128 0,
      .pinOwnerWrite (.core 4) 127 0, .pinOwnerWrite (.core 3) 128 0, .grpCfgWrite (.core 4) 15 false 0,
      .grpCfgWrite (.core 3) 16 false 0, .pioTick 8, .pioGo 8, .pioAwait 8, .pioShin 8, .pioShout 8, .pioDrive 8, .pioLoad 8,
      .pioStore 8, .pioLdi 8, .pioXfer 8, .pioSignal 8, .pioStart (.core 4) 255, .pioStart (.core 3) 256, .pioStop (.core 4) 255,
      .pioStop (.core 3) 256, .pioClkrst (.core 4) 255, .pioClkrst (.core 3) 256] : List Instr).all (fun c => c.wf == false) = true := by decide +kernel

theorem test_ill_formed_commands_are_refused_5 :
    ([
      .contextEnable (.core 4) 7 0, .contextEnable (.core 3) 8 0, .pioTxfWrite (.core 4) 7 15 0, .pioTxfWrite (.core 3) 8 15 0,
      .pioTxfWrite (.core 3) 7 16 0, .pioRxfRead (.core 4) 7 15, .pioRxfRead (.core 3) 8 15, .pioRxfRead (.core 3) 7 16,
      .pioImWrite (.core 4) 7 1023 0, .pioImWrite (.core 3) 8 1023 0, .pioImWrite (.core 3) 7 1024 0, .bankRetain (.core 4) 95,
      .bankRetain (.core 3) 96, .bankWake (.core 4) 95, .bankWake (.core 3) 96, .bankWakeDone 96, .pagedWindowAccess false 33554432 [] 0,
      .bar2Write 17179869184 [1], .bar2Read 17179869183 2, .mr4Report 8 7, .mr4Report 7 8, .channelFence 8 false,
      .avFenceCmd (.core 4) 0, .lopStart (.core 4) 63 15 false, .lopStart (.core 3) 64 15 false, .lopStart (.core 3) 63 16 false,
      .lopSuspend (.core 4) 63, .lopSuspend (.core 3) 64, .lopResume (.core 4) 63, .lopResume (.core 3) 64, .lopCancel (.core 4) 63,
      .lopCancel (.core 3) 64, .lopStatus 64, .lopSuspendPoint 64 0, .lopComplete 64 none, .structCheckDone 64, .fullLoadApply 64,
      .clkPointRequest (.core 4) 0, .mbxTcWrite (.core 4) 3 0, .mbxTcWrite (.core 3) 4 0, .mbxTcRead (.core 4) 3, .mbxTcRead (.core 3) 4,
      .mbxThWrite (.core 4) 3 0, .mbxThWrite (.core 3) 4 0, .mbxThRead (.core 4) 3, .mbxThRead (.core 3) 4, .arm (.core 4),
      .disarm (.core 4), .cold (.core 4), .confirmToken (.core 4) 0, .lifecycleChange (.core 4) 0, .keyProgram (.core 4) 3,
      .keyProgram (.core 3) 4, .keySetDev (.core 4) 3, .keySetDev (.core 3) 4, .keyRevoke (.core 4) 3, .keyRevoke (.core 3) 4,
      .imageKeyProgram (.core 4) 0, .wipe (.core 4) 0, .tamperEvent 6 false] : List Instr).all (fun c => c.wf == false) = true := by decide +kernel

theorem test_ill_formed_commands_are_refused_6 :
    ([
      .tamperLock (.core 4), .verifyGo (.core 4) 0, .rngRequest (.core 4) 0, .rngRestart (.core 4) 0, .rowRepair (.core 4) 0,
      .rowSwitch 96 2047, .rowSwitch 95 2048, .selfTestDone 52 none, .ftCheck (.core 4) 51, .ftCheck (.core 3) 52,
      .ftRemapCmd (.core 4) 51, .ftRemapCmd (.core 3) 52, .ftReturn (.core 4) 51, .ftReturn (.core 3) 52, .avOutResume (.core 4) 47,
      .avOutResume (.core 3) 48, .avOutShed (.core 4) 47, .avOutShed (.core 3) 48, .logPop (.core 4), .dbgAcc false false 1024 0,
      .breakpointHit 4, .vtTxWrite 4 0, .vtTxRead 4, .vtRxWrite 4 0, .vtRxRead 4, .kIllegal 4, .dmReserved 48] : List Instr).all (fun c => c.wf == false) = true := by decide +kernel

theorem test_ill_formed_command_stops : exec (.pinChange 128 true) State.reset = .fault .noSuchUnit := rfl

/-! ### Results worked out from the spec -/

/-- What holds of the next state. -/
def nextHas (o : Host.Outcome State Fault Refusal) (p : State → Bool) : Bool :=
  match o with
  | .next t => p t
  | .fault _ => false
  | .refused _ => false

/-- R380: −1 plus 1 wraps to 0; the destination is also a source. -/
theorem test_add_wraps : nextHas (exec (.kAdd 0) (coreAt0 (wR 0 1 1 2 0) [(1, 0xFFFFFFFF), (2, 1)]))
    (fun t => (t.d.coreAt 0).reg 1 == 0 && (t.d.coreAt 0).pc == 4) = true := by decide +kernel

/-- R380: g0 discards its result. -/
theorem test_g0_reads_zero : nextHas (exec (.kAddi 0) (coreAt0 (wI 1 0 1 5) [(1, 7)])) (fun t => (t.d.coreAt 0).reg 0 == 0) = true := by
  decide +kernel

/-- R381: −2³¹ by −1. -/
theorem test_div_overflow : nextHas (exec (.kDiv 0) (coreAt0 (wR 0x20 3 1 2 4) [(1, 0x80000000), (2, 0xFFFFFFFF)]))
    (fun t => (t.d.coreAt 0).reg 3 == 0x80000000) = true := by decide +kernel

/-- R381: a remainder by 0 is the dividend. -/
theorem test_rem_by_zero : nextHas (exec (.kRem 0) (coreAt0 (wR 0x20 3 1 2 6) [(1, 0x12345678)]))
    (fun t => (t.d.coreAt 0).reg 3 == 0x12345678) = true := by decide +kernel

/-- The example after R383: e[5] = 1,000, e[6] = 1,400, y = 0x0005_4000 give 1,100. -/
theorem test_tli_example :
    nextHas (exec (.kTli 0)
      (let s := coreAt0 (wR 0x1F 3 1 2 3) [(1, 0x24000), (2, 0x54000)]
       { s with mem := { tcm := cells 0 (wR 0x1F 3 1 2 3) ++ [(0x2400A, 0xE8), (0x2400B, 0x03), (0x2400C, 0x78), (0x2400D, 0x05)] } }))
      (fun t => (t.d.coreAt 0).reg 3 == 1100) = true := by decide +kernel

/-- R382: a call stores PC + 4 below g30, lowest byte first. -/
theorem test_call_pushes : nextHas (exec (.kCall 0) (coreAt0 (wI 0x17 0 0 2) [(30, 0x40000)]))
    (fun t => (t.d.coreAt 0).pc == 8 && (t.d.coreAt 0).reg 30 == 0x3FFFC && t.mem.read .tcm (tcmAddr 0 0x3FFFC) == 4) = true := by
  decide +kernel

/-- Table 12-6: BTS takes the bit into the accumulator, then sets it; 0x8000 is the first user bit. -/
theorem test_bts : nextHas (exec (.kBts 0) (coreAt0 (wI 0x1B 0 12 0x8000)))
    (fun t => !(t.d.coreAt 0).ba && t.d.readBit 0 0x8000) = true := by decide +kernel

/-- R399: the lowest-numbered source is claimed, with its count and VALID. -/
theorem test_claim_word : nextHas (exec (.intcClaim (.core 0) 0)
    (withDev (fun d => { d with intc := [(0, { count := [(0, 15), (511, 1)] })], regs := [(Reg.INTC_EN 0 0, 1)] })))
    (fun t => t.d.rdata == 0x8000F000) = true := by decide +kernel

/-- R508: a mailbox written by the host is full until its core reads it. -/
theorem test_mailbox : nextHas (exec (.mbxTcWrite .host 2 0xABCD) State.reset)
    (fun t => t.d.bt (Reg.SYS_MBX_STAT 2) 0 && nextHas (exec (.mbxTcRead (.core 2) 2) t)
      (fun u => u.d.rdata == 0xABCD && !u.d.bt (Reg.SYS_MBX_STAT 2) 0)) = true := by decide +kernel

/-- R443, R442: a pin of the host's is not core 0's to configure. -/
theorem test_pin_owner : nextHas (exec (.pinCfgWrite (.core 0) 5 1) State.reset)
    (fun t => t.d.bt Reg.GP_STAT 1 && t.d.rg (Reg.GP_PIN_CFG 5) == State.reset.d.rg (Reg.GP_PIN_CFG 5)) = true := by decide +kernel

/-- R481: bytes written through BAR2 stand in LPDDR5X, the first lowest. -/
theorem test_bar2_write : nextHas (exec (.bar2Write 0x1000 [0x11, 0x22]) (withRegs [(Reg.MEM_LP_SIZE, 1024)]))
    (fun t => t.mem.lpddr == [(0x1000, 0x11), (0x1001, 0x22)]) = true := by decide +kernel

/-- R412: a capture is read low half first. -/
theorem test_capture : nextHas (exec (.tmrCapLoRead .host 15) (withDev (fun d => { d with tmr := [(15, { caps := [0x500000007, 9] })] })))
    (fun t => t.d.rdata == 7 && t.d.rg (Reg.TMR_CAP_HI 15) == 5 && (t.d.tmrAt 15).caps == [9]) = true := by decide +kernel

/-- R336: the decoder's steps: from predictor 0 and index 0 code 7 adds (15 × 16) div 8 = 30 and moves the index to 8. -/
theorem test_adpcm_step : adpcmNext (0, 0) 7 = (30, 8) ∧ adpcmNext (30, 8) 15 = (-30, 16) ∧ adpcmNext (32760, 88) 7 = (32767, 88) := by
  decide +kernel

/-- R351: 16-bit sinks round to the nearest and stop at 32,767; the value is kept on the 24-bit scale. -/
theorem test_sink_clamp : min 32767 ((sat24 9000000 + 128) / 256) = 32767 ∧ sat24 (-9000000) = -8388608 := by decide +kernel

/-- R443, R445: a FUNC code that Table 15-1 has not is refused with CFG_ERR. -/
theorem test_pin_function : nextHas (exec (.pinCfgWrite .host 5 5) State.reset) (fun t => t.d.bt Reg.GP_STAT 2) = true := by decide +kernel

/-- Log entry 1: a step takes the first command of the queue. -/
theorem test_step_takes_first : nextHas (step { State.reset with pending := [.lpTrained, .porAssert] })
    (fun t => t.pending == [.porAssert] && t.d.bt Reg.MEM_STAT 5) = true := by decide +kernel

/-! ### Witnesses: the queue, power and reset -/

theorem witness_EmptyQueueIdles : State.reset.pending = [] := rfl

theorem witness_CommandsCompleteIffWellFormed :
    Instr.wf (.pinChange 127 true) = true ∧ Instr.wf (.pinChange 128 true) = false ∧ State.reset.mem.wf = true := by decide +kernel

theorem witness_StepKeepsMemoryCanonical : State.reset.mem.wf = true ∧ ∃ t, step State.reset = .next t := ⟨by decide +kernel, _, rfl⟩

theorem witness_PorLowStopsEveryDomain :
    (powered { por := true }).d.power.por = true ∧ ∃ t, exec .tickIssue (powered { por := true }) = .next t := ⟨rfl, _, rfl⟩

theorem witness_PorResetsBothDomains :
    (Instr.porAssert = .porAssert ∨ Instr.porAssert = .vddAonLoss) ∧ (powered { coreOff := true }).d.coreUp = false ∧
      State.reset.d.flashUnit 63 = none := by decide +kernel

theorem witness_CoreResetKeepsAlwaysOn :
    State.reset.d.power.por = false ∧ State.reset.d.power.coreRst = false ∧ (powered { coreRst := true }).d.power.coreRst = true ∧
      keptReg Reg.TG_TICK_CTRL = true ∧ keptReg Reg.OBJ_CTRL = false ∧ indexOf (Reg.AV_BANK 0) 4 96 Reg.OBJ_CTRL = none ∧
      (powered { coreRst := true }).d.coreUp = false := by decide +kernel

theorem witness_ReleaseStartsBoot :
    (powered { por := true, coreRst := true }).d.power.por = true ∧ (powered { por := true, coreRst := true }).d.power.coreRst = true ∧
      (powered { coreRst := true }).d.power.por = false ∧ (63 : Nat) < 64 := by decide +kernel

theorem witness_BootCommands :
    State.reset.d.coreUp = true ∧ Agent.host.ok = true ∧ State.reset.d.bt Reg.SYS_BOOT_STAT 5 = false ∧
      (∀ b, b < 96 → State.reset.d.bankState b = 0) := by decide +kernel

theorem witness_VddSramLossClearsRetention :
    ∃ b, b < 96 ∧ (withRegs [(Reg.MEM_BANK_CTRL 86, 3)]).d.bankState b ≠ 0 := ⟨86, by decide +kernel⟩

/-! ### Registers -/

theorem witness_RegisterWriteByAccessCode :
    State.reset.d.coreUp = true ∧ (Agent.core 3).ok = true ∧
      (∃ r, RegTable.find Reg.HOP_BP_CNT = some r ∧ r.expert = false) ∧ 0xC80000 ≤ Reg.HOP_BP_CNT ∧ Reg.HOP_BP_CNT % 4 = 0 ∧
      Reg.HOP_BP_CNT ≠ Reg.HOP_CTRL ∧ indexOf (Reg.HOP_TRK_DONE 0) 8 64 Reg.HOP_BP_CNT = none ∧
      RegTable.find 0xFFFFFC = none ∧ ([1, 2, 3, 4] : List Byte).length = 4 :=
  ⟨by decide +kernel, by decide +kernel, ⟨_, rfl, by decide +kernel⟩, by decide +kernel, by decide +kernel, by decide +kernel,
    by decide +kernel, by decide +kernel, rfl⟩

theorem witness_ReadClears :
    State.reset.d.coreUp = true ∧ Agent.dbg.ok = true ∧ barBytes - 1 < barBytes ∧
      (∃ r, RegTable.find Reg.OBJ_BOL_MAX = some r ∧ r.rc ≠ 0) ∧ Reg.OBJ_BOL_MAX % 4 = 0 ∧ Reg.OBJ_BOL_MAX < 0x2000000 :=
  ⟨by decide +kernel, by decide +kernel, by decide +kernel, ⟨_, rfl, by decide +kernel⟩, by decide +kernel, by decide +kernel⟩

theorem witness_LoReadCopiesCompanions :
    State.reset.d.coreUp = true ∧ Agent.host.ok = true ∧ (47 : Nat) < 48 ∧ Reg.BLT_WM_TS_LO 3 < barBytes ∧ shadowOf (Reg.BLT_WM_TS_LO 3) ≠ [] := by
  decide +kernel

theorem witness_RegisterCommandsAreAccesses :
    State.reset.d.coreUp = true ∧ Agent.host.ok = true ∧ 0x1FFFFFC < barBytes ∧ 0x3FFFFFF < barBytes ∧
      shadowOf Reg.TG_TICK_NUM_LO ≠ [] ∧ byteStore 0x600001 = true ∧ byteStore 0x600000 = true ∧ isExpert Reg.AUD_CFG = true ∧ (Block.tg 47).ok = true ∧ (Block.tg 48).ok = false := by
  decide +kernel

theorem witness_ControlWriteResults :
    State.reset.d.level .aud = false ∧ (withRegs [(Reg.AUD_CTRL, 1)]).d.level .aud = true ∧
      (Block.profile .aud 2 0).isSome = true ∧ Block.profile .aud 3 0 = none ∧ State.reset.d.fixed.contains Block.aud.ctrl = false ∧
      (withDev (fun d => { d with fixed := [Reg.AUD_CTRL] })).d.fixed.contains Block.aud.ctrl = true ∧
      Block.aud.profileOf (State.reset.d.rg Block.aud.ctrl).toNat ≠ 2 := by decide +kernel

theorem witness_ExpertWriteResults :
    Reg.AUD_CFG ∈ Block.aud.experts ∧ State.reset.d.level .aud = false ∧ (withRegs [(Reg.AUD_CTRL, 1)]).d.level .aud = true := by
  decide +kernel

/-! ### Cores -/

theorem witness_CoreRegisterOperations :
    ∀ f, f < 18 → (coreAt0 (wR 0 31 1 2 f)).atInstr 0 (wR 0 31 1 2 f) ∧ kOp (wR 0 31 1 2 f) = 0x00 ∧ kFn (wR 0 31 1 2 f) = f := by
  have h : ∀ f, f < 18 → issued (wR 0 31 1 2 f) = true ∧ kOp (wR 0 31 1 2 f) = 0x00 ∧ kFn (wR 0 31 1 2 f) = f := by decide +kernel
  exact fun f hf => ⟨atInstr_of_issued (h f hf).1, (h f hf).2⟩

theorem witness_CoreMultiplyAndDivide :
    ∀ f ∈ [0, 1, 2, 4, 5, 6, 7], (coreAt0 (wR 0x20 1 2 3 f)).atInstr 0 (wR 0x20 1 2 3 f) ∧ kOp (wR 0x20 1 2 3 f) = 0x20 ∧
      kFn (wR 0x20 1 2 3 f) = f := by
  have h : ∀ f ∈ [0, 1, 2, 4, 5, 6, 7], issued (wR 0x20 1 2 3 f) = true ∧ kOp (wR 0x20 1 2 3 f) = 0x20 ∧ kFn (wR 0x20 1 2 3 f) = f := by
    decide +kernel
  exact fun f hf => ⟨atInstr_of_issued (h f hf).1, (h f hf).2⟩

/-- One word of every opcode from 1 to 0x1E that needs no more than its opcode, and the bit operations. -/
theorem witness_core_opcodes :
    (∀ op, 1 ≤ op → op < 0x24 → (coreAt0 (wI op 1 2 0)).atInstr 0 (wI op 1 2 0) ∧ kOp (wI op 1 2 0) = op) ∧
      (∀ sub, sub < 14 → (coreAt0 (wI 0x1B 1 sub 0xFFFF)).atInstr 0 (wI 0x1B 1 sub 0xFFFF) ∧ kRs1 (wI 0x1B 1 sub 0xFFFF) = sub ∧
        0x8000 ≤ (0 + kImm (wI 0x1B 1 sub 0xFFFF)) % 65536) := by
  have h : ∀ op, op < 0x24 → issued (wI op 1 2 0) = true ∧ kOp (wI op 1 2 0) = op := by decide +kernel
  have h2 : ∀ sub, sub < 14 → issued (wI 0x1B 1 sub 0xFFFF) = true ∧ kRs1 (wI 0x1B 1 sub 0xFFFF) = sub ∧
      0x8000 ≤ (0 + kImm (wI 0x1B 1 sub 0xFFFF)) % 65536 := by decide +kernel
  exact ⟨fun op _ hu => ⟨atInstr_of_issued (h op hu).1, (h op hu).2⟩, fun sub hs => ⟨atInstr_of_issued (h2 sub hs).1, (h2 sub hs).2⟩⟩

/-- The four kinds of address of a load and a store: misaligned, answered by nothing, in the TCMs up to their last word with and
without an error, and elsewhere. -/
theorem witness_CoreLoads_and_CoreStores :
    (0x3FFFD : Nat) % 4 ≠ 0 ∧ State.reset.d.coreTarget 0 0x40000 4 = .bad ∧ State.reset.d.coreTarget 0 0x3FFFC 4 = .tcm 0x3FFFC ∧
      State.reset.d.badWords.contains (tcmKey 0 0x3FFFC) = false ∧
      (withDev (fun d => { d with badWords := [tcmKey 0 0x3FFFC] })).d.badWords.contains (tcmKey 0 0x3FFFC) = true ∧
      (∀ b, State.reset.d.coreTarget 0 0x20000000 4 ≠ .tcm b) ∧ State.reset.d.coreTarget 0 0x20000000 4 ≠ .bad := by
  have h : State.reset.d.coreTarget 0 0x20000000 4 = .sram 0 := by decide +kernel
  refine ⟨by decide, by decide +kernel, by decide +kernel, by decide +kernel, by decide +kernel, ?_, ?_⟩
  · intro b; rw [h]; exact CoreTgt.noConfusion
  · rw [h]; exact CoreTgt.noConfusion

theorem witness_CoreBranches :
    (coreAt0 (wR 0x18 0 1 0 0) [(1, 8)]).atInstr 0 (wR 0x18 0 1 0 0) ∧
      (((coreAt0 (wR 0x18 0 1 0 0) [(1, 8)]).d.coreAt 0).src 1).toNat % 4 = 0 ∧
      (((coreAt0 (wR 0x18 0 1 0 0) [(1, 9)]).d.coreAt 0).src 1).toNat % 4 ≠ 0 :=
  ⟨atInstr_of_issued (by decide +kernel), by decide +kernel, by decide +kernel⟩

/-- The stack check at both ends of the limits of reset, 0x20000 to 0x40000. -/
theorem witness_CoreCallsAndReturns :
    (coreAt0 (wI 0x1A 0 0 0) [(30, 0x3FFFC)]).atInstr 0 (wI 0x1A 0 0 0) ∧ Core.stackCheck {} 0x3FFFC = none ∧
      Core.stackCheck {} 0x20000 = none ∧ Core.stackCheck {} 0x40000 = some .stack ∧ Core.stackCheck {} 0x1FFFC = some .stack ∧
      Core.stackCheck {} 0x20002 = some .align ∧ below 0x40000 4 = 0x3FFFC :=
  ⟨atInstr_of_issued (by decide +kernel), by decide +kernel, by decide +kernel, by decide +kernel, by decide +kernel, by decide +kernel,
    by decide +kernel⟩

theorem witness_CoreExceptionEntry :
    (coreAt0 (wR 0x23 0 0 0 0) [(30, 0x40000)]).atInstr 0 (wR 0x23 0 0 0 0) ∧
      (coreAt0 (wR 0x23 0 0 0 1) [(30, 0x40000)]).atInstr 0 (wR 0x23 0 0 0 1) ∧
      (coreAt0 (wR 0x24 0 0 0 0) [(30, 0x40000)]).atInstr 0 (wR 0x24 0 0 0 0) ∧ kIllegal (wR 0x24 0 0 0 0) = true ∧
      kIllegal (wR 0 0 0 0 18) = true ∧ kIllegal (wR 0 0 0 0 17) = false ∧
      (let k := (coreAt0 (wR 0x23 0 0 0 0) [(30, 0x40000)]).d.coreAt 0
       k.hnd = false ∧ k.stackCheck (below (k.reg 30).toNat 4) = none ∧ k.stackCheck (below (k.reg 30).toNat 8) = none ∧
        k.xbase.toNat + 4 * Cause.syscall.code + 4 ≤ 0x20000) ∧
      ((coreAt0 (wR 0x23 0 0 0 1)).d.attached && ((coreAt0 (wR 0x23 0 0 0 1)).d.coreAt 0).rcCfg.getLsbD 0) = false :=
  ⟨atInstr_of_issued (by decide +kernel), atInstr_of_issued (by decide +kernel), atInstr_of_issued (by decide +kernel), by decide +kernel,
    by decide +kernel, by decide +kernel, by decide +kernel, by decide +kernel⟩

theorem witness_CoreSystemInstructions :
    (∀ f, f < 5 → issued (wR 0x23 0 0 0 f) [(30, 0x3FFF8)] = true ∧ kFn (wR 0x23 0 0 0 f) = f) ∧
      (let k := (coreAt0 (wR 0x23 0 0 0 2) [(30, 0x3FFF8)]).d.coreAt 0
       k.stackCheck (k.src 30).toNat = none ∧ k.stackCheck (((k.src 30).toNat + 4) % 2 ^ 32) = none ∧ k.csr 0 16 = none ∧
        (k.csr 0 15).isSome = true ∧ k.csr 0 5 = none ∧ k.haltReq = false ∧ k.stepping = false) ∧
      (coreAt0 0).d.requestLine 0 = false ∧
      (withDev (fun d => { d with intc := [(0, { count := [(384, 1)] })], regs := [(Reg.INTC_EN 0 12, 1)] })).d.requestLine 0 = true ∧
      (withDev (fun d => { d with regs := [(Reg.DBG_ATTACH, 1)] })).d.attached = true := by decide +kernel

theorem witness_CoreTableLookUp :
    (∀ f, f < 8 → issued (wR 0x1F 3 1 2 f) [(1, 0x24000), (2, 0x54000)] = true ∧ bits (wR 0x1F 3 1 2 f).toNat 0 3 = f) ∧
      State.reset.d.coreTarget 0 (0x24000 + 5 * 2) 2 = .tcm 0x2400A ∧ State.reset.d.coreTarget 0 (0x24000 + 6 * 2) 2 = .tcm 0x2400C := by
  decide +kernel

/-! ### Interrupts, timers, mailboxes, terminals, DMA -/

/-- Source 0 is eligible at core 0's controller, and 511 pending too. -/
def claimable : State :=
  withDev (fun d => { d with intc := [(0, { count := [(0, 15), (511, 1)] })],
                             regs := [(Reg.INTC_EN 0 0, 1), (Reg.INTC_EN 0 15, 0x80000000)] })

theorem witness_InterruptClaim :
    claimable.d.coreUp = true ∧ (claimable.d.intcAt 0).active = none ∧ claimable.d.eligible 0 0 = true ∧
      (∀ y, claimable.d.eligible 0 y = true → 0 ≤ y) ∧ (Agent.core 1 ≠ .core 0) :=
  ⟨by decide +kernel, by decide +kernel, by decide +kernel, fun _ _ => Nat.zero_le _, by decide⟩

theorem witness_InterruptCompletion :
    ((withDev (fun d => { d with intc := [(3, { active := some 511 })] })).d.intcAt 3).active = some ((511 : Word).toNat % 1024) ∧
      (State.reset.d.intcAt 3).active ≠ some ((511 : Word).toNat % 1024) := by decide +kernel

theorem witness_SoftwareInterrupt :
    State.reset.d.loaded = false ∧ (withDev (fun d => { d with loaded := true })).d.loaded = true ∧ (383 : Word).toNat % 512 < 384 ∧
      384 ≤ (384 : Word).toNat % 512 ∧ (withRegs [(Reg.INT_ROUTE 384, 0x11)]).d.bt (Reg.INT_ROUTE 384) 0 = true ∧
      (withRegs [(Reg.INT_ROUTE 384, 0x11)]).d.bt (Reg.INT_ROUTE 384) 4 = true ∧
      State.reset.d.bt (Reg.INT_ROUTE 384) 3 = false := by decide +kernel

theorem witness_TimerCompareAndCapture :
    ((withDev (fun d => { d with tmr := [(15, { caps := [7] })] })).d.tmrAt 15).caps = [7] ∧ (State.reset.d.tmrAt 15).caps = [] := by
  decide +kernel

theorem witness_VirtualTerminals :
    (State.reset.d.coreAt 3).vtTx.length < 16 ∧
      16 ≤ ((withDev (fun d => d.onCore 3 (fun k => { k with vtTx := List.replicate 16 0, vtRx := List.replicate 16 1 }))).d.coreAt 3).vtTx.length := by
  decide +kernel

/-- A channel of the host's with 16 bytes from LPDDR5X to LPDDR5X, and one that overlaps, one misaligned, one beyond the space. -/
def dmaState (src dst n cfg : Word) : State :=
  withRegs [(Reg.MEM_LP_SIZE, 1024), (Reg.DMA_SRC_LO 31, src), (Reg.DMA_DST_LO 31, dst), (Reg.DMA_COUNT 31, n), (Reg.DMA_CH_CFG 31, cfg)]

theorem witness_DmaStartChecks :
    ownerIs .host ((dmaState 0 16 16 0x20).d.fd (Reg.DMA_CH_STAT 31) 8 3) = true ∧
      ownerIs (.core 0) ((dmaState 0 16 16 0x20).d.fd (Reg.DMA_CH_STAT 31) 8 3) = false ∧
      ((dmaState 0 16 16 0x20).d.dmaAt 31).busy = false ∧
      (dmaState 0 16 16 0x20).d.rangeOk 0 16 16 = true ∧ (dmaState 0 0x3FFFFFF0 17 0x20).d.rangeOk 0 0x3FFFFFF0 17 = false ∧
      (17 : Nat) % 4 ≠ 0 ∧ (0 < 12 ∧ 12 < 0 + 16) ∧ ¬(0 < 16 ∧ 16 < 0 + 16) := by decide +kernel

theorem test_reset_unfenced : ∀ a, State.reset.d.fenced a = false := by
  have h : ∀ c, c < 8 → State.reset.d.bt (Reg.MEM_CH_STAT c) 0 = false := by decide +kernel
  intro a
  refine h _ ?_
  unfold lpChannel
  exact Nat.mod_lt _ (by decide)

theorem witness_DmaMovesBytes :
    ((withDev (fun d => { d with dma := [(31, { busy := true, src := 0, dst := 16, remain := 16 })] })).d.dmaAt 31).busy = true ∧
      State.reset.d.fd (Reg.DMA_CH_CFG 31) 0 2 = 0 ∧ State.reset.d.fd (Reg.DMA_CH_CFG 31) 2 2 = 0 ∧ State.reset.d.badWords = [] ∧
      (∀ k, k < 32 → k ≠ 31 →
        ((withDev (fun d => { d with dma := [(31, { busy := true, src := 0, dst := 16, remain := 16 })] })).d.dmaAt k).busy = false) ∧
      ((withDev (fun d => { d with dma := [(31, { busy := true, src := 0, dst := 16, remain := 16 })] })).d.dmaAt 31).buf = [] ∧
      ¬((0 : Nat) < 16 ∧ 16 < 0 + 16) := by decide +kernel

/-! ### Pins, memory, the display blocks -/

theorem witness_OutputLatch :
    ownerIs .host (State.reset.d.fd (Reg.GP_PIN_OWN 127) 0 3) = true ∧
      ownerIs (.core 0) (State.reset.d.fd (Reg.GP_PIN_OWN 127) 0 3) = false ∧
      (0x80000000 : Word).getLsbD 31 ≠ (State.reset.d.rg (Reg.GP_OUT 3)).getLsbD 31 := by decide +kernel

theorem witness_PinOwnership :
    State.reset.d.bt (Reg.GP_PIN_OWN 127) 3 = false ∧ (withRegs [(Reg.GP_PIN_OWN 127, 8)]).d.bt (Reg.GP_PIN_OWN 127) 3 = true ∧
      (0x2F4 : Word).toNat % 16 = 4 ∧ (0x2F4 : Word).toNat / 16 % 64 < 48 ∧ ¬((0x304 : Word).toNat / 16 % 64 < 48) := by decide +kernel

theorem witness_PadChange : State.reset.d.bt (Reg.GP_IN (127 / 32)) (127 % 32) = false ∧ (127 : Nat) < 128 := by decide +kernel

theorem witness_Bar2Accesses :
    (withRegs [(Reg.MEM_LP_SIZE, 1024)]).d.lpSize = 2 ^ 30 ∧ (2 ^ 30 - 4) + 4 ≤ bar2Bytes ∧ State.reset.d.lpSize < 0 + 1 ∧
      State.reset.d.meetsBad 0 (2 ^ 30 - 4) 4 = false := by
  decide +kernel

theorem witness_BankRetention :
    State.reset.d.fd (Reg.MEM_BANK_CTRL 86) 1 2 = 0 ∧ (withRegs [(Reg.MEM_BANK_CTRL 93, 3)]).d.fd (Reg.MEM_BANK_CTRL 93) 1 2 = 1 ∧
      (withRegs [(Reg.MEM_BANK_CTRL 93, 5)]).d.fd (Reg.MEM_BANK_CTRL 93) 1 2 = 2 ∧ State.reset.d.bt Reg.MEM_INT_EN 5 = false ∧
      (∀ x ∈ State.reset.d.av.repWait, x.bank ≠ 93) ∧ (withRegs [(Reg.MEM_BANK_CTRL 86, 3)]).d.fd (Reg.MEM_BANK_CTRL 86) 1 2 ≠ 0 := by
  decide +kernel

theorem witness_TickNumberRisesByOne : State.reset.d.aonUp = true ∧ State.reset.d.tick.jump = false := by decide +kernel

theorem witness_ObjectSnapshots_and_SluiceObjects :
    State.reset.d.coreUp = true ∧ Agent.host.ok = true ∧ (47 : Nat) < 48 ∧ (255 : Nat) < 256 ∧
      (∀ c ∈ State.reset.d.slLog, c.arrives < State.reset.d.edgeTime State.reset.d.cclks) := by decide +kernel

/-- A route of output 47 that cleared EN of object 63 on the present CCLK edge. -/
def routed : SlChange := { kind := 6, src := 7, off := Reg.SL_LO_CTRL 47 63, mask := 1, arrives := State.reset.d.edgeTime State.reset.d.cclks }

theorem witness_SluiceRouteStands :
    let s := withDev (fun d => { d with slLog := [routed] })
    s.d.coreUp = true ∧ Agent.host.ok = true ∧ (47 : Nat) < 48 ∧ (63 : Nat) < 64 ∧ s.d.slLog = [routed] ∧ routed.kind = 6 ∧
      routed.act = .put ∧ routed.mask = 1 ∧ routed.off = Reg.SL_LO_CTRL 47 63 ∧ routed.arrives = s.d.edgeTime s.d.cclks ∧
      120 * s.d.tb ≤ routed.arrives + 48000 ∧ s.d.bt (Reg.SL_LO_CTRL 47 63) 0 = routed.val.getLsbD 0 := by decide +kernel

/-- R169: an SL_LEN_SET that comes after a route of its CCLK leaves what the route left; without the route it sets the bit. -/
theorem test_route_over_len :
    let s := fun (e : SlChange) => withDev (fun d => ({ d with slLog := [e] } : Dev).slLen 47 1 0x80000000 true)
    (s routed).d.bt (Reg.SL_LO_CTRL 47 63) 0 = false ∧
      (withDev (fun d => d.slLen 47 1 0x80000000 true)).d.bt (Reg.SL_LO_CTRL 47 63) 0 = true := by decide +kernel

/-- Damsel engine 47 runs with the word `w` at its PC, 0, and `w1` after it. -/
def damsel (w w1 : Word) : State :=
  withDev (fun d => { d.sf (Reg.DM_STAT 47) 8 2 1 with aux := [(dmWord 47 0, w), (dmWord 47 1, w1)] })

theorem witness_DamselControl :
    (∀ op, op < 16 → (damsel (BitVec.ofNat 32 (op * 2 ^ 28)) 0).d.fd (Reg.DM_STAT 47) 8 2 = 1 ∧
      (match (damsel (BitVec.ofNat 32 (op * 2 ^ 28)) 0).d.dmFetch 47 0 with
        | .ok w => decide (bits w 28 4 = op)
        | .error _ => false) = true) ∧
      ((damsel 0x70000000 0).d.dmAt 47).c 0 = 0 ∧
      ((withDev (fun d => { d with dm := [(47, { c1 := 1 })] })).d.dmAt 47).c 1 ≠ 0 ∧
      (damsel 0x50000000 0).d.dmCond 47 0 0 = false ∧ (damsel 0x58000000 0).d.dmCond 47 0 0 ≠ (bits 0x58000000 27 1 == 1) ∧
      bits 0x54000000 24 3 = 4 ∧ bits 0x55000000 24 3 = 5 := by decide +kernel

theorem witness_DamselEventsAndProgram :
    State.reset.d.fbt (Reg.DM_CFG 47) 0 = true ∧ (withDev (fun d => d.sfr (Reg.DM_CFG 47) 0)).d.fbt (Reg.DM_CFG 47) 0 = false := by
  decide +kernel

theorem witness_HopperRings :
    ownerIs .host (bits (State.reset.d.rg (Reg.HOP_RD_CFG 16383)).toNat 15 3) = true ∧
      ownerIs (.core 3) (bits (State.reset.d.rg (Reg.HOP_RD_CFG 16383)).toNat 15 3) = false ∧
      ((withRegs [(Reg.HOP_RD_CFG 16383, 0x11)]).afterDev (fun d => d.sg (Reg.HOP_RD_TAIL 16383) 16)).d.published 16383 ≤ 2 ^ 4 ∧
      bits (0x11 : Word).toNat 2 5 = 4 ∧ (State.reset.d.rg (Reg.HOP_RD_CFG 16383)).getLsbD 0 = false ∧
      (80 : Word).toNat / 4 % 32 = 20 ∧ State.reset.d.published 16383 ≤ 2 ^ 20 ∧
      ((withRegs [(Reg.HOP_RD_CFG 16383, 0x11)]).d.rg (Reg.HOP_RD_CFG 16383)).getLsbD 0 = true := by decide +kernel

theorem witness_SecureBlock :
    (Agent.host ≠ .core 3) ∧ 8 ≤ (withDev (fun d => { d with sec := { d.sec with rng := List.replicate 8 default } })).d.sec.rng.length ∧
      (0x4C440001 : Word).toNat / 2 ^ 16 ≠ 0x4C43 ∧ (0x4C430005 : Word).toNat % 8 = 5 ∧
      (withRegs [(Reg.SEC_TAMPER_CFG, 0x100)]).d.bt Reg.SEC_TAMPER_CFG 8 = true ∧ State.reset.d.bt Reg.SEC_TAMPER_CFG 8 = false := by
  decide +kernel

theorem witness_WipeZeroesBank95 :
    (withDev (fun d => { d with sec := { d.sec with wipeAt := some 0 } })).d.sec.wipeAt = some 0 ∧ State.reset.d.sec.lc = none ∧
      State.reset.d.sec.rngWait = 0 := by decide +kernel

theorem witness_PioAccesses :
    ownerIs .host (State.reset.d.fd (Reg.PIO_E_CFG 7) 4 3) = true ∧ ownerIs (.core 2) (State.reset.d.fd (Reg.PIO_E_CFG 7) 4 3) = false ∧
      (State.reset.d.ctxAt 7 15).tx.length < 4 ∧ (State.reset.d.ctxAt 7 15).rx = [] ∧
      ((withDev (fun d => d.setCtx 7 15 { tx := [1, 2, 3, 4], rx := [5] })).d.ctxAt 7 15).tx.length = 4 ∧
      ((withDev (fun d => d.setCtx 7 15 { tx := [1, 2, 3, 4], rx := [5] })).d.ctxAt 7 15).rx = [5] ∧
      State.reset.d.bt (Reg.PIO_E_CFG 7) 0 = false ∧ (withRegs [(Reg.PIO_E_CFG 7, 1)]).d.bt (Reg.PIO_E_CFG 7) 0 = true := by
  decide +kernel

theorem witness_LongOperationCommands :
    (∀ st, st < 7 → (withRegs [(Reg.SYS_LOP_STAT 63, BitVec.ofNat 32 st)]).d.fd (Reg.SYS_LOP_STAT 63) 0 3 = st ∧
      (withRegs [(Reg.SYS_LOP_STAT 63, BitVec.ofNat 32 st)]).d.ownsSlot .host 63 = true ∧
      (withRegs [(Reg.SYS_LOP_STAT 63, BitVec.ofNat 32 st)]).d.lopApplies 63 = false) ∧
      State.reset.d.ownsSlot (.core 0) 63 = false ∧
      (withDev (fun d => { d.sg (Reg.SYS_LOP_STAT 63) 0x4002 with lop := [(63, { phase := .apply })] })).d.lopApplies 63 = true := by
  decide +kernel

theorem witness_UpdateCommands :
    State.reset.d.upd.rec_ = none ∧
      (∀ st, st < 5 → (withRegs [(Reg.UPD_STATE, BitVec.ofNat 32 st)]).d.fd Reg.UPD_STATE 0 3 = st) := by decide +kernel

theorem witness_RingMailbox :
    State.reset.d.tapping = false ∧ (withRegs [(Reg.RING_MBX_TX_CTRL, 0x100)]).d.bt Reg.RING_MBX_TX_CTRL 8 = true := by decide +kernel

/-- The conditions of the completion statements: the core domain and the always-on domain run, and the operands lie at the ends of their
ranges. -/
theorem witness_commands_complete :
    State.reset.d.aonUp = true ∧ State.reset.d.coreUp = true ∧ (Agent.core 3).ok = true ∧ (frameOutput (Reg.MX_CFG 47)).isSome = true ∧
      bits (([3, 0, 0, 0, 0, 0] : List Word).headD 0).toNat 0 3 = 3 := by decide +kernel

end Sys2Proof.Test
end

section
/-!
SUPPORT. Interrupt claims: what a read of INTC_CLAIM answers and changes (R398, R399).
-/

namespace Sys2Proof

/-- A key that does not read as its default is listed. -/
theorem Tab.mem_keys_of_get_ne {α : Type} {d : Nat → α} {t : Tab α} {k : Nat} (h : Tab.get d t k ≠ d k) : k ∈ t.map (·.1) := by
  induction t with
  | nil => exact absurd rfl h
  | cons p t ih =>
    obtain ⟨j, v⟩ := p
    by_cases hj : j = k
    · simp [hj]
    · rw [Tab.get, if_neg hj] at h
      exact List.mem_cons_of_mem _ (ih h)

end Sys2Proof

namespace Sys2Proof.Machine

/-! ### Effects on the device alone -/

theorem State.afterDev_congr {s : State} {f g : Dev → Dev} (h : f s.d = g s.d) : s.afterDev f = s.afterDev g := by
  unfold State.afterDev
  rw [h]

/-! ### Registers of an array -/

theorem indexOf_add_mul {base stride n i : Nat} (hs : 0 < stride) (hi : i < n) : indexOf base stride n (base + i * stride) = some i := by
  simp [indexOf, Nat.mul_div_cancel _ hs, hi]

/-! ### The claim (R398, R399) -/

section
variable {s : State} {ag : Agent} {c : Nat}

theorem Dev.count_ne_zero_of_eligible {d : Dev} {x : Nat} (h : d.eligible c x = true) : Tab.at 0 (d.intcAt c).count x ≠ 0 := by
  simp only [Dev.eligible, Bool.and_eq_true, decide_eq_true_eq] at h
  exact h.1.1

theorem Dev.bestSource_eq_none {d : Dev} (h : ∀ x, d.eligible c x = false) : d.bestSource c = none := by
  simp [Dev.bestSource, h]

/-- An eligible source has a count other than 0, so its key is listed and the search meets it. -/
theorem Dev.bestSource_eq_some {d : Dev} {x : Nat} (hx : d.eligible c x = true) (hmin : ∀ y, d.eligible c y = true → x ≤ y) :
    d.bestSource c = some x := by
  refine List.min?_eq_some_iff.mpr ⟨?_, fun y hy => hmin y (List.mem_filter.mp hy).2⟩
  exact List.mem_filter.mpr ⟨Tab.mem_keys_of_get_ne (Dev.count_ne_zero_of_eligible hx), hx⟩

theorem intcClaim_of_refused {d : Dev} (h : ag ≠ .core c ∨ (d.intcAt c).active ≠ none ∨ ∀ x, d.eligible c x = false) :
    intcClaim ag c d = { d with rdata := 0 } := by
  unfold intcClaim
  split
  case isTrue => rfl
  case isFalse hgo =>
    obtain ⟨howner, hidle⟩ := not_or.mp hgo
    have hnone : ∀ x, d.eligible c x = false :=
      (h.resolve_left howner).resolve_left (fun hne => hidle (Option.isSome_iff_ne_none.mpr hne))
    rw [Dev.bestSource_eq_none hnone]

/-- KC3's controller answers another reader as any controller does. -/
theorem W.busRead_INTC_CLAIM (w : W) (ag : Agent) (hc : c < 4) : w.busRead ag (Reg.INTC_CLAIM c) = w.dev (intcClaim ag c) := by
  have hi : indexOf (Reg.INTC_CLAIM 0) 0x1000 4 (Reg.INTC_CLAIM c) = some c := indexOf_add_mul (by decide) hc
  have hrd : w.busRead ag (Reg.INTC_CLAIM c) =
      w.dev (fun d => if c = 3 ∧ ag ≠ .core 3 then { d with rdata := 0 } else intcClaim ag c d) := by
    simp [W.busRead, hi]
  rw [hrd]
  refine congrArg w.dev (funext fun d => ?_)
  split
  case isTrue h =>
    obtain ⟨rfl, hne⟩ := h
    exact (intcClaim_of_refused (.inl hne)).symm
  case isFalse => rfl

theorem exec_intcClaim (hup : s.d.coreUp = true) (hag : ag.ok = true) (hc : c < 4) :
    exec (.intcClaim ag c) s = .next (s.afterDev (intcClaim ag c)) :=
  calc exec (.intcClaim ag c) s
      = s.busGet ag (Reg.INTC_CLAIM c) := need_pos ⟨hag, hc⟩
    _ = .next (s.afterRun (fun w => w.busRead ag (Reg.INTC_CLAIM c))) := coreRun_up hup
    _ = _ := congrArg _ (State.afterRun_eq_afterDev _ _ _ (W.busRead_INTC_CLAIM _ _ hc))

/-- The device once a read has answered `v`.  Its laws are stated for every `v` and used by `rw`: where the word is one that `packFields`
computes, a comparison of two devices field by field would make the kernel compute it. -/
def Dev.answered (d : Dev) (v : Word) : Dev := { d with rdata := v }

theorem Dev.rg_answered (d : Dev) (v : Word) (a : Nat) : (d.answered v).rg a = d.rg a := rfl
theorem Dev.rdata_answered (d : Dev) (v : Word) : (d.answered v).rdata = v := rfl
theorem Dev.intcAt_answered (d : Dev) (v : Word) (c : Nat) : (d.answered v).intcAt c = d.intcAt c := rfl
theorem Dev.answered_onIntc_frame (d : Dev) (v : Word) (c : Nat) (f : Intc → Intc) :
    (d.onIntc c f).answered v = { d with intc := ((d.onIntc c f).answered v).intc, rdata := ((d.onIntc c f).answered v).rdata } := rfl

/-- What a controller holds once it has granted a claim of source `x` (R399). -/
def Intc.claimed (i : Intc) (x : Nat) : Intc := { i with count := Tab.put 0 i.count x 0, active := some x }

/-- The word that grants the claim of source `x` with count `n`. -/
def claimWord (x n : Nat) : Word := packFields [(0, x), (12, n), (31, 1)]

theorem intcClaim_of_best {d : Dev} {x : Nat} (hidle : (d.intcAt c).active = none) (hbest : d.bestSource c = some x) :
    intcClaim (.core c) c d =
      (d.onIntc c (fun i => i.claimed x)).answered (claimWord x (Tab.at 0 (d.intcAt c).count x)) := by
  unfold intcClaim
  rw [if_neg (by simp [hidle]), hbest]
  rfl

end

/-- Settles O29: the search of the listed counts finds the lowest eligible source, and every refusal answers 0. -/
theorem interruptClaim : Obligations.InterruptClaim := by
  intro s ag c hup hag hc
  rw [exec_intcClaim hup hag hc]
  constructor
  · intro href
    exact congrArg Host.Outcome.next (State.afterDev_congr (intcClaim_of_refused href))
  · rintro x rfl hidle hx hmin
    have hclaim := intcClaim_of_best hidle (Dev.bestSource_eq_some hx hmin)
    have hi : (intcClaim (.core c) c s.d).intcAt c = (s.d.intcAt c).claimed x := by
      rw [hclaim, Dev.intcAt_answered, Dev.intcAt_onIntc, if_pos rfl]
    have hframe : ∀ c', c' ≠ c → (intcClaim (.core c) c s.d).intcAt c' = s.d.intcAt c' := fun c' hne => by
      rw [hclaim, Dev.intcAt_answered, Dev.intcAt_onIntc, if_neg (Ne.symm hne)]
    refine ⟨_, rfl, ⟨State.afterDev_mem .., State.afterDev_pending .., fun a _ => ?_⟩, ?_, ?_, ?_, fun y => ?_, ?_, hframe⟩
    · rw [State.afterDev_d, hclaim, Dev.rg_answered, Dev.rg_onIntc]
    · rw [State.afterDev_d, hclaim]
      exact Dev.answered_onIntc_frame ..
    · rw [State.afterDev_d, hclaim, Dev.rdata_answered, claimWord]
    · rw [State.afterDev_d, hi, Intc.claimed]
    · rw [State.afterDev_d, hi, Intc.claimed, Tab.get_put]
      exact ite_congr (propext eq_comm) (fun _ => rfl) (fun _ => rfl)
    · rw [State.afterDev_d, hi, Intc.claimed]

end Sys2Proof.Machine
end

section
/-!
SUPPORT. Interrupt events: what one event does at one controller, at every controller that a route names and at the host (R396, R397, R404),
and the software sources that raise one (R406).
-/

namespace Sys2Proof.Machine

/-! ### One bit of a register -/

theorem Dev.rg_sb (d : Dev) (a b i : Nat) : (d.sb a i).rg b = if a = b then d.rg a ||| 1#32 <<< i else d.rg b := Dev.rg_sg ..

theorem Dev.rg_inc (d : Dev) (a b : Nat) : (d.inc a).rg b = if a = b then d.rg a + 1 else d.rg b := Dev.rg_sg ..

theorem Dev.bt_sb_self (d : Dev) (a : Nat) {i : Nat} (hi : i < 32) : (d.sb a i).bt a i = true := by
  simp [Dev.bt, Dev.rg_sb, hi]

theorem Dev.pb_eq_sg (d : Dev) (a i : Nat) (b : Bool) :
    d.pb a i b = d.sg a (if b then d.rg a ||| 1#32 <<< i else d.rg a &&& ~~~(1#32 <<< i)) := by
  cases b <;> rfl

theorem Dev.intcAt_sg (d : Dev) (a : Nat) (v : Word) (c : Nat) : (d.sg a v).intcAt c = d.intcAt c := rfl

/-! ### A moderation group -/

theorem Dev.rg_setGroup_of_ne (d : Dev) (c g : Nat) (m : ModGroup) {a : Nat} (h : Reg.INTC_MOD c g ≠ a) :
    (d.setGroup c g m).rg a = d.rg a := by
  rw [Dev.setGroup, Dev.pb_eq_sg, Dev.rg_sg_of_ne _ _ _ _ h, Dev.rg_onIntc]

theorem Dev.intcAt_setGroup (d : Dev) (c g : Nat) (m : ModGroup) (c' : Nat) :
    (d.setGroup c g m).intcAt c' =
      if c = c' then { d.intcAt c with groups := Tab.put {} (d.intcAt c).groups g m } else d.intcAt c' := by
  rw [Dev.setGroup, Dev.pb_eq_sg, Dev.intcAt_sg, Dev.intcAt_onIntc]

theorem Dev.setGroup_frame (d : Dev) (c g : Nat) (m : ModGroup) :
    d.setGroup c g m = { d with regs := (d.setGroup c g m).regs, intc := (d.setGroup c g m).intc } := by
  rw [Dev.setGroup, Dev.pb_eq_sg]
  rfl

/-! ### One event at one controller (R397) -/

/-- Does the register at `a` lie in the window of controller `c` (R422)? -/
def InController (c a : Nat) : Prop := 0x1300800 + c * 0x1000 ≤ a ∧ a < 0x1301000 + c * 0x1000

/-- Controller `c` and its registers are the same in both devices. -/
def Dev.SameController (d e : Dev) (c : Nat) : Prop := e.intcAt c = d.intcAt c ∧ ∀ a, InController c a → e.rg a = d.rg a

/-- From `d` to `e` controller `c` has taken one event of source `s`: a count below 15 rises by 1, at 15 the event is lost and shown, and
every other count stays (R397). -/
structure Dev.TakesEvent (d e : Dev) (c s : Nat) : Prop where
  counted : Tab.at 0 (d.intcAt c).count s < 15 → Tab.at 0 (e.intcAt c).count s = Tab.at 0 (d.intcAt c).count s + 1
  lost : 15 ≤ Tab.at 0 (d.intcAt c).count s → Tab.at 0 (e.intcAt c).count s = Tab.at 0 (d.intcAt c).count s ∧
    e.bt (Reg.INTC_STAT c) 1 = true ∧ e.rg (Reg.INTC_LAST_OVF c) = BitVec.ofNat 32 s ∧
    e.rg (Reg.INTC_OVF_CNT c) = d.rg (Reg.INTC_OVF_CNT c) + 1
  others : ∀ y, y ≠ s → Tab.at 0 (e.intcAt c).count y = Tab.at 0 (d.intcAt c).count y

section
variable {d d' e e' : Dev} {c c' s : Nat}

/-- What one event can do. -/
theorem Dev.intcEvent_cases (d : Dev) (c s : Nat) :
    (15 ≤ Tab.at 0 (d.intcAt c).count s ∧
      d.intcEvent c s = ((d.sb (Reg.INTC_STAT c) 1).sg (Reg.INTC_LAST_OVF c) (BitVec.ofNat 32 s)).inc (Reg.INTC_OVF_CNT c)) ∨
    (Tab.at 0 (d.intcAt c).count s < 15 ∧ ∃ m, d.intcEvent c s =
      (d.onIntc c (fun i => { i with count := Tab.put 0 i.count s (Tab.at 0 (d.intcAt c).count s + 1) })).setGroup c (s / 16) m) := by
  by_cases h : 15 ≤ Tab.at 0 (d.intcAt c).count s
  · exact .inl ⟨h, if_pos h⟩
  · exact .inr ⟨Nat.lt_of_not_le h, _, if_neg h⟩

theorem Dev.intcEvent_frame (d : Dev) (c s : Nat) :
    d.intcEvent c s = { d with regs := (d.intcEvent c s).regs, intc := (d.intcEvent c s).intc } := by
  obtain ⟨-, hev⟩ | ⟨-, m, hev⟩ := d.intcEvent_cases c s
  · rw [hev]
    rfl
  · rw [hev, Dev.setGroup_frame]
    rfl

theorem Dev.intcAt_intcEvent_of_ne (h : c ≠ c') : (d.intcEvent c s).intcAt c' = d.intcAt c' := by
  obtain ⟨-, hev⟩ | ⟨-, m, hev⟩ := d.intcEvent_cases c s
  · rw [hev]
    rfl
  · rw [hev, Dev.intcAt_setGroup, if_neg h, Dev.intcAt_onIntc, if_neg h]

theorem Dev.rg_intcEvent_of_outside (hs : s < 512) {a : Nat} (h : ¬InController c a) : (d.intcEvent c s).rg a = d.rg a := by
  unfold InController at h
  obtain ⟨-, hev⟩ | ⟨-, m, hev⟩ := d.intcEvent_cases c s
  · have hstat : Reg.INTC_STAT c ≠ a := by unfold Reg.INTC_STAT; omega
    have hlast : Reg.INTC_LAST_OVF c ≠ a := by unfold Reg.INTC_LAST_OVF; omega
    have hcnt : Reg.INTC_OVF_CNT c ≠ a := by unfold Reg.INTC_OVF_CNT; omega
    rw [hev, Dev.rg_inc, if_neg hcnt, Dev.rg_sg_of_ne _ _ _ _ hlast, Dev.rg_sb, if_neg hstat]
  · have hmod : Reg.INTC_MOD c (s / 16) ≠ a := by unfold Reg.INTC_MOD; omega
    rw [hev, Dev.rg_setGroup_of_ne _ _ _ _ hmod, Dev.rg_onIntc]

theorem not_inController_of_ne {a : Nat} (h : c ≠ c') (ha : InController c' a) : ¬InController c a := by
  unfold InController at *
  omega

theorem Dev.SameController.refl (d : Dev) (c : Nat) : d.SameController d c := ⟨rfl, fun _ _ => rfl⟩

theorem Dev.SameController.trans (h : d.SameController d' c) (h' : d'.SameController e c) : d.SameController e c :=
  ⟨h'.1.trans h.1, fun a ha => (h'.2 a ha).trans (h.2 a ha)⟩

theorem Dev.sameController_intcEvent (hs : s < 512) (h : c ≠ c') : d.SameController (d.intcEvent c s) c' :=
  ⟨Dev.intcAt_intcEvent_of_ne h, fun _ ha => Dev.rg_intcEvent_of_outside hs (not_inController_of_ne h ha)⟩

/-- The three registers that show a lost event, once it is shown. -/
theorem Dev.overflow_shown (d : Dev) (c : Nat) (v : Word) :
    let e := ((d.sb (Reg.INTC_STAT c) 1).sg (Reg.INTC_LAST_OVF c) v).inc (Reg.INTC_OVF_CNT c)
    e.bt (Reg.INTC_STAT c) 1 = true ∧ e.rg (Reg.INTC_LAST_OVF c) = v ∧ e.rg (Reg.INTC_OVF_CNT c) = d.rg (Reg.INTC_OVF_CNT c) + 1 := by
  have hcs : Reg.INTC_OVF_CNT c ≠ Reg.INTC_STAT c := by simp [Reg.INTC_OVF_CNT, Reg.INTC_STAT]
  have hls : Reg.INTC_LAST_OVF c ≠ Reg.INTC_STAT c := by simp [Reg.INTC_LAST_OVF, Reg.INTC_STAT]
  have hcl : Reg.INTC_OVF_CNT c ≠ Reg.INTC_LAST_OVF c := by simp [Reg.INTC_OVF_CNT, Reg.INTC_LAST_OVF]
  refine ⟨?_, ?_, ?_⟩
  · rw [Dev.bt, Dev.rg_inc, if_neg hcs, Dev.rg_sg_of_ne _ _ _ _ hls]
    exact Dev.bt_sb_self _ _ (by decide)
  · rw [Dev.rg_inc, if_neg hcl, Dev.rg_sg_self]
  · rw [Dev.rg_inc, if_pos rfl, Dev.rg_sg_of_ne _ _ _ _ hcl.symm, Dev.rg_sb, if_neg hcs.symm]

theorem Dev.takesEvent_intcEvent (d : Dev) (c s : Nat) : d.TakesEvent (d.intcEvent c s) c s := by
  obtain ⟨hfull, hev⟩ | ⟨hlt, m, hev⟩ := d.intcEvent_cases c s
  · have hsame : (d.intcEvent c s).intcAt c = d.intcAt c := by
      rw [hev]
      rfl
    refine ⟨fun hlt => absurd hfull (Nat.not_le.mpr hlt), fun _ => ⟨by rw [hsame], ?_⟩, fun y _ => by rw [hsame]⟩
    rw [hev]
    exact d.overflow_shown c _
  · have hcount : ((d.intcEvent c s).intcAt c).count = Tab.put 0 (d.intcAt c).count s (Tab.at 0 (d.intcAt c).count s + 1) := by
      rw [hev, Dev.intcAt_setGroup, if_pos rfl, Dev.intcAt_onIntc, if_pos rfl]
    refine ⟨fun _ => ?_, fun hfull => absurd hfull (Nat.not_le.mpr hlt), fun y hy => ?_⟩
    · rw [hcount, Tab.get_put, if_pos rfl]
    · rw [hcount, Tab.get_put, if_neg hy.symm]

theorem inController_INTC_STAT (c : Nat) : InController c (Reg.INTC_STAT c) := by unfold InController Reg.INTC_STAT; omega
theorem inController_INTC_LAST_OVF (c : Nat) : InController c (Reg.INTC_LAST_OVF c) := by unfold InController Reg.INTC_LAST_OVF; omega
theorem inController_INTC_OVF_CNT (c : Nat) : InController c (Reg.INTC_OVF_CNT c) := by unfold InController Reg.INTC_OVF_CNT; omega

/-- An event is taken whatever happens before and after it that leaves its controller as it is. -/
theorem Dev.TakesEvent.of_same (hbefore : d.SameController d' c) (ht : d'.TakesEvent e c s) (hafter : e.SameController e' c) :
    d.TakesEvent e' c s := by
  obtain ⟨hi, hr⟩ := hbefore
  obtain ⟨hi', hr'⟩ := hafter
  obtain ⟨hcounted, hlost, hothers⟩ := ht
  rw [hi] at hcounted hlost hothers
  rw [hr _ (inController_INTC_OVF_CNT c), Dev.bt] at hlost
  constructor
  · rwa [hi']
  · rwa [hi', Dev.bt, hr' _ (inController_INTC_STAT c), hr' _ (inController_INTC_LAST_OVF c), hr' _ (inController_INTC_OVF_CNT c)]
  · rwa [hi']

/-! ### One event at several controllers (R396) -/

/-- One event of source `s` at each controller of the list. -/
def Dev.intcEvents (d : Dev) (l : List Nat) (s : Nat) : Dev := l.foldl (fun d c => d.intcEvent c s) d

theorem Dev.intcEvents_cons (d : Dev) (c : Nat) (l : List Nat) (s : Nat) : d.intcEvents (c :: l) s = (d.intcEvent c s).intcEvents l s := rfl

theorem Dev.intcEvents_frame (d : Dev) (l : List Nat) (s : Nat) :
    d.intcEvents l s = { d with regs := (d.intcEvents l s).regs, intc := (d.intcEvents l s).intc } := by
  induction l generalizing d with
  | nil => rfl
  | cons c l ih => rw [Dev.intcEvents_cons, ih, Dev.intcEvent_frame]

theorem Dev.rg_intcEvents_of_outside (hs : s < 512) {a : Nat} (h : ∀ c, ¬InController c a) (d : Dev) (l : List Nat) :
    (d.intcEvents l s).rg a = d.rg a := by
  induction l generalizing d with
  | nil => rfl
  | cons c l ih => rw [Dev.intcEvents_cons, ih, Dev.rg_intcEvent_of_outside hs (h c)]

theorem Dev.sameController_intcEvents (hs : s < 512) {l : List Nat} (h : c ∉ l) : d.SameController (d.intcEvents l s) c := by
  induction l generalizing d with
  | nil => exact .refl d c
  | cons b l ih =>
    obtain ⟨hb, hl⟩ := List.ne_and_not_mem_of_not_mem_cons h
    exact (Dev.sameController_intcEvent hs hb.symm).trans (ih hl)

theorem Dev.takesEvent_intcEvents (hs : s < 512) {l : List Nat} (hl : l.Nodup) (h : c ∈ l) : d.TakesEvent (d.intcEvents l s) c s := by
  induction l generalizing d with
  | nil => exact absurd h List.not_mem_nil
  | cons b l ih =>
    obtain ⟨hb, hl⟩ := List.nodup_cons.mp hl
    rcases List.mem_cons.mp h with rfl | hc
    · exact (Dev.takesEvent_intcEvent d c s).of_same (.refl d c) (Dev.sameController_intcEvents hs hb)
    · have hne : b ≠ c := fun hbc => hb (hbc ▸ hc)
      exact (ih hl hc).of_same (Dev.sameController_intcEvent hs hne) (.refl _ c)

/-! ### Delivery to the host (R404) -/

theorem Dev.hostEvent_of_not_loaded (h : d.loaded = false) : d.hostEvent s = d := by simp [Dev.hostEvent, h]

theorem Dev.hostEvent_of_not_routed (h : d.bt (Reg.INT_ROUTE s) 4 = false) : d.hostEvent s = d := by simp [Dev.hostEvent, h]

theorem Dev.hostEvent_of_routed (hl : d.loaded = true) (hs : s ≠ 2) (h : d.bt (Reg.INT_ROUTE s) 4 = true) :
    d.hostEvent s = { d.sb (Reg.INT_HOST_PEND (s / 32)) (s % 32) with
      msixPend := Tab.put false d.msixPend ((d.sb (Reg.INT_HOST_PEND (s / 32)) (s % 32)).fd (Reg.INT_ROUTE s) 8 9) true } := by
  simp [Dev.hostEvent, hl, hs, h]

/-- The host's delivery touches no controller. -/
theorem Dev.sameController_hostEvent (hs : s < 512) (d : Dev) (c : Nat) : d.SameController (d.hostEvent s) c := by
  unfold Dev.hostEvent
  split
  case isTrue =>
    refine ⟨rfl, fun a ha => ?_⟩
    have hne : Reg.INT_HOST_PEND (s / 32) ≠ a := by
      unfold Reg.INT_HOST_PEND
      unfold InController at ha
      omega
    exact Dev.rg_sg_of_ne _ _ _ _ hne
  case isFalse => exact .refl d c

/-- A route to the host sets the pending bit of the source and of its vector. -/
theorem Dev.hostEvent_pends (hs : s < 512) (hl : d.loaded = true) (hs2 : s ≠ 2) (h : d.bt (Reg.INT_ROUTE s) 4 = true) :
    (d.hostEvent s).bt (Reg.INT_HOST_PEND (s / 32)) (s % 32) = true ∧
      Tab.at false (d.hostEvent s).msixPend (d.fd (Reg.INT_ROUTE s) 8 9) = true := by
  have hne : Reg.INT_HOST_PEND (s / 32) ≠ Reg.INT_ROUTE s := by
    unfold Reg.INT_HOST_PEND Reg.INT_ROUTE
    omega
  rw [Dev.hostEvent_of_routed hl hs2 h]
  constructor
  · exact Dev.bt_sb_self d _ (Nat.mod_lt s (by decide))
  · rw [Dev.fd, Dev.fd, Dev.rg_sb, if_neg hne, Tab.get_put, if_pos rfl]

/-! ### One event of a routed source (R395 to R397, R406) -/

theorem Dev.raise_eq (d : Dev) (s : Nat) : d.raise s = (d.intcEvents (d.routeCores s) s).hostEvent s := rfl

section
variable (hlo : 384 ≤ s)
include hlo

theorem Dev.raise_of_not_loaded (h : d.loaded = false) : d.raise s = d := by
  have hnil : d.routeCores s = [] := by simp [Dev.routeCores, h, show s ≠ 2 by omega, show s ≠ 3 by omega]
  rw [Dev.raise_eq, hnil]
  exact Dev.hostEvent_of_not_loaded h

theorem Dev.routeCores_of_loaded (h : d.loaded = true) :
    d.routeCores s = (List.range 4).filter (fun c => d.bt (Reg.INT_ROUTE s) c) := by
  simp [Dev.routeCores, h, show s ≠ 2 by omega, show s ≠ 3 by omega]

variable (hs : s < 512) (hl : d.loaded = true)
include hs hl

theorem Dev.takesEvent_raise (hc : c < 4) (hr : d.bt (Reg.INT_ROUTE s) c = true) : d.TakesEvent (d.raise s) c s := by
  have hmem : c ∈ d.routeCores s := by simp [Dev.routeCores_of_loaded hlo hl, hc, hr]
  have hnodup : (d.routeCores s).Nodup := by
    rw [Dev.routeCores_of_loaded hlo hl]
    exact List.nodup_range.filter _
  exact (Dev.takesEvent_intcEvents hs hnodup hmem).of_same (.refl d c) (Dev.sameController_hostEvent hs _ c)

theorem Dev.sameController_raise (h : d.bt (Reg.INT_ROUTE s) c = false ∨ 4 ≤ c) : d.SameController (d.raise s) c := by
  have hmem : c ∉ d.routeCores s := by
    rw [Dev.routeCores_of_loaded hlo hl, List.mem_filter, List.mem_range]
    rintro ⟨hc, hr⟩
    exact h.elim (fun hf => Bool.false_ne_true (hf.symm.trans hr)) (Nat.not_le.mpr hc)
  exact (Dev.sameController_intcEvents hs hmem).trans (Dev.sameController_hostEvent hs _ c)

theorem Dev.count_raise_of_ne (c : Nat) {y : Nat} (hy : y ≠ s) :
    Tab.at 0 ((d.raise s).intcAt c).count y = Tab.at 0 (d.intcAt c).count y := by
  by_cases h : c < 4 ∧ d.bt (Reg.INT_ROUTE s) c = true
  · exact (Dev.takesEvent_raise hlo hs hl h.1 h.2).others y hy
  · have hout := (Classical.not_and_iff_not_or_not.mp h).symm.imp Bool.eq_false_iff.mpr Nat.le_of_not_lt
    rw [(Dev.sameController_raise hlo hs hl hout).1]

omit hlo hl in
/-- The controllers' events leave what the host's delivery looks at. -/
theorem Dev.intcEvents_keeps_route (d : Dev) (l : List Nat) :
    (d.intcEvents l s).rg (Reg.INT_ROUTE s) = d.rg (Reg.INT_ROUTE s) ∧ (d.intcEvents l s).loaded = d.loaded ∧
      (d.intcEvents l s).msixPend = d.msixPend := by
  refine ⟨Dev.rg_intcEvents_of_outside hs (fun c h => ?_) d l, ?_, ?_⟩
  · unfold InController Reg.INT_ROUTE at h
    omega
  · rw [Dev.intcEvents_frame]
  · rw [Dev.intcEvents_frame]

theorem Dev.raise_pends_host (h : d.bt (Reg.INT_ROUTE s) 4 = true) :
    (d.raise s).bt (Reg.INT_HOST_PEND (s / 32)) (s % 32) = true ∧
      Tab.at false (d.raise s).msixPend (d.fd (Reg.INT_ROUTE s) 8 9) = true := by
  obtain ⟨hroute, hload, -⟩ := Dev.intcEvents_keeps_route hs d (d.routeCores s)
  have := Dev.hostEvent_pends (d := d.intcEvents (d.routeCores s) s) hs (hload.trans hl) (by omega) (by rwa [Dev.bt, hroute])
  rwa [Dev.fd, hroute] at this

omit hlo hl in
theorem Dev.msixPend_raise_of_not_routed (h : d.bt (Reg.INT_ROUTE s) 4 = false) : (d.raise s).msixPend = d.msixPend := by
  obtain ⟨hroute, -, hmsix⟩ := Dev.intcEvents_keeps_route hs d (d.routeCores s)
  rw [Dev.raise_eq, Dev.hostEvent_of_not_routed (by rwa [Dev.bt, hroute]), hmsix]

end

end

/-! ### The software sources (R406) -/

theorem W.busWrite_INT_SW_RAISE (w : W) (ag : Agent) (v : Word) :
    w.busWrite ag Reg.INT_SW_RAISE v 0xFFFFFFFF = w.dev (intSwRaise v) := by
  have hv : v &&& 4294967295#32 = v := BitVec.and_allOnes
  simp [W.busWrite, Reg.INT_SW_RAISE, hv]

theorem exec_intSwRaise {s : State} {ag : Agent} {v : Word} (hup : s.d.coreUp = true) (hag : ag.ok = true) :
    exec (.intSwRaise ag v) s = .next (s.afterDev (intSwRaise v)) :=
  calc exec (.intSwRaise ag v) s
      = s.busSet ag Reg.INT_SW_RAISE (fun _ => v) := need_pos hag
    _ = .next (s.afterRun (fun w => w.busWrite ag Reg.INT_SW_RAISE v 0xFFFFFFFF)) := coreRun_up hup
    _ = _ := congrArg _ (State.afterRun_eq_afterDev _ _ _ (W.busWrite_INT_SW_RAISE _ _ _))

theorem intSwRaise_of_hardware {d : Dev} {v : Word} (h : v.toNat % 512 < 384) : intSwRaise v d = d.sb Reg.INT_GSTAT 0 := if_pos h

theorem intSwRaise_of_software {d : Dev} {v : Word} (h : 384 ≤ v.toNat % 512) : intSwRaise v d = d.raise (v.toNat % 512) :=
  if_neg (Nat.not_lt.mpr h)

/-- Settles O31: a raise is one event at each controller that the route names, which stays within that controller, and then the host's
delivery, which looks at nothing that those events change and touches no controller. -/
theorem softwareInterrupt : Obligations.SoftwareInterrupt := by
  intro s ag v hup hag x
  have hx : x < 512 := Nat.mod_lt _ (by decide)
  rw [exec_intSwRaise hup hag]
  refine ⟨fun hlo => ?_, fun hlo hl => ?_, fun hlo hl => ?_⟩
  · exact congrArg Host.Outcome.next (State.afterDev_congr (intSwRaise_of_hardware hlo))
  · have hid : intSwRaise v s.d = id s.d := (intSwRaise_of_software hlo).trans (Dev.raise_of_not_loaded hlo hl)
    exact congrArg Host.Outcome.next (State.afterDev_congr hid)
  · refine ⟨_, rfl, rfl, rfl, ?_⟩
    rw [State.afterDev_d, intSwRaise_of_software hlo]
    exact ⟨fun c hc hr => (Dev.takesEvent_raise hlo hx hl hc hr).counted, fun c hc hr => (Dev.takesEvent_raise hlo hx hl hc hr).lost,
      fun c h => (Dev.sameController_raise hlo hx hl h).1, fun c y => Dev.count_raise_of_ne hlo hx hl c,
      Dev.raise_pends_host hlo hx hl, Dev.msixPend_raise_of_not_routed hx⟩

end Sys2Proof.Machine
end

section
/-!
SUPPORT. Writes of a pin's configuration and of its owner: what GP_PIN_CFG and GP_PIN_OWN take, and what each refusal leaves (R442, R443, R445).
-/

namespace Sys2Proof.Machine

/-! ### A field of a merged word -/

theorem testBit_bits (v lo n i : Nat) : (bits v lo n).testBit i = (decide (i < n) && v.testBit (lo + i)) := by
  rw [bits, Nat.testBit_mod_two_pow, Nat.testBit_div_two_pow, Nat.add_comm]

/-- A field that the mask covers is the field written. -/
theorem bits_mergeWord_of_masked {old v mask : Word} {lo n : Nat} (h : ∀ i, i < n → mask.getLsbD (lo + i) = true) :
    bits (mergeWord old v mask).toNat lo n = bits v.toNat lo n := by
  refine Nat.eq_of_testBit_eq fun i => ?_
  rw [testBit_bits, testBit_bits, BitVec.testBit_toNat, BitVec.testBit_toNat]
  by_cases hi : i < n
  · simp [mergeWord, h i hi]
  · simp [hi]

/-! ### Writes at the registers of a pin -/

/-- A write at an address of the GP block goes to that block. -/
theorem W.busWrite_gp (w : W) (ag : Agent) {a : Nat} (v mask : Word) (hlo : 0x1500000 ≤ a) (hhi : a < 0x1510000) :
    w.busWrite ag a v mask = w.dev (fun d => d.gpWrite ag a v mask) := by
  have habove : ∀ n, n ≤ 0x1500000 → ¬a < n := fun n hn => Nat.not_lt.mpr (Nat.le_trans hn hlo)
  have hraise : a ≠ Reg.INT_SW_RAISE := (Nat.ne_of_lt (Nat.lt_of_lt_of_le (by decide) hlo)).symm
  simp [W.busWrite, habove, hraise, hhi]

/-- In the GP block, the words of the pins are GP_PIN_CFG and GP_PIN_OWN in turn (Table 15-5). -/
theorem Dev.gpWrite_pin (d : Dev) (ag : Agent) {a : Nat} (v mask : Word) (hlo : Reg.GP_PIN_CFG 0 ≤ a) (hhi : a < Reg.GP_PIN_CFG 128) :
    d.gpWrite ag a v mask =
      if a % 8 = 0 then pinCfgWrite ag ((a - Reg.GP_PIN_CFG 0) / 8) v mask d
      else pinOwnWrite ag ((a - Reg.GP_PIN_CFG 0) / 8) v mask d := by
  have habove : ∀ n, n < Reg.GP_PIN_CFG 0 → ¬a ≤ n := fun n hn => Nat.not_le.mpr (Nat.lt_of_lt_of_le hn hlo)
  have hctrl : a ≠ Reg.GP_CTRL := (Nat.ne_of_lt (Nat.lt_of_lt_of_le (by decide) hlo)).symm
  rw [Dev.gpWrite, if_neg hctrl, if_neg (fun h => habove _ (by decide) h.2), if_neg (fun h => habove _ (by decide) h.2),
    if_neg (fun h => habove _ (by decide) h.2), if_pos ⟨hlo, hhi⟩]

section
variable {ag : Agent} {p : Nat} {v mask : Word} {d : Dev} {s : State}

theorem W.busWrite_GP_PIN_CFG (w : W) (hp : p < 128) :
    w.busWrite ag (Reg.GP_PIN_CFG p) v mask = w.dev (pinCfgWrite ag p v mask) := by
  have hindex : (Reg.GP_PIN_CFG p - Reg.GP_PIN_CFG 0) / 8 = p := by unfold Reg.GP_PIN_CFG; omega
  have hword : Reg.GP_PIN_CFG p % 8 = 0 := by unfold Reg.GP_PIN_CFG; omega
  rw [W.busWrite_gp _ _ _ _ (by unfold Reg.GP_PIN_CFG; omega) (by unfold Reg.GP_PIN_CFG; omega)]
  refine congrArg w.dev (funext fun d => ?_)
  rw [Dev.gpWrite_pin _ _ _ _ (by unfold Reg.GP_PIN_CFG; omega) (by unfold Reg.GP_PIN_CFG; omega), if_pos hword, hindex]

theorem W.busWrite_GP_PIN_OWN (w : W) (hp : p < 128) :
    w.busWrite ag (Reg.GP_PIN_OWN p) v mask = w.dev (pinOwnWrite ag p v mask) := by
  have hindex : (Reg.GP_PIN_OWN p - Reg.GP_PIN_CFG 0) / 8 = p := by unfold Reg.GP_PIN_OWN Reg.GP_PIN_CFG; omega
  have hword : Reg.GP_PIN_OWN p % 8 ≠ 0 := by unfold Reg.GP_PIN_OWN; omega
  rw [W.busWrite_gp _ _ _ _ (by unfold Reg.GP_PIN_OWN; omega) (by unfold Reg.GP_PIN_OWN; omega)]
  refine congrArg w.dev (funext fun d => ?_)
  rw [Dev.gpWrite_pin _ _ _ _ (by unfold Reg.GP_PIN_OWN Reg.GP_PIN_CFG; omega) (by unfold Reg.GP_PIN_OWN Reg.GP_PIN_CFG; omega),
    if_neg hword, hindex]

theorem exec_pinCfgWrite (hup : s.d.coreUp = true) (hag : ag.ok = true) (hp : p < 128) :
    exec (.pinCfgWrite ag p v) s = .next (s.afterDev (pinCfgWrite ag p v 0xFFFFFFFF)) :=
  calc exec (.pinCfgWrite ag p v) s
      = s.busSet ag (Reg.GP_PIN_CFG p) (fun _ => v) := need_pos ⟨hag, hp⟩
    _ = .next (s.afterRun (fun w => w.busWrite ag (Reg.GP_PIN_CFG p) v 0xFFFFFFFF)) := coreRun_up hup
    _ = _ := congrArg _ (State.afterRun_eq_afterDev _ _ _ (W.busWrite_GP_PIN_CFG _ hp))

theorem exec_pinOwnerWrite (hup : s.d.coreUp = true) (hag : ag.ok = true) (hp : p < 128) :
    exec (.pinOwnerWrite ag p v) s = .next (s.afterDev (pinOwnWrite ag p v 0xFFFFFFFF)) :=
  calc exec (.pinOwnerWrite ag p v) s
      = s.busSet ag (Reg.GP_PIN_OWN p) (fun _ => v) := need_pos ⟨hag, hp⟩
    _ = .next (s.afterRun (fun w => w.busWrite ag (Reg.GP_PIN_OWN p) v 0xFFFFFFFF)) := coreRun_up hup
    _ = _ := congrArg _ (State.afterRun_eq_afterDev _ _ _ (W.busWrite_GP_PIN_OWN _ hp))

/-! ### The configuration (R445) -/

/-- The functions of Table 15-1. -/
theorem pinFuncOk_iff (func fsel : Nat) :
    pinFuncOk func fsel = true ↔ func ≤ 1 ∨ (func = 2 ∧ fsel < 32) ∨ (func = 3 ∧ fsel < 16) ∨ (func = 4 ∧ fsel < 48) := by
  match func with
  | 0 | 1 | 2 | 3 | 4 => simp [pinFuncOk]
  | n + 5 => simp [pinFuncOk]

/-- FUNC and FSEL lie within the bits that a write takes, so the word merged is allowed when the word written is. -/
theorem pinFuncOk_mergeWord (old v : Word) :
    pinFuncOk (bits (mergeWord old v (0xFFFFFFFF &&& 0x3FFFFF)).toNat 0 4) (bits (mergeWord old v (0xFFFFFFFF &&& 0x3FFFFF)).toNat 4 6) =
      pinFuncOk (v.toNat % 16) (v.toNat / 16 % 64) := by
  have hfunc : bits v.toNat 0 4 = v.toNat % 16 := by simp [bits]
  have hfsel : bits v.toNat 4 6 = v.toNat / 16 % 64 := rfl
  rw [bits_mergeWord_of_masked (by decide), bits_mergeWord_of_masked (by decide), hfunc, hfsel]

theorem pinCfgWrite_of_not_owned (h : d.ownsPin ag p = false) : pinCfgWrite ag p v mask d = d.sb Reg.GP_STAT 1 := by
  simp [pinCfgWrite, h, Dev.gpOwnErr]

theorem pinCfgWrite_of_refused (h : d.ownsPin ag p = true) (hf : pinFuncOk (v.toNat % 16) (v.toNat / 16 % 64) = false) :
    pinCfgWrite ag p v 0xFFFFFFFF d = d.sb Reg.GP_STAT 2 := by
  simp only [pinCfgWrite, h, pinFuncOk_mergeWord, hf, Bool.not_true, Bool.not_false, Bool.false_eq_true, if_false, if_true, Dev.gpCfgErr]

/-- A write that is taken stores the word and, at most, starts the pin's timer output anew, which no register holds. -/
theorem rg_pinCfgWrite_of_taken (h : d.ownsPin ag p = true) (hf : pinFuncOk (v.toNat % 16) (v.toNat / 16 % 64) = true) (a : Nat) :
    (pinCfgWrite ag p v 0xFFFFFFFF d).rg a =
      (d.sg (Reg.GP_PIN_CFG p) (mergeWord (d.rg (Reg.GP_PIN_CFG p)) v (0xFFFFFFFF &&& 0x3FFFFF))).rg a := by
  simp only [pinCfgWrite, h, pinFuncOk_mergeWord, hf, Bool.not_true, Bool.false_eq_true, if_false]
  split
  · exact Dev.rg_onPins ..
  · rfl

/-! ### The owner (R443) -/

theorem pinOwnWrite_of_refused (h : d.ownsPin ag p = false ∨ d.bt (Reg.GP_PIN_OWN p) 3 = true) :
    pinOwnWrite ag p v mask d = d.sb Reg.GP_STAT 1 := by
  have : (!d.ownsPin ag p || d.bt (Reg.GP_PIN_OWN p) 3) = true := by simpa using h
  exact if_pos this

theorem pinOwnWrite_of_taken (h : d.ownsPin ag p = true) (hlock : d.bt (Reg.GP_PIN_OWN p) 3 = false) :
    pinOwnWrite ag p v mask d = d.sg (Reg.GP_PIN_OWN p) (mergeWord (d.rg (Reg.GP_PIN_OWN p)) v (mask &&& 7)) := by
  have : ¬(!d.ownsPin ag p || d.bt (Reg.GP_PIN_OWN p) 3) = true := by simp [h, hlock]
  exact if_neg this

/-- A command that stores one register word changes that register alone. -/
theorem State.onlyRegs_of_rg_sg {f : Dev → Dev} {b : Nat} (h : ∀ a, (f s.d).rg a = (s.d.sg b v).rg a) :
    s.onlyRegs (s.afterDev f) [b] :=
  ⟨rfl, rfl, fun a ha => (h a).trans (Dev.rg_sg_of_ne _ _ _ _ (List.ne_of_not_mem_cons ha).symm)⟩

end

/-- Settles O38: a write is refused for its writer before its word is looked at; an allowed configuration stores one register and touches
beyond it only the timer output of the pin, which no register holds. -/
theorem pinOwnership : Obligations.PinOwnership := by
  intro s ag p v hup hag hp mine func fsel allowed
  have hallowed : pinFuncOk func fsel = true ↔ allowed := pinFuncOk_iff func fsel
  rw [exec_pinCfgWrite hup hag hp, exec_pinOwnerWrite hup hag hp]
  refine ⟨fun hother => ?_, fun hmine hnot => ?_, fun hmine hok => ?_, fun hmine hlock => ?_, fun hmine hlock => ?_⟩
  · have hother : s.d.ownsPin ag p = false := Bool.eq_false_iff.mpr hother
    exact ⟨congrArg Host.Outcome.next (State.afterDev_congr (pinCfgWrite_of_not_owned hother)),
      congrArg Host.Outcome.next (State.afterDev_congr (pinOwnWrite_of_refused (.inl hother)))⟩
  · have hf : pinFuncOk func fsel = false := Bool.eq_false_iff.mpr (mt hallowed.mp hnot)
    exact congrArg Host.Outcome.next (State.afterDev_congr (pinCfgWrite_of_refused hmine hf))
  · have hrg := rg_pinCfgWrite_of_taken hmine (hallowed.mpr hok)
    exact ⟨_, rfl, State.onlyRegs_of_rg_sg hrg, (hrg _).trans (Dev.rg_sg_self ..)⟩
  · exact congrArg Host.Outcome.next (State.afterDev_congr (pinOwnWrite_of_refused (.inr hlock)))
  · have hrg : ∀ a, (pinOwnWrite ag p v 0xFFFFFFFF s.d).rg a = _ := fun a => congrArg (Dev.rg · a) (pinOwnWrite_of_taken hmine hlock)
    exact ⟨_, rfl, State.onlyRegs_of_rg_sg hrg, (hrg _).trans (Dev.rg_sg_self ..)⟩

end Sys2Proof.Machine
end

section
/-!
SUPPORT. The shapes of what a command answers, and what holds of every command by its shape.
-/

namespace Sys2Proof

/-- Does the command act whatever the power and resets: reset and power events, the pads and the tamper monitors (R18, R19)? -/
def Instr.ungated : Instr → Bool
  | .porAssert | .porRelease _ | .coreRstAssert | .coreRstRelease | .corePowerOff | .vddSramLoss | .vddAonLoss => true
  | .pinChange _ _ | .tamperEvent _ _ => true
  | _ => false

namespace Machine

/-- The shapes of what a command answers in `s`: an event of the core domain or of the always-on domain, or one that is not gated, on the device alone
or on the memories too, behind the check of the command's numbers or with none to check. -/
inductive State.Arm (s : State) : (ungated wf : Bool) → Host.Outcome State Fault Refusal → Prop
  | coreDev (f : Dev → Dev) : s.Arm false true (s.coreDev f)
  | coreRun (g : W → W) : s.Arm false true (s.coreRun g)
  | aonDev (f : Dev → Dev) : s.Arm false true (s.aonDev f)
  | aonRun (g : W → W) : s.Arm false true (s.run (fun w => if w.d.aonUp then g w else w))
  | dev (f : Dev → Dev) : s.Arm true true (s.dev f)
  | run (g : W → W) : s.Arm true true (s.run g)
  | need (p : Prop) [Decidable p] {u : Bool} {k : Host.Outcome State Fault Refusal} : s.Arm u true k → s.Arm u (decide p) (need p k)

theorem exec_arm (c : Instr) (s : State) : s.Arm (c.ungated) c.wf (exec c s) := by
  cases c <;> repeat constructor

/-- The outcome carries on in a state with the same queue, and canonical memories stay canonical. -/
def State.Carries (s : State) (o : Host.Outcome State Fault Refusal) : Prop :=
  ∃ t, o = .next t ∧ t.pending = s.pending ∧ (s.mem.wf = true → t.mem.wf = true)

theorem State.carries_dev (s : State) (f : Dev → Dev) : s.Carries (s.dev f) := ⟨_, rfl, rfl, id⟩

theorem State.carries_run (s : State) (g : W → W) : s.Carries (s.run g) := ⟨_, rfl, rfl, State.afterRun_wf _ _⟩

theorem State.Arm.completes_iff_wf {s : State} {u b : Bool} {o : Host.Outcome State Fault Refusal} (h : s.Arm u b o) :
    (b = true → s.Carries o) ∧ (b = false → o = .fault .noSuchUnit) := by
  induction h with
  | coreDev f | aonDev f | dev f => exact ⟨fun _ => s.carries_dev _, nofun⟩
  | coreRun g | aonRun g | run g => exact ⟨fun _ => s.carries_run _, nofun⟩
  | @need p _ u k hk ih =>
    refine ⟨fun hp => ?_, fun hp => need_neg (of_decide_eq_false hp)⟩
    rw [need_pos (of_decide_eq_true hp)]
    exact ih.1 rfl

theorem step_of_empty {s : State} (h : s.pending = []) : step s = s.dev (fun d => d.idle 1) := by
  unfold step
  rw [h]

theorem step_of_cons {s : State} {c : Instr} {q : List Instr} (h : s.pending = c :: q) : step s = exec c { s with pending := q } := by
  unfold step
  rw [h]

/-- With POR_N low neither domain runs. -/
theorem Dev.aonUp_of_por {d : Dev} (h : d.power.por = true) : d.aonUp = false := by simp [Dev.aonUp, h]
theorem Dev.coreUp_of_por {d : Dev} (h : d.power.por = true) : d.coreUp = false := by simp [Dev.coreUp, h]

theorem aonRun_down {s : State} {g : W → W} (h : s.d.aonUp = false) : s.run (fun w => if w.d.aonUp then g w else w) = .next s := by
  have : s.afterRun (fun w => if w.d.aonUp then g w else w) = s.afterDev id :=
    State.afterRun_eq_afterDev s id _ (by simp [h, State.ctx])
  rw [State.run, this]
  rfl

theorem State.Arm.stays_of_por {s t : State} {u b : Bool} {o : Host.Outcome State Fault Refusal} (h : s.Arm u b o)
    (hpor : s.d.power.por = true) (hu : u = false) (ho : o = .next t) : t = s := by
  have hnext {o : Host.Outcome State Fault Refusal} (hs : o = .next s) (ho : o = .next t) : t = s := (Host.Outcome.next.inj (hs.symm.trans ho)).symm
  induction h with
  | coreDev f => exact hnext (coreDev_down (Dev.coreUp_of_por hpor)) ho
  | coreRun g => exact hnext (coreRun_down (Dev.coreUp_of_por hpor)) ho
  | aonDev f => exact hnext (aonDev_down (Dev.aonUp_of_por hpor)) ho
  | aonRun g => exact hnext (aonRun_down (Dev.aonUp_of_por hpor)) ho
  | dev | run => cases hu
  | need p hk ih =>
    unfold Machine.need at ho
    split at ho
    · exact ih hu ho
    · cases ho


/-- Settles O3: every arm of `exec` is one of the gated events, behind the check of the numbers that `Instr.wf` states. -/
theorem commandsCompleteIffWellFormed : Obligations.CommandsCompleteIffWellFormed :=
  fun c s => (exec_arm c s).completes_iff_wf

/-- Settles O4: the passing of time touches the device alone, and a command that waits keeps the canonical form (O3). -/
theorem stepKeepsMemoryCanonical : Obligations.StepKeepsMemoryCanonical := by
  intro s t hwf hstep
  cases hq : s.pending with
  | nil =>
    rw [step_of_empty hq] at hstep
    cases hstep
    exact hwf
  | cons c q =>
    rw [step_of_cons hq] at hstep
    obtain ⟨hok, hbad⟩ := (exec_arm c { s with pending := q }).completes_iff_wf
    cases hc : c.wf with
    | false => cases (hbad hc).symm.trans hstep
    | true =>
      obtain ⟨t', hnext, -, hmem⟩ := hok hc
      cases hnext.symm.trans hstep
      exact hmem hwf

/-- Settles O5: with POR_N low neither domain is up, so every gated arm leaves the state. -/
theorem porLowStopsEveryDomain : Obligations.PorLowStopsEveryDomain := by
  intro c s t hpor hexec
  cases hu : c.ungated with
  | false => exact .inl ((exec_arm c s).stays_of_por hpor hu hexec)
  | true =>
    refine .inr ?_
    unfold Instr.ungated at hu
    split at hu <;> simp_all

end Machine
end Sys2Proof
end

section
/-!
SUPPORT. Accesses over the register bus: the block that a write of a BAR0 offset reaches, and the gates of a command that makes one.
-/

namespace Sys2Proof.Machine

/-! ### Gates -/

section
variable {s : State} {ag : Agent} {a : Nat} {v : Dev → Word} {f g : Dev → Dev}

theorem State.next_afterDev_congr (h : f s.d = g s.d) :
    (Host.Outcome.next (s.afterDev f) : Host.Outcome State Fault Refusal) = .next (s.afterDev g) :=
  congrArg _ (State.afterDev_congr h)

/-- A register write that works on the device alone. -/
theorem busSet_dev (hup : s.d.coreUp = true) (h : s.ctx.busWrite ag a (v s.d) 0xFFFFFFFF = s.ctx.dev f) :
    s.busSet ag a v = .next (s.afterDev f) :=
  (coreRun_up hup).trans (congrArg _ (State.afterRun_eq_afterDev _ _ _ h))

theorem busGet_dev (hup : s.d.coreUp = true) (h : s.ctx.busRead ag a = s.ctx.dev f) : s.busGet ag a = .next (s.afterDev f) :=
  (coreRun_up hup).trans (congrArg _ (State.afterRun_eq_afterDev _ _ _ h))

section
variable {p : Prop} [Decidable p] {k : W → W}

theorem need_coreDev (hup : s.d.coreUp = true) (hp : p) : need p (s.coreDev f) = .next (s.afterDev f) :=
  (need_pos hp).trans (coreDev_up hup)

theorem need_coreRun (hup : s.d.coreUp = true) (hp : p) : need p (s.coreRun k) = .next (s.afterRun k) :=
  (need_pos hp).trans (coreRun_up hup)

theorem need_aonDev (hup : s.d.aonUp = true) (hp : p) : need p (s.aonDev f) = .next (s.afterDev f) :=
  (need_pos hp).trans (aonDev_up hup)

theorem need_busSet (hup : s.d.coreUp = true) (hp : p) (h : s.ctx.busWrite ag a (v s.d) 0xFFFFFFFF = s.ctx.dev f) :
    need p (s.busSet ag a v) = .next (s.afterDev f) :=
  (need_pos hp).trans (busSet_dev hup h)

theorem need_busGet (hup : s.d.coreUp = true) (hp : p) (h : s.ctx.busRead ag a = s.ctx.dev f) :
    need p (s.busGet ag a) = .next (s.afterDev f) :=
  (need_pos hp).trans (busGet_dev hup h)

end

/-- A register write whose operation may reach the memories. -/
theorem busSet_run {k : W → W} (hup : s.d.coreUp = true) (h : ∀ w : W, w.busWrite ag a (v w.d) 0xFFFFFFFF = k w) :
    s.busSet ag a v = .next (s.afterRun k) :=
  (coreRun_up hup).trans (congrArg (fun k => Host.Outcome.next (s.afterRun k)) (funext h))

end

/-! ### Words -/

theorem and_ones (v : Word) : v &&& 0xFFFFFFFF = v := BitVec.and_allOnes

theorem mergeWord_ones (old v : Word) : mergeWord old v 0xFFFFFFFF = v := by
  have h0 : ~~~(0xFFFFFFFF : Word) = 0#32 := by decide
  rw [mergeWord, and_ones, h0, BitVec.and_zero, BitVec.zero_or]

/-! ### The blocks of BAR0 (Table 1-1) -/

section
variable (w : W) (d : Dev) (ag : Agent) {a : Nat} (v mask : Word)

theorem W.busWrite_sys (h : a < 0x100000) : w.busWrite ag a v mask = w.sysWrite ag a v mask := if_pos h

theorem routeAt_eq_none (h : a < 0x500000 ∨ 0x530000 ≤ a) : routeAt a = none := by
  unfold routeAt
  exact if_neg (by omega)

theorem W.busWrite_low (hlo : 0x100000 ≤ a) (hhi : a < 0xC00000) (hr : routeAt a = none) :
    w.busWrite ag a v mask = w.dev (fun d => d.contentWrite a v mask) := by
  rw [W.busWrite, if_neg (by omega), if_pos hhi, hr]

theorem W.busWrite_route {n i : Nat} (hlo : 0x100000 ≤ a) (hhi : a < 0xC00000) (hr : routeAt a = some (n, i)) :
    w.busWrite ag a v mask = w.dev (fun d => d.routeBy ag n i v mask) := by
  rw [W.busWrite, if_neg (by omega), if_pos hhi, hr]

theorem W.busWrite_desc (hlo : 0xC00000 ≤ a) (hhi : a < 0xC80000) : w.busWrite ag a v mask = w.dev (descWrite ag a v mask) := by
  rw [W.busWrite, if_neg (by omega), if_neg (by omega), if_pos hhi]

theorem W.busWrite_hop (hlo : 0xC80000 ≤ a) (hhi : a < 0x1000000) : w.busWrite ag a v mask = w.dev (fun d => d.hopWrite a v mask) := by
  rw [W.busWrite, if_neg (by omega), if_neg (by omega), if_neg (by omega), if_pos hhi]

theorem W.busWrite_flume (hlo : 0x1000000 ≤ a) (hhi : a < 0x1100000) :
    w.busWrite ag a v mask = w.dev (fun d => d.contentWrite a v mask) := by
  rw [W.busWrite, if_neg (by omega), if_neg (by omega), if_neg (by omega), if_neg (by omega), if_pos hhi]

theorem W.busWrite_ring (hlo : 0x1100000 ≤ a) (hhi : a < 0x1200000) : w.busWrite ag a v mask = w.dev (fun d => d.ringWrite a v mask) := by
  rw [W.busWrite, if_neg (by omega), if_neg (by omega), if_neg (by omega), if_neg (by omega), if_neg (by omega), if_pos hhi]

theorem W.busWrite_audio (hlo : 0x1200000 ≤ a) (hhi : a < 0x1300000) :
    w.busWrite ag a v mask = w.dev (fun d => d.contentWrite a v mask) := by
  rw [W.busWrite, if_neg (by omega), if_neg (by omega), if_neg (by omega), if_neg (by omega), if_neg (by omega), if_neg (by omega),
    if_pos hhi]

theorem W.busWrite_core (hlo : 0x1300000 ≤ a) (hhi : a < 0x1304000) :
    w.busWrite ag a v mask =
      if a % 0x1000 < 0x800 then w.dev (fun d => d.kcWrite ag ((a - 0x1300000) / 0x1000) a v mask)
      else w.dev (fun d => d.intcWrite ag ((a - 0x1300000) / 0x1000) a v mask) := by
  rw [W.busWrite, if_neg (by omega), if_neg (by omega), if_neg (by omega), if_neg (by omega), if_neg (by omega), if_neg (by omega),
    if_neg (by omega), if_pos hhi]

/-- Beyond the core blocks. -/
theorem W.busWrite_high (hlo : 0x1400000 ≤ a) :
    w.busWrite ag a v mask =
      if a < 0x1410000 then w.dev (fun d => d.tmrWrite a v mask)
      else if a < 0x1420000 then w.dmaWrite ag a v mask
      else if a < 0x1500000 then w.bltWrite ag a v mask
      else if a < 0x1510000 then w.dev (fun d => d.gpWrite ag a v mask)
      else if a < 0x1600000 then w.dev (fun d => d.pioWrite ag a v mask)
      else if a < 0x1680000 then w.dev (fun d => d.memWrite a v mask)
      else if a < 0x1682000 then w.dev (fun d => d.msixWrite a v mask)
      else if a < 0x1700000 then w
      else if a < 0x1701000 then w.updWrite ag a v mask
      else if a < 0x1702000 then w.secWrite ag a v mask
      else if a < 0x1800000 then w
      else if a < 0x1900000 then w.dev (fun d => d.avWrite ag a v mask)
      else w.dev (dbgBusWrite ag a v mask) := by
  have hraise : a ≠ Reg.INT_SW_RAISE := by unfold Reg.INT_SW_RAISE; omega
  rw [W.busWrite, if_neg (by omega), if_neg (by omega), if_neg (by omega), if_neg (by omega), if_neg (by omega), if_neg (by omega),
    if_neg (by omega), if_neg (by omega), if_neg (by omega), if_neg hraise, if_neg (by omega)]

theorem W.busWrite_tmr (hlo : 0x1400000 ≤ a) (hhi : a < 0x1410000) : w.busWrite ag a v mask = w.dev (fun d => d.tmrWrite a v mask) := by
  rw [W.busWrite_high _ _ _ _ hlo, if_pos hhi]

theorem W.busWrite_dma (hlo : 0x1410000 ≤ a) (hhi : a < 0x1420000) : w.busWrite ag a v mask = w.dmaWrite ag a v mask := by
  rw [W.busWrite_high _ _ _ _ (by omega), if_neg (by omega), if_pos hhi]

theorem W.busWrite_blt (hlo : 0x1420000 ≤ a) (hhi : a < 0x1500000) : w.busWrite ag a v mask = w.bltWrite ag a v mask := by
  rw [W.busWrite_high _ _ _ _ (by omega), if_neg (by omega), if_neg (by omega), if_pos hhi]

theorem W.busWrite_pio (hlo : 0x1510000 ≤ a) (hhi : a < 0x1600000) :
    w.busWrite ag a v mask = w.dev (fun d => d.pioWrite ag a v mask) := by
  rw [W.busWrite_high _ _ _ _ (by omega), if_neg (by omega), if_neg (by omega), if_neg (by omega), if_neg (by omega), if_pos hhi]

theorem W.busWrite_mem (hlo : 0x1600000 ≤ a) (hhi : a < 0x1680000) : w.busWrite ag a v mask = w.dev (fun d => d.memWrite a v mask) := by
  rw [W.busWrite_high _ _ _ _ (by omega), if_neg (by omega), if_neg (by omega), if_neg (by omega), if_neg (by omega), if_neg (by omega),
    if_pos hhi]

theorem W.busWrite_upd (hlo : 0x1700000 ≤ a) (hhi : a < 0x1701000) : w.busWrite ag a v mask = w.updWrite ag a v mask := by
  rw [W.busWrite_high _ _ _ _ (by omega), if_neg (by omega), if_neg (by omega), if_neg (by omega), if_neg (by omega), if_neg (by omega),
    if_neg (by omega), if_neg (by omega), if_neg (by omega), if_pos hhi]

theorem W.busWrite_sec (hlo : 0x1701000 ≤ a) (hhi : a < 0x1702000) : w.busWrite ag a v mask = w.secWrite ag a v mask := by
  rw [W.busWrite_high _ _ _ _ (by omega), if_neg (by omega), if_neg (by omega), if_neg (by omega), if_neg (by omega), if_neg (by omega),
    if_neg (by omega), if_neg (by omega), if_neg (by omega), if_neg (by omega), if_pos hhi]

theorem W.busWrite_av (hlo : 0x1800000 ≤ a) (hhi : a < 0x1900000) : w.busWrite ag a v mask = w.dev (fun d => d.avWrite ag a v mask) := by
  rw [W.busWrite_high _ _ _ _ (by omega), if_neg (by omega), if_neg (by omega), if_neg (by omega), if_neg (by omega), if_neg (by omega),
    if_neg (by omega), if_neg (by omega), if_neg (by omega), if_neg (by omega), if_neg (by omega), if_neg (by omega), if_pos hhi]

/-! ### The content blocks -/

theorem Dev.contentWrite_tg (hlo : 0x100000 ≤ a) (hhi : a < 0x10C000) :
    d.contentWrite a v mask = d.tgWrite ((a - 0x100000) / 0x400) a v mask := by
  rw [Dev.contentWrite, if_neg (by omega), if_pos (by omega), if_pos hhi]

theorem Dev.contentWrite_tick (hlo : 0x10C000 ≤ a) (hhi : a < 0x200000) : d.contentWrite a v mask = d.tickWrite a v mask := by
  rw [Dev.contentWrite, if_neg (by omega), if_pos (by omega), if_neg (by omega)]

theorem Dev.contentWrite_obj (hlo : 0x200000 ≤ a) (hhi : a < 0x300000) : d.contentWrite a v mask = d.objWrite a v mask := by
  rw [Dev.contentWrite, if_neg (by omega), if_neg (by omega), if_pos hhi]

theorem Dev.contentWrite_tp (hlo : 0x300000 ≤ a) (hhi : a < 0x400000) : d.contentWrite a v mask = d.tpWrite a v mask := by
  rw [Dev.contentWrite, if_neg (by omega), if_neg (by omega), if_neg (by omega), if_pos hhi]

theorem Dev.contentWrite_sl (hlo : 0x400000 ≤ a) (hhi : a < 0x800000) : d.contentWrite a v mask = d.slBlockWrite a v mask := by
  rw [Dev.contentWrite, if_neg (by omega), if_neg (by omega), if_neg (by omega), if_neg (by omega), if_pos hhi]

theorem Dev.contentWrite_mx (hlo : 0x800000 ≤ a) (hhi : a < 0xA00000) : d.contentWrite a v mask = d.mxWrite a v mask := by
  rw [Dev.contentWrite, if_neg (by omega), if_neg (by omega), if_neg (by omega), if_neg (by omega), if_neg (by omega), if_pos hhi]

theorem Dev.contentWrite_dm (hlo : 0xA00000 ≤ a) (hhi : a < 0xC00000) : d.contentWrite a v mask = d.dmBlockWrite a v mask := by
  rw [Dev.contentWrite, if_neg (by omega), if_neg (by omega), if_neg (by omega), if_neg (by omega), if_neg (by omega), if_neg (by omega),
    if_pos hhi]

theorem Dev.contentWrite_fl (hlo : 0x1000000 ≤ a) (hhi : a < 0x100C000) : d.contentWrite a v mask = d.flWrite a v mask := by
  rw [Dev.contentWrite, if_neg (by omega), if_neg (by omega), if_neg (by omega), if_neg (by omega), if_neg (by omega), if_neg (by omega),
    if_neg (by omega), if_pos ⟨hlo, hhi⟩]

theorem Dev.contentWrite_aud (hlo : 0x1200000 ≤ a) (hhi : a < 0x1300000) : d.contentWrite a v mask = d.audWrite a v mask := by
  rw [Dev.contentWrite, if_neg (by omega), if_neg (by omega), if_neg (by omega), if_neg (by omega), if_neg (by omega), if_neg (by omega),
    if_neg (by omega), if_neg (by omega), if_pos ⟨hlo, hhi⟩]

end

end Sys2Proof.Machine
end

section
/-!
SUPPORT. Writes to the display blocks: the operation that each register's write is.
-/

namespace Sys2Proof.Machine

section
variable (w : W) (d : Dev) (ag : Agent) {a n : Nat} (v mask : Word)

/-! ### The tick and the timing generators -/

theorem W.busWrite_tick (hlo : 0x10C000 ≤ a) (hhi : a < 0x200000) : w.busWrite ag a v mask = w.dev (fun d => d.tickWrite a v mask) := by
  rw [W.busWrite_low _ _ _ _ (by omega) (by omega) (routeAt_eq_none (by omega))]
  exact congrArg w.dev (funext fun d => Dev.contentWrite_tick _ _ _ hlo hhi)

theorem W.busWrite_tg (hlo : 0x100000 ≤ a) (hhi : a < 0x10C000) :
    w.busWrite ag a v mask = w.dev (fun d => d.tgWrite ((a - 0x100000) / 0x400) a v mask) := by
  rw [W.busWrite_low _ _ _ _ (by omega) (by omega) (routeAt_eq_none (by omega))]
  exact congrArg w.dev (funext fun d => Dev.contentWrite_tg _ _ _ hlo hhi)

theorem W.busWrite_TG_TICK_CTRL : w.busWrite ag Reg.TG_TICK_CTRL v 0xFFFFFFFF = w.dev (tickCtrlWrite v) := by
  rw [W.busWrite_tick _ _ _ _ (by decide) (by decide)]
  refine congrArg w.dev (funext fun d => ?_)
  rw [Dev.tickWrite, if_pos rfl, mergeWord_ones]

theorem W.busWrite_TG_TICK_RATE_DEN : w.busWrite ag Reg.TG_TICK_RATE_DEN v 0xFFFFFFFF = w.dev (tickRateSubmit v) := by
  rw [W.busWrite_tick _ _ _ _ (by decide) (by decide)]
  refine congrArg w.dev (funext fun d => ?_)
  rw [Dev.tickWrite, if_neg (by decide), if_pos rfl, mergeWord_ones]

theorem W.busWrite_TG_CTRL (hn : n < 48) : w.busWrite ag (Reg.TG_CTRL n) v 0xFFFFFFFF = w.dev (tgCtrlWrite n v) := by
  have hix : (Reg.TG_CTRL n - 0x100000) / 0x400 = n := by unfold Reg.TG_CTRL; omega
  rw [W.busWrite_tg _ _ _ _ (by unfold Reg.TG_CTRL; omega) (by unfold Reg.TG_CTRL; omega), hix]
  refine congrArg w.dev (funext fun d => ?_)
  rw [Dev.tgWrite, if_pos rfl, mergeWord_ones]
  rfl

theorem mem_tgTiming {ix : Nat} (hix : ix < 8) : (tgTiming n).contains (Reg.TG_HTIMING n + 4 * ix) = true := by
  have h : ix = 0 ∨ ix = 1 ∨ ix = 2 ∨ ix = 3 ∨ ix = 4 ∨ ix = 5 ∨ ix = 6 ∨ ix = 7 := by omega
  simp only [tgTiming, List.contains_iff_mem, List.mem_cons, Reg.TG_HTIMING, Reg.TG_VTIMING, Reg.TG_HSYNC, Reg.TG_VSYNC,
    Reg.TG_PCLK_NUM, Reg.TG_PCLK_DEN, Reg.TG_FMT, Reg.TG_PHASE]
  omega

theorem W.busWrite_tgTiming (hn : n < 48) {ix : Nat} (hix : ix < 8) :
    w.busWrite ag (Reg.TG_HTIMING n + 4 * ix) v 0xFFFFFFFF = w.dev (fun d =>
      let a := Reg.TG_HTIMING n + 4 * ix
      if d.portFollower n then d.sb (Reg.TG_STAT n) 0 else tgTimingWrite n a (mergeWord (d.rg a) v (rwMask a)) d) := by
  have hdiv : (Reg.TG_HTIMING n + 4 * ix - 0x100000) / 0x400 = n := by unfold Reg.TG_HTIMING; omega
  have hne : Reg.TG_HTIMING n + 4 * ix ≠ Reg.TG_CTRL n := by unfold Reg.TG_HTIMING Reg.TG_CTRL; omega
  have hones : 0xFFFFFFFF &&& rwMask (Reg.TG_HTIMING n + 4 * ix) = rwMask (Reg.TG_HTIMING n + 4 * ix) := BitVec.allOnes_and
  rw [W.busWrite_tg _ _ _ _ (by unfold Reg.TG_HTIMING; omega) (by unfold Reg.TG_HTIMING; omega), hdiv]
  refine congrArg w.dev (funext fun d => ?_)
  rw [Dev.tgWrite, if_neg hne, if_pos (mem_tgTiming hix), hones]

/-! ### Tiles, slices, sluices -/

theorem W.busWrite_TP_INV_CMD : w.busWrite ag Reg.TP_INV_CMD 1 0xFFFFFFFF = w.dev cacheInvalidate := by
  rw [W.busWrite_low _ _ _ _ (by decide) (by decide) (routeAt_eq_none (by decide))]
  refine congrArg w.dev (funext fun d => ?_)
  rw [Dev.contentWrite_tp _ _ _ (by decide) (by decide), Dev.tpWrite, if_neg (by decide), if_pos rfl, if_pos (by decide)]

theorem routeAt_SL_LROUTE (hn : n < 48) {i : Nat} (hi : i < 8) : routeAt (Reg.SL_LROUTE n i) = some (n, i) := by
  have hdiv : (Reg.SL_LROUTE n i - 0x500000) / 0x1000 = n := by unfold Reg.SL_LROUTE; omega
  have hmod : (Reg.SL_LROUTE n i - 0x500000) % 0x1000 = 0x820 + i * 4 := by unfold Reg.SL_LROUTE; omega
  have hlo : 0x500000 ≤ Reg.SL_LROUTE n i := by unfold Reg.SL_LROUTE; omega
  unfold routeAt
  rw [hdiv, hmod, if_pos ⟨hlo, hn, by omega, by omega⟩, Nat.add_sub_cancel_left, Nat.mul_div_cancel _ (by decide)]

theorem W.busWrite_SL_LROUTE (hn : n < 48) {i : Nat} (hi : i < 8) :
    w.busWrite ag (Reg.SL_LROUTE n i) v mask = w.dev (fun d => d.routeBy ag n i v mask) :=
  W.busWrite_route _ _ _ _ (by unfold Reg.SL_LROUTE; omega) (by unfold Reg.SL_LROUTE; omega) (routeAt_SL_LROUTE hn hi)

/-! ### The mixer -/

theorem W.busWrite_mx (hlo : 0x800000 ≤ a) (hhi : a < 0xA00000) : w.busWrite ag a v mask = w.dev (fun d => d.mxWrite a v mask) := by
  rw [W.busWrite_low _ _ _ _ (by omega) (by omega) (routeAt_eq_none (by omega))]
  exact congrArg w.dev (funext fun d => Dev.contentWrite_mx _ _ _ hlo hhi)

theorem W.busWrite_tableWindow (hn : n < 48) {off : Nat} (hoff : off < 0x8000) :
    w.busWrite ag (0x820000 + n * 0x8000 + off) v mask = w.dev (tableWrite n off v mask) := by
  have hdiv : (0x820000 + n * 0x8000 + off - 0x820000) / 0x8000 = n := by omega
  have hmod : (0x820000 + n * 0x8000 + off - 0x820000) % 0x8000 = off := by omega
  rw [W.busWrite_mx _ _ _ _ (by omega) (by omega)]
  refine congrArg w.dev (funext fun d => ?_)
  rw [Dev.mxWrite, if_pos (by omega), hdiv, hmod]

theorem Dev.mxWrite_low (hn : n < 48) (hdiv : (a - 0x800000) / 0x800 = n) (hhi : a < 0x820000) :
    d.mxWrite a v mask =
      if a = Reg.MX_CTRL n then d.ctrlWrite (.mx n) (mergeWord (d.rg a) v mask)
      else if a = Reg.MX_FMT n then mxFmtWrite n (mergeWord (d.rg a) v mask) d
      else if a = Reg.MX_TBL_CMD n then tableCopy n (v &&& mask) d
      else match frameOutput a with
        | some k =>
          if isExpert a && !d.level (.mx n) then d.sb (Reg.MX_STAT n) 0 else d.frameWrite k a v (mask &&& rwMask a)
        | none => d.plainWrite a v mask := by
  unfold Dev.mxWrite
  rw [if_neg (by omega), if_pos hhi]
  subst hdiv
  rw [if_neg (by omega)]
  rfl

theorem W.busWrite_MX_TBL_CMD (hn : n < 48) : w.busWrite ag (Reg.MX_TBL_CMD n) v 0xFFFFFFFF = w.dev (tableCopy n v) := by
  have hdiv : (Reg.MX_TBL_CMD n - 0x800000) / 0x800 = n := by unfold Reg.MX_TBL_CMD; omega
  rw [W.busWrite_mx _ _ _ _ (by unfold Reg.MX_TBL_CMD; omega) (by unfold Reg.MX_TBL_CMD; omega)]
  refine congrArg w.dev (funext fun d => ?_)
  rw [Dev.mxWrite_low _ _ _ hn hdiv (by unfold Reg.MX_TBL_CMD; omega), if_neg (by simp [Reg.MX_TBL_CMD, Reg.MX_CTRL]),
    if_neg (by simp [Reg.MX_TBL_CMD, Reg.MX_FMT]), if_pos rfl, and_ones]

theorem W.busWrite_MX_FMT (hn : n < 48) : w.busWrite ag (Reg.MX_FMT n) v 0xFFFFFFFF = w.dev (mxFmtWrite n v) := by
  have hdiv : (Reg.MX_FMT n - 0x800000) / 0x800 = n := by unfold Reg.MX_FMT; omega
  rw [W.busWrite_mx _ _ _ _ (by unfold Reg.MX_FMT; omega) (by unfold Reg.MX_FMT; omega)]
  refine congrArg w.dev (funext fun d => ?_)
  rw [Dev.mxWrite_low _ _ _ hn hdiv (by unfold Reg.MX_FMT; omega), if_neg (by simp [Reg.MX_FMT, Reg.MX_CTRL]), if_pos rfl, mergeWord_ones]

/-! ### Registers with frame values (R118) -/

theorem mem_lineRegs (h : a ∈ lineRegs n) :
    (0x304000 + n * 0x100 ≤ a ∧ a < 0x304100 + n * 0x100) ∨
      (0x800008 + n * 0x800 ≤ a ∧ a < 0x800180 + n * 0x800 ∧ a ≠ 0x80001C + n * 0x800 ∧ a ≠ 0x800024 + n * 0x800) := by
  simp only [lineRegs, List.mem_append, List.mem_flatMap, List.mem_map, List.mem_range, List.mem_cons, List.not_mem_nil, or_false,
    Reg.TP_PL_CFG, Reg.TP_PL_SCROLL, Reg.TP_PL_MAP, Reg.TP_PL_TILE, Reg.TP_PL_PAL, Reg.MX_CFG, Reg.MX_ORDER, Reg.MX_BG0, Reg.MX_BG1,
    Reg.MX_SALPHA, Reg.MX_TBL_CFG, Reg.MX_TM_EN, Reg.MX_TM_CW0, Reg.MX_TM_CW1, Reg.MX_TM_M, Reg.MX_VP_CFG, Reg.MX_VP_BUF,
    Reg.MX_VP_STRIDE, Reg.MX_VP_SRC_ORG, Reg.MX_VP_SRC_SIZE, Reg.MX_VP_DST_ORG, Reg.MX_VP_DST_SIZE, Reg.MX_VP_ALPHA,
    Reg.MX_VP_URG] at h
  obtain ((⟨p, hp, h⟩ | h) | ⟨i, hi, h⟩) | ⟨p, hp, h⟩ := h
  all_goals omega

theorem mem_regionRegs (h : a ∈ regionRegs n) :
    a = 0x800080 + n * 0x800 ∨ (0x9A0000 + n * 0x800 ≤ a ∧ a < 0x9A0800 + n * 0x800) := by
  simp only [regionRegs, List.mem_cons, List.mem_flatMap, List.mem_range, List.not_mem_nil, or_false, Reg.MX_FRZ_CFG, Reg.MX_RG_X,
    Reg.MX_RG_Y, Reg.MX_RG_CFG, Reg.MX_RG_EXP_A, Reg.MX_RG_EXP_B] at h
  obtain h | ⟨r, hr, h⟩ := h
  all_goals omega

theorem mem_damselRegs (h : a ∈ damselRegs n) : a = 0xA00010 + n * 0x100 ∨ (0xA00080 + n * 0x100 ≤ a ∧ a < 0xA00100 + n * 0x100) := by
  simp only [damselRegs, List.mem_cons, List.mem_map, List.mem_range, Reg.DM_ENTRY, Reg.DM_DATA] at h
  obtain h | ⟨r, hr, h⟩ := h
  all_goals omega

/-- Where a register of output `n` with a frame value can lie: the tile planes, the mixer, the regions or the Damsel engine. -/
theorem frameOutput_cases (h : frameOutput a = some n) :
    n < 48 ∧ ((0x304000 ≤ a ∧ a < 0x307000) ∨
      (0x800008 + n * 0x800 ≤ a ∧ a < 0x800180 + n * 0x800 ∧ a ≠ 0x80001C + n * 0x800 ∧ a ≠ 0x800024 + n * 0x800) ∨
      (0x9A0000 ≤ a ∧ a < 0x9B8000) ∨
      (a = 0xA00010 + n * 0x100 ∨ (0xA00080 + n * 0x100 ≤ a ∧ a < 0xA00100 + n * 0x100))) := by
  unfold frameOutput at h
  obtain ⟨hn, hmem⟩ := Option.filter_eq_some_iff.mp h
  have hmem : a ∈ lineRegs n ∨ a ∈ regionRegs n ∨ a ∈ damselRegs n := by
    simpa [frameRegs] using hmem
  have hplace : (0x304000 ≤ a ∧ a < 0x307000 ∧ (a - 0x304000) / 0x100 = n) ∨ (0x800000 ≤ a ∧ a < 0x818000 ∧ (a - 0x800000) / 0x800 = n) ∨
      (0x9A0000 ≤ a ∧ a < 0x9B8000 ∧ (a - 0x9A0000) / 0x800 = n) ∨ (0xA00000 ≤ a ∧ a < 0xA03000 ∧ (a - 0xA00000) / 0x100 = n) := by
    split at hn
    · have := Option.some.inj hn
      omega
    · split at hn
      · have := Option.some.inj hn
        omega
      · split at hn
        · have := Option.some.inj hn
          omega
        · split at hn
          · have := Option.some.inj hn
            omega
          · cases hn
  obtain h | h | h := hmem
  · have := mem_lineRegs h
    omega
  · have := mem_regionRegs h
    omega
  · have := mem_damselRegs h
    omega

/-- An expert register is covered by a row that says so. -/
theorem exists_row_of_isExpert (h : isExpert a = true) : ∃ r ∈ RegTable.rowsAt a, r.expert = true ∧ r.covers a = true := by
  unfold isExpert at h
  cases hf : RegTable.find a with
  | none => simp [hf] at h
  | some r =>
    rw [hf] at h
    unfold RegTable.find at hf
    exact ⟨r, List.mem_of_find?_eq_some hf, h, List.find?_some (p := fun r : RegDesc => r.covers a) hf⟩

/-- Beyond the mixer's own registers no register with a frame value is an expert register. -/
theorem isExpert_eq_false_of_frame (h : frameOutput a = some n) (ha : a < 0x800000 ∨ 0x9A0000 ≤ a) : isExpert a = false := by
  obtain ⟨hn, hplace⟩ := frameOutput_cases h
  refine Bool.eq_false_iff.mpr fun hex => ?_
  obtain ⟨r, hr, hexp, hcov⟩ := exists_row_of_isExpert hex
  simp only [RegDesc.covers, Bool.and_eq_true, decide_eq_true_eq] at hcov
  obtain ⟨⟨hbase, hcount⟩, hrest⟩ := hcov
  obtain hp | hp | hp | hp := hplace
  · have hblock : a / 0x100000 = 3 := by omega
    have hrow : ∀ r ∈ RegTable.rowsTp, r.expert = true → r.base = 0x300008 ∧ r.s1 = 0x4000000 ∧ r.s2 = 0 := by decide
    rw [RegTable.rowsAt, hblock] at hr
    obtain ⟨hb, hs1, hs2⟩ := hrow r hr hexp
    rw [hs2, if_pos rfl, beq_iff_eq, hb, hs1] at hrest
    omega
  · omega
  · have hblock : a / 0x100000 = 9 := by omega
    have hrow : ∀ r ∈ RegTable.rowsMx, r.expert = true → r.base < 0x800100 ∧ r.s1 = 0x800 ∧ r.n1 = 48 := by decide
    rw [RegTable.rowsAt, hblock] at hr
    obtain ⟨hb, hs1, hn1⟩ := hrow r hr hexp
    rw [hs1, hn1] at hcount
    omega
  · have hblock : a / 0x100000 = 10 := by omega
    have hrow : ∀ r ∈ RegTable.rowsDm, r.expert = true → r.base = 0xA00008 ∧ r.s1 = 0x100 ∧ r.s2 = 0 := by decide
    rw [RegTable.rowsAt, hblock] at hr
    obtain ⟨hb, hs1, hs2⟩ := hrow r hr hexp
    rw [hs2, if_pos rfl, beq_iff_eq, hb, hs1] at hrest
    omega

theorem W.busWrite_dm (hlo : 0xA00000 ≤ a) (hhi : a < 0xC00000) : w.busWrite ag a v mask = w.dev (fun d => d.dmBlockWrite a v mask) := by
  rw [W.busWrite_low _ _ _ _ (by omega) (by omega) (routeAt_eq_none (by omega))]
  exact congrArg w.dev (funext fun d => Dev.contentWrite_dm _ _ _ hlo hhi)

/-- A Damsel register below the program memories. -/
theorem Dev.dmBlockWrite_low (hn : n < 48) (hdiv : (a - 0xA00000) / 0x100 = n) (hhi : a < 0xA10000) :
    d.dmBlockWrite a v mask =
      if a = Reg.DM_CTRL n then d.ctrlWrite (.dm n) (mergeWord (d.rg a) v mask)
      else if a = Reg.DM_EV_TRIG n then dmEvTrig n (v &&& mask) d
      else if a = Reg.DM_FLAGS_SET n then d.sg (Reg.DM_FLAGS n) (d.rg (Reg.DM_FLAGS n) ||| (v &&& mask &&& 0xFFFF))
      else if a = Reg.DM_FLAGS_CLR n then d.sg (Reg.DM_FLAGS n) (d.rg (Reg.DM_FLAGS n) &&& ~~~(v &&& mask &&& 0xFFFF))
      else match (List.range 8).find? (fun i => a == Reg.DM_EV_SEL n i) with
        | some i => dmEvSelWrite n i (mergeWord (d.rg a) v mask) d
        | none =>
          match frameOutput a with
          | some k => d.frameWrite k a v (mask &&& rwMask a)
          | none => d.plainWrite a v mask := by
  unfold Dev.dmBlockWrite
  rw [if_neg (by omega)]
  subst hdiv
  rw [if_neg (by omega)] <;> rfl

/-- A write to a register with a frame value is that of the live value and of the epochs still to be taken up, but for an expert register
at the basic level. -/
theorem Dev.contentWrite_frame (h : frameOutput a = some n) :
    d.contentWrite a v mask =
      if isExpert a = true ∧ d.level (.mx n) = false then d.sb (Reg.MX_STAT n) 0 else d.frameWrite n a v (mask &&& rwMask a) := by
  have hplain (hne : isExpert a = false) (p : Prop) (x y : Dev) [Decidable (isExpert a = true ∧ p)] :
      (if isExpert a = true ∧ p then x else y) = y := if_neg (by simp [hne])
  obtain ⟨hn, hp | hp | hp | hp⟩ := frameOutput_cases h
  · rw [Dev.contentWrite_tp _ _ _ (by omega) (by omega), Dev.tpWrite, if_neg (by unfold Reg.TP_CTRL; omega),
      if_neg (by unfold Reg.TP_INV_CMD; omega), h, hplain (isExpert_eq_false_of_frame h (by omega))]
  · rw [Dev.contentWrite_mx _ _ _ (by omega) (by omega), Dev.mxWrite_low _ _ _ hn (by omega) (by omega),
      if_neg (by unfold Reg.MX_CTRL; omega), if_neg (by unfold Reg.MX_FMT; omega), if_neg (by unfold Reg.MX_TBL_CMD; omega), h]
    simp
  · rw [Dev.contentWrite_mx _ _ _ (by omega) (by omega), Dev.mxWrite, if_neg (by omega), if_neg (by omega), h,
      hplain (isExpert_eq_false_of_frame h (by omega))]
  · have hsel : (List.range 8).find? (fun i => a == Reg.DM_EV_SEL n i) = none := by
      simp only [List.find?_eq_none, List.mem_range, beq_iff_eq, Reg.DM_EV_SEL]
      omega
    rw [Dev.contentWrite_dm _ _ _ (by omega) (by omega), Dev.dmBlockWrite_low _ _ _ hn (by omega) (by omega),
      if_neg (by unfold Reg.DM_CTRL; omega), if_neg (by unfold Reg.DM_EV_TRIG; omega), if_neg (by unfold Reg.DM_FLAGS_SET; omega),
      if_neg (by unfold Reg.DM_FLAGS_CLR; omega), hsel, h, hplain (isExpert_eq_false_of_frame h (by omega))]

theorem W.busWrite_frame (h : frameOutput a = some n) :
    w.busWrite ag a v 0xFFFFFFFF = w.dev (fun d =>
      if isExpert a = true ∧ d.level (.mx n) = false then d.sb (Reg.MX_STAT n) 0 else d.frameWrite n a v (rwMask a)) := by
  obtain ⟨hn, hp⟩ := frameOutput_cases h
  have hones : 0xFFFFFFFF &&& rwMask a = rwMask a := BitVec.allOnes_and
  rw [W.busWrite_low _ _ _ _ (by omega) (by omega) (routeAt_eq_none (by omega))]
  refine congrArg w.dev (funext fun d => ?_)
  rw [Dev.contentWrite_frame _ _ _ h, hones]

end

end Sys2Proof.Machine
end

section
/-!
PROOFS. The display commands complete (O54).
-/

namespace Sys2Proof.Machine

/-- A write of COPY alone. -/
theorem tableCopy_one (n : Nat) (d : Dev) :
    tableCopy n 1 d = if d.bt (Reg.MX_TBL_CMD n) 1 = true ∨ d.bankPending n = true then d.sb (Reg.MX_STAT n) 4
      else (d.sb (Reg.MX_TBL_CMD n) 1).onMx n (fun m => { m with copyAt := d.cclks + 848 }) := by
  simp [tableCopy]

/-- A format that is no reserved one waits for the take-up point. -/
theorem mxFmtWrite_eq (n : Nat) (v : Word) (d : Dev) :
    mxFmtWrite n v d = if v.toNat % 4 = 3 ∨ v.toNat / 4 % 4 = 3 then d.sb (Reg.MX_STAT n) 3
      else (d.sg (Reg.MX_FMT n) (v &&& 0x7F)).onMx n (fun m => { m with fmtPend := some (v &&& 0x7F) }) := by
  simp [mxFmtWrite, bits]

/-- Settles O54: each row is its gate, opened by the domain that is up and the numbers that are in range, over the operation itself or over the
write of one register, whose operation the bus names. -/
theorem displayCommandsComplete : Obligations.DisplayCommandsComplete := by
  intro s
  refine ⟨fun haon => ⟨aonDev_up haon, aonDev_up haon⟩, fun hup => ?_⟩
  refine ⟨fun ag src hag hsrc => need_busSet hup ⟨hag, hsrc⟩ (W.busWrite_TG_TICK_CTRL ..),
    fun ag den hag => need_busSet hup hag (W.busWrite_TG_TICK_RATE_DEN ..),
    fun ag p hag hp => need_busSet hup ⟨hag, hp⟩ (W.busWrite_TG_TICK_CTRL ..),
    fun ag n p hag hn hp => need_busSet hup ⟨hag, hn, hp⟩ (W.busWrite_TG_CTRL _ _ _ hn),
    fun ag n hag hn => need_busSet hup ⟨hag, hn⟩ (W.busWrite_TG_CTRL _ _ _ hn),
    fun ag n ix v hag hn hix => need_busSet hup ⟨hag, hn, hix⟩ (W.busWrite_tgTiming _ _ _ hn hix),
    fun _ hn => need_coreDev hup hn, fun _ _ hn => need_coreDev hup hn, fun _ hn => need_coreDev hup hn, fun _ hn => need_coreDev hup hn,
    coreRun_up hup, coreDev_up hup, coreDev_up hup, fun _ hn => need_coreDev hup hn,
    fun _ _ hsl => need_coreRun hup hsl, fun _ hsl => need_coreRun hup hsl, fun _ hsl => need_coreRun hup hsl,
    fun _ _ hsl => need_coreRun hup hsl, fun _ => coreRun_up hup, fun _ _ hsl hp => need_coreRun hup ⟨hsl, hp⟩,
    fun _ _ _ hn => need_coreRun hup hn, fun ag off v hag hoff => ?_,
    fun ag hag => need_busSet hup hag (W.busWrite_TP_INV_CMD ..), coreRun_up hup,
    fun ag n ix v hag hn hix => need_busSet hup ⟨hag, hn, hix⟩ (W.busWrite_SL_LROUTE _ _ _ _ hn hix),
    fun ag n off v hag hn hoff hal => need_busSet hup ⟨hag, hn, hoff, hal⟩ (W.busWrite_tableWindow _ _ _ _ hn hoff),
    fun ag n hag hn => ?_, fun _ hn => need_coreDev hup hn, fun ag n v hag hn => ?_,
    fun _ hn => need_coreDev hup hn, fun _ hn => need_coreDev hup hn, fun _ hn => need_coreDev hup hn, fun _ hn => need_coreDev hup hn,
    fun _ hn => need_coreDev hup hn, fun _ hn => need_coreDev hup hn, fun _ hn => need_coreDev hup hn, fun _ hn => need_coreDev hup hn,
    fun _ hn => need_coreDev hup hn, fun _ hn => need_coreDev hup hn, fun _ hn => need_coreDev hup hn⟩
  · obtain ⟨k, hk⟩ := Option.isSome_iff_exists.mp hoff
    rw [hk]
    exact need_busSet hup ⟨hag, hoff⟩ (W.busWrite_frame _ _ _ hk)
  · exact (need_busSet hup ⟨hag, hn⟩ (W.busWrite_MX_TBL_CMD _ _ _ hn)).trans (State.next_afterDev_congr (tableCopy_one n s.d))
  · exact (need_busSet hup ⟨hag, hn⟩ (W.busWrite_MX_FMT _ _ _ hn)).trans (State.next_afterDev_congr (mxFmtWrite_eq n v s.d))

end Sys2Proof.Machine
end

section
/-!
SUPPORT. Writes to the blocks of audio, cores, transfers, pins, memory, updates, security and availability: the
operation that each register's write is.
-/

namespace Sys2Proof.Machine

section
variable (w : W) (d : Dev) (ag : Agent) {a n : Nat} (v mask : Word)

/-! ### Audio (Tables 11-11 to 11-15) -/

theorem W.busWrite_aud (hlo : 0x1200000 ≤ a) (hhi : a < 0x1300000) : w.busWrite ag a v mask = w.dev (fun d => d.audWrite a v mask) := by
  rw [W.busWrite_audio _ _ _ _ (by omega) (by omega)]
  exact congrArg w.dev (funext fun d => Dev.contentWrite_aud _ _ _ hlo hhi)

theorem W.busWrite_AUD_V_CTRL (hn : n < 1024) : w.busWrite ag (Reg.AUD_V_CTRL n) v 0xFFFFFFFF = w.dev (voiceCtrlWrite n v) := by
  have hdiv : (Reg.AUD_V_CTRL n - 0x1208000) / 0x20 = n := by unfold Reg.AUD_V_CTRL; omega
  have hmod : (Reg.AUD_V_CTRL n - 0x1208000) % 0x20 / 4 = 6 := by unfold Reg.AUD_V_CTRL; omega
  rw [W.busWrite_aud _ _ _ _ (by unfold Reg.AUD_V_CTRL; omega) (by unfold Reg.AUD_V_CTRL; omega)]
  refine congrArg w.dev (funext fun d => ?_)
  unfold Dev.audWrite
  rw [hdiv, hmod, if_neg (by unfold Reg.AUD_V_CTRL; omega), if_neg (by unfold Reg.AUD_V_CTRL; omega),
    if_pos (by unfold Reg.AUD_V_CTRL; omega), if_neg (by omega), if_neg (by decide), if_pos rfl, and_ones]

theorem W.busWrite_AUD_SAFE_CTRL : w.busWrite ag Reg.AUD_SAFE_CTRL v 0xFFFFFFFF = w.dev (safeCtrlWrite v) := by
  rw [W.busWrite_aud _ _ _ _ (by decide) (by decide)]
  refine congrArg w.dev (funext fun d => ?_)
  rw [Dev.audWrite, if_neg (by decide), if_neg (by decide), if_neg (by decide), if_neg (by decide), if_neg (by decide), if_pos rfl,
    mergeWord_ones]

theorem tdmPort_cases (h : tdmPort a = true) : 0x1200100 ≤ a ∧ a < 0x1203000 := by
  simp only [tdmPort, Bool.or_eq_true, List.any_eq_true, List.mem_range, beq_iff_eq, Reg.AUD_TO_CFG, Reg.AUD_TI_CFG] at h
  obtain ⟨q, hq, h⟩ | ⟨q, hq, h⟩ := h
  all_goals omega

theorem W.busWrite_tdmPort (h : tdmPort a = true) : w.busWrite ag a v 0xFFFFFFFF = w.dev (tdmCfgWrite a v) := by
  have hrange := tdmPort_cases h
  rw [W.busWrite_aud _ _ _ _ (by omega) (by omega)]
  refine congrArg w.dev (funext fun d => ?_)
  rw [Dev.audWrite, if_neg (by omega), if_neg (by omega), if_neg (by omega), if_neg (by omega),
    if_neg (by unfold Reg.AUD_CTRL; omega), if_neg (by unfold Reg.AUD_SAFE_CTRL; omega), if_pos h, mergeWord_ones]

theorem tdmPort_AUD_CFG (input : Bool) {port : Nat} (h : port < if input = true then 8 else 24) :
    tdmPort (if input = true then Reg.AUD_TI_CFG port else Reg.AUD_TO_CFG port) = true := by
  simp only [tdmPort, Bool.or_eq_true, List.any_eq_true, List.mem_range, beq_iff_eq]
  cases input
  case false => exact .inl ⟨port, h, rfl⟩
  case true => exact .inr ⟨port, h, rfl⟩

/-! ### The cores (Table 12-14) -/

theorem W.busWrite_kc (hn : n < 4) (hlo : 0x1300000 + n * 0x1000 ≤ a) (hhi : a < 0x1300800 + n * 0x1000) :
    w.busWrite ag a v mask = w.dev (fun d => d.kcWrite ag n a v mask) := by
  have hdiv : (a - 0x1300000) / 0x1000 = n := by omega
  rw [W.busWrite_core _ _ _ _ (by omega) (by omega), if_pos (by omega), hdiv]

theorem W.busWrite_intc (hn : n < 4) (hlo : 0x1300800 + n * 0x1000 ≤ a) (hhi : a < 0x1301000 + n * 0x1000) :
    w.busWrite ag a v mask = w.dev (fun d => d.intcWrite ag n a v mask) := by
  have hdiv : (a - 0x1300000) / 0x1000 = n := by omega
  rw [W.busWrite_core _ _ _ _ (by omega) (by omega), if_neg (by omega), hdiv]

theorem W.busWrite_KC_RESTART (hn : n < 4) : w.busWrite ag (Reg.KC_RESTART n) v 0xFFFFFFFF = w.dev (coreRestart ag n v) := by
  rw [W.busWrite_kc _ _ _ _ hn (by unfold Reg.KC_RESTART; omega) (by unfold Reg.KC_RESTART; omega)]
  refine congrArg w.dev (funext fun d => ?_)
  rw [Dev.kcWrite, if_pos rfl, and_ones]

theorem W.busWrite_KC_WDT_KICK (hn : n < 4) :
    w.busWrite ag (Reg.KC_WDT_KICK n) v 0xFFFFFFFF = w.dev (fun d => if n = 3 ∧ ag ≠ .core 3 then d else wdtKick n v d) := by
  have hstat : Reg.KC_WDT_KICK n ≠ Reg.KC_STAT 3 := by unfold Reg.KC_WDT_KICK Reg.KC_STAT; omega
  rw [W.busWrite_kc _ _ _ _ hn (by unfold Reg.KC_WDT_KICK; omega) (by unfold Reg.KC_WDT_KICK; omega)]
  refine congrArg w.dev (funext fun d => ?_)
  have hgate : (n = 3 ∧ ag ≠ .core 3 ∧ Reg.KC_WDT_KICK n ≠ Reg.KC_STAT 3) ↔ (n = 3 ∧ ag ≠ .core 3) := by simp [hstat]
  rw [Dev.kcWrite, if_neg (by simp [Reg.KC_WDT_KICK, Reg.KC_RESTART])]
  refine ite_congr (propext hgate) (fun _ => rfl) (fun _ => ?_)
  rw [if_neg (by simp [Reg.KC_WDT_KICK, Reg.KC_CTRL]), if_neg (by simp [Reg.KC_WDT_KICK, Reg.KC_WDT_CFG]), if_pos rfl, and_ones]

/-! ### Blitters (Table 14-4) -/

theorem W.busWrite_BLT_CMD (hn : n < 4) :
    w.busWrite ag (Reg.BLT_CMD n) v 0xFFFFFFFF =
      if ownerIs ag (w.d.bltOwner n) = true then
        if v.getLsbD 1 then bltAbort n w
        else if v.getLsbD 0 then w.dev (fun d => if d.bltBusy n then d.sb Reg.BLT_STAT 2 else d.bltStart n)
        else w
      else w.dev (fun d => d.sb Reg.BLT_STAT 1) := by
  have hdiv : (Reg.BLT_CMD n - 0x1420100) / 0x80 = n := by unfold Reg.BLT_CMD; omega
  rw [W.busWrite_blt _ _ _ _ (by unfold Reg.BLT_CMD; omega) (by unfold Reg.BLT_CMD; omega), W.bltWrite,
    if_pos (by unfold Reg.BLT_CMD; omega), hdiv, engWrite, if_pos rfl, and_ones]
  cases ownerIs ag (w.d.bltOwner n)
  case false => rfl
  case true => rfl

/-! ### Pins and PIO (Tables 15-5 and 15-7) -/

theorem W.busWrite_GP_GRP (hn : n < 16) (h : a = Reg.GP_GRP_CFG n ∨ a = Reg.GP_GRP_MATCH n) :
    w.busWrite ag a v mask = w.dev (grpWrite ag n a v mask) := by
  unfold Reg.GP_GRP_CFG Reg.GP_GRP_MATCH at h
  have hdiv : (a - Reg.GP_GRP_CFG 0) / 16 = n := by unfold Reg.GP_GRP_CFG; omega
  rw [W.busWrite_gp _ _ _ _ (by omega) (by omega)]
  refine congrArg w.dev (funext fun d => ?_)
  rw [Dev.gpWrite, if_neg (by unfold Reg.GP_CTRL; omega), if_neg (by unfold Reg.GP_OUT; omega), if_neg (by unfold Reg.GP_OUT_SET; omega),
    if_neg (by unfold Reg.GP_OUT_CLR; omega), if_neg (by unfold Reg.GP_PIN_CFG; omega), if_pos (by unfold Reg.GP_GRP_CFG; omega), hdiv]

theorem W.busWrite_PIO_SYNC : w.busWrite ag Reg.PIO_SYNC v 0xFFFFFFFF = w.dev (pioSync ag v) := by
  rw [W.busWrite_pio _ _ _ _ (by decide) (by decide)]
  refine congrArg w.dev (funext fun d => ?_)
  rw [Dev.pioWrite, if_neg (by decide), if_pos rfl, and_ones]

theorem W.busWrite_PIO_E_CTXEN (hn : n < 8) :
    w.busWrite ag (Reg.PIO_E_CTXEN n) v 0xFFFFFFFF = w.dev (fun d => if d.ownsEng ag n = true then ctxEnable n v d else d.pioOwnErr) := by
  have hdiv : (Reg.PIO_E_CTXEN n - 0x1510100) / 0x40 = n := by unfold Reg.PIO_E_CTXEN; omega
  rw [W.busWrite_pio _ _ _ _ (by unfold Reg.PIO_E_CTXEN; omega) (by unfold Reg.PIO_E_CTXEN; omega)]
  refine congrArg w.dev (funext fun d => ?_)
  rw [Dev.pioWrite, if_neg (by unfold Reg.PIO_E_CTXEN Reg.PIO_CTRL; omega), if_neg (by unfold Reg.PIO_E_CTXEN Reg.PIO_SYNC; omega),
    if_pos (by unfold Reg.PIO_E_CTXEN; omega), hdiv]
  have hreg : engRegWrite n (Reg.PIO_E_CTXEN n) v 0xFFFFFFFF d = ctxEnable n v d := by
    rw [engRegWrite, if_neg (by simp [Reg.PIO_E_CTXEN, Reg.PIO_E_CFG]), if_pos rfl, mergeWord_ones]
  dsimp only
  rw [hreg]
  cases d.ownsEng ag n
  case false => rfl
  case true => rfl

theorem W.busWrite_PIO_C_TXF (hn : n < 8) {c : Nat} (hc : c < 16) :
    w.busWrite ag (Reg.PIO_C_TXF n c) v 0xFFFFFFFF = w.dev (fun d => if d.ownsEng ag n = true then txfWrite n c v d else d.pioOwnErr) := by
  have hdiv : (Reg.PIO_C_TXF n c - 0x1511000) / 0x400 = n := by unfold Reg.PIO_C_TXF; omega
  have hmod : (Reg.PIO_C_TXF n c - 0x1511000) % 0x400 / 0x40 = c := by unfold Reg.PIO_C_TXF; omega
  rw [W.busWrite_pio _ _ _ _ (by unfold Reg.PIO_C_TXF; omega) (by unfold Reg.PIO_C_TXF; omega)]
  refine congrArg w.dev (funext fun d => ?_)
  rw [Dev.pioWrite, if_neg (by unfold Reg.PIO_C_TXF Reg.PIO_CTRL; omega), if_neg (by unfold Reg.PIO_C_TXF Reg.PIO_SYNC; omega),
    if_neg (by unfold Reg.PIO_C_TXF; omega), if_pos (by unfold Reg.PIO_C_TXF; omega), hdiv, hmod]
  have hreg : ctxRegWrite n c (Reg.PIO_C_TXF n c) v 0xFFFFFFFF d = txfWrite n c v d := by
    rw [ctxRegWrite, if_neg (by simp [Reg.PIO_C_TXF, Reg.PIO_C_ENTRY]), if_pos rfl, and_ones]
  dsimp only
  rw [hreg]
  cases d.ownsEng ag n
  case false => rfl
  case true => rfl

theorem W.busWrite_pioWord (hn : n < 8) {i : Nat} (hi : i < 1024) :
    w.busWrite ag (pioWord n i) v mask = w.dev (pioImWrite ag n i v mask) := by
  have hdiv : (pioWord n i - 0x1520000) / 0x1000 = n := by unfold pioWord; omega
  have hmod : (pioWord n i - 0x1520000) % 0x1000 / 4 = i := by unfold pioWord; omega
  rw [W.busWrite_pio _ _ _ _ (by unfold pioWord; omega) (by unfold pioWord; omega)]
  refine congrArg w.dev (funext fun d => ?_)
  rw [Dev.pioWrite, if_neg (by unfold pioWord Reg.PIO_CTRL; omega), if_neg (by unfold pioWord Reg.PIO_SYNC; omega),
    if_neg (by unfold pioWord; omega), if_neg (by unfold pioWord; omega), if_pos (by unfold pioWord; omega), hdiv, hmod]

/-! ### Memory banks (Table 16-6) -/

theorem W.busWrite_MEM_BANK_CTRL (hn : n < 96) : w.busWrite ag (Reg.MEM_BANK_CTRL n) v 0xFFFFFFFF = w.dev (bankCtrlWrite n v) := by
  have hdiv : (Reg.MEM_BANK_CTRL n - Reg.MEM_BANK_CTRL 0) / 4 = n := by unfold Reg.MEM_BANK_CTRL; omega
  rw [W.busWrite_mem _ _ _ _ (by unfold Reg.MEM_BANK_CTRL; omega) (by unfold Reg.MEM_BANK_CTRL; omega)]
  refine congrArg w.dev (funext fun d => ?_)
  rw [Dev.memWrite, if_neg (by unfold Reg.MEM_BANK_CTRL Reg.MEM_CTRL; omega), if_pos (by unfold Reg.MEM_BANK_CTRL; omega), hdiv,
    mergeWord_ones]

/-! ### The system block and updates (Tables 17-8 and 18-6) -/

theorem W.busWrite_SYS_CLK_CTRL : w.busWrite ag Reg.SYS_CLK_CTRL v mask = w.dev (clkPointRequest v mask) := by
  rw [W.busWrite_sys _ _ _ _ (by decide), W.sysWrite, if_neg (by decide), if_neg (by decide), if_pos rfl]

theorem W.busWrite_UPD_CMD : w.busWrite ag Reg.UPD_CMD v 0xFFFFFFFF =
    match bits v.toNat 0 2 with
    | 0 => w
    | 1 => arm ag w
    | 2 => disarm ag w
    | _ => cold ag w := by
  rw [W.busWrite_upd _ _ _ _ (by decide) (by decide), W.updWrite, if_neg (by decide), if_pos rfl, and_ones] <;> rfl

theorem W.busWrite_UPD_CONFIRM_HI : w.busWrite ag Reg.UPD_CONFIRM_HI v 0xFFFFFFFF = confirmToken ag v w := by
  rw [W.busWrite_upd _ _ _ _ (by decide) (by decide), W.updWrite, if_neg (by decide), if_neg (by decide), if_neg (by decide), if_pos rfl,
    and_ones]

/-! ### The secure block (Table 18-7) -/

theorem W.busWrite_sec_of_ne (hlo : 0x1701000 ≤ a) (hhi : a < 0x1702000) (h : ag ≠ .core 3) : w.busWrite ag a v mask = w := by
  rw [W.busWrite_sec _ _ _ _ hlo hhi, W.secWrite, if_pos h]

theorem W.busWrite_SEC_LC_CMD : w.busWrite (.core 3) Reg.SEC_LC_CMD v 0xFFFFFFFF = lifecycleChange v w := by
  rw [W.busWrite_sec _ _ _ _ (by decide) (by decide), W.secWrite, if_neg (by simp), if_neg (by decide), if_pos rfl, and_ones]

theorem W.busWrite_SEC_WIPE_CMD : w.busWrite (.core 3) Reg.SEC_WIPE_CMD v 0xFFFFFFFF = w.dev (wipeCmd v) := by
  rw [W.busWrite_sec _ _ _ _ (by decide) (by decide), W.secWrite, if_neg (by simp), if_neg (by decide), if_neg (by decide), if_pos rfl,
    and_ones]

theorem W.busWrite_SEC_KEY_CMD : w.busWrite (.core 3) Reg.SEC_KEY_CMD v 0xFFFFFFFF =
    match bits v.toNat 4 2 with
    | 0 => w
    | 1 => keyProgram (bits v.toNat 0 2) w
    | 2 => keySetDev (bits v.toNat 0 2) w
    | _ => keyRevoke (bits v.toNat 0 2) w := by
  rw [W.busWrite_sec _ _ _ _ (by decide) (by decide), W.secWrite, if_neg (by simp), if_neg (by decide), if_neg (by decide),
    if_neg (by decide), if_pos rfl, and_ones] <;> rfl

theorem W.busWrite_SEC_IKEY_CMD : w.busWrite (.core 3) Reg.SEC_IKEY_CMD v 0xFFFFFFFF = imageKeyProgram v w := by
  rw [W.busWrite_sec _ _ _ _ (by decide) (by decide), W.secWrite, if_neg (by simp), if_neg (by decide), if_neg (by decide),
    if_neg (by decide), if_neg (by decide), if_pos rfl, and_ones]

theorem W.busWrite_SEC_TAMPER_CFG : w.busWrite (.core 3) Reg.SEC_TAMPER_CFG v mask = tamperCfgWrite v mask w := by
  rw [W.busWrite_sec _ _ _ _ (by decide) (by decide), W.secWrite, if_neg (by simp), if_neg (by decide), if_neg (by decide),
    if_neg (by decide), if_neg (by decide), if_neg (by decide), if_pos rfl]

theorem W.busWrite_SEC_VFY_CMD : w.busWrite (.core 3) Reg.SEC_VFY_CMD v 0xFFFFFFFF = w.dev (verifyGo v) := by
  rw [W.busWrite_sec _ _ _ _ (by decide) (by decide), W.secWrite, if_neg (by simp), if_neg (by decide), if_neg (by decide),
    if_neg (by decide), if_neg (by decide), if_neg (by decide), if_neg (by decide), if_neg (by decide), if_pos rfl, and_ones]

theorem W.busWrite_SEC_RNG_REQ : w.busWrite (.core 3) Reg.SEC_RNG_REQ v 0xFFFFFFFF = w.dev (rngRequest v) := by
  rw [W.busWrite_sec _ _ _ _ (by decide) (by decide), W.secWrite, if_neg (by simp), if_neg (by decide), if_neg (by decide),
    if_neg (by decide), if_neg (by decide), if_neg (by decide), if_neg (by decide), if_neg (by decide), if_neg (by decide), if_pos rfl,
    and_ones]

theorem W.busWrite_SEC_RNG_CMD : w.busWrite (.core 3) Reg.SEC_RNG_CMD v 0xFFFFFFFF = w.dev (rngRestart v) := by
  rw [W.busWrite_sec _ _ _ _ (by decide) (by decide), W.secWrite, if_neg (by simp), if_neg (by decide), if_neg (by decide),
    if_neg (by decide), if_neg (by decide), if_neg (by decide), if_neg (by decide), if_neg (by decide), if_neg (by decide),
    if_neg (by decide), if_pos rfl, and_ones]

/-! ### Availability (Table 19-8) -/

theorem W.busWrite_AV_FT_CMD : w.busWrite ag Reg.AV_FT_CMD v 0xFFFFFFFF = w.dev (ftCmdWrite v) := by
  rw [W.busWrite_av _ _ _ _ (by decide) (by decide)]
  refine congrArg w.dev (funext fun d => ?_)
  rw [Dev.avWrite, if_neg (by decide), if_pos rfl, and_ones]

theorem W.busWrite_AV_REP_CMD : w.busWrite ag Reg.AV_REP_CMD v mask = w.dev (repCmdWrite v mask) := by
  rw [W.busWrite_av _ _ _ _ (by decide) (by decide)]
  refine congrArg w.dev (funext fun d => ?_)
  rw [Dev.avWrite, if_neg (by decide), if_neg (by decide), if_pos rfl]

theorem W.busWrite_AV_FENCE_CMD : w.busWrite ag Reg.AV_FENCE_CMD v 0xFFFFFFFF = w.dev (fenceCmd ag v) := by
  rw [W.busWrite_av _ _ _ _ (by decide) (by decide)]
  refine congrArg w.dev (funext fun d => ?_)
  rw [Dev.avWrite, if_neg (by decide), if_neg (by decide), if_neg (by decide), if_pos rfl, and_ones]

theorem W.busWrite_AV_LOG_CMD : w.busWrite ag Reg.AV_LOG_CMD 1 0xFFFFFFFF = w.dev logPop := by
  rw [W.busWrite_av _ _ _ _ (by decide) (by decide)]
  refine congrArg w.dev (funext fun d => ?_)
  rw [Dev.avWrite, if_neg (by decide), if_neg (by decide), if_neg (by decide), if_neg (by decide), if_pos rfl, if_pos (by decide)]

theorem W.busWrite_AV_OUT_CMD (hn : n < 48) : w.busWrite ag (Reg.AV_OUT_CMD n) v 0xFFFFFFFF = w.dev (fun d =>
    let d := if v.getLsbD 1 then avOutShed n d else d
    if v.getLsbD 0 then avOutResume n d else d) := by
  have hix : indexOf (Reg.AV_OUT_CMD 0) 0x20 48 (Reg.AV_OUT_CMD n) = some n := indexOf_add_mul (by decide) hn
  rw [W.busWrite_av _ _ _ _ (by unfold Reg.AV_OUT_CMD; omega) (by unfold Reg.AV_OUT_CMD; omega)]
  refine congrArg w.dev (funext fun d => ?_)
  rw [Dev.avWrite, if_neg (by unfold Reg.AV_OUT_CMD Reg.AV_CTRL; omega), if_neg (by unfold Reg.AV_OUT_CMD Reg.AV_FT_CMD; omega),
    if_neg (by unfold Reg.AV_OUT_CMD Reg.AV_REP_CMD; omega), if_neg (by unfold Reg.AV_OUT_CMD Reg.AV_FENCE_CMD; omega),
    if_neg (by unfold Reg.AV_OUT_CMD Reg.AV_LOG_CMD; omega), hix, and_ones]

end

end Sys2Proof.Machine
end

section
/-!
SUPPORT. Reading a register after a write to another; the completion of the commands of audio, cores, transfers, pins, system, availability and
debug.
-/

namespace Sys2Proof.Machine

/-! ### Registers after a write -/

section
variable (d : Dev) {a b : Nat} (i j lo n x : Nat)

theorem Dev.rg_sf : (d.sf a lo n x).rg b = if a = b then BitVec.ofNat 32 (setBits (d.rg a).toNat lo n x) else d.rg b := Dev.rg_sg ..

theorem Dev.rg_cb : (d.cb a i).rg b = if a = b then d.rg a &&& ~~~ (1#32 <<< i) else d.rg b := Dev.rg_sg ..

theorem Dev.bt_sb_of_ne (h : a ≠ b) : (d.sb a i).bt b j = d.bt b j := by simp [Dev.bt, Dev.rg_sb, h]

theorem Dev.bt_sf_of_ne (h : a ≠ b) : (d.sf a lo n x).bt b j = d.bt b j := by simp [Dev.bt, Dev.rg_sf, h]

end

/-! ### Fields packed in a command word -/

/-- The command word of AV_FT_CMD holds the slice in its low bits and one of the three requests. -/
theorem ftCmd_bits : ∀ sl < 52, ∀ i < 3, bits (packFields [(0, sl), (8 + i, 1)]).toNat 0 6 = sl ∧
    ∀ j < 3, (packFields [(0, sl), (8 + i, 1)]).getLsbD (8 + j) = decide (i = j) := by decide

theorem keyCmd_bits : ∀ slot < 4, ∀ k < 4, bits (packFields [(0, slot), (4, k)]).toNat 0 2 = slot ∧
    bits (packFields [(0, slot), (4, k)]).toNat 4 2 = k := by decide

/-! ### Operations as the commands name them -/

section
variable {d : Dev}

theorem ftCmdWrite_pack {sl i : Nat} (hsl : sl < 52) (hi : i < 3) : ftCmdWrite (packFields [(0, sl), (8 + i, 1)]) d =
    (if i = 2 then ftReturn sl else id) ((if i = 1 then ftRemap sl else id) ((if i = 0 then ftCheck sl else id) d)) := by
  obtain ⟨hs, hb⟩ := ftCmd_bits sl hsl i hi
  rw [ftCmdWrite, hs, hb 0 (by decide), hb 1 (by decide), hb 2 (by decide), if_neg (by omega)]
  split <;> split <;> split <;> simp_all

theorem bankCtrlWrite_one (b : Nat) : bankCtrlWrite b 1 d =
    if 86 ≤ b ∧ b ≤ 93 then (if d.bankState b = 0 then (d.sb (Reg.MEM_BANK_CTRL b) 0).retainBank b else d)
    else (d.sb Reg.MEM_STAT 3).raiseIf (d.bt Reg.MEM_INT_EN 6) 370 := by
  have hen : (d.sb Reg.MEM_STAT 3).bt Reg.MEM_INT_EN 6 = d.bt Reg.MEM_INT_EN 6 := Dev.bt_sb_of_ne _ _ _ (by decide)
  rw [bankCtrlWrite, if_pos (by decide)]
  by_cases h : 86 ≤ b ∧ b ≤ 93
  case pos => rw [if_neg (by omega), if_pos h]
  case neg => rw [if_pos (by omega), if_neg h, Dev.memRaise, hen]

theorem bankCtrlWrite_zero (b : Nat) : bankCtrlWrite b 0 d =
    if d.bankState b = 0 then d.cb (Reg.MEM_BANK_CTRL b) 0 else if d.bankState b = 1 then
      { (d.sf (Reg.MEM_BANK_CTRL b) 1 2 2) with wakeAt := Tab.put 0 d.wakeAt b (d.tb + 1) } else d := by
  rw [bankCtrlWrite, if_neg (by decide)]
  rfl

theorem linkUp_eq (speed width : Nat) : linkUp speed width d =
    (((d.sb Reg.MEM_PCIE_STAT 0).sf Reg.MEM_PCIE_STAT 1 3 speed).sf Reg.MEM_PCIE_STAT 4 5 width).raiseIf (d.bt Reg.MEM_INT_EN 9) 373 := by
  rw [linkUp, Dev.memRaise, Dev.bt_sf_of_ne _ _ _ _ _ (by decide), Dev.bt_sf_of_ne _ _ _ _ _ (by decide),
    Dev.bt_sb_of_ne _ _ _ (by decide)]

theorem mr4Report_eq (ch code : Nat) : mr4Report ch code d =
    (d.sf (Reg.MEM_CH_STAT ch) 1 3 code).raiseIf (d.bt Reg.MEM_INT_EN 4) 368 := by
  rw [mr4Report, Dev.memRaise, Dev.bt_sf_of_ne _ _ _ _ _ (by unfold Reg.MEM_CH_STAT Reg.MEM_INT_EN; omega)]

theorem aerError_eq (u : Bool) : aerError u d =
    if u = true then ({ d with pcie.aer := d.pcie.aer ++ [true] } : Dev).raiseIf (d.bt Reg.MEM_INT_EN 11) 375
    else ({ d with pcie.aer := d.pcie.aer ++ [false] } : Dev).raiseIf (d.bt Reg.MEM_INT_EN 10) 374 := by
  cases u
  case false => rfl
  case true => rfl

end

/-- A register write whose operation may reach the memories, in a command whose numbers are in range. -/
theorem need_busSet_run {p : Prop} [Decidable p] {s : State} {ag : Agent} {a : Nat} {v : Dev → Word} {k : W → W} (hup : s.d.coreUp = true)
    (hp : p) (h : ∀ w : W, w.busWrite ag a (v w.d) 0xFFFFFFFF = k w) : need p (s.busSet ag a v) = .next (s.afterRun k) :=
  (need_pos hp).trans (busSet_run hup h)

/-- SEC registers take their writes from KC3 alone (R539). -/
theorem W.busWrite_sec_gate {ag : Agent} {a : Nat} (v mask : Word) (k : W → W) (w : W) (hlo : 0x1701000 ≤ a) (hhi : a < 0x1702000)
    (h : w.busWrite (.core 3) a v mask = k w) : w.busWrite ag a v mask = if ag = .core 3 then k w else w := by
  by_cases hag : ag = .core 3
  case pos => rw [if_pos hag, hag, h]
  case neg => rw [if_neg hag, W.busWrite_sec_of_ne _ _ _ _ hlo hhi hag]

theorem W.dev_ite (w : W) (p : Prop) [Decidable p] (f : Dev → Dev) :
    (if p then w.dev f else w) = w.dev (fun d => if p then f d else d) := by
  split
  · rfl
  · rfl

/-! ### Reads with an effect -/

theorem indexOf_eq_none_of_outside {base stride n a : Nat} (hs : 0 < stride) (h : a < base ∨ base + n * stride ≤ a) :
    indexOf base stride n a = none := by
  refine if_neg fun ⟨hle, _, hlt⟩ => ?_
  have hmul : a - base < n * stride := (Nat.div_lt_iff_lt_mul hs).mp hlt
  omega

section
variable (w : W) (ag : Agent) {a c : Nat}

theorem W.busRead_TMR_CAP_LO (hc : c < 16) : w.busRead ag (Reg.TMR_CAP_LO c) = w.dev (tmrCapRead c) := by
  have hclaim : indexOf (Reg.INTC_CLAIM 0) 0x1000 4 (Reg.TMR_CAP_LO c) = none :=
    indexOf_eq_none_of_outside (by decide) (by unfold Reg.INTC_CLAIM Reg.TMR_CAP_LO; omega)
  have hcap : indexOf (Reg.TMR_CAP_LO 0) 0x40 16 (Reg.TMR_CAP_LO c) = some c := indexOf_add_mul (by decide) hc
  unfold W.busRead
  rw [hclaim, hcap]

theorem W.busRead_PIO_C_RXF {e : Nat} (he : e < 8) (hc : c < 16) : w.busRead ag (Reg.PIO_C_RXF e c) = w.dev (rxfRead e c) := by
  have hclaim : indexOf (Reg.INTC_CLAIM 0) 0x1000 4 (Reg.PIO_C_RXF e c) = none :=
    indexOf_eq_none_of_outside (by decide) (by unfold Reg.INTC_CLAIM Reg.PIO_C_RXF; omega)
  have hcap : indexOf (Reg.TMR_CAP_LO 0) 0x40 16 (Reg.PIO_C_RXF e c) = none :=
    indexOf_eq_none_of_outside (by decide) (by unfold Reg.TMR_CAP_LO Reg.PIO_C_RXF; omega)
  have htc : indexOf (Reg.SYS_MBX_TC 0 3) 0x40 4 (Reg.PIO_C_RXF e c) = none :=
    indexOf_eq_none_of_outside (by decide) (by unfold Reg.SYS_MBX_TC Reg.PIO_C_RXF; omega)
  have hth : indexOf (Reg.SYS_MBX_TH 0 3) 0x40 4 (Reg.PIO_C_RXF e c) = none :=
    indexOf_eq_none_of_outside (by decide) (by unfold Reg.SYS_MBX_TH Reg.PIO_C_RXF; omega)
  have hdiv : (Reg.PIO_C_RXF e c - 0x1511000) / 0x400 = e := by unfold Reg.PIO_C_RXF; omega
  have hmod : (Reg.PIO_C_RXF e c - 0x1511000) % 0x400 / 0x40 = c := by unfold Reg.PIO_C_RXF; omega
  unfold W.busRead
  rw [hclaim, hcap, htc, hth]
  dsimp only
  rw [if_pos (by unfold Reg.PIO_C_RXF; omega), hdiv, hmod]

theorem W.busRead_SYS_MBX_TC (hc : c < 4) : w.busRead ag (Reg.SYS_MBX_TC c 3) = w.dev (mbxTcRead ag c) := by
  have hclaim : indexOf (Reg.INTC_CLAIM 0) 0x1000 4 (Reg.SYS_MBX_TC c 3) = none :=
    indexOf_eq_none_of_outside (by decide) (by unfold Reg.INTC_CLAIM Reg.SYS_MBX_TC; omega)
  have hcap : indexOf (Reg.TMR_CAP_LO 0) 0x40 16 (Reg.SYS_MBX_TC c 3) = none :=
    indexOf_eq_none_of_outside (by decide) (by unfold Reg.TMR_CAP_LO Reg.SYS_MBX_TC; omega)
  have htc : indexOf (Reg.SYS_MBX_TC 0 3) 0x40 4 (Reg.SYS_MBX_TC c 3) = some c := by
    have h := indexOf_add_mul (base := Reg.SYS_MBX_TC 0 3) (stride := 0x40) (by decide) hc
    rwa [show Reg.SYS_MBX_TC 0 3 + c * 0x40 = Reg.SYS_MBX_TC c 3 by unfold Reg.SYS_MBX_TC; omega] at h
  unfold W.busRead
  rw [hclaim, hcap, htc]

theorem W.busRead_SYS_MBX_TH (hc : c < 4) : w.busRead ag (Reg.SYS_MBX_TH c 3) = w.dev (mbxThRead ag c) := by
  have hclaim : indexOf (Reg.INTC_CLAIM 0) 0x1000 4 (Reg.SYS_MBX_TH c 3) = none :=
    indexOf_eq_none_of_outside (by decide) (by unfold Reg.INTC_CLAIM Reg.SYS_MBX_TH; omega)
  have hcap : indexOf (Reg.TMR_CAP_LO 0) 0x40 16 (Reg.SYS_MBX_TH c 3) = none :=
    indexOf_eq_none_of_outside (by decide) (by unfold Reg.TMR_CAP_LO Reg.SYS_MBX_TH; omega)
  have htc : indexOf (Reg.SYS_MBX_TC 0 3) 0x40 4 (Reg.SYS_MBX_TH c 3) = none := by
    unfold indexOf Reg.SYS_MBX_TC Reg.SYS_MBX_TH
    exact if_neg (by omega)
  have hth : indexOf (Reg.SYS_MBX_TH 0 3) 0x40 4 (Reg.SYS_MBX_TH c 3) = some c := by
    have h := indexOf_add_mul (base := Reg.SYS_MBX_TH 0 3) (stride := 0x40) (by decide) hc
    rwa [show Reg.SYS_MBX_TH 0 3 + c * 0x40 = Reg.SYS_MBX_TH c 3 by unfold Reg.SYS_MBX_TH; omega] at h
  unfold W.busRead
  rw [hclaim, hcap, htc, hth]

end

end Sys2Proof.Machine
end

section
/-!
PROOFS. The commands of audio, transfers, the system and availability complete (O56 to O59).
-/

namespace Sys2Proof.Machine

/-- Settles O56: each row is its gate, open on a core domain that is up and numbers in range, over the operation itself or over the write of the
one register that it names. -/
theorem audioAndCoreCommandsComplete : Obligations.AudioAndCoreCommandsComplete := by
  intro s hup
  exact ⟨fun _ _ => coreRun_up hup,
    fun _ _ _ => coreDev_up hup,
    fun _ _ hag hv => need_busSet hup ⟨hag, hv⟩ (W.busWrite_AUD_V_CTRL _ _ _ hv),
    fun _ _ hag hv => need_busSet hup ⟨hag, hv⟩ (W.busWrite_AUD_V_CTRL _ _ _ hv),
    fun _ hl hk => need_coreDev hup ⟨hl, hk⟩,
    fun _ hl hk => need_coreDev hup ⟨hl, hk⟩,
    fun _ hl hk => need_coreDev hup ⟨hl, hk⟩,
    fun _ hl hk => need_coreDev hup ⟨hl, hk⟩,
    fun _ _ _ hag hlo hhi hal => need_busSet hup ⟨hag, hlo, hhi, hal⟩ (W.busWrite_aud _ _ _ _ (by omega) (by omega)),
    fun _ _ hag => need_busSet hup hag (W.busWrite_AUD_SAFE_CTRL ..),
    fun _ input _ _ hag hp => need_busSet hup ⟨hag, hp⟩ (W.busWrite_tdmPort _ _ _ (tdmPort_AUD_CFG input hp)),
    fun _ => need_coreRun hup,
    fun _ => need_coreRun hup,
    fun _ => need_coreRun hup,
    fun _ => need_coreRun hup,
    fun _ => need_coreDev hup,
    fun _ _ _ hag hc => need_busSet hup ⟨hag, hc⟩ (W.busWrite_KC_WDT_KICK _ _ _ hc),
    fun _ => need_coreDev hup,
    fun _ _ _ hag hc => need_busSet hup ⟨hag, hc⟩ (W.busWrite_KC_RESTART _ _ _ hc),
    fun _ => need_coreRun hup,
    fun _ _ hc hg => need_coreDev hup ⟨hc, hg⟩,
    fun _ => need_coreRun hup,
    fun _ _ hag => exec_intSwRaise hup hag,
    fun _ => need_coreDev hup⟩

theorem W.busWrite_bltStart (w : W) (ag : Agent) {e : Nat} (he : e < 4) :
    w.busWrite ag (Reg.BLT_CMD e) 1 0xFFFFFFFF = w.dev (fun d => if ownerIs ag (d.bltOwner e) = true then
      (if d.bltBusy e = true then d.sb Reg.BLT_STAT 2 else d.bltStart e) else d.sb Reg.BLT_STAT 1) := by
  have h1 : (1 : Word).getLsbD 1 = false := by decide
  have h0 : (1 : Word).getLsbD 0 = true := by decide
  rw [W.busWrite_BLT_CMD _ _ _ he, h1, h0]
  by_cases ho : ownerIs ag (w.d.bltOwner e) = true
  case pos => simp [W.dev, ho]
  case neg => simp [W.dev, ho]

theorem W.busWrite_bltAbort (w : W) (ag : Agent) {e : Nat} (he : e < 4) :
    w.busWrite ag (Reg.BLT_CMD e) 2 0xFFFFFFFF =
      if ownerIs ag (w.d.bltOwner e) = true then bltAbort e w else w.dev (fun d => d.sb Reg.BLT_STAT 1) := by
  have h1 : (2 : Word).getLsbD 1 = true := by decide
  rw [W.busWrite_BLT_CMD _ _ _ he, h1]
  rfl

theorem Dev.aonUp_of_coreUp {d : Dev} (h : d.coreUp = true) : d.aonUp = true := by
  simp only [Dev.coreUp, Bool.and_eq_true] at h
  exact h.1.1

theorem aonRun_up {s : State} {g : W → W} (h : s.d.aonUp = true) :
    s.run (fun w => if w.d.aonUp then g w else w) = .next (s.afterRun g) := by simp [State.run, State.afterRun, h]

/-- Settles O57: as for the other families, with the operation that a bank's, a blitter's or a pin's register write is under the word
that the command writes. -/
theorem transferAndPinCommandsComplete : Obligations.TransferAndPinCommandsComplete := by
  intro s
  refine ⟨fun hup => ?_, fun hup => ?_⟩
  · exact ⟨fun _ _ _ hag hch => need_coreRun hup ⟨hag, hch⟩,
      fun _ _ => need_coreRun hup,
      fun _ _ hag he => need_busSet hup ⟨hag, he⟩ (W.busWrite_bltStart _ _ he),
      fun _ _ hag he => need_busSet_run hup ⟨hag, he⟩ (fun w => W.busWrite_bltAbort w _ he),
      fun _ => need_coreRun hup,
      fun _ => need_coreRun hup,
      fun _ _ _ => coreRun_up hup,
      fun _ _ => coreDev_up hup,
      fun _ b hag hb => (need_busSet hup ⟨hag, hb⟩ (W.busWrite_MEM_BANK_CTRL _ _ _ hb)).trans
        (State.next_afterDev_congr (bankCtrlWrite_one b)),
      fun _ b hag hb => (need_busSet hup ⟨hag, hb⟩ (W.busWrite_MEM_BANK_CTRL _ _ _ hb)).trans
        (State.next_afterDev_congr (bankCtrlWrite_zero b)),
      fun _ hb => (need_pos hb).trans (aonRun_up (Dev.aonUp_of_coreUp hup)),
      fun _ _ _ _ => need_coreRun hup,
      coreDev_up hup,
      fun _ _ _ => coreRun_up hup,
      coreRun_up hup,
      coreRun_up hup,
      fun speed width => (coreDev_up hup).trans (State.next_afterDev_congr (linkUp_eq speed width)),
      fun ch code hch hcode => (need_coreDev hup ⟨hch, hcode⟩).trans (State.next_afterDev_congr (mr4Report_eq ch code)),
      fun _ _ => need_coreDev hup,
      fun _ _ hag => need_busSet hup hag (W.busWrite_AV_FENCE_CMD ..),
      fun _ => coreRun_up hup,
      fun u => (coreDev_up hup).trans (State.next_afterDev_congr (aerError_eq u))⟩
  · exact ⟨fun _ => need_coreDev hup,
      fun _ => need_coreDev hup,
      fun _ _ isMatch _ hag hg => need_busSet hup ⟨hag, hg⟩ (W.busWrite_GP_GRP _ _ _ _ hg (by cases isMatch <;> simp)),
      fun _ => need_coreDev hup,
      fun _ => need_coreDev hup,
      fun _ => need_coreDev hup,
      fun _ => need_coreDev hup,
      fun _ => need_coreDev hup,
      fun _ => need_coreDev hup,
      fun _ => need_coreDev hup,
      fun _ => need_coreDev hup,
      fun _ => need_coreDev hup,
      fun _ => need_coreDev hup,
      fun _ => need_coreDev hup,
      fun _ _ hag hm => need_busSet hup ⟨hag, hm⟩ (W.busWrite_PIO_SYNC ..),
      fun _ _ hag hm => need_busSet hup ⟨hag, hm⟩ (W.busWrite_PIO_SYNC ..),
      fun _ _ hag hm => need_busSet hup ⟨hag, hm⟩ (W.busWrite_PIO_SYNC ..),
      fun _ _ _ hag he => need_busSet hup ⟨hag, he⟩ (W.busWrite_PIO_E_CTXEN _ _ _ he),
      fun _ _ _ _ hag he hc => need_busSet hup ⟨hag, he, hc⟩ (W.busWrite_PIO_C_TXF _ _ _ he hc),
      fun _ _ _ hag he hc => need_busGet hup ⟨hag, he, hc⟩ (W.busRead_PIO_C_RXF _ _ he hc),
      fun _ _ _ _ hag he ha => need_busSet hup ⟨hag, he, ha⟩ (W.busWrite_pioWord _ _ _ _ he ha)⟩

theorem W.busWrite_secDev {ag : Agent} {a : Nat} {v : Word} {f : Dev → Dev} (w : W) (hlo : 0x1701000 ≤ a) (hhi : a < 0x1702000)
    (h : w.busWrite (.core 3) a v 0xFFFFFFFF = w.dev f) :
    w.busWrite ag a v 0xFFFFFFFF = w.dev (fun d => if ag = .core 3 then f d else d) :=
  (W.busWrite_sec_gate v 0xFFFFFFFF (fun w => w.dev f) w hlo hhi h).trans (W.dev_ite w _ f)

section
variable {slot : Nat} (w : W) (hs : slot < 4)
include hs

theorem W.busWrite_keyProgram :
    w.busWrite (.core 3) Reg.SEC_KEY_CMD (packFields [(0, slot), (4, 1)]) 0xFFFFFFFF = keyProgram slot w := by
  obtain ⟨hslot, hop⟩ := keyCmd_bits slot hs 1 (by decide)
  rw [W.busWrite_SEC_KEY_CMD, hslot, hop]
  rfl

theorem W.busWrite_keySetDev :
    w.busWrite (.core 3) Reg.SEC_KEY_CMD (packFields [(0, slot), (4, 2)]) 0xFFFFFFFF = keySetDev slot w := by
  obtain ⟨hslot, hop⟩ := keyCmd_bits slot hs 2 (by decide)
  rw [W.busWrite_SEC_KEY_CMD, hslot, hop]
  rfl

theorem W.busWrite_keyRevoke :
    w.busWrite (.core 3) Reg.SEC_KEY_CMD (packFields [(0, slot), (4, 3)]) 0xFFFFFFFF = keyRevoke slot w := by
  obtain ⟨hslot, hop⟩ := keyCmd_bits slot hs 3 (by decide)
  rw [W.busWrite_SEC_KEY_CMD, hslot, hop]
  rfl

end

section
variable (w : W) (ag : Agent)

theorem W.busWrite_arm : w.busWrite ag Reg.UPD_CMD 1 0xFFFFFFFF = arm ag w := W.busWrite_UPD_CMD w ag 1

theorem W.busWrite_disarm : w.busWrite ag Reg.UPD_CMD 2 0xFFFFFFFF = disarm ag w := W.busWrite_UPD_CMD w ag 2

theorem W.busWrite_cold : w.busWrite ag Reg.UPD_CMD 3 0xFFFFFFFF = cold ag w := W.busWrite_UPD_CMD w ag 3

end

/-- Settles O58: the commands of the secure block go through its gate, which KC3 alone passes. -/
theorem systemCommandsComplete : Obligations.SystemCommandsComplete := by
  intro s
  refine ⟨fun _ _ hmon => need_pos hmon, fun hup => ?_⟩
  exact ⟨fun _ _ _ _ hag hsl hop => need_coreRun hup ⟨hag, hsl, hop⟩,
    fun _ _ hag hsl => need_coreRun hup ⟨hag, hsl⟩,
    fun _ _ hag hsl => need_coreRun hup ⟨hag, hsl⟩,
    fun _ _ hag hsl => need_coreRun hup ⟨hag, hsl⟩,
    fun _ => need_coreDev hup,
    fun _ _ => need_coreRun hup,
    fun _ _ => need_coreRun hup,
    fun _ => need_coreRun hup,
    fun _ => need_coreRun hup,
    fun _ _ hag => need_busSet hup hag (W.busWrite_SYS_CLK_CTRL ..),
    coreRun_up hup,
    fun _ hag => need_busSet_run hup hag (fun w => W.busWrite_arm w _),
    coreRun_up hup,
    fun _ hag => need_busSet_run hup hag (fun w => W.busWrite_disarm w _),
    fun _ hag => need_busSet_run hup hag (fun w => W.busWrite_cold w _),
    fun _ _ hag => need_busSet_run hup hag (fun w => W.busWrite_UPD_CONFIRM_HI w _ _),
    coreRun_up hup,
    coreRun_up hup,
    fun _ _ hag => need_busSet_run hup hag
      (fun w => W.busWrite_sec_gate _ _ _ w (by decide) (by decide) (W.busWrite_SEC_LC_CMD w _)),
    fun _ _ hag hs => need_busSet_run hup ⟨hag, hs⟩
      (fun w => W.busWrite_sec_gate _ _ _ w (by decide) (by decide) (W.busWrite_keyProgram w hs)),
    fun _ _ hag hs => need_busSet_run hup ⟨hag, hs⟩
      (fun w => W.busWrite_sec_gate _ _ _ w (by decide) (by decide) (W.busWrite_keySetDev w hs)),
    fun _ _ hag hs => need_busSet_run hup ⟨hag, hs⟩
      (fun w => W.busWrite_sec_gate _ _ _ w (by decide) (by decide) (W.busWrite_keyRevoke w hs)),
    fun _ _ hag => need_busSet_run hup hag
      (fun w => W.busWrite_sec_gate _ _ _ w (by decide) (by decide) (W.busWrite_SEC_IKEY_CMD w _)),
    fun _ _ hag => need_busSet hup hag (W.busWrite_secDev _ (by decide) (by decide) (W.busWrite_SEC_WIPE_CMD _ _)),
    coreRun_up hup,
    fun _ hag => need_busSet_run hup hag (fun w => W.busWrite_sec_gate _ _
      (fun w => tamperCfgWrite (fieldWord (w.d.rg Reg.SEC_TAMPER_CFG) 8 1 1) 0xFFFFFFFF w) w (by decide) (by decide)
      (W.busWrite_SEC_TAMPER_CFG w _ _)),
    fun _ _ hag => need_busSet hup hag (W.busWrite_secDev _ (by decide) (by decide) (W.busWrite_SEC_VFY_CMD _ _)),
    coreRun_up hup,
    fun _ _ hag => need_busSet hup hag (W.busWrite_secDev _ (by decide) (by decide) (W.busWrite_SEC_RNG_REQ _ _)),
    coreRun_up hup,
    fun _ => coreRun_up hup,
    fun _ _ hag => need_busSet hup hag (W.busWrite_secDev _ (by decide) (by decide) (W.busWrite_SEC_RNG_CMD _ _)),
    fun _ => coreRun_up hup⟩

/-- Settles O59: the three requests of AV_FT_CMD are told apart by their bit, as the two of AV_OUT_CMD. -/
theorem availabilityAndDebugCommandsComplete : Obligations.AvailabilityAndDebugCommandsComplete := by
  intro s hup
  exact ⟨coreDev_up hup,
    fun _ _ hag => need_busSet hup hag (W.busWrite_AV_REP_CMD ..),
    fun _ _ hb hr => need_coreDev hup ⟨hb, hr⟩,
    fun _ _ => need_coreDev hup,
    fun _ _ hag hsl => (need_busSet hup ⟨hag, hsl⟩ (W.busWrite_AV_FT_CMD ..)).trans
      (State.next_afterDev_congr (ftCmdWrite_pack (i := 0) hsl (by decide))),
    fun _ _ hag hsl => (need_busSet hup ⟨hag, hsl⟩ (W.busWrite_AV_FT_CMD ..)).trans
      (State.next_afterDev_congr (ftCmdWrite_pack (i := 1) hsl (by decide))),
    fun _ _ hag hsl => (need_busSet hup ⟨hag, hsl⟩ (W.busWrite_AV_FT_CMD ..)).trans
      (State.next_afterDev_congr (ftCmdWrite_pack (i := 2) hsl (by decide))),
    fun _ _ hag hn => need_busSet hup ⟨hag, hn⟩ (W.busWrite_AV_OUT_CMD _ _ _ hn),
    fun _ _ hag hn => need_busSet hup ⟨hag, hn⟩ (W.busWrite_AV_OUT_CMD _ _ _ hn),
    fun _ hag => need_busSet hup hag (W.busWrite_AV_LOG_CMD ..),
    coreDev_up hup,
    fun _ => coreDev_up hup,
    fun _ => coreDev_up hup,
    coreDev_up hup,
    coreDev_up hup,
    coreDev_up hup,
    coreDev_up hup,
    fun _ _ _ _ => need_coreDev hup,
    coreRun_up hup,
    coreDev_up hup,
    fun _ => coreDev_up hup,
    coreDev_up hup,
    coreDev_up hup,
    coreDev_up hup,
    fun _ => need_coreDev hup,
    fun _ _ => coreDev_up hup⟩

end Sys2Proof.Machine
end

section
/-!
PROOFS. The commands of the hopper, the Flume ports and the ring (O55): a TAIL write does more than its row says.
-/

namespace Sys2Proof.Machine

theorem exec_tailWrite {s : State} {ag : Agent} {r : Nat} {v : Word} (hup : s.d.coreUp = true) (hag : ag.ok = true) (hr : r < 16384) :
    exec (.tailWrite ag r v) s = .next (s.afterDev (descWrite ag (Reg.HOP_RD_TAIL r) v 0xFFFFFFFF)) :=
  need_busSet hup ⟨hag, hr⟩
    (W.busWrite_desc _ _ _ _ (by unfold Reg.HOP_RD_TAIL; omega) (by unfold Reg.HOP_RD_TAIL; omega))

/-- A part just out of reset whose ring 0 was found with an OBJ_WRITE head alone at TAIL 0 (R237). -/
def headWithoutBody : State := { State.reset with d.hop.noBody := [(0, some 0)] }

/-- Refutes O55: the owner's TAIL write also forgets that the ring's only published record was found without its body, so that the record is looked
at anew (R237, log 88); the row has the tail written and nothing else. -/
theorem not_linkAndHopperCommandsComplete : ¬ Obligations.LinkAndHopperCommandsComplete := by
  intro h
  have hup : headWithoutBody.d.coreUp = true := by decide
  obtain ⟨⟨htail, -⟩, -⟩ := (h headWithoutBody).imp_left (· hup)
  have hsame := (exec_tailWrite hup (ag := .host) (r := 0) (v := 0) rfl (by decide)).symm.trans (htail .host 0 0 rfl (by decide))
  have hnoBody := congrArg (fun s : State => s.d.hop.noBody) (Host.Outcome.next.inj hsame)
  revert hnoBody
  decide +kernel

end Sys2Proof.Machine
end

section
/-!
PROOFS. Register accesses as the commands of the family make them (O13, O14, O15), over the registers whose fields clear on reading.
-/

namespace Sys2Proof.Machine

/-! ### The registers with fields that clear on reading (R8) -/

/-- The lists of rows that `RegTable.rowsAt` chooses from. -/
def RegTable.blocks : List (List RegDesc) :=
  [rowsSys, rowsTg, rowsObj, rowsTp, rowsSl, rowsMx, rowsDm, rowsHop, rowsFl, rowsRing, rowsAud, rowsKc, rowsTmr, rowsGp, rowsMem, rowsUpd,
    rowsAv, rowsDbg, []]

theorem RegTable.rowsAt_mem_blocks (a : Nat) : RegTable.rowsAt a ∈ RegTable.blocks := by
  unfold RegTable.rowsAt RegTable.blocks
  split <;> simp

theorem RegTable.exists_of_find {a : Nat} {r : RegDesc} (h : RegTable.find a = some r) :
    (∃ l ∈ RegTable.blocks, r ∈ l) ∧ r.covers a = true :=
  ⟨⟨_, RegTable.rowsAt_mem_blocks a, List.mem_of_find?_eq_some h⟩, List.find?_some (p := fun r : RegDesc => r.covers a) h⟩

/-- Base, stride and number of the registers with fields that clear on reading: OBJ_BOL_MAX, SL_BUILD_MAX, HOP_COMMIT_MAX, FL_DEMAND,
RING_INJ_WAIT_MAX and AUD_RUN_MAX. -/
def clearingRows : List (Nat × Nat × Nat × Nat) :=
  [(0x20002C, 0x4000000, 1, 0), (0x400020, 0x1000, 52, 0), (0xC8004C, 0x4000000, 1, 0), (0x1000030, 0x400, 48, 0),
    (0x1100040, 0x4000000, 1, 0), (0x120001C, 0x4000000, 1, 0)]

/-- The row has no field that clears on reading, or is one of `clearingRows`. -/
def RegDesc.clears (r : RegDesc) : Bool := r.rc == 0 || clearingRows.contains (r.base, r.s1, r.n1, r.s2)

theorem RegTable.clears_all : (RegTable.blocks.all fun l => l.all RegDesc.clears) = true := by decide

theorem RegTable.clearing_of_rc (l : List RegDesc) (hl : l ∈ RegTable.blocks) (r : RegDesc) (hr : r ∈ l) (hrc : r.rc ≠ 0) :
    (r.base, r.s1, r.n1, r.s2) ∈ clearingRows := by
  have hrow := List.all_eq_true.mp (List.all_eq_true.mp RegTable.clears_all l hl) r hr
  rw [RegDesc.clears, beq_eq_false_iff_ne.mpr hrc, Bool.false_or] at hrow
  exact List.contains_iff_mem.mp hrow

/-- Offsets of the registers with fields that clear on reading. -/
def Clearing (a : Nat) : Prop :=
  a = 0x20002C ∨ (0x400020 ≤ a ∧ a < 0x434000 ∧ a % 0x1000 = 0x20) ∨ a = 0xC8004C ∨
    (0x1000030 ≤ a ∧ a < 0x100C000 ∧ a % 0x400 = 0x30) ∨ a = 0x1100040 ∨ a = 0x120001C

theorem RegDesc.covers_iff {r : RegDesc} {a : Nat} (h : r.s2 = 0) :
    r.covers a = true ↔ r.base ≤ a ∧ (a - r.base) / r.s1 < r.n1 ∧ (a - r.base) % r.s1 = 0 := by
  simp [RegDesc.covers, h, and_assoc]

theorem clearing_of_rc {a : Nat} {r : RegDesc} (h : RegTable.find a = some r) (hrc : r.rc ≠ 0) : a < 0x2000000 → Clearing a := by
  intro ha
  obtain ⟨⟨l, hl, hr⟩, hcov⟩ := RegTable.exists_of_find h
  have hrow := RegTable.clearing_of_rc l hl r hr hrc
  simp only [clearingRows, List.mem_cons, Prod.mk.injEq, List.not_mem_nil, or_false] at hrow
  have h2 : r.s2 = 0 := by omega
  rw [RegDesc.covers_iff h2] at hcov
  unfold Clearing
  obtain ⟨hb, hs, hn, -⟩ | ⟨hb, hs, hn, -⟩ | ⟨hb, hs, hn, -⟩ | ⟨hb, hs, hn, -⟩ | ⟨hb, hs, hn, -⟩ | ⟨hb, hs, hn, -⟩ := hrow
  all_goals
    rw [hb, hs, hn] at hcov
    omega

/-! ### Reads -/

theorem Dev.readClear_of_rc_zero {d : Dev} {a : Nat} (h : ∀ r, RegTable.find a = some r → r.rc = 0) : d.readClear a = d := by
  unfold Dev.readClear
  cases hf : RegTable.find a
  case none => rfl
  case some r => exact if_pos (h r hf)

theorem Dev.readClear_of_rc {d : Dev} {a : Nat} {r : RegDesc} (hf : RegTable.find a = some r) (hrc : r.rc ≠ 0) :
    d.readClear a = d.sg a (d.rg a &&& ~~~ BitVec.ofNat 32 r.rc) := by
  unfold Dev.readClear
  rw [hf]
  exact if_neg hrc

/-- The device with the value of the register at `a` in its read data and the companions of a LO half in their shadows. -/
def W.readDev (w : W) (ag : Agent) (a : Nat) (d : Dev) : Dev :=
  { d with
    rdata := w.regValue ag a
    shadow := ((shadowOf a).map (fun b => (b, w.d.companionValue b))).foldl
      (fun t (p : Nat × Word) => Tab.put none t p.1 (some p.2)) d.shadow }

section
variable (w : W) (ag : Agent) {a n : Nat}

/-- A read without an effect of its own: the value read, the companions' copies, and the fields that clear. -/
theorem W.busRead_plain (h : a < 0x1900000) (hmbx : a < 0x100 ∨ 0x240 ≤ a) (hkc : a < 0x1300000 ∨ 0x1305000 ≤ a)
    (htmr : a < 0x1400100 ∨ 0x1400518 ≤ a) (hpio : a < 0x1511000 ∨ 0x1513000 ≤ a) :
    w.busRead ag a = w.dev (fun d => (w.readDev ag a d).readClear a) := by
  have hclaim : indexOf (Reg.INTC_CLAIM 0) 0x1000 4 a = none :=
    indexOf_eq_none_of_outside (by decide) (by unfold Reg.INTC_CLAIM; omega)
  have hcap : indexOf (Reg.TMR_CAP_LO 0) 0x40 16 a = none :=
    indexOf_eq_none_of_outside (by decide) (by unfold Reg.TMR_CAP_LO; omega)
  have htc : indexOf (Reg.SYS_MBX_TC 0 3) 0x40 4 a = none :=
    indexOf_eq_none_of_outside (by decide) (by unfold Reg.SYS_MBX_TC; omega)
  have hth : indexOf (Reg.SYS_MBX_TH 0 3) 0x40 4 a = none :=
    indexOf_eq_none_of_outside (by decide) (by unfold Reg.SYS_MBX_TH; omega)
  have hvt : ∀ c, (a == Reg.DBG_VT_RX c) = false := fun c => by simp [Reg.DBG_VT_RX]; omega
  unfold W.busRead
  rw [hclaim, hcap, htc, hth]
  dsimp only
  rw [if_neg (by omega)]
  cases ag
  case core c => exact if_neg (by simp [hvt])
  case host => rfl
  case dbg => rfl
  case device => rfl

theorem W.winReady_of_lt (h : a < 0x2000000) : w.winReady ag a n = w := if_neg (by omega)

theorem W.bar0Read_word (h : a < 0x2000000) (hal : a % 4 = 0) :
    w.bar0Read ag a 4 = (w.busRead ag a).dev (fun d => { d with rbytes := leBytes 4 d.rdata.toNat }) :=
  (if_pos h).trans (if_pos ⟨hal, rfl⟩)

end

theorem State.next_afterRun_congr {s : State} {f g : W → W} (h : f s.ctx = g s.ctx) :
    (Host.Outcome.next (s.afterRun f) : Host.Outcome State Fault Refusal) = .next (s.afterRun g) :=
  congrArg _ (by simp only [State.afterRun, h])

theorem State.exec_rcRead_of_rc {s : State} {ag : Agent} {off : Nat} {r : RegDesc} (hup : s.d.coreUp = true) (hag : ag.ok = true)
    (hoff : off < barBytes) (hlt : off < 0x2000000) (hal : off % 4 = 0) (hf : RegTable.find off = some r) (hrc : r.rc ≠ 0) :
    exec (.rcRead ag off 4) s = .next (s.afterDev (fun d =>
      let d := (s.ctx.readDev ag off d).sg off (d.rg off &&& ~~~ BitVec.ofNat 32 r.rc)
      { d with rbytes := leBytes 4 d.rdata.toNat })) := by
  have hclr := clearing_of_rc hf hrc hlt
  unfold Clearing at hclr
  refine (need_coreRun hup ⟨hag, hoff⟩).trans (congrArg _ (State.afterRun_eq_afterDev _ _ _ ?_))
  rw [W.winReady_of_lt _ _ hlt, W.bar0Read_word _ _ hlt hal,
    W.busRead_plain _ _ (by omega) (by omega) (by omega) (by omega) (by omega)]
  refine congrArg (fun d => { s.ctx with d := d }) ?_
  dsimp only [W.dev]
  rw [Dev.readClear_of_rc hf hrc]
  rfl

/-- Settles O13: any read is one run of the gate; of the registers that clear, none is one whose read has an effect of its own. -/
theorem readClears : Obligations.ReadClears := by
  intro s ag off hup hag hoff
  refine ⟨fun n => ⟨_, need_coreRun hup ⟨hag, hoff⟩, rfl⟩, fun r hf hrc hal hlt => ?_⟩
  refine ⟨_, State.exec_rcRead_of_rc hup hag hoff hlt hal hf hrc, rfl, rfl, rfl, Dev.rg_sg_self .., fun a ha => ?_⟩
  exact Dev.rg_sg_of_ne _ _ _ _ ha.symm

/-! ### LO halves and their companions (R59) -/

/-- Offsets of the LO halves that have companions. -/
def LoHalf (a : Nat) : Prop :=
  a = 0x10C010 ∨ a = 0x10C018 ∨ a = 0x200018 ∨ a = 0xC8001C ∨ a = 0x1100020 ∨ a = 0x11000E4 ∨ a = 0x1600028 ∨ a = 0x30 ∨ a = 0x1700034 ∨
    a = 0x170003C ∨ (0x1420140 ≤ a ∧ a < 0x1420340 ∧ a % 0x80 = 0x40) ∨ (0x100030 ≤ a ∧ a < 0x10C030 ∧ a % 0x400 = 0x30)

theorem indexOf_isSome {base stride n a : Nat} (h : (indexOf base stride n a).isSome = true) :
    base ≤ a ∧ (a - base) % stride = 0 ∧ (a - base) / stride < n := by
  unfold indexOf at h
  split at h
  case isTrue h' => exact h'
  case isFalse => simp at h

theorem loHalf_of_shadowOf {a : Nat} (h : shadowOf a ≠ []) : LoHalf a := by
  unfold shadowOf at h
  unfold LoHalf
  split at h
  case isTrue hs =>
    simp only [Reg.TG_TICK_NUM_LO, Reg.TG_TICK_TS_LO, Reg.OBJ_EPOCH_LO, Reg.HOP_TICK_RT_LO, Reg.RING_RT_LO, Reg.RING_MBX_RX_TS_LO,
      Reg.MEM_LP_ERR_ADDR_LO, Reg.SYS_STR_ID_LO, Reg.UPD_VER_ID_LO, Reg.UPD_RUN_ID_LO] at hs
    by_cases hb : (indexOf (Reg.BLT_WM_TS_LO 0) 0x80 4 a).isSome = true
    case pos =>
      have hblt := indexOf_isSome hb
      unfold Reg.BLT_WM_TS_LO at hblt
      omega
    case neg =>
      simp only [hb, Bool.false_eq_true, or_false] at hs
      omega
  case isFalse =>
    split at h
    case h_1 n hn =>
      have hflip := indexOf_isSome (hn ▸ rfl : (indexOf (Reg.TG_FLIP_TS_LO 0) 0x400 48 a).isSome = true)
      unfold Reg.TG_FLIP_TS_LO at hflip
      omega
    case h_2 => exact absurd rfl h

theorem isShadow_eq_false {a : Nat} (h4 : ¬ LoHalf (a - 4)) (h8 : ¬ LoHalf (a - 8)) : isShadow a = false := by
  have hnil : ∀ b, ¬ LoHalf b → shadowOf b = [] := fun b hb => Classical.byContradiction fun hne => hb (loHalf_of_shadowOf hne)
  simp [isShadow, hnil _ h4, hnil _ h8]

theorem Tab.at_foldl_put {f : Nat → Word} {b : Nat} (l : List Nat) (t : Tab (Option Word)) (h : b ∈ l ∨ Tab.at none t b = some (f b)) :
    Tab.at none ((l.map (fun b => (b, f b))).foldl (fun t (p : Nat × Word) => Tab.put none t p.1 (some p.2)) t) b = some (f b) := by
  induction l generalizing t with
  | nil => exact h.resolve_left (List.not_mem_nil)
  | cons x xs ih =>
    refine ih _ ?_
    by_cases hx : x = b
    case pos => exact .inr (by rw [Tab.get_put, if_pos hx, hx])
    case neg => exact h.imp (fun hm => (List.mem_cons.mp hm).resolve_left (Ne.symm hx)) (fun ht => by rw [Tab.get_put, if_neg hx, ht])

theorem State.exec_shadowLoRead {s : State} {ag : Agent} {off : Nat} (hup : s.d.coreUp = true) (hag : ag.ok = true) (hoff : off < barBytes)
    (hsh : shadowOf off ≠ []) : exec (.shadowLoRead ag off) s = .next (s.afterDev (s.ctx.readDev ag off)) := by
  have hlo := loHalf_of_shadowOf hsh
  have hrc : ∀ r, RegTable.find off = some r → r.rc = 0 := fun r hf => Classical.byContradiction fun hne => by
    have hclr := clearing_of_rc hf hne
    unfold LoHalf at hlo
    unfold Clearing at hclr
    omega
  unfold LoHalf at hlo
  refine (need_coreRun hup ⟨hag, hoff, hsh⟩).trans (congrArg _ (State.afterRun_eq_afterDev _ _ _ ?_))
  rw [W.busRead_plain _ _ (by omega) (by omega) (by omega) (by omega) (by omega)]
  exact congrArg (fun d => { s.ctx with d := d }) (Dev.readClear_of_rc_zero hrc)

section
variable {w : W} {ag : Agent} {d : Dev} {n : Nat}

theorem Dev.contentValue_tg {a : Nat} (hn : n < 48) (hlo : 0x100000 + n * 0x400 ≤ a) (hhi : a < 0x100400 + n * 0x400) :
    d.contentValue a = d.tgValue n a := by
  have hdiv : (a - 0x100000) / 0x400 = n := by omega
  rw [Dev.contentValue, if_pos (by omega), hdiv]

theorem W.regValue_TG_FLIP_TS_LO (hn : n < 48) : w.regValue ag (Reg.TG_FLIP_TS_LO n) = BitVec.ofNat 32 (w.d.tgAt n).flipTs := by
  have hsh : isShadow (Reg.TG_FLIP_TS_LO n) = false :=
    isShadow_eq_false (by unfold LoHalf Reg.TG_FLIP_TS_LO; omega) (by unfold LoHalf Reg.TG_FLIP_TS_LO; omega)
  unfold W.regValue
  rw [hsh, if_neg (by decide), if_neg (by unfold Reg.TG_FLIP_TS_LO; omega), if_pos (by unfold Reg.TG_FLIP_TS_LO; omega),
    Dev.contentValue_tg hn (by unfold Reg.TG_FLIP_TS_LO; omega) (by unfold Reg.TG_FLIP_TS_LO; omega)]
  exact if_pos rfl

theorem Dev.companionValue_TG_FLIP_TS_HI (hn : n < 48) :
    d.companionValue (Reg.TG_FLIP_TS_HI n) = BitVec.ofNat 32 ((d.tgAt n).flipTs / 2 ^ 32) := by
  rw [Dev.companionValue, if_neg (by unfold Reg.TG_FLIP_TS_HI; omega), if_pos (by unfold Reg.TG_FLIP_TS_HI; omega),
    Dev.contentValue_tg hn (by unfold Reg.TG_FLIP_TS_HI; omega) (by unfold Reg.TG_FLIP_TS_HI; omega), Dev.tgValue,
    if_neg (by unfold Reg.TG_FLIP_TS_HI Reg.TG_FLIP_TS_LO; omega), if_pos rfl]
  rfl

theorem Dev.companionValue_TG_FLIP_EPOCH (hn : n < 48) :
    d.companionValue (Reg.TG_FLIP_EPOCH n) = BitVec.ofNat 32 (d.tgAt n).flipEpoch := by
  rw [Dev.companionValue, if_neg (by unfold Reg.TG_FLIP_EPOCH; omega), if_pos (by unfold Reg.TG_FLIP_EPOCH; omega),
    Dev.contentValue_tg hn (by unfold Reg.TG_FLIP_EPOCH; omega) (by unfold Reg.TG_FLIP_EPOCH; omega), Dev.tgValue,
    if_neg (by unfold Reg.TG_FLIP_EPOCH Reg.TG_FLIP_TS_LO; omega), if_neg (by unfold Reg.TG_FLIP_EPOCH Reg.TG_FLIP_TS_HI; omega),
    if_pos rfl]

theorem shadowOf_TG_FLIP_TS_LO (hn : n < 48) : shadowOf (Reg.TG_FLIP_TS_LO n) = [Reg.TG_FLIP_TS_HI n, Reg.TG_FLIP_EPOCH n] := by
  have hblt : indexOf (Reg.BLT_WM_TS_LO 0) 0x80 4 (Reg.TG_FLIP_TS_LO n) = none :=
    indexOf_eq_none_of_outside (by decide) (by unfold Reg.BLT_WM_TS_LO Reg.TG_FLIP_TS_LO; omega)
  have hflip : indexOf (Reg.TG_FLIP_TS_LO 0) 0x400 48 (Reg.TG_FLIP_TS_LO n) = some n := indexOf_add_mul (by decide) hn
  rw [shadowOf, if_neg, hflip]
  rw [hblt]
  unfold Reg.TG_FLIP_TS_LO Reg.TG_TICK_NUM_LO Reg.TG_TICK_TS_LO Reg.OBJ_EPOCH_LO Reg.HOP_TICK_RT_LO Reg.RING_RT_LO Reg.RING_MBX_RX_TS_LO
    Reg.MEM_LP_ERR_ADDR_LO Reg.SYS_STR_ID_LO Reg.UPD_VER_ID_LO Reg.UPD_RUN_ID_LO
  simp only [Option.isSome_none, Bool.false_eq_true, or_false]
  omega

theorem W.regValue_TG_TICK_NUM_LO : w.regValue ag Reg.TG_TICK_NUM_LO = BitVec.ofNat 32 w.d.tick.num := by
  have hsh : isShadow Reg.TG_TICK_NUM_LO = false := isShadow_eq_false (by unfold LoHalf; decide) (by unfold LoHalf; decide)
  unfold W.regValue
  rw [hsh, if_neg (by decide), if_neg (by decide), if_pos (by decide), Dev.contentValue, if_neg (by decide), if_pos rfl]
  rfl

theorem Dev.companionValue_TG_TICK_NUM_HI : d.companionValue Reg.TG_TICK_NUM_HI = BitVec.ofNat 32 (d.tick.num / 2 ^ 32) := by
  rw [Dev.companionValue, if_neg (by decide), if_pos (by decide), Dev.contentValue, if_neg (by decide), if_neg (by decide), if_pos rfl]
  rfl

end

/-- Settles O14: no LO half clears on reading, so the read is its value and the copies of its companions. -/
theorem loReadCopiesCompanions : Obligations.LoReadCopiesCompanions := by
  intro s ag hup hag
  have hcopy : ∀ off, ∀ b ∈ shadowOf off, Tab.at none (s.ctx.readDev ag off s.d).shadow b = some (s.d.companionValue b) :=
    fun off b hb => Tab.at_foldl_put _ _ (.inl hb)
  refine ⟨fun off hoff hsh => ⟨_, State.exec_shadowLoRead hup hag hoff hsh, rfl, hcopy off, fun _ => rfl, rfl, rfl⟩, fun n hn => ?_, ?_⟩
  · have hsh := shadowOf_TG_FLIP_TS_LO hn
    have hcp := hcopy (Reg.TG_FLIP_TS_LO n)
    rw [hsh] at hcp
    exact ⟨_, State.exec_shadowLoRead hup hag (by unfold barBytes Reg.TG_FLIP_TS_LO; omega) (by rw [hsh]; exact List.cons_ne_nil _ _),
      W.regValue_TG_FLIP_TS_LO hn, (hcp _ (by simp)).trans (congrArg _ (Dev.companionValue_TG_FLIP_TS_HI hn)),
      (hcp _ (by simp)).trans (congrArg _ (Dev.companionValue_TG_FLIP_EPOCH hn)), fun _ => rfl, rfl⟩
  · exact ⟨_, State.exec_shadowLoRead hup hag (by decide) (by decide), W.regValue_TG_TICK_NUM_LO (ag := ag),
      (hcopy _ _ (by decide)).trans (congrArg _ Dev.companionValue_TG_TICK_NUM_HI), fun _ => rfl, rfl⟩

end Sys2Proof.Machine
end

section
/-!
PROOFS. The commands whose operation is one register access: register commands, boot commands, mailboxes, snapshots and pads (O1, O10, O15, O33,
O39, O43, O53).
-/

namespace Sys2Proof.Machine

/-- Settles O1: the record at the front is what the step matches on. -/
theorem stepRunsFrontCommand : Obligations.StepRunsFrontCommand := fun _ _ _ => rfl

/-! ### The system block's writes (Table 17-8) -/

section
variable (w : W) (ag : Agent) (v : Word)

theorem W.busWrite_SYS_RST_CMD : w.busWrite ag Reg.SYS_RST_CMD v 0xFFFFFFFF = softResetWrite ag v w := by
  rw [W.busWrite_sys _ _ _ _ (by decide), W.sysWrite, if_neg (by decide), if_pos rfl, and_ones]

theorem W.busWrite_SYS_CORE_START : w.busWrite ag Reg.SYS_CORE_START v 0xFFFFFFFF = w.dev (sysCoreStart ag v) := by
  rw [W.busWrite_sys _ _ _ _ (by decide), W.sysWrite, if_neg (by decide), if_neg (by decide), if_neg (by decide), if_pos rfl, and_ones]

theorem W.busWrite_SYS_BOOT_CMD : w.busWrite ag Reg.SYS_BOOT_CMD v 0xFFFFFFFF = hostSet v w := by
  rw [W.busWrite_sys _ _ _ _ (by decide), W.sysWrite, if_neg (by decide), if_neg (by decide), if_neg (by decide), if_neg (by decide),
    if_pos rfl, and_ones]

theorem W.sysWrite_mailbox {a : Nat} (mask : Word) (hlo : 0x100 ≤ a) (hhi : a < 0x200) : w.sysWrite ag a v mask =
    if a % 0x40 < 0x10 then w.dev (mbxTcWrite ag ((a - 0x100) / 0x40) (a % 0x40 / 4) v mask)
    else if a % 0x40 < 0x20 then w.dev (mbxThWrite ag ((a - 0x100) / 0x40) ((a % 0x40 - 0x10) / 4) v mask)
    else w := by
  rw [W.sysWrite, if_neg (by unfold Reg.SYS_CTRL; omega), if_neg (by unfold Reg.SYS_RST_CMD; omega),
    if_neg (by unfold Reg.SYS_CLK_CTRL; omega), if_neg (by unfold Reg.SYS_CORE_START; omega),
    if_neg (by unfold Reg.SYS_BOOT_CMD; omega), if_neg (by unfold Reg.SYS_LOP_CMD; omega), if_pos ⟨hlo, hhi⟩]

theorem W.busWrite_SYS_MBX_TC {c : Nat} (hc : c < 4) :
    w.busWrite ag (Reg.SYS_MBX_TC c 3) v 0xFFFFFFFF = w.dev (mbxTcWrite ag c 3 v 0xFFFFFFFF) := by
  have hdiv : (Reg.SYS_MBX_TC c 3 - 0x100) / 0x40 = c := by unfold Reg.SYS_MBX_TC; omega
  have hmod : Reg.SYS_MBX_TC c 3 % 0x40 = 0xC := by unfold Reg.SYS_MBX_TC; omega
  rw [W.busWrite_sys _ _ _ _ (by unfold Reg.SYS_MBX_TC; omega),
    W.sysWrite_mailbox _ _ _ _ (by unfold Reg.SYS_MBX_TC; omega) (by unfold Reg.SYS_MBX_TC; omega), hdiv, hmod, if_pos (by decide)]

theorem W.busWrite_SYS_MBX_TH {c : Nat} (hc : c < 4) :
    w.busWrite ag (Reg.SYS_MBX_TH c 3) v 0xFFFFFFFF = w.dev (mbxThWrite ag c 3 v 0xFFFFFFFF) := by
  have hdiv : (Reg.SYS_MBX_TH c 3 - 0x100) / 0x40 = c := by unfold Reg.SYS_MBX_TH; omega
  have hmod : Reg.SYS_MBX_TH c 3 % 0x40 = 0x1C := by unfold Reg.SYS_MBX_TH; omega
  rw [W.busWrite_sys _ _ _ _ (by unfold Reg.SYS_MBX_TH; omega),
    W.sysWrite_mailbox _ _ _ _ (by unfold Reg.SYS_MBX_TH; omega) (by unfold Reg.SYS_MBX_TH; omega), hdiv, hmod, if_neg (by decide),
    if_pos (by decide)]

end

/-! ### Boot commands (O10) -/

theorem State.afterRun_of_fixed {s : State} {g : W → W} (h : g s.ctx = s.ctx) : s.afterRun g = s :=
  State.afterRun_eq_afterDev s id _ h

theorem hostSet_of_ignored {v : Word} {w : W} (h : v.getLsbD 0 = false ∨ w.d.bt Reg.SYS_BOOT_STAT 5 = false) : hostSet v w = w := by
  have hgate : (!v.getLsbD 0 || !w.d.bt Reg.SYS_BOOT_STAT 5) = true := by simpa using h
  exact if_pos hgate

theorem vddSramLoss_of_none_retained {w : W} (h : ∀ b, b < 96 → w.d.bankState b = 0) : vddSramLoss w = w := by
  have hnone : (List.range 96).filter (fun b => w.d.bankState b != 0) = [] :=
    List.filter_eq_nil_iff.mpr fun b hb => by simp [h b (List.mem_range.mp hb)]
  rw [vddSramLoss, hnone]
  rfl

/-- Settles O10: the five commands are register writes of the system block or run as they stand. -/
theorem bootCommands : Obligations.BootCommands := by
  intro s ag v hup hag
  have hset : exec (.hostSet ag v) s = .next (s.afterRun (hostSet v)) :=
    need_busSet_run hup hag (fun w => W.busWrite_SYS_BOOT_CMD w _ v)
  have hsoft : exec (.softReset ag v) s = .next (s.afterRun (softResetWrite ag v)) :=
    need_busSet_run hup hag (fun w => W.busWrite_SYS_RST_CMD w _ v)
  refine ⟨?_, coreDev_up hup, hset, fun h => ?_, need_busSet hup hag (W.busWrite_SYS_CORE_START ..), rfl, fun h => ?_⟩
  · rw [hsoft]
    split
    case isTrue h => exact State.next_afterRun_congr (if_pos h)
    case isFalse h => exact congrArg _ (State.afterRun_eq_afterDev _ _ _ (if_neg h))
  · rw [hset, State.afterRun_of_fixed (hostSet_of_ignored h)]
  · exact congrArg _ (State.afterRun_of_fixed (vddSramLoss_of_none_retained h))

/-! ### Register commands (O15) -/

theorem W.busSet_ctrl {s : State} {ag : Agent} {b : Block} {l : Bool} {p : Nat} (hup : s.d.coreUp = true) (hag : ag.ok = true)
    (hb : b.ok = true) : need (ag.ok = true ∧ b.ok = true) (s.busSet ag b.ctrl (fun d => d.ctrlWord b l p)) =
      .next (s.afterRun (fun w => w.busWrite ag b.ctrl (w.d.ctrlWord b l p) 0xFFFFFFFF)) :=
  need_busSet_run hup ⟨hag, hb⟩ (fun _ => rfl)

theorem Dev.sizeErr_eq (d : Dev) : d.sizeErr = (d.sb Reg.MEM_STAT 1).raiseIf (d.bt Reg.MEM_INT_EN 6) 370 := by
  rw [Dev.sizeErr, Dev.memRaise, Dev.bt_sb_of_ne _ _ _ (by decide)]

theorem State.exec_registerWrite {s : State} {ag : Agent} {off : Nat} {data : List Byte} (hup : s.d.coreUp = true) (hag : ag.ok = true)
    (hoff : off < barBytes) : exec (.registerWrite ag off data) s =
      .next (s.afterRun (fun w => (w.winReady ag off data.length).bar0Write ag off data)) :=
  need_coreRun hup ⟨hag, hoff⟩

theorem W.bar0Write_low {ag : Agent} {off : Nat} (w : W) (data : List Byte) (h : off < 0x2000000) :
    (w.winReady ag off data.length).bar0Write ag off data =
      if off % 4 = 0 ∧ data.length = 4 then w.busWrite ag off (BitVec.ofNat 32 (leNat data)) 0xFFFFFFFF
      else if (List.range data.length).all (fun i => byteStore (off + i)) = true then w.storeWrite ag off data
      else w.dev Dev.sizeErr := by
  rw [W.winReady_of_lt _ _ h]
  exact if_pos h

theorem W.bar0Write_window {off : Nat} (w : W) (ag : Agent) (data : List Byte) (h : ¬ off < 0x2000000) :
    (w.winReady ag off data.length).bar0Write ag off data =
      if ag = .host then winWrite (off - 0x2000000) data (w.winReady ag off data.length) else w := by
  by_cases hh : ag = .host
  case pos => rw [if_pos hh]; exact (if_neg h).trans (if_pos hh)
  case neg =>
    have hready : w.winReady ag off data.length = w := if_neg fun h' => hh h'.1
    rw [if_neg hh, hready]
    exact (if_neg h).trans (if_neg hh)

/-- Settles O15: each command is the gate over the one access; the access itself is told apart by its place and its size. -/
theorem registerCommandsAreAccesses : Obligations.RegisterCommandsAreAccesses := by
  intro s ag b off n p v data hup hag
  refine ⟨fun hoff => ?_, fun hoff => need_coreRun hup ⟨hag, hoff⟩, fun hoff hsh => need_coreRun hup ⟨hag, hoff, hsh⟩,
    fun hex => need_busSet_run hup ⟨hag, hex⟩ (fun _ => rfl),
    fun hb => ⟨W.busSet_ctrl hup hag hb, W.busSet_ctrl hup hag hb, W.busSet_ctrl hup hag hb, W.busSet_ctrl hup hag hb⟩⟩
  rw [State.exec_registerWrite hup hag hoff]
  split
  case isTrue hlt =>
    have hacc := W.bar0Write_low (ag := ag) s.ctx data hlt
    split
    case isTrue hw => exact State.next_afterRun_congr (hacc.trans (if_pos hw))
    case isFalse hw =>
      rw [if_neg hw] at hacc
      split
      case isTrue hs =>
        have hall : (List.range data.length).all (fun i => byteStore (off + i)) = true :=
          List.all_eq_true.mpr fun i hi => hs i (List.mem_range.mp hi)
        exact State.next_afterRun_congr (hacc.trans (if_pos hall))
      case isFalse hs =>
        have hall : ¬ (List.range data.length).all (fun i => byteStore (off + i)) = true :=
          fun hall => hs fun i hi => List.all_eq_true.mp hall i (List.mem_range.mpr hi)
        refine congrArg _ ((State.afterRun_eq_afterDev _ Dev.sizeErr _ (hacc.trans (if_neg hall))).trans ?_)
        exact State.afterDev_congr (Dev.sizeErr_eq s.d)
  case isFalse hge =>
    have hacc := W.bar0Write_window s.ctx ag data hge
    split
    case isTrue hh => exact State.next_afterRun_congr (hacc.trans (if_pos hh))
    case isFalse hh => exact congrArg _ (State.afterRun_of_fixed (hacc.trans (if_neg hh)))

end Sys2Proof.Machine
end

section
/-!
PROOFS. Writes by access code, mailboxes, snapshots and pads (O12, O33, O39, O43, O53).
-/

namespace Sys2Proof.Machine

/-! ### Writes by access code (R8, R9) -/

/-- What a whole word written leaves of a register's word by the access codes of its row. -/
def RegDesc.written (r : RegDesc) (old v : Word) : Word :=
  (((old &&& ~~~ BitVec.ofNat 32 r.rw) ||| (v &&& BitVec.ofNat 32 r.rw)) &&& ~~~ (v &&& BitVec.ofNat 32 r.w1c)) |||
    (v &&& BitVec.ofNat 32 r.w1s)

theorem ones_and (v : Word) : 0xFFFFFFFF &&& v = v := BitVec.allOnes_and

section
variable {d : Dev} {a : Nat} {r : RegDesc} (v : Word)

theorem Dev.plainWrite_of_none (hf : RegTable.find a = none) (mask : Word) : d.plainWrite a v mask = d := by
  rw [Dev.plainWrite, hf]

theorem Dev.plainWrite_of_some (hf : RegTable.find a = some r) (he : r.expert = false) :
    d.plainWrite a v 0xFFFFFFFF = d.sg a (r.written (d.rg a) v) := by
  have hb : r.block a = none := by simp [RegDesc.block, he]
  rw [Dev.plainWrite, hf]
  simp only [hb, ones_and]
  rfl

/-- A register whose every bit takes the data. -/
theorem Dev.plainWrite_of_rw (hf : RegTable.find a = some r) (he : r.expert = false) (hrw : r.rw = 0xFFFFFFFF) (hc : r.w1c = 0)
    (hs : r.w1s = 0) : d.plainWrite a v 0xFFFFFFFF = d.sg a v := by
  have hw : r.written (d.rg a) v = v := by
    have hones : v &&& BitVec.ofNat 32 0xFFFFFFFF = v := and_ones v
    have hnone : ~~~ BitVec.ofNat 32 0xFFFFFFFF = 0#32 := by decide
    rw [RegDesc.written, hrw, hc, hs, hones, hnone]
    simp [hones]
  rw [Dev.plainWrite_of_some v hf he, hw]

end

/-- Settles O12: the hopper's registers beyond HOP_CTRL and HOP_TRK_DONE have no rule but their access codes. -/
theorem registerWriteByAccessCode : Obligations.RegisterWriteByAccessCode := by
  intro s ag off data r hup hag hlo hhi hal hlen hctrl htrk hf hexp
  have hoff : off < barBytes := by unfold barBytes; omega
  have hrun : exec (.registerWrite ag off data) s =
      .next (s.afterDev (fun d => d.plainWrite off (BitVec.ofNat 32 (leNat data)) 0xFFFFFFFF)) := by
    refine (State.exec_registerWrite hup hag hoff).trans (congrArg _ (State.afterRun_eq_afterDev _ _ _ ?_))
    rw [W.bar0Write_low _ _ (by omega), if_pos ⟨hal, hlen⟩, W.busWrite_hop _ _ _ _ hlo hhi]
    refine congrArg s.ctx.dev (funext fun d => ?_)
    rw [Dev.hopWrite, if_neg hctrl, htrk]
  refine ⟨_, hrun, rfl, ?_⟩
  cases r with
  | none => exact ⟨fun a _ => congrArg (Dev.rg · a) (Dev.plainWrite_of_none _ hf _), congrArg (Dev.rg · off) (Dev.plainWrite_of_none _ hf _)⟩
  | some x =>
    have hw := Dev.plainWrite_of_some (d := s.d) (BitVec.ofNat 32 (leNat data)) hf (hexp x rfl)
    exact ⟨fun a ha => (congrArg (Dev.rg · a) hw).trans (Dev.rg_sg_of_ne _ _ _ _ ha.symm),
      (congrArg (Dev.rg · off) hw).trans (Dev.rg_sg_self ..)⟩

/-! ### Mailboxes (R508) -/

/-- Row of the mailbox words. -/
theorem find_SYS_MBX : ∀ c < 4,
    (∃ r, RegTable.find (Reg.SYS_MBX_TC c 3) = some r ∧ r.expert = false ∧ r.rw = 0xFFFFFFFF ∧ r.w1c = 0 ∧ r.w1s = 0) ∧
    ∃ r, RegTable.find (Reg.SYS_MBX_TH c 3) = some r ∧ r.expert = false ∧ r.rw = 0xFFFFFFFF ∧ r.w1c = 0 ∧ r.w1s = 0 := by
  intro c hc
  obtain rfl | rfl | rfl | rfl : c = 0 ∨ c = 1 ∨ c = 2 ∨ c = 3 := by omega
  all_goals exact ⟨⟨_, rfl, by decide⟩, ⟨_, rfl, by decide⟩⟩

theorem mbxTcWrite_eq {ag : Agent} {c : Nat} (hc : c < 4) (v : Word) (d : Dev) : mbxTcWrite ag c 3 v 0xFFFFFFFF d =
    if (ag = .host ∨ ag = .dbg) ∧ d.bt (Reg.SYS_MBX_STAT c) 0 = false then
      ((d.sg (Reg.SYS_MBX_TC c 3) v).sb (Reg.SYS_MBX_STAT c) 0).raise 382
    else d.sb Reg.SYS_STAT 4 := by
  obtain ⟨r, hf, he, hrw, hw1c, hw1s⟩ := (find_SYS_MBX c hc).1
  have hgate : (!(ag == .host || ag == .dbg) || d.bt (Reg.SYS_MBX_STAT c) 0) = true ↔
      ¬((ag = .host ∨ ag = .dbg) ∧ d.bt (Reg.SYS_MBX_STAT c) 0 = false) := by
    simp only [Bool.or_eq_true, Bool.not_eq_true', Bool.or_eq_false_iff, beq_eq_false_iff_ne, ne_eq]
    cases d.bt (Reg.SYS_MBX_STAT c) 0 <;> simp
  unfold mbxTcWrite
  by_cases h : (ag = .host ∨ ag = .dbg) ∧ d.bt (Reg.SYS_MBX_STAT c) 0 = false
  case pos => rw [if_pos h, if_neg (fun hg => hgate.mp hg h), if_pos rfl, Dev.plainWrite_of_rw v hf he hrw hw1c hw1s]
  case neg => rw [if_neg h, if_pos (hgate.mpr h)]; rfl

theorem mbxThWrite_eq {ag : Agent} {c : Nat} (hc : c < 4) (v : Word) (d : Dev) : mbxThWrite ag c 3 v 0xFFFFFFFF d =
    if (ag = .core c ∨ ag = .dbg) ∧ d.bt (Reg.SYS_MBX_STAT c) 1 = false then
      ((d.sg (Reg.SYS_MBX_TH c 3) v).sb (Reg.SYS_MBX_STAT c) 1).raise 383
    else d.sb Reg.SYS_STAT 4 := by
  obtain ⟨r, hf, he, hrw, hw1c, hw1s⟩ := (find_SYS_MBX c hc).2
  have howner : ownerIs ag (c + 1) = true ↔ ag = .core c ∨ ag = .dbg := by
    cases ag
    case core c' => simpa [ownerIs] using eq_comm
    all_goals simp [ownerIs]
  have hgate : (!ownerIs ag (c + 1) || d.bt (Reg.SYS_MBX_STAT c) 1) = true ↔
      ¬((ag = .core c ∨ ag = .dbg) ∧ d.bt (Reg.SYS_MBX_STAT c) 1 = false) := by
    rw [← howner]
    cases ownerIs ag (c + 1) <;> cases d.bt (Reg.SYS_MBX_STAT c) 1 <;> simp
  unfold mbxThWrite
  by_cases h : (ag = .core c ∨ ag = .dbg) ∧ d.bt (Reg.SYS_MBX_STAT c) 1 = false
  case pos => rw [if_pos h, if_neg (fun hg => hgate.mp hg h), if_pos rfl, Dev.plainWrite_of_rw v hf he hrw hw1c hw1s]
  case neg => rw [if_neg h, if_pos (hgate.mpr h)]; rfl

theorem mbxTcRead_rg {ag : Agent} {c : Nat} (d : Dev) (a : Nat) : (mbxTcRead ag c d).rg a =
    if ag = .core c ∧ Reg.SYS_MBX_STAT c = a then d.rg (Reg.SYS_MBX_STAT c) &&& ~~~1 else d.rg a := by
  unfold mbxTcRead
  by_cases h : ag = .core c
  case pos => rw [if_pos h, Dev.rg_cb]; simp only [h, true_and]; rfl
  case neg => rw [if_neg h, if_neg (fun h' => h h'.1)]; rfl

theorem mbxThRead_rg {ag : Agent} {c : Nat} (d : Dev) (a : Nat) : (mbxThRead ag c d).rg a =
    if (ag = .host ∨ ag = .dbg) ∧ Reg.SYS_MBX_STAT c = a then d.rg (Reg.SYS_MBX_STAT c) &&& ~~~2 else d.rg a := by
  unfold mbxThRead
  by_cases h : ag = .host ∨ ag = .dbg
  case pos => rw [if_pos h, Dev.rg_cb]; simp only [h, true_and]; rfl
  case neg => rw [if_neg h, if_neg (fun h' => h h'.1)]; rfl

theorem mbxTcRead_rdata {ag : Agent} {c : Nat} (d : Dev) : (mbxTcRead ag c d).rdata = d.rg (Reg.SYS_MBX_TC c 3) := by
  unfold mbxTcRead
  split <;> rfl

theorem mbxThRead_rdata {ag : Agent} {c : Nat} (d : Dev) : (mbxThRead ag c d).rdata = d.rg (Reg.SYS_MBX_TH c 3) := by
  unfold mbxThRead
  split <;> rfl

/-- Settles O33: a write is refused for its writer or for a full box before anything is stored; a read changes the status word alone. -/
theorem mailboxes : Obligations.Mailboxes := by
  intro s ag c v hup hag hc
  refine ⟨(need_busSet hup ⟨hag, hc⟩ (W.busWrite_SYS_MBX_TC _ _ _ hc)).trans (State.next_afterDev_congr (mbxTcWrite_eq hc v s.d)),
    (need_busSet hup ⟨hag, hc⟩ (W.busWrite_SYS_MBX_TH _ _ _ hc)).trans (State.next_afterDev_congr (mbxThWrite_eq hc v s.d)),
    ⟨_, need_busGet hup ⟨hag, hc⟩ (W.busRead_SYS_MBX_TC _ _ hc), mbxTcRead_rdata s.d, ⟨rfl, rfl, fun a ha => ?_⟩, ?_⟩,
    ⟨_, need_busGet hup ⟨hag, hc⟩ (W.busRead_SYS_MBX_TH _ _ hc), mbxThRead_rdata s.d, ⟨rfl, rfl, fun a ha => ?_⟩, ?_⟩⟩
  · exact (mbxTcRead_rg s.d a).trans (if_neg fun h => List.ne_of_not_mem_cons ha h.2.symm)
  · exact (mbxTcRead_rg s.d _).trans (ite_congr (propext (and_iff_left rfl)) (fun _ => rfl) fun _ => rfl)
  · exact (mbxThRead_rg s.d a).trans (if_neg fun h => List.ne_of_not_mem_cons ha h.2.symm)
  · exact (mbxThRead_rg s.d _).trans (ite_congr (propext (and_iff_left rfl)) (fun _ => rfl) fun _ => rfl)

end Sys2Proof.Machine
end

section
/-!
PROOFS. Snapshots, pads and the ring mailbox (O39, O43, O53), over the bits of a register after a write.
-/

namespace Sys2Proof.Machine

/-! ### Fields and bits of a word -/

theorem setBits_eq (v lo n x : Nat) :
    setBits v lo n x = 2 ^ lo * (2 ^ n * (v / 2 ^ lo / 2 ^ n) + x % 2 ^ n) + v % 2 ^ lo := by
  have hv := Nat.div_add_mod v (2 ^ lo)
  have hq := Nat.div_add_mod (v / 2 ^ lo) (2 ^ n)
  have hmul := congrArg (2 ^ lo * ·) hq
  simp only [Nat.mul_add] at hmul
  rw [setBits, bits, Nat.mul_add, Nat.mul_comm _ (2 ^ lo), Nat.mul_comm _ (2 ^ lo)]
  omega

theorem testBit_setBits (v lo n x i : Nat) : (setBits v lo n x).testBit i =
    if i < lo then v.testBit i else if i < lo + n then x.testBit (i - lo) else v.testBit i := by
  rw [setBits_eq, Nat.testBit_two_pow_mul_add _ (Nat.mod_lt _ (Nat.two_pow_pos lo))]
  split
  case isTrue h => simp [Nat.testBit_mod_two_pow, h]
  case isFalse h =>
    rw [Nat.testBit_two_pow_mul_add _ (Nat.mod_lt _ (Nat.two_pow_pos n))]
    split
    case isTrue h' => rw [if_pos (by omega)]; simp [Nat.testBit_mod_two_pow, h']
    case isFalse h' =>
      rw [if_neg (by omega), Nat.testBit_div_two_pow, Nat.testBit_div_two_pow]
      congr 1
      omega

theorem getLsbD_fieldWord (v : Word) (lo n x i : Nat) (hi : i < 32) : (fieldWord v lo n x).getLsbD i =
    if i < lo then v.getLsbD i else if i < lo + n then x.testBit (i - lo) else v.getLsbD i := by
  rw [fieldWord, BitVec.getLsbD_ofNat, testBit_setBits]
  simp [hi, BitVec.testBit_toNat]

/-! ### Bits of a register -/

section
variable (d : Dev) {a b i j : Nat} (x : Bool)

theorem Dev.rg_pb_of_ne (h : a ≠ b) : (d.pb a i x).rg b = d.rg b := by rw [Dev.pb_eq_sg, Dev.rg_sg_of_ne _ _ _ _ h]

theorem getLsbD_setBit (v : Word) (hi : i < 32) : (v ||| 1#32 <<< i).getLsbD j = (v.getLsbD j || decide (i = j)) := by
  rcases Nat.lt_trichotomy i j with h | rfl | h
  · have hne : i ≠ j := by omega
    have hsub : j - i ≠ 0 := by omega
    simp [hne, hsub, BitVec.getLsbD_one]
  · simp [hi]
  · have hne : i ≠ j := by omega
    simp [hne, h]

theorem getLsbD_clearBit (v : Word) : (v &&& ~~~(1#32 <<< i)).getLsbD j = (v.getLsbD j && decide (i ≠ j)) := by
  by_cases hj : j < 32
  case neg => simp [BitVec.getLsbD_of_ge _ _ (Nat.le_of_not_lt hj)]
  case pos =>
    rcases Nat.lt_trichotomy i j with h | rfl | h
    · have hne : i ≠ j := by omega
      have hsub : j - i ≠ 0 := by omega
      simp [hne, hsub, hj]
    · simp
    · have hne : i ≠ j := by omega
      simp [hne, h, hj]

theorem Dev.bt_pb_self (hi : i < 32) : (d.pb a i x).bt a i = x := by
  rw [Dev.bt, Dev.pb_eq_sg, Dev.rg_sg_self]
  cases x
  case false => simp
  case true => simpa using getLsbD_setBit (j := i) (d.rg a) hi

theorem Dev.bt_pb_of_ne_bit (hi : i < 32) (h : i ≠ j) : (d.pb a i x).bt a j = d.bt a j := by
  rw [Dev.bt, Dev.pb_eq_sg, Dev.rg_sg_self, Dev.bt]
  cases x
  case false => simpa [h] using getLsbD_clearBit (i := i) (j := j) (d.rg a)
  case true => simpa [h] using getLsbD_setBit (j := j) (d.rg a) hi

/-! ### A run of register writes -/

theorem Dev.rg_foldl_sg_of_not_mem {A : Nat → Nat} {f : Nat → Word} (l : List Nat) (h : ∀ k ∈ l, A k ≠ b) :
    (l.foldl (fun d k => d.sg (A k) (f k)) d).rg b = d.rg b := by
  induction l generalizing d with
  | nil => rfl
  | cons k l ih =>
    refine (ih _ fun k hk => h k (List.mem_cons_of_mem _ hk)).trans ?_
    exact Dev.rg_sg_of_ne _ _ _ _ (h k List.mem_cons_self)

theorem Dev.rg_foldl_sg {A : Nat → Nat} {f : Nat → Word} (l : List Nat) (hA : ∀ k m, A k = A m → k = m) (h : i ∈ l) :
    (l.foldl (fun d k => d.sg (A k) (f k)) d).rg (A i) = f i := by
  induction l generalizing d with
  | nil => exact absurd h List.not_mem_nil
  | cons k l ih =>
    by_cases hi : i ∈ l
    case pos => exact ih _ hi
    case neg =>
      obtain rfl : i = k := (List.mem_cons.mp h).resolve_right hi
      have hout : ∀ m ∈ l, A m ≠ A i := fun m hm heq => hi ((hA m i heq).subst hm)
      refine (Dev.rg_foldl_sg_of_not_mem _ l hout).trans ?_
      exact Dev.rg_sg_self ..

end

/-- The device with another register file. -/
def Dev.withRegs (d : Dev) (r : Tab Word) : Dev := { d with regs := r }

/-- Nothing of the device but the register file has moved. -/
def Dev.RegsOnly (d e : Dev) : Prop := e = d.withRegs e.regs

section
variable {d e : Dev} {a i : Nat}

theorem Dev.RegsOnly.refl (d : Dev) : d.RegsOnly d := rfl

theorem Dev.RegsOnly.sg (h : d.RegsOnly e) (v : Word) : d.RegsOnly (e.sg a v) :=
  show e.withRegs (e.sg a v).regs = (d.withRegs e.regs).withRegs (e.sg a v).regs from congrArg (Dev.withRegs · _) h

theorem Dev.RegsOnly.pb (h : d.RegsOnly e) (x : Bool) : d.RegsOnly (e.pb a i x) := by
  rw [Dev.pb_eq_sg]
  exact h.sg _

theorem Dev.RegsOnly.foldl {A : Nat → Nat} {f : Nat → Word} (l : List Nat) (h : d.RegsOnly e) :
    d.RegsOnly (l.foldl (fun d k => d.sg (A k) (f k)) e) := by
  induction l generalizing e with
  | nil => exact h
  | cons k l ih => exact ih (h.sg _)

end

/-! ### Snapshots (R87, R88) -/

theorem W.busWrite_obj (w : W) (ag : Agent) {a : Nat} (v mask : Word) (hlo : 0x200000 ≤ a) (hhi : a < 0x300000) :
    w.busWrite ag a v mask = w.dev (fun d => d.objWrite a v mask) := by
  rw [W.busWrite_low _ _ _ _ (by omega) (by omega) (routeAt_eq_none (by omega))]
  exact congrArg w.dev (funext fun d => Dev.contentWrite_obj _ _ _ hlo hhi)

section
variable (d : Dev) (v : Word)

theorem W.busWrite_OBJ_PEEK_SEL (w : W) (ag : Agent) : w.busWrite ag Reg.OBJ_PEEK_SEL v 0xFFFFFFFF = w.dev (objPeek v) := by
  rw [W.busWrite_obj _ _ _ _ (by decide) (by decide)]
  refine congrArg w.dev (funext fun d => ?_)
  rw [Dev.objWrite, if_neg (by decide), if_pos rfl, mergeWord_ones]

theorem W.busWrite_OBJ_GPEEK_SEL (w : W) (ag : Agent) : w.busWrite ag Reg.OBJ_GPEEK_SEL v 0xFFFFFFFF = w.dev (objGPeek v) := by
  rw [W.busWrite_obj _ _ _ _ (by decide) (by decide)]
  refine congrArg w.dev (funext fun d => ?_)
  rw [Dev.objWrite, if_neg (by decide), if_neg (by decide), if_pos rfl, mergeWord_ones]

/-- The slot that OBJ_PEEK_SEL names is B. -/
def Dev.peekIsB (d : Dev) (v : Word) : Bool := slotIsB (d.objAt (bits v.toNat 0 20)).sel (bits v.toNat 20 2)

/-- The words of the slot that OBJ_PEEK_SEL names. -/
def Dev.peekWord (d : Dev) (v : Word) (i : Nat) : Word :=
  (if d.peekIsB v then (d.objAt (bits v.toNat 0 20)).b else (d.objAt (bits v.toNat 0 20)).a).word i

/-- The group slot that OBJ_GPEEK_SEL names. -/
def Dev.gpeek (d : Dev) (v : Word) : GrpRec :=
  if slotIsB (d.grpAt (bits v.toNat 0 12)).sel (bits v.toNat 12 2) then (d.grpAt (bits v.toNat 0 12)).b
  else (d.grpAt (bits v.toNat 0 12)).a

theorem objPeek_eq : objPeek v d =
    (((List.range 8).foldl (fun e i => e.sg (Reg.OBJ_PEEK_W i) (d.peekWord v i)) (d.sg Reg.OBJ_PEEK_SEL (v &&& 0x3FFFFF))).pb
      Reg.OBJ_PEEK_STAT 0 (d.peekIsB v)).pb Reg.OBJ_PEEK_STAT 1 (d.objAt (bits v.toNat 0 20)).pending := rfl

theorem OBJ_PEEK_W_inj (k m : Nat) (h : Reg.OBJ_PEEK_W k = Reg.OBJ_PEEK_W m) : k = m := by
  unfold Reg.OBJ_PEEK_W at h
  omega

theorem objPeek_rg_of_ne {a : Nat} (hsel : Reg.OBJ_PEEK_SEL ≠ a) (hstat : Reg.OBJ_PEEK_STAT ≠ a) (hw : ∀ i < 8, Reg.OBJ_PEEK_W i ≠ a) :
    (objPeek v d).rg a = d.rg a := by
  rw [objPeek_eq, Dev.rg_pb_of_ne _ _ hstat, Dev.rg_pb_of_ne _ _ hstat,
    Dev.rg_foldl_sg_of_not_mem _ _ fun k hk => hw k (List.mem_range.mp hk), Dev.rg_sg_of_ne _ _ _ _ hsel]

theorem objPeek_word {i : Nat} (hi : i < 8) : (objPeek v d).rg (Reg.OBJ_PEEK_W i) = d.peekWord v i := by
  have hstat : Reg.OBJ_PEEK_STAT ≠ Reg.OBJ_PEEK_W i := by unfold Reg.OBJ_PEEK_STAT Reg.OBJ_PEEK_W; omega
  rw [objPeek_eq, Dev.rg_pb_of_ne _ _ hstat, Dev.rg_pb_of_ne _ _ hstat, Dev.rg_foldl_sg _ _ OBJ_PEEK_W_inj (List.mem_range.mpr hi)]

theorem objPeek_sel : (objPeek v d).rg Reg.OBJ_PEEK_SEL = v &&& 0x3FFFFF := by
  have hout : ∀ k ∈ List.range 8, Reg.OBJ_PEEK_W k ≠ Reg.OBJ_PEEK_SEL := by decide
  rw [objPeek_eq, Dev.rg_pb_of_ne _ _ (by decide), Dev.rg_pb_of_ne _ _ (by decide), Dev.rg_foldl_sg_of_not_mem _ _ hout,
    Dev.rg_sg_self]

theorem objPeek_regsOnly : d.RegsOnly (objPeek v d) := ((((Dev.RegsOnly.refl d).sg _).foldl _).pb _).pb _

theorem objGPeek_rg {a : Nat} : (objGPeek v d).rg a =
    if Reg.OBJ_GPEEK_W 2 = a then (d.gpeek v).w2 else if Reg.OBJ_GPEEK_W 1 = a then (d.gpeek v).w1
    else if Reg.OBJ_GPEEK_W 0 = a then (d.gpeek v).w0 else if Reg.OBJ_GPEEK_SEL = a then v &&& 0x3FFF else d.rg a := by
  rw [objGPeek]
  simp only [Dev.rg_sg]
  rfl

theorem bits_zero (x n : Nat) : bits x 0 n = x % 2 ^ n := by simp [bits]

/-- Settles O43: the words are stored one register each, and nothing is stored besides. -/
theorem objectSnapshots : Obligations.ObjectSnapshots := by
  intro s ag v hup hag
  refine ⟨⟨_, need_busSet hup hag (W.busWrite_OBJ_PEEK_SEL ..), objPeek_regsOnly s.d v, ⟨rfl, rfl, fun a ha => ?_⟩, fun i hi => ?_, ?_, ?_, objPeek_sel s.d v⟩,
    ⟨_, need_busSet hup hag (W.busWrite_OBJ_GPEEK_SEL ..), rfl, ⟨rfl, rfl, fun a ha => ?_⟩, ?_, ?_, ?_, ?_⟩⟩
  · simp only [List.mem_cons, List.mem_map, List.mem_range, not_or, not_exists, not_and] at ha
    obtain ⟨hsel, hstat, hw⟩ := ha
    exact objPeek_rg_of_ne s.d v (Ne.symm hsel) (Ne.symm hstat) hw
  · refine (objPeek_word s.d v hi).trans ?_
    rw [Dev.peekWord, Dev.peekIsB, bits_zero]
    rfl
  · refine (congrArg (Dev.bt · Reg.OBJ_PEEK_STAT 0) (objPeek_eq s.d v)).trans ?_
    rw [Dev.bt_pb_of_ne_bit _ _ (by decide) (by decide), Dev.bt_pb_self _ _ (by decide), Dev.peekIsB, bits_zero]
    rfl
  · refine (congrArg (Dev.bt · Reg.OBJ_PEEK_STAT 1) (objPeek_eq s.d v)).trans ?_
    rw [Dev.bt_pb_self _ _ (by decide), bits_zero]
  · simp only [List.mem_cons, List.not_mem_nil, or_false, not_or] at ha
    obtain ⟨hsel, h0, h1, h2⟩ := ha
    exact (objGPeek_rg s.d v).trans (by rw [if_neg (Ne.symm h2), if_neg (Ne.symm h1), if_neg (Ne.symm h0), if_neg (Ne.symm hsel)])
  · refine (objGPeek_rg s.d v).trans ?_
    rw [if_neg (by decide), if_neg (by decide), if_pos rfl, Dev.gpeek, bits_zero]
    rfl
  · refine (objGPeek_rg s.d v).trans ?_
    rw [if_neg (by decide), if_pos rfl, Dev.gpeek, bits_zero]
    rfl
  · refine (objGPeek_rg s.d v).trans ?_
    rw [if_pos rfl, Dev.gpeek, bits_zero]
    rfl
  · refine (objGPeek_rg s.d v).trans ?_
    rw [if_neg (by decide), if_neg (by decide), if_neg (by decide), if_pos rfl]

end

/-! ### The ring mailbox (R327) -/

section
variable (w : W) (d : Dev) (ag : Agent) (v : Word)

theorem W.busWrite_RING_MBX_TX_CTRL :
    w.busWrite ag Reg.RING_MBX_TX_CTRL v 0xFFFFFFFF = w.dev (mbxSend v) := by
  rw [W.busWrite_ring _ _ _ _ (by decide) (by decide)]
  refine congrArg w.dev (funext fun d => ?_)
  rw [Dev.ringWrite, if_neg (by decide), if_neg (by decide), if_neg (by decide), if_pos rfl, mergeWord_ones]

theorem W.busWrite_RING_MBX_RX_INFO :
    w.busWrite ag Reg.RING_MBX_RX_INFO v 0xFFFFFFFF = w.dev (mbxPop v) := by
  rw [W.busWrite_ring _ _ _ _ (by decide) (by decide)]
  refine congrArg w.dev (funext fun d => ?_)
  rw [Dev.ringWrite, if_neg (by decide), if_neg (by decide), if_neg (by decide), if_neg (by decide), if_pos rfl, and_ones]

theorem RING_MBX_RX_inj (k m : Nat) (h : Reg.RING_MBX_RX k = Reg.RING_MBX_RX m) : k = m := by
  unfold Reg.RING_MBX_RX at h
  omega

/-- Word `i` of the oldest message received. -/
def Dev.mbxWord (d : Dev) (i : Nat) : Word := (d.ring.mbx.head?.getD (0, 0, [])).2.2.getD i 0

theorem Dev.mbxWord_eq (i : Nat) : d.mbxWord i =
    match d.ring.mbx with
    | [] => 0
    | m :: _ => m.2.2.getD i 0 := by
  unfold Dev.mbxWord
  cases d.ring.mbx
  case nil => rfl
  case cons => rfl

theorem Dev.mbxShow_regsOnly : d.RegsOnly d.mbxShow := ((((Dev.RegsOnly.refl d).foldl _).sg _).sg _).sg _

theorem Dev.mbxShow_rg_of_ne {a : Nat} (hinfo : Reg.RING_MBX_RX_INFO ≠ a) (hlo : Reg.RING_MBX_RX_TS_LO ≠ a)
    (hhi : Reg.RING_MBX_RX_TS_HI ≠ a) (hw : ∀ i < 8, Reg.RING_MBX_RX i ≠ a) : d.mbxShow.rg a = d.rg a := by
  rw [Dev.mbxShow]
  dsimp only
  rw [Dev.rg_sg_of_ne _ _ _ _ hhi, Dev.rg_sg_of_ne _ _ _ _ hlo, Dev.rg_sg_of_ne _ _ _ _ hinfo,
    Dev.rg_foldl_sg_of_not_mem _ _ fun k hk => hw k (List.mem_range.mp hk)]

theorem Dev.mbxShow_word {i : Nat} (hi : i < 8) : d.mbxShow.rg (Reg.RING_MBX_RX i) = d.mbxWord i := by
  have hhi : Reg.RING_MBX_RX_TS_HI ≠ Reg.RING_MBX_RX i := by unfold Reg.RING_MBX_RX_TS_HI Reg.RING_MBX_RX; omega
  have hlo : Reg.RING_MBX_RX_TS_LO ≠ Reg.RING_MBX_RX i := by unfold Reg.RING_MBX_RX_TS_LO Reg.RING_MBX_RX; omega
  have hinfo : Reg.RING_MBX_RX_INFO ≠ Reg.RING_MBX_RX i := by unfold Reg.RING_MBX_RX_INFO Reg.RING_MBX_RX; omega
  rw [Dev.mbxShow]
  dsimp only
  rw [Dev.rg_sg_of_ne _ _ _ _ hhi, Dev.rg_sg_of_ne _ _ _ _ hlo, Dev.rg_sg_of_ne _ _ _ _ hinfo,
    Dev.rg_foldl_sg _ _ RING_MBX_RX_inj (List.mem_range.mpr hi)]
  rfl

/-- The device without its oldest message received. -/
def Dev.mbxDrop (d : Dev) : Dev := d.onRing (fun r => { r with mbx := r.mbx.drop 1 })

theorem mbxPop_eq : mbxPop 0x80000000 d = d.mbxDrop.mbxShow := if_pos (by decide)

theorem mbxSend_of_refused (hgo : v.getLsbD 7 = true) (h : d.bt Reg.RING_MBX_TX_CTRL 8 = true ∨ d.tapping = false) :
    mbxSend v d = d.sb Reg.RING_MBX_TX_CTRL 9 := by
  have hgate : (v.getLsbD 7 && (d.bt Reg.RING_MBX_TX_CTRL 8 || !d.tapping)) = true := by simpa [hgo] using h
  exact if_pos hgate

end

/-- Settles O53: a pop is the queue's tail shown again; a send refused sets one bit of its own register. -/
theorem ringMailbox : Obligations.RingMailbox := by
  intro s ag v hup hag
  refine ⟨⟨_, need_busSet hup hag (W.busWrite_RING_MBX_RX_INFO ..), ?_, ⟨rfl, rfl, fun a ha => ?_⟩, fun i hi => ?_⟩, fun h => ?_⟩
  · exact (mbxPop_eq s.d).trans (Dev.mbxShow_regsOnly s.d.mbxDrop)
  · simp only [List.mem_cons, List.mem_map, List.mem_range, not_or, not_exists, not_and] at ha
    obtain ⟨hinfo, hlo, hhi, hw⟩ := ha
    exact (congrArg (Dev.rg · a) (mbxPop_eq s.d)).trans
      (Dev.mbxShow_rg_of_ne s.d.mbxDrop (Ne.symm hinfo) (Ne.symm hlo) (Ne.symm hhi) hw)
  · refine ((congrArg (Dev.rg · (Reg.RING_MBX_RX i)) (mbxPop_eq s.d)).trans (Dev.mbxShow_word s.d.mbxDrop hi)).trans ?_
    exact Dev.mbxWord_eq s.d.mbxDrop i
  · have hgo : (fieldWord v 7 1 1).getLsbD 7 = true := getLsbD_fieldWord v 7 1 1 7 (by decide)
    have hsend := mbxSend_of_refused s.d _ hgo h
    refine ⟨_, need_busSet hup hag (W.busWrite_RING_MBX_TX_CTRL ..), ⟨rfl, rfl, fun a ha => ?_⟩, ?_, ?_⟩
    · exact (congrArg (Dev.rg · a) hsend).trans (Dev.rg_sg_of_ne _ _ _ _ (List.ne_of_not_mem_cons ha).symm)
    · have hregs : s.d.RegsOnly (mbxSend (fieldWord v 7 1 1) s.d) := by
        rw [hsend]
        exact (Dev.RegsOnly.refl s.d).sg _
      exact hregs
    · exact (congrArg (Dev.bt · Reg.RING_MBX_TX_CTRL 9) hsend).trans (Dev.bt_sb_self _ _ (by decide))

/-! ### Pads (R447) -/

/-- A part whose core domain is in reset, and whose register table lists the reset word of GP_IN. -/
def listedReset : State := { State.reset with d.power.coreRst := true, d.regs := [(Reg.GP_IN 0, 0)] }

/-- Refutes O39: with the core domain down the pad's bit is stored whether or not it differs, and a store of the reset word takes a listed reset
word out of the table: the register reads as before, but the state is another. No table in canonical form lists one. -/
theorem not_padChange : ¬ Obligations.PadChange := by
  intro h
  have hsame := (h listedReset 0 false (by decide)).1 (by decide)
  have hregs := congrArg (fun s : State => s.d.regs) (Host.Outcome.next.inj hsame)
  revert hregs
  decide

end Sys2Proof.Machine
end

section
/-!
PROOFS. The state after reset, and a step on an empty queue (O2, O6).
-/

namespace Sys2Proof.Machine

/-! ### The state after reset -/

theorem find_INT_ROUTE : ∀ s < 512, (RegTable.find (Reg.INT_ROUTE s)).map (·.base) = some 0x1308000 := by decide +kernel

theorem resetWord_INT_ROUTE {s : Nat} (hs : s < 512) :
    Reg.resetWord (Reg.INT_ROUTE s) = BitVec.ofNat 32 (s * 0x100 + if s = 2 then 8 else if s = 3 then 7 else 0) := by
  obtain ⟨r, hf, hb⟩ := Option.map_eq_some_iff.mp (find_INT_ROUTE s hs)
  have hix : (Reg.INT_ROUTE s - 0x1308000) / 4 = s := by unfold Reg.INT_ROUTE; omega
  rw [Reg.resetWord, hf]
  dsimp only
  rw [if_pos hb, hb, hix]

/-- Settles O6: no register is stored at reset, so each reads its reset word. -/
theorem resetState : Obligations.ResetState := by
  refine ⟨rfl, rfl, by decide, by decide, by decide, fun a => ⟨rfl, by decide, by decide, by decide, by decide, fun s hs => ?_, by decide, rfl,
    rfl⟩⟩
  exact resetWord_INT_ROUTE hs

/-! ### What leaves the tick, the timebase and the secure block as they are -/

/-- The tick generator, the timebase and the secure block stand. -/
def Dev.SameTime (d e : Dev) : Prop := e.tick = d.tick ∧ e.tb = d.tb ∧ e.sec = d.sec

section
variable {d e f : Dev}

theorem Dev.SameTime.refl (d : Dev) : d.SameTime d := ⟨rfl, rfl, rfl⟩

theorem Dev.SameTime.trans (h : d.SameTime e) (h' : e.SameTime f) : d.SameTime f := by
  obtain ⟨htick, htb, hsec⟩ := h
  obtain ⟨htick', htb', hsec'⟩ := h'
  exact ⟨htick'.trans htick, htb'.trans htb, hsec'.trans hsec⟩

theorem Dev.sameTime_foldl {α : Type} {g : Dev → α → Dev} (hg : ∀ (d : Dev) (x : α), d.SameTime (g d x)) (l : List α) (d : Dev) :
    d.SameTime (l.foldl g d) := by
  induction l generalizing d with
  | nil => exact Dev.SameTime.refl d
  | cons x l ih => exact (hg d x).trans (ih _)

theorem Dev.sameTime_ite {p : Prop} [Decidable p] (he : d.SameTime e) (hf : d.SameTime f) : d.SameTime (if p then e else f) := by
  split
  · exact he
  · exact hf

end

section
variable (d : Dev)

theorem Dev.sameTime_pb (a i : Nat) (b : Bool) : d.SameTime (d.pb a i b) := by
  rw [Dev.pb_eq_sg]
  exact ⟨rfl, rfl, rfl⟩

theorem Dev.sameTime_setGroup (c g : Nat) (m : ModGroup) : d.SameTime (d.setGroup c g m) := by
  refine Dev.SameTime.trans ?_ (Dev.sameTime_pb _ _ _ _)
  exact ⟨rfl, rfl, rfl⟩

theorem Dev.sameTime_intcEvent (c s : Nat) : d.SameTime (d.intcEvent c s) := by
  unfold Dev.intcEvent
  refine Dev.sameTime_ite ⟨rfl, rfl, rfl⟩ ?_
  refine Dev.SameTime.trans ?_ (Dev.sameTime_setGroup _ _ _ _)
  exact ⟨rfl, rfl, rfl⟩

theorem Dev.sameTime_hostEvent (s : Nat) : d.SameTime (d.hostEvent s) := Dev.sameTime_ite ⟨rfl, rfl, rfl⟩ (Dev.SameTime.refl _)

theorem Dev.sameTime_raise (s : Nat) : d.SameTime (d.raise s) :=
  (Dev.sameTime_foldl (fun d c => d.sameTime_intcEvent c s) (d.routeCores s) d).trans (Dev.sameTime_hostEvent _ s)

theorem Dev.sameTime_slSet (off : Nat) (v : Word) : d.SameTime (d.slSet off v) := Dev.sameTime_ite ⟨rfl, rfl, rfl⟩ ⟨rfl, rfl, rfl⟩

theorem Dev.sameTime_slSettle (c : SlChange) (w : Word) : d.SameTime (d.slSettle c w) :=
  Dev.SameTime.trans (e := { d with slLog := (d.slReplay c w d.slLog).1 }) ⟨rfl, rfl, rfl⟩ (Dev.sameTime_slSet _ _ _)

theorem Dev.sameTime_slAdd (c : SlChange) : d.SameTime (d.slAdd c) := by
  unfold Dev.slAdd
  refine Dev.SameTime.trans ?_ (Dev.sameTime_foldl (fun d e => d.sameTime_slSettle e _) _ _)
  exact Dev.SameTime.trans (e := d.slPruned) ⟨rfl, rfl, rfl⟩
    (Dev.SameTime.trans (e := d.slPruned.slSettle _ _) (Dev.sameTime_slSettle _ _ _) ⟨rfl, rfl, rfl⟩)

theorem Dev.sameTime_slMerge {d1 : Dev} (h : d.SameTime d1) (e src : Nat) : d.SameTime (d.slMerge d1 e src) := by
  refine Dev.SameTime.trans ?_ (Dev.sameTime_foldl (fun x c => x.sameTime_slAdd _) _ _)
  exact (Dev.SameTime.trans (f := { d1 with slLog := d.slLog }) h ⟨rfl, rfl, rfl⟩).trans
    (Dev.sameTime_foldl (fun x c => x.sameTime_slSet _ _) _ _)

theorem Dev.sameTime_routeAct (n i rt : Nat) (v : Bool) : d.SameTime (d.routeAct n i rt v) := by
  have hen : ∀ b, d.SameTime (d.slEn n (bits rt 8 6) 6 i b) := fun b => d.sameTime_slAdd _
  unfold Dev.routeAct
  dsimp only
  split
  · exact hen _
  · exact hen _
  · exact Dev.sameTime_ite (hen _) (Dev.SameTime.refl d)
  · exact Dev.sameTime_ite (hen _) (Dev.SameTime.refl d)
  · exact Dev.sameTime_ite (d.sameTime_slAdd _) (Dev.SameTime.refl d)
  · exact Dev.sameTime_ite (Dev.SameTime.refl d) (hen _)
  · exact Dev.sameTime_ite (Dev.SameTime.refl d) (hen _)
  · exact Dev.SameTime.refl d

theorem Dev.sameTime_routeWrite (n i : Nat) (w : Word) : d.SameTime (d.routeWrite n i w) := by
  unfold Dev.routeWrite
  refine Dev.SameTime.trans (e := d.sg (Reg.SL_LROUTE n i) (w &&& 0x80073F7F)) ⟨rfl, rfl, rfl⟩ ?_
  exact Dev.sameTime_ite (Dev.SameTime.refl _)
    (Dev.sameTime_ite ⟨rfl, rfl, rfl⟩ (Dev.sameTime_ite (Dev.sameTime_routeAct _ _ _ _ _) (Dev.SameTime.refl _)))

theorem Dev.sameTime_countEvent (a i b j : Nat) : d.SameTime (d.countEvent a i b j) := Dev.sameTime_ite ⟨rfl, rfl, rfl⟩ ⟨rfl, rfl, rfl⟩

theorem Dev.sameTime_damselEvent (e : Ev) : d.SameTime (d.damselEvent e) := by
  refine Dev.sameTime_foldl (fun d n => ?_) _ d
  refine Dev.sameTime_foldl (fun d i => ?_) _ d
  exact Dev.sameTime_ite (d.sameTime_countEvent _ _ _ _) (Dev.SameTime.refl d)

theorem Dev.sameTime_arrive (e : Nat) (x : Later) : d.SameTime (d.arrive e x) := by
  cases x
  case route n i v mask =>
    refine d.sameTime_slMerge ?_ _ _
    exact Dev.SameTime.trans (e := { d with slLog := [] }) ⟨rfl, rfl, rfl⟩ (Dev.sameTime_routeWrite _ _ _ _)
  case event x => exact d.sameTime_damselEvent x

theorem Dev.sameTime_arrivals : d.SameTime d.arrivals :=
  Dev.SameTime.trans (e := { d with later := d.later.filter (fun p => decide (d.cclks < p.1)) }) ⟨rfl, rfl, rfl⟩
    (Dev.sameTime_foldl (fun d (p : Nat × Later) => d.sameTime_arrive p.1 p.2) _ _)

theorem Dev.sameTime_ringTimePass : d.SameTime d.ringTimePass := by
  unfold Dev.ringTimePass
  exact Dev.sameTime_ite ⟨rfl, rfl, rfl⟩ (Dev.sameTime_ite ⟨rfl, rfl, rfl⟩ ⟨rfl, rfl, rfl⟩)

theorem Dev.sameTime_linkFlush (t : Nat) : d.SameTime (d.linkFlush t) := by
  unfold Dev.linkFlush
  refine Dev.sameTime_ite (Dev.SameTime.refl d) ?_
  refine Dev.SameTime.trans ?_ (Dev.sameTime_foldl (fun d p => ?_) _ _)
  · exact ⟨rfl, rfl, rfl⟩
  · exact ⟨rfl, rfl, rfl⟩

theorem Dev.sameTime_updateMembers : d.SameTime d.updateMembers := by
  unfold Dev.updateMembers
  refine Dev.sameTime_ite (Dev.SameTime.refl d) ?_
  refine Dev.SameTime.trans (e := d.sgMap Reg.RING_MEMBERS_LO Reg.RING_MEMBERS_HI d.membersNow) ⟨rfl, rfl, rfl⟩ ?_
  exact Dev.sameTime_ite (Dev.sameTime_raise _ _) (Dev.SameTime.refl _)

/-- The counters of `n` TBCLK that pass, with what arrives and the ring time, before the node's links. -/
def Dev.counted (d : Dev) (n : Nat) : Dev :=
  let mhz := if d.coreUp then d.cclkMHz else 0
  let c0 := d.cclks
  let d := { d with tb := d.tb + n, cclk := d.cclk + n * mhz }
  let k := d.cclks - c0
  let d := if d.later.isEmpty then d else d.arrivals
  let d := d.ringTimePass
  let d := if d.loaded && d.hopPaused then d.add Reg.HOP_BP_CNT k else d
  let d := if d.urgent then d.add Reg.MEM_URG_CNT k else d
  (List.range 4).foldl (fun d c =>
    if d.kIs c .running || d.kIs c .idle then d.onCore c (fun x => { x with cycle := x.cycle + n * mhz }) else d) d

theorem Dev.idle_of_running {n : Nat} (hn : n ≠ 0) (hp : d.power.por = false) : d.idle n =
    if (d.counted n).standalone then d.counted n
    else ((d.counted n).linkFlush (120 * (d.counted n).tb)).updateMembers :=
  if_neg (by simp [hn, hp])

theorem Dev.idle_of_por (n : Nat) (hp : d.power.por = true) : d.idle n = d := if_pos (.inr hp)

theorem Dev.counted_time (n : Nat) : (d.counted n).tick = d.tick ∧ (d.counted n).tb = d.tb + n ∧ (d.counted n).sec = d.sec := by
  have hcores : ∀ (d : Dev) (c m : Nat), d.SameTime
      (if d.kIs c .running || d.kIs c .idle then d.onCore c (fun x => { x with cycle := x.cycle + m }) else d) :=
    fun d _ _ => Dev.sameTime_ite ⟨rfl, rfl, rfl⟩ (Dev.SameTime.refl d)
  have hadd : ∀ (d : Dev) (p : Bool) (a k : Nat), d.SameTime (if p then d.add a k else d) :=
    fun d _ _ _ => Dev.sameTime_ite ⟨rfl, rfl, rfl⟩ (Dev.SameTime.refl d)
  have harr : ∀ d : Dev, d.SameTime (if d.later.isEmpty then d else d.arrivals) :=
    fun d => Dev.sameTime_ite (Dev.SameTime.refl d) d.sameTime_arrivals
  exact (((((harr _).trans (Dev.sameTime_ringTimePass _)).trans (hadd _ _ _ _)).trans (hadd _ _ _ _)).trans
    (Dev.sameTime_foldl (fun d c => hcores d c _) _ _))

/-- What the node's links do after the counts leaves them be. -/
theorem Dev.sameTime_links {n : Nat} (hn : n ≠ 0) (hp : d.power.por = false) : (d.counted n).SameTime (d.idle n) := by
  rw [d.idle_of_running hn hp]
  exact Dev.sameTime_ite (Dev.SameTime.refl _) ((Dev.sameTime_linkFlush _ _).trans (Dev.sameTime_updateMembers _))

theorem Dev.rg_foldl {α : Type} {g : Dev → α → Dev} {a : Nat} (hg : ∀ d x, (g d x).rg a = d.rg a) (l : List α) :
    (l.foldl g d).rg a = d.rg a := by
  induction l generalizing d with
  | nil => rfl
  | cons x l ih => exact (ih _).trans (hg _ _)

theorem Dev.rg_counted {n a : Nat} (hlater : d.later = []) (hbp : Reg.HOP_BP_CNT ≠ a) (hurg : Reg.MEM_URG_CNT ≠ a) :
    (d.counted n).rg a = d.rg a := by
  have hadd : ∀ (d : Dev) (p : Bool) (b k : Nat), b ≠ a → (if p then d.add b k else d).rg a = d.rg a := fun d p b k hb => by
    cases p
    · rfl
    · exact Dev.rg_sg_of_ne _ _ _ _ hb
  have hring : ∀ d : Dev, d.ringTimePass.rg a = d.rg a := fun d => by
    unfold Dev.ringTimePass
    dsimp only
    split
    · rfl
    · split <;> rfl
  have hcores : ∀ (d : Dev) (c m : Nat),
      (if d.kIs c .running || d.kIs c .idle then d.onCore c (fun x => { x with cycle := x.cycle + m }) else d).rg a = d.rg a :=
    fun d _ _ => by split <;> rfl
  refine (Dev.rg_foldl _ (fun d c => hcores d c _) _).trans ((hadd _ _ _ _ hurg).trans ((hadd _ _ _ _ hbp).trans ((hring _).trans ?_)))
  rw [hlater]
  rfl

end

/-- Settles O2: what arrives at a sluice route or a Damsel input and what leaves on the ring moves registers, never the tick or the timebase. -/
theorem emptyQueueIdles : Obligations.EmptyQueueIdles := by
  intro s hq
  have hstep : step s = .next (s.afterDev (fun d => d.idle 1)) := by rw [step, hq]; rfl
  refine ⟨_, hstep, hq, rfl, ?_⟩
  by_cases hp : s.d.power.por = true
  case pos =>
    have hidle := s.d.idle_of_por 1 hp
    refine ⟨?_, fun _ _ a _ _ => congrArg (Dev.rg · a) hidle, congrArg Dev.tick hidle⟩
    rw [if_pos hp]
    exact congrArg Dev.tb hidle
  case neg =>
    obtain ⟨htick, htb, -⟩ := s.d.counted_time 1
    have hidle := s.d.idle_of_running (n := 1) (by decide) (Bool.eq_false_iff.mpr hp)
    obtain ⟨htick', htb', -⟩ : (s.d.counted 1).SameTime (s.d.idle 1) :=
      s.d.sameTime_links (by decide) (Bool.eq_false_iff.mpr hp)
    refine ⟨?_, fun hlater hstand a hbp hurg => ?_, htick'.trans htick⟩
    · rw [if_neg hp]
      exact htb'.trans htb
    · have hcfg : (s.d.counted 1).rg Reg.RING_CFG = s.d.rg Reg.RING_CFG := s.d.rg_counted hlater (by decide) (by decide)
      have hstand' : (s.d.counted 1).standalone = true := by
        rw [Dev.standalone, Dev.fd, hcfg]
        exact hstand
      rw [if_pos hstand'] at hidle
      exact (congrArg (Dev.rg · a) hidle).trans (s.d.rg_counted hlater (Ne.symm hbp) (Ne.symm hurg))

end Sys2Proof.Machine
end

section
/-!
SUPPORT. What DMA channels and blitters that still run can write: bytes of SRAM, LPDDR5X and host memory, and the registers of their own blocks, of
the controllers, and of raw partitions.
-/

namespace Sys2Proof.Machine

/-! ### The profiles of blocks with one expert register or three (R12 to R15) -/

/-- The blocks whose update point is a later event. -/
def lateBlocks : List Block := [.obj, .tp, .hop, .aud, .dma, .blt, .sys, .upd, .av]

/-- Every profile of such a block sets its expert registers, each once. -/
theorem Block.profile_keys {b : Block} (hb : b ∈ lateBlocks) {p ph : Nat} {l : List (Nat × Word)} (h : b.profile p ph = some l) :
    l.map (·.1) = b.experts := by
  simp only [lateBlocks, List.mem_cons, List.not_mem_nil, or_false] at hb
  obtain rfl | rfl | rfl | rfl | rfl | rfl | rfl | rfl | rfl := hb
  all_goals
    match p with
    | 0 => cases h; rfl
    | 1 => cases h; rfl
    | 2 => cases h <;> rfl
    | _ + 3 => cases h

theorem Dev.derived_late {d : Dev} {b : Block} (hb : b ∈ lateBlocks) :
    d.derived b = (b.profile (b.profileOf (d.rg b.ctrl).toNat) 300000).getD [] := by
  simp only [lateBlocks, List.mem_cons, List.not_mem_nil, or_false] at hb
  obtain rfl | rfl | rfl | rfl | rfl | rfl | rfl | rfl | rfl := hb
  all_goals rfl

theorem Block.mem_experts_of_derived {d : Dev} {b : Block} (hb : b ∈ lateBlocks) {q : Nat × Word} (h : q ∈ d.derived b) :
    q.1 ∈ b.experts := by
  rw [Dev.derived_late hb] at h
  cases hprof : b.profile (b.profileOf (d.rg b.ctrl).toNat) 300000 with
  | none =>
    rw [hprof] at h
    exact absurd h List.not_mem_nil
  | some l =>
    rw [hprof] at h
    rw [← Block.profile_keys hb hprof]
    exact List.mem_map_of_mem h

/-! ### Registers and device parts -/

/-- Registers that running transfers can move. -/
def EngineReg (a : Nat) : Prop :=
  a = Reg.OBJ_STAT ∨ a = Reg.TP_STAT ∨ a = Reg.UPD_STAT ∨ (0x1300800 ≤ a ∧ a < 0x1305000) ∨
    (Reg.INT_HOST_PEND 0 ≤ a ∧ a ≤ Reg.INT_HOST_PEND 15) ∨ (0x1410000 ≤ a ∧ a < 0x1430000)

theorem engineReg_of_block {a : Nat} (hlo : 0x1410000 ≤ a) (hhi : a < 0x1430000) : EngineReg a := by
  unfold EngineReg
  omega

/-- From `d` to `e` transfers have gone on: time, power, the ring node and all registers but those of transfers stand. -/
structure Dev.EngineStep (d e : Dev) : Prop where
  tick : e.tick = d.tick
  tb : e.tb = d.tb
  ring : e.ring = d.ring
  power : e.power = d.power
  rg : ∀ a, ¬EngineReg a → e.rg a = d.rg a

section
variable {d e f : Dev} {a : Nat}

theorem Dev.EngineStep.refl (d : Dev) : d.EngineStep d := ⟨rfl, rfl, rfl, rfl, fun _ _ => rfl⟩

theorem Dev.EngineStep.trans (h : d.EngineStep e) (h' : e.EngineStep f) : d.EngineStep f :=
  ⟨h'.tick.trans h.tick, h'.tb.trans h.tb, h'.ring.trans h.ring, h'.power.trans h.power, fun a ha => (h'.rg a ha).trans (h.rg a ha)⟩

theorem Dev.EngineStep.ite {p : Prop} [Decidable p] (he : d.EngineStep e) (hf : d.EngineStep f) :
    d.EngineStep (if p then e else f) := by
  split
  · exact he
  · exact hf

theorem Dev.EngineStep.foldl {α : Type} {g : Dev → α → Dev} (l : List α) (hg : ∀ (d : Dev) (x : α), x ∈ l → d.EngineStep (g d x)) (d : Dev) :
    d.EngineStep (l.foldl g d) := by
  induction l generalizing d with
  | nil => exact .refl d
  | cons x l ih => exact (hg d x List.mem_cons_self).trans (ih (fun d y hy => hg d y (List.mem_cons_of_mem _ hy)) _)

theorem Dev.EngineStep.sg (ha : EngineReg a) (v : Word) : d.EngineStep (d.sg a v) :=
  ⟨rfl, rfl, rfl, rfl, fun _ hb => Dev.rg_sg_of_ne _ _ _ _ fun h => hb (h ▸ ha)⟩

theorem Dev.EngineStep.pb (ha : EngineReg a) (i : Nat) (b : Bool) : d.EngineStep (d.pb a i b) := by
  rw [Dev.pb_eq_sg]
  exact .sg ha _

/-- A change of parts that hold neither time, power, the ring node nor a register. -/
theorem Dev.EngineStep.of_frame (htick : e.tick = d.tick) (htb : e.tb = d.tb) (hring : e.ring = d.ring) (hpower : e.power = d.power)
    (hregs : e.regs = d.regs) : d.EngineStep e :=
  ⟨htick, htb, hring, hpower, fun a _ => by rw [Dev.rg, hregs]; rfl⟩

theorem Dev.routeCores_lt {s c : Nat} (h : c ∈ d.routeCores s) : c < 4 := by
  unfold Dev.routeCores at h
  split at h
  · simp_all
  · split at h
    · simp at h; omega
    · split at h
      · exact List.mem_range.mp (List.mem_filter.mp h).1
      · simp at h

theorem Dev.EngineStep.intcEvent {c s : Nat} (hc : c < 4) (hs : s < 512) : d.EngineStep (d.intcEvent c s) := by
  rw [Dev.intcEvent_frame]
  refine ⟨rfl, rfl, rfl, rfl, fun a ha => ?_⟩
  refine Dev.rg_intcEvent_of_outside hs fun hin => ha ?_
  unfold InController at hin
  unfold EngineReg
  omega

theorem Dev.EngineStep.hostEvent {s : Nat} (hs : s < 512) : d.EngineStep (d.hostEvent s) := by
  unfold Dev.hostEvent
  refine .ite (.trans (.pb (a := Reg.INT_HOST_PEND (s / 32)) ?_ (s % 32) true) (.of_frame rfl rfl rfl rfl rfl)) (.refl d)
  unfold EngineReg Reg.INT_HOST_PEND
  omega

theorem Dev.EngineStep.raise {s : Nat} (hs : s < 512) : d.EngineStep (d.raise s) :=
  (Dev.EngineStep.foldl (g := fun d c => d.intcEvent c s) _ (fun _ _ hc => .intcEvent (Dev.routeCores_lt hc) hs) d).trans (.hostEvent hs)

theorem Dev.EngineStep.raiseIf {s : Nat} (hs : s < 512) (b : Bool) : d.EngineStep (d.raiseIf b s) := .ite (.raise hs) (.refl d)

theorem Dev.EngineStep.sgAll (l : List (Nat × Word)) (h : ∀ p ∈ l, EngineReg p.1) : d.EngineStep (d.sgAll l) :=
  Dev.EngineStep.foldl (g := fun d (p : Nat × Word) => d.sg p.1 p.2) l (fun _ p hp => .sg (h p hp) p.2) d

theorem Dev.EngineStep.sfr_foldl {α : Type} (l : List α) (A : α → Nat) (f : Dev → α → Word) :
    d.EngineStep (l.foldl (fun d x => d.sfr (A x) (f d x)) d) :=
  Dev.EngineStep.foldl (g := fun d x => d.sfr (A x) (f d x)) l (fun _ _ _ => .of_frame rfl rfl rfl rfl rfl) d

/-- A block whose registers are those of transfers reaches its update point. -/
theorem Dev.EngineStep.reachUpdate {b : Block} (h : b = .dma ∨ b = .blt) : d.EngineStep (d.reachUpdate b) := by
  have hder : ∀ p ∈ d.derived b, EngineReg p.1 := by
    intro p hp
    have hmem : b ∈ lateBlocks := by obtain rfl | rfl := h <;> decide
    have hkey := Block.mem_experts_of_derived hmem hp
    obtain rfl | rfl := h
    · have heq : p.1 = Reg.DMA_CFG := List.mem_singleton.mp hkey
      exact engineReg_of_block (by rw [heq]; decide) (by rw [heq]; decide)
    · have heq : p.1 = Reg.BLT_CFG := List.mem_singleton.mp hkey
      exact engineReg_of_block (by rw [heq]; decide) (by rw [heq]; decide)
  unfold Dev.reachUpdate
  split
  · exact .refl d
  · have happ : d.EngineStep (if d.level b then (b.experts.foldl (fun d a => d.sfr a (takenWord a (d.rg a))) d)
        else (d.sgAll (d.derived b)).sfrAll (d.derived b)) :=
      .ite (.sfr_foldl _ _ _) ((Dev.EngineStep.sgAll _ hder).trans (.sfr_foldl _ _ _))
    have happ : d.EngineStep (d.applySetting b) := by
      obtain rfl | rfl := h
      · exact happ
      · exact happ
    exact happ.trans (.of_frame rfl rfl rfl rfl rfl)

theorem Dev.EngineStep.note (s : Nat) : d.EngineStep (d.note s) := .ite (.refl d) (.of_frame rfl rfl rfl rfl rfl)

theorem Dev.EngineStep.objStat (i : Nat) : d.EngineStep (d.objStat i) :=
  .ite (.refl d) ((Dev.EngineStep.sg (a := Reg.OBJ_STAT) (.inl rfl) _).trans (.note _))

theorem Dev.EngineStep.tpStat (i : Nat) : d.EngineStep (d.tpStat i) :=
  .ite (.refl d) ((Dev.EngineStep.sg (a := Reg.TP_STAT) (.inr (.inl rfl)) _).trans (.note _))

theorem Dev.EngineStep.scribble (b : Nat) : d.EngineStep (d.scribble b) := by
  unfold Dev.scribble
  refine .ite (.refl d) (.ite ?_ (.ite ?_ (.ite ?_ (.ite ?_ (.ite ?_ (.refl d))))))
  all_goals exact .of_frame rfl rfl rfl rfl rfl

/-! ### DMA channels and blitters as the registers show them -/

theorem Dev.EngineStep.dmaShow {ch : Nat} (hch : ch < 32) : d.EngineStep (d.dmaShow ch) := by
  have hreg : ∀ a, 0x1410000 ≤ a → a < 0x1410900 → EngineReg a := fun a hlo hhi => engineReg_of_block hlo (by omega)
  unfold Dev.dmaShow
  refine (((((((Dev.EngineStep.pb ?_ _ _).trans (.pb ?_ _ _)).trans (.sg ?_ _)).trans (.sg ?_ _)).trans (.sg ?_ _)).trans (.sg ?_ _)).trans
    (.sg ?_ _))
  · exact hreg _ (by unfold Reg.DMA_CH_STAT; omega) (by unfold Reg.DMA_CH_STAT; omega)
  · exact hreg _ (by decide) (by decide)
  · exact hreg _ (by unfold Reg.DMA_SRC_LO; omega) (by unfold Reg.DMA_SRC_LO; omega)
  · exact hreg _ (by unfold Reg.DMA_SRC_HI; omega) (by unfold Reg.DMA_SRC_HI; omega)
  · exact hreg _ (by unfold Reg.DMA_DST_LO; omega) (by unfold Reg.DMA_DST_LO; omega)
  · exact hreg _ (by unfold Reg.DMA_DST_HI; omega) (by unfold Reg.DMA_DST_HI; omega)
  · exact hreg _ (by unfold Reg.DMA_REMAIN; omega) (by unfold Reg.DMA_REMAIN; omega)

theorem Dev.EngineStep.onDma (ch : Nat) (g : DmaCh → DmaCh) : d.EngineStep (d.onDma ch g) := .of_frame rfl rfl rfl rfl rfl

theorem Dev.EngineStep.dmaHalt {ch : Nat} (hch : ch < 32) : d.EngineStep (d.dmaHalt ch) := (Dev.EngineStep.onDma _ _).trans (.dmaShow hch)

theorem engineReg_DMA_CH_STAT {ch : Nat} (hch : ch < 32) : EngineReg (Reg.DMA_CH_STAT ch) :=
  engineReg_of_block (by unfold Reg.DMA_CH_STAT; omega) (by unfold Reg.DMA_CH_STAT; omega)

theorem Dev.EngineStep.dmaFail {ch : Nat} (hch : ch < 32) (cause : Nat) : d.EngineStep (d.dmaFail ch cause) := by
  unfold Dev.dmaFail
  refine ((((Dev.EngineStep.onDma _ _).trans (.dmaHalt hch)).trans (.sg (engineReg_DMA_CH_STAT hch) _)).trans
    (.sg (engineReg_DMA_CH_STAT hch) _)).trans (.raiseIf (by omega) _)

theorem Dev.EngineStep.bltSetBusy {e : Nat} (he : e < 4) (b : Bool) : d.EngineStep (d.bltSetBusy e b) :=
  (Dev.EngineStep.pb (engineReg_of_block (by unfold Reg.BLT_ESTAT; omega) (by unfold Reg.BLT_ESTAT; omega)) _ _).trans
    (.pb (engineReg_of_block (by decide) (by decide)) _ _)

/-- An engine that has stopped holds no source pixels. -/
theorem Dev.EngineStep.bltEnd {e : Nat} (he : e < 4) :
    d.EngineStep { (d.bltSetBusy e false) with bltSrc := Tab.put none d.bltSrc e none } :=
  (Dev.EngineStep.bltSetBusy he false).trans (.of_frame rfl rfl rfl rfl rfl)

theorem Dev.EngineStep.wmFire {e : Nat} (he : e < 4) : d.EngineStep (d.wmFire e) := by
  unfold Dev.wmFire
  refine (((Dev.EngineStep.sg ?_ _).trans (.sg ?_ _)).trans (.sg ?_ _)).trans (.of_frame rfl rfl rfl rfl rfl)
  · exact engineReg_of_block (by unfold Reg.BLT_ESTAT; omega) (by unfold Reg.BLT_ESTAT; omega)
  · exact engineReg_of_block (by unfold Reg.BLT_WM_TS_LO; omega) (by unfold Reg.BLT_WM_TS_LO; omega)
  · exact engineReg_of_block (by unfold Reg.BLT_WM_TS_HI; omega) (by unfold Reg.BLT_WM_TS_HI; omega)

end

/-! ### The working context -/

/-- From `w` to `w'` transfers have gone on: what they wrote lies in SRAM, LPDDR5X or host memory. -/
structure W.EngineStep (w w' : W) : Prop where
  dev : w.d.EngineStep w'.d
  zero : w'.zero = w.zero
  ws : ∃ l, w'.ws = l ++ w.ws ∧ ∀ x ∈ l, x.sp ≠ .flash ∧ x.sp ≠ .otp ∧ x.sp ≠ .tcm

section
variable {w w' w'' : W}

theorem W.EngineStep.refl (w : W) : w.EngineStep w := ⟨.refl _, rfl, [], rfl, fun _ h => absurd h List.not_mem_nil⟩

theorem W.EngineStep.trans (h : w.EngineStep w') (h' : w'.EngineStep w'') : w.EngineStep w'' := by
  obtain ⟨hd, hz, l, hl, hsp⟩ := h
  obtain ⟨hd', hz', l', hl', hsp'⟩ := h'
  refine ⟨hd.trans hd', hz'.trans hz, l' ++ l, by rw [hl', hl, List.append_assoc], fun x hx => ?_⟩
  exact (List.mem_append.mp hx).elim (hsp' x) (hsp x)

theorem W.EngineStep.on {g : Dev → Dev} (h : w.d.EngineStep (g w.d)) : w.EngineStep (w.dev g) :=
  ⟨h, rfl, [], rfl, fun _ h => absurd h List.not_mem_nil⟩

theorem W.EngineStep.wr {sp : MemSp} (h : sp ≠ .flash ∧ sp ≠ .otp ∧ sp ≠ .tcm) (a : Nat) (v : Byte) : w.EngineStep (w.wr sp a v) :=
  ⟨.refl _, rfl, [⟨sp, a, v⟩], rfl, fun x hx => by rw [List.mem_singleton.mp hx]; exact h⟩

theorem W.EngineStep.ite {p : Prop} [Decidable p] (h : w.EngineStep w') (h' : w.EngineStep w'') : w.EngineStep (if p then w' else w'') := by
  split
  · exact h
  · exact h'

theorem W.EngineStep.foldl {α : Type} {g : W → α → W} (l : List α) (hg : ∀ (w : W) (x : α), x ∈ l → w.EngineStep (g w x)) (w : W) :
    w.EngineStep (l.foldl g w) := by
  induction l generalizing w with
  | nil => exact .refl w
  | cons x l ih => exact (hg w x List.mem_cons_self).trans (ih (fun w y hy => hg w y (List.mem_cons_of_mem _ hy)) _)

theorem W.EngineStep.wrBytes {sp : MemSp} (h : sp ≠ .flash ∧ sp ≠ .otp ∧ sp ≠ .tcm) (a : Nat) (l : List Byte) :
    w.EngineStep (w.wrBytes sp a l) :=
  W.EngineStep.foldl (g := fun w (p : Byte × Nat) => w.wr sp (a + p.2) p.1) _ (fun _ _ _ => .wr h _ _) w

theorem W.EngineStep.noteFills (a n : Nat) : w.EngineStep (w.noteFills a n) := by
  unfold W.noteFills
  exact .on (.of_frame rfl rfl rfl rfl rfl)

theorem W.EngineStep.lpWrite (a : Nat) (l : List Byte) : w.EngineStep (w.lpWrite a l) := by
  unfold W.lpWrite
  refine .trans (w' := w.noteFills a l.length) (.noteFills a l.length) (W.EngineStep.foldl _ (fun w p _ => ?_) _)
  exact .ite (.refl w) (.wr (by decide) _ _)

theorem W.EngineStep.hostWrite (kind id a : Nat) (l : List Byte) : w.EngineStep (w.hostWrite kind id a l) :=
  .ite (.wrBytes (by decide) _ _) (.on (.of_frame rfl rfl rfl rfl rfl))

theorem W.EngineStep.portWrite (a : Nat) (l : List Byte) : w.EngineStep (w.portWrite a l) := by
  unfold W.portWrite W.portWriteBy
  dsimp only
  refine .trans (.trans (.trans (.trans (.ite (.on (.objStat 1)) (.refl w)) (.ite (.on (.tpStat 1)) (.refl _)))
    (.ite (.on (.sg (.inr (.inr (.inl rfl))) _)) (.refl _))) (.ite (.refl _) (.trans (.on ?_) (.on ?_)))) (W.EngineStep.foldl _ (fun w p _ => ?_) _)
  · exact (Dev.EngineStep.foldl _ (fun _ _ _ => .scribble _) _).trans (.of_frame rfl rfl rfl rfl rfl)
  · refine Dev.EngineStep.foldl _ (fun d _ _ => ?_) _
    exact .of_frame rfl rfl rfl rfl rfl
  · exact .ite (.wr (by decide) _ _) (.refl w)

theorem W.EngineStep.spaceWrite (space id a : Nat) (l : List Byte) : w.EngineStep (w.spaceWrite space id a l) := by
  unfold W.spaceWrite
  split
  · exact .lpWrite _ _
  · exact .portWrite _ _
  · exact .hostWrite _ _ _ _

theorem W.EngineStep.dmaMove {ch : Nat} (hch : ch < 32) (k ahead : Nat) (data : List Byte) : w.EngineStep (w.dmaMove ch k ahead data) := by
  unfold W.dmaMove
  refine (W.EngineStep.trans (.on (.of_frame rfl rfl rfl rfl rfl)) (.spaceWrite _ _ _ _)).trans (.on ?_)
  exact (Dev.EngineStep.onDma _ _).trans (.dmaShow hch)

theorem W.EngineStep.dmaBeat {ch : Nat} (hch : ch < 32) (data : List Byte) : w.EngineStep (w.dmaBeat ch data) := by
  unfold W.dmaBeat
  refine (W.EngineStep.trans (.on (.reachUpdate (.inl rfl))) (.ite (.on (.dmaFail hch 3)) (.dmaMove hch _ _ data))).trans (.on ?_)
  exact .ite (.of_frame rfl rfl rfl rfl rfl) (.of_frame rfl rfl rfl rfl rfl)

theorem W.EngineStep.dmaBeats {ch : Nat} (hch : ch < 32) (n : Nat) (data : List Byte) (w : W) : w.EngineStep (W.dmaBeats ch n data w) := by
  induction n generalizing data w with
  | zero => exact .refl w
  | succ n ih => exact .ite ((W.EngineStep.dmaBeat hch data).trans (ih _ _)) (.refl w)

theorem W.EngineStep.dmaProgress {ch : Nat} (hch : ch < 32) (data : List Byte) : w.EngineStep (w.dmaProgress ch data) :=
  W.EngineStep.trans (w' := w.dev Dev.useFree) (.on (.of_frame rfl rfl rfl rfl rfl)) (.dmaBeats hch _ _ _)

theorem W.EngineStep.bltPart (e y m : Nat) : w.EngineStep (w.bltPart e y m) := by
  unfold W.bltPart
  refine .ite (.refl w) ?_
  exact W.EngineStep.trans (w' := w.dev (fun d => d.reachUpdate .blt)) (.on (.reachUpdate (.inr rfl)))
    (.ite (.lpWrite _ _) (.portWrite _ _))

theorem engineReg_BLT_ROWS {e : Nat} (he : e < 4) : EngineReg (Reg.BLT_ROWS e) :=
  engineReg_of_block (by unfold Reg.BLT_ROWS; omega) (by unfold Reg.BLT_ROWS; omega)

theorem W.EngineStep.bltRows {e : Nat} (he : e < 4) (k : Nat) : w.EngineStep (w.bltRows e k) := by
  unfold W.bltRows
  refine ((W.EngineStep.ite (.on (.of_frame rfl rfl rfl rfl rfl)) (.refl w)).trans (W.EngineStep.foldl _ (fun w y _ => ?_) _)).trans
    (.on (.sg (engineReg_BLT_ROWS he) _))
  exact .bltPart _ _ _

theorem W.EngineStep.bltHalt {e : Nat} (he : e < 4) (k j : Nat) : w.EngineStep (w.bltHalt e k j) := by
  unfold W.bltHalt
  refine ((W.EngineStep.bltRows he k).trans ?_).trans (.on ?_)
  · split
    · exact .bltPart _ _ _
    · exact .refl _
  · exact (Dev.EngineStep.ite ((Dev.EngineStep.wmFire he).trans (.raiseIf (by omega) _)) (.refl _)).trans
      (.bltEnd he)

theorem W.EngineStep.bltStop {e : Nat} (he : e < 4) : w.EngineStep (w.bltStop e) :=
  (W.EngineStep.trans (w' := w.dev Dev.useFree) (.on (.of_frame rfl rfl rfl rfl rfl)) (.on (.of_frame rfl rfl rfl rfl rfl))).trans
    (.bltHalt he _ _)

theorem W.EngineStep.stopEngines (w : W) : w.EngineStep w.stopEngines := by
  unfold W.stopEngines
  refine .ite (.refl w) ((W.EngineStep.foldl _ (fun w ch hch => ?_) w).trans (W.EngineStep.foldl _ (fun w e he => ?_) _))
  · have hch := List.mem_range.mp hch
    exact .ite ((W.EngineStep.dmaProgress hch []).trans (.on (.dmaHalt hch))) (.refl w)
  · exact .ite (.bltStop (List.mem_range.mp he)) (.refl w)

theorem foldl_eq_self {α β : Type} {g : β → α → β} {w : β} (l : List α) (h : ∀ x ∈ l, g w x = w) : l.foldl g w = w := by
  induction l with
  | nil => rfl
  | cons x l ih =>
    rw [List.foldl_cons, h x List.mem_cons_self]
    exact ih fun y hy => h y (List.mem_cons_of_mem _ hy)

/-- With nothing running there is nothing to stop. -/
theorem W.stopEngines_of_noEngine (h : w.d.noEngine = true) : w.stopEngines = w := by
  simp only [Dev.noEngine, Bool.and_eq_true, List.all_eq_true, Bool.not_eq_true'] at h
  obtain ⟨hdma, hblt⟩ := h
  have h1 : (List.range 32).foldl
      (fun w ch => if (w.d.dmaAt ch).busy then (w.dmaProgress ch []).dev (fun d => d.dmaHalt ch) else w) w = w :=
    foldl_eq_self _ fun ch hch => if_neg (by rw [hdma ch hch]; decide)
  have h2 : (List.range 4).foldl (fun w e => if w.d.bltBusy e then w.bltStop e else w) w = w :=
    foldl_eq_self _ fun e he => if_neg (by rw [hblt e he]; decide)
  unfold W.stopEngines
  rw [h1, h2]
  split <;> rfl

theorem W.stopEngines_of_down (h : w.d.coreUp = false) : w.stopEngines = w := if_pos (by rw [h]; rfl)

/-! ### An interrupted flash operation (R505) -/

/-- The page or sector in progress of slot `s` is left undefined. -/
def W.abandonUnit (w : W) (s : Nat) : W :=
  match w.d.flashUnit s with
  | some (a, n) =>
    (w.wrBytes .flash a ((List.range n).map (fun i => BitVec.ofNat 8 (Config.freeWord (w.d.free + i)).toNat))).dev
      (fun d => { d with free := d.free + n })
  | none => w

/-- From `w` to `w'` flash operations of `d` were interrupted: only bytes of their units are written, and only free values are used. -/
structure W.Abandons (d : Dev) (w w' : W) : Prop where
  dev : ∃ n, w'.d = { w.d with free := n }
  zero : w'.zero = w.zero
  ws : ∃ l, w'.ws = l ++ w.ws ∧ ∀ x ∈ l, x.sp = .flash ∧ ∃ i p n, i < 64 ∧ d.flashUnit i = some (p, n) ∧ p ≤ x.addr ∧ x.addr < p + n

end

end Sys2Proof.Machine
end

section
/-!
PROOFS. Resets and power (O7, O8, O9): what a reset leaves of the registers, and the bytes it may write.
-/

namespace Sys2Proof.Machine

/-! ### Tables -/

/-- A table restricted to some keys reads the default at the others. -/
theorem Tab.get_filter_key {α : Type} (p : Nat → Bool) (d : Nat → α) (t : Tab α) (k : Nat) :
    Tab.get d (t.filter (fun q => p q.1)) k = if p k then Tab.get d t k else d k := by
  induction t with
  | nil => simp
  | cons q t ih =>
    cases hq : p q.1
    case true =>
      rw [List.filter_cons_of_pos (by exact hq), Tab.get, Tab.get]
      split
      case isTrue h => rw [if_pos (h ▸ hq)]
      case isFalse h => exact ih
    case false =>
      rw [List.filter_cons_of_neg (by rw [hq]; decide), ih]
      cases hk : p k
      case true =>
        have hne : q.1 ≠ k := fun h => absurd (hk.symm.trans (h ▸ hq)) (by decide)
        rw [Tab.get, if_neg hne]
      case false => rfl

/-! ### What an interrupted flash operation writes (R505) -/

section
variable {w w' w'' : W} {d : Dev}

theorem W.wrBytes_ws (w : W) (sp : MemSp) (a : Nat) (bs : List Byte) :
    ∃ l, w.wrBytes sp a bs = { w with ws := l ++ w.ws } ∧ ∀ x ∈ l, x.sp = sp ∧ a ≤ x.addr ∧ x.addr < a + bs.length := by
  have key : ∀ (ps : List (Byte × Nat)) (w : W), (∀ p ∈ ps, p.2 < bs.length) →
      ∃ l, ps.foldl (fun w p => w.wr sp (a + p.2) p.1) w = { w with ws := l ++ w.ws } ∧
        ∀ x ∈ l, x.sp = sp ∧ a ≤ x.addr ∧ x.addr < a + bs.length := by
    intro ps
    induction ps with
    | nil => exact fun w _ => ⟨[], rfl, fun _ h => absurd h List.not_mem_nil⟩
    | cons p ps ih =>
      intro w hps
      obtain ⟨l, hl, hx⟩ := ih (w.wr sp (a + p.2) p.1) fun q hq => hps q (List.mem_cons_of_mem _ hq)
      refine ⟨l ++ [⟨sp, a + p.2, p.1⟩], by rw [List.foldl_cons, hl, List.append_assoc]; rfl, fun x hxl => ?_⟩
      obtain hxl | hxl := List.mem_append.mp hxl
      · exact hx x hxl
      · rw [List.mem_singleton.mp hxl]
        have := hps p List.mem_cons_self
        exact ⟨rfl, Nat.le_add_right _ _, by dsimp only; omega⟩
  exact key _ w fun p hp => List.mem_range.mp (List.of_mem_zip hp).2

theorem Dev.flashUnit_free (d : Dev) (n s : Nat) : ({ d with free := n } : Dev).flashUnit s = d.flashUnit s := rfl

theorem W.Abandons.refl (d : Dev) (w : W) : W.Abandons d w w := ⟨⟨_, rfl⟩, rfl, [], rfl, fun _ h => absurd h List.not_mem_nil⟩

theorem W.Abandons.trans (h : W.Abandons d w w') (h' : W.Abandons d w' w'') : W.Abandons d w w'' := by
  obtain ⟨⟨n, hd⟩, hz, l, hl, hx⟩ := h
  obtain ⟨⟨n', hd'⟩, hz', l', hl', hx'⟩ := h'
  refine ⟨⟨n', by rw [hd', hd]⟩, hz'.trans hz, l' ++ l, by rw [hl', hl, List.append_assoc], fun x h => ?_⟩
  exact (List.mem_append.mp h).elim (hx' x) (hx x)

theorem W.abandonUnit_abandons {i : Nat} (hi : i < 64) (h : w.d.flashUnit i = d.flashUnit i) : W.Abandons d w (w.abandonUnit i) := by
  unfold W.abandonUnit
  split
  case h_2 => exact .refl d w
  case h_1 p n hu =>
    obtain ⟨l, hl, hx⟩ := w.wrBytes_ws .flash p ((List.range n).map fun i => BitVec.ofNat 8 (Config.freeWord (w.d.free + i)).toNat)
    rw [hl]
    refine ⟨⟨_, rfl⟩, rfl, l, rfl, fun x hxl => ?_⟩
    obtain ⟨hsp, hlo, hhi⟩ := hx x hxl
    rw [List.length_map, List.length_range] at hhi
    exact ⟨hsp, i, p, n, hi, h ▸ hu, hlo, hhi⟩

theorem W.abandonFlash_of_down (h : w.d.coreUp = false) : w.abandonFlash = w := if_pos (by rw [h]; rfl)

theorem W.abandonFlash_abandons (w : W) : W.Abandons w.d w w.abandonFlash := by
  have key : ∀ (l : List Nat), (∀ i ∈ l, i < 64) → ∀ w' : W, W.Abandons w.d w w' → W.Abandons w.d w (l.foldl W.abandonUnit w') := by
    intro l
    induction l with
    | nil => exact fun _ w' h => h
    | cons i l ih =>
      intro hl w' h
      refine ih (fun j hj => hl j (List.mem_cons_of_mem _ hj)) _ (h.trans ?_)
      obtain ⟨⟨n, hd⟩, -, -⟩ := h
      exact W.abandonUnit_abandons (hl i List.mem_cons_self) (by rw [hd, Dev.flashUnit_free])
  unfold W.abandonFlash
  split
  · exact .refl _ w
  · exact key (List.range 64) (fun i hi => List.mem_range.mp hi) w (.refl _ w)

/-- Before a reset takes effect, flash operations are interrupted and transfers stop. -/
def W.halted (w : W) : W := w.abandonFlash.stopEngines

theorem W.halted_of_down (h : w.d.coreUp = false) : w.halted = w := by
  rw [W.halted, W.abandonFlash_of_down h, W.stopEngines_of_down h]

theorem W.halted_dev (w : W) : w.d.EngineStep w.halted.d := by
  obtain ⟨⟨n, hd⟩, -, -⟩ := w.abandonFlash_abandons
  refine Dev.EngineStep.trans (e := w.abandonFlash.d) ?_ (W.EngineStep.stopEngines _).dev
  rw [hd]
  exact .of_frame rfl rfl rfl rfl rfl

theorem W.halted_zero (w : W) : w.halted.zero = w.zero := (W.EngineStep.stopEngines _).zero.trans w.abandonFlash_abandons.zero

/-- May stopping the part's transfers and flash operations write the byte at `a` of space `sp`? -/
def Dev.HaltWrites (d : Dev) (sp : MemSp) (a : Nat) : Prop :=
  (sp ≠ .flash ∧ sp ≠ .otp ∧ sp ≠ .tcm ∧ d.noEngine = false) ∨
    (sp = .flash ∧ ∃ i p n, i < 64 ∧ d.flashUnit i = some (p, n) ∧ p ≤ a ∧ a < p + n)

theorem W.halted_ws (w : W) : ∃ l, w.halted.ws = l ++ w.ws ∧ ∀ x ∈ l, w.d.HaltWrites x.sp x.addr := by
  obtain ⟨⟨n, hd⟩, -, l, hl, hx⟩ := w.abandonFlash_abandons
  have hflash : ∀ x ∈ l, w.d.HaltWrites x.sp x.addr := fun x h => .inr (hx x h)
  cases hno : w.d.noEngine
  case true =>
    have hno' : w.abandonFlash.d.noEngine = true := by rw [hd]; exact hno
    exact ⟨l, by rw [W.halted, W.stopEngines_of_noEngine hno', hl], hflash⟩
  case false =>
    obtain ⟨-, -, l', hl', hx'⟩ := W.EngineStep.stopEngines w.abandonFlash
    refine ⟨l' ++ l, by rw [W.halted, hl', hl, List.append_assoc], fun x h => ?_⟩
    obtain h | h := List.mem_append.mp h
    · obtain ⟨hf, ho, ht⟩ := hx' x h
      exact .inl ⟨hf, ho, ht, hno⟩
    · exact hflash x h

end

section
variable {s : State} {f : Dev → Dev}

theorem State.afterRun_halted_read {sp : MemSp} {a : Nat} (h : ¬ s.d.HaltWrites sp a) :
    (s.afterRun fun w => w.halted.dev f).mem.read sp a = s.mem.read sp a := by
  have hz : (s.ctx.halted.dev f).zero = [] := W.halted_zero s.ctx
  obtain ⟨l, hl, hx⟩ := s.ctx.halted_ws
  rw [State.ctx_ws, List.append_nil] at hl
  rw [State.afterRun_mem, hz, Mem.zeroBanks_nil]
  refine Mem.read_apply_of_not_mem fun x hmem hxa => h ?_
  have hmem : x ∈ l := by rw [← hl]; exact List.mem_reverse.mp hmem
  obtain ⟨rfl, rfl⟩ := hxa
  exact hx x hmem

theorem State.afterRun_halted_mem (h : s.d.coreUp = false) : (s.afterRun fun w => w.halted.dev f).mem = s.mem := by
  refine State.afterRun_mem_of_quiet _ _ ?_ ?_
  · exact W.halted_zero s.ctx
  · rw [W.halted_of_down (w := s.ctx) h]
    rfl

/-- The bytes that the statements of a reset name are none that it may write. -/
theorem not_haltWrites {d : Dev} {sp : MemSp} {a : Nat} (h : sp = .otp ∨ sp = .tcm ∨ (sp ≠ .flash ∧ d.noEngine = true) ∨
    (sp = .flash ∧ ∀ i p n, i < 64 → d.flashUnit i = some (p, n) → a < p ∨ p + n ≤ a)) : ¬ d.HaltWrites sp a := by
  rintro (⟨hf, ho, ht, hno⟩ | ⟨rfl, i, p, n, hi, hu, hlo, hhi⟩)
  · obtain h | h | ⟨-, h⟩ | ⟨h, -⟩ := h
    · exact ho h
    · exact ht h
    · exact absurd h (by rw [hno]; decide)
    · exact hf h
  · obtain h | h | ⟨h, -⟩ | ⟨-, h⟩ := h
    · exact absurd h (by decide)
    · exact absurd h (by decide)
    · exact h rfl
    · obtain h | h := h i p n hi hu <;> omega

theorem Dev.porReset_rg {d : Dev} {a : Nat} (h : indexOf (Reg.GP_IN 0) 4 4 a = none) : d.porReset.rg a = Reg.resetWord a := by
  have hget := Tab.get_filter_key (fun k => (indexOf (Reg.GP_IN 0) 4 4 k).isSome) Reg.resetWord d.regs a
  rw [h, if_neg (by decide)] at hget
  exact hget

end

/-- Settles O7: transfers and flash operations stop before both domains take their reset state. -/
theorem porResetsBothDomains : Obligations.PorResetsBothDomains := by
  intro c s hc
  have hexec : exec c s = .next (s.afterRun fun w => w.halted.dev Dev.porReset) := by obtain rfl | rfl := hc <;> rfl
  refine ⟨_, hexec, rfl, rfl, fun a ha => Dev.porReset_rg ha, rfl, rfl, rfl, rfl, rfl, rfl, rfl, rfl, rfl, rfl, ?_, ?_, rfl⟩
  · exact State.afterRun_halted_mem
  · exact fun sp a h => State.afterRun_halted_read (not_haltWrites h)

/-! ### The registers that CORE_RST_N leaves (R20) -/

/-- The rows marked POR_N, one register each, and where they lie. -/
theorem RegTable.por_rows : ∀ l ∈ RegTable.blocks, ∀ r ∈ l, r.por = true → r.s2 = 0 ∧ r.s1 = 0x4000000 ∧ r.n1 = 1 ∧
    (r.base < 0x200000 ∨ r.base = 0xC80018 ∨ (0x1100000 ≤ r.base ∧ r.base < 0x1200000) ∨ 0x1701000 ≤ r.base) := by decide

theorem por_place {a : Nat} {r : RegDesc} (h : RegTable.find a = some r) (hp : r.por = true) (ha : a < 0x2000000) :
    a < 0x200000 ∨ a = 0xC80018 ∨ (0x1100000 ≤ a ∧ a < 0x1200000) ∨ 0x1701000 ≤ a := by
  obtain ⟨⟨l, hl, hr⟩, hcov⟩ := RegTable.exists_of_find h
  obtain ⟨h2, h1, hn, hb⟩ := RegTable.por_rows l hl r hr hp
  rw [RegDesc.covers_iff h2, h1, hn] at hcov
  omega

/-- No transfer moves a register that CORE_RST_N leaves. -/
theorem not_engineReg_of_kept {a : Nat} (h : keptReg a = true) : ¬ EngineReg a := by
  unfold keptReg at h
  simp only [Bool.or_eq_true] at h
  unfold EngineReg Reg.OBJ_STAT Reg.TP_STAT Reg.UPD_STAT Reg.INT_HOST_PEND
  by_cases ha : a < 0x2000000
  case neg => omega
  obtain ((hpor | hav) | hgp) | hmb := h
  · cases hf : RegTable.find a
    case none => rw [hf] at hpor; exact absurd hpor (by decide)
    case some r =>
      rw [hf] at hpor
      have := por_place hf hpor ha
      omega
  · obtain ⟨hlo, -, -⟩ := indexOf_isSome hav
    unfold Reg.AV_BANK at hlo
    omega
  · obtain ⟨hlo, -, hlt⟩ := indexOf_isSome hgp
    unfold Reg.GP_IN at hlo hlt
    omega
  · obtain ⟨hlo, -, hlt⟩ := indexOf_isSome hmb
    unfold Reg.MEM_BANK_CTRL at hlo hlt
    omega

/-- From `d` to `e` banks have gone into retention or lost what AV_BANK notes of them, and a STATE frame may be on its way. -/
structure Dev.BankStep (d e : Dev) : Prop where
  tick : e.tick = d.tick
  tb : e.tb = d.tb
  rtOff : e.ring.rtOff = d.ring.rtOff
  power : e.power = d.power
  rg : ∀ a, indexOf (Reg.AV_BANK 0) 4 96 a = none → indexOf (Reg.MEM_BANK_CTRL 0) 4 96 a = none → e.rg a = d.rg a
  ret : ∀ b, b < 96 → e.bt (Reg.MEM_BANK_CTRL b) 0 = d.bt (Reg.MEM_BANK_CTRL b) 0

section
variable {d e f : Dev} {b : Nat}

theorem Dev.BankStep.refl (d : Dev) : d.BankStep d := ⟨rfl, rfl, rfl, rfl, fun _ _ _ => rfl, fun _ _ => rfl⟩

theorem Dev.BankStep.trans (h : d.BankStep e) (h' : e.BankStep f) : d.BankStep f :=
  ⟨h'.tick.trans h.tick, h'.tb.trans h.tb, h'.rtOff.trans h.rtOff, h'.power.trans h.power,
    fun a hav hmb => (h'.rg a hav hmb).trans (h.rg a hav hmb), fun b hb => (h'.ret b hb).trans (h.ret b hb)⟩

theorem Dev.BankStep.foldl {g : Dev → Nat → Dev} (l : List Nat) (hg : ∀ (d : Dev) (x : Nat), x ∈ l → d.BankStep (g d x)) (d : Dev) :
    d.BankStep (l.foldl g d) := by
  induction l generalizing d with
  | nil => exact .refl d
  | cons x l ih => exact (hg d x List.mem_cons_self).trans (ih (fun d y hy => hg d y (List.mem_cons_of_mem _ hy)) _)

theorem Dev.BankStep.sf_AV_BANK (hb : b < 96) (lo n v : Nat) : d.BankStep (d.sf (Reg.AV_BANK b) lo n v) := by
  refine ⟨rfl, rfl, rfl, rfl, fun a hav _ => Dev.rg_sg_of_ne _ _ _ _ ?_, fun k hk => congrArg (·.getLsbD 0) (Dev.rg_sg_of_ne _ _ _ _ ?_)⟩
  · rintro rfl
    refine absurd hav ?_
    unfold Reg.AV_BANK indexOf
    rw [if_pos (by omega)]
    exact nofun
  · unfold Reg.AV_BANK Reg.MEM_BANK_CTRL
    omega

/-- STATE of a bank changes; its RET does not. -/
theorem Dev.BankStep.bankState (hb : b < 96) (v : Nat) : d.BankStep (d.sf (Reg.MEM_BANK_CTRL b) 1 2 v) := by
  refine ⟨rfl, rfl, rfl, rfl, fun a _ hmb => Dev.rg_sg_of_ne _ _ _ _ ?_, fun k hk => ?_⟩
  · rintro rfl
    refine absurd hmb ?_
    unfold Reg.MEM_BANK_CTRL indexOf
    rw [if_pos (by omega)]
    exact nofun
  · by_cases hkb : Reg.MEM_BANK_CTRL b = Reg.MEM_BANK_CTRL k
    · rw [← hkb, Dev.bt, Dev.sf, Dev.rg_sg_self]
      exact (getLsbD_fieldWord _ _ _ _ _ (by decide)).trans (if_pos (by decide))
    · exact congrArg (·.getLsbD 0) (Dev.rg_sg_of_ne _ _ _ _ hkb)

theorem Dev.BankStep.retainDue (d : Dev) : d.BankStep d.retainDue := by
  refine Dev.BankStep.foldl _ (fun d i hi => ?_) d
  have hi := List.mem_range.mp hi
  unfold Dev.retainBank
  split
  · exact .bankState (by omega) 1
  · exact .refl d

theorem Dev.BankStep.stateIfChanged (d : Dev) : d.BankStep d.stateIfChanged := by
  unfold Dev.stateIfChanged
  split
  · exact ⟨rfl, rfl, rfl, rfl, fun _ _ _ => rfl, fun _ _ => rfl⟩
  · exact .refl d

/-- What the core domain's reset keeps, before the banks follow it. -/
theorem Dev.coreReset_of_kept (d : Dev) : ∃ e : Dev, e.tick = d.tick ∧ e.tb = d.tb ∧ e.ring.rtOff = d.ring.rtOff ∧ e.power = d.power ∧
    (∀ a, e.rg a = if keptReg a then d.rg a else Reg.resetWord a) ∧ e.BankStep d.coreReset := by
  unfold Dev.coreReset
  dsimp only
  refine ⟨_, ?_, ?_, ?_, ?_, ?_,
    ((Dev.BankStep.foldl _ (fun _ _ hb => .sf_AV_BANK (List.mem_range.mp hb) 8 8 0) _).trans (.stateIfChanged _)).trans (.retainDue _)⟩
  · rfl
  · rfl
  · rfl
  · rfl
  · exact fun a => Tab.get_filter_key keptReg Reg.resetWord d.regs a

end

theorem keptReg_MEM_BANK_CTRL {b : Nat} (hb : b < 96) : keptReg (Reg.MEM_BANK_CTRL b) = true := by
  have h : (indexOf (Reg.MEM_BANK_CTRL 0) 4 96 (Reg.MEM_BANK_CTRL b)).isSome = true := by
    unfold Reg.MEM_BANK_CTRL indexOf
    rw [if_pos (by omega)]
    rfl
  rw [keptReg, h, Bool.or_true]

/-- CORE_RST_N falls: the core domain resets and the PIN bit of the cause sets. -/
def Dev.pinReset (d : Dev) : Dev := d.coreReset.sb Reg.SYS_RST_CAUSE 1

/-- What the reset by CORE_RST_N leaves of the device of `d`, after transfers have gone on. -/
theorem Dev.pinReset_spec {d e : Dev} (h : d.EngineStep e) :
    e.pinReset.tick = d.tick ∧ e.pinReset.tb = d.tb ∧ e.pinReset.ringTime = d.ringTime ∧ e.pinReset.power = d.power ∧
    e.pinReset.bt Reg.SYS_RST_CAUSE 1 = true ∧
    (∀ a, a ≠ Reg.SYS_RST_CAUSE → indexOf (Reg.AV_BANK 0) 4 96 a = none → indexOf (Reg.MEM_BANK_CTRL 0) 4 96 a = none →
      keptReg a = true → e.pinReset.rg a = d.rg a) ∧
    (∀ b, b < 96 → e.pinReset.bt (Reg.MEM_BANK_CTRL b) 0 = d.bt (Reg.MEM_BANK_CTRL b) 0) ∧
    (∀ a, a ≠ Reg.SYS_RST_CAUSE → indexOf (Reg.AV_BANK 0) 4 96 a = none → keptReg a = false → e.pinReset.rg a = Reg.resetWord a) := by
  obtain ⟨k, htick, htb, hoff, hpower, hrg, hb⟩ := e.coreReset_of_kept
  have htb' : e.pinReset.tb = d.tb := hb.tb.trans (htb.trans h.tb)
  have hoff' : e.pinReset.ring.rtOff = d.ring.rtOff := hb.rtOff.trans (hoff.trans (congrArg _ h.ring))
  have hne : ∀ a, a ≠ Reg.SYS_RST_CAUSE → e.pinReset.rg a = e.coreReset.rg a := fun a ha => Dev.rg_sg_of_ne _ _ _ _ ha.symm
  refine ⟨hb.tick.trans (htick.trans h.tick), htb', by rw [Dev.ringTime, Dev.ringTime, htb', hoff'], hb.power.trans (hpower.trans h.power),
    Dev.bt_sb_self _ _ (by decide), fun a hc hav hmb hk => ?_, fun b hlt => ?_, fun a hc hav hk => ?_⟩
  · rw [hne a hc, hb.rg a hav hmb, hrg, if_pos hk, h.rg a (not_engineReg_of_kept hk)]
  · have hc : Reg.MEM_BANK_CTRL b ≠ Reg.SYS_RST_CAUSE := by unfold Reg.MEM_BANK_CTRL Reg.SYS_RST_CAUSE; omega
    have hk := keptReg_MEM_BANK_CTRL hlt
    have hret := hb.ret b hlt
    unfold Dev.bt at hret ⊢
    rw [hne _ hc, hret, hrg, if_pos hk, h.rg _ (not_engineReg_of_kept hk)]
  · have hmb : indexOf (Reg.MEM_BANK_CTRL 0) 4 96 a = none := by
      unfold keptReg at hk
      simp only [Bool.or_eq_false_iff] at hk
      exact Option.not_isSome_iff_eq_none.mp (Bool.eq_false_iff.mp hk.2)
    rw [hne a hc, hb.rg a hav hmb, hrg, if_neg (by rw [hk]; decide)]

section
variable {s : State} {f : Dev → Dev}

/-- Does the reset of the core domain in state `s` lead to `t` (R18 to R20, R595)? -/
def State.CoreResets (s t : State) : Prop :=
  t.d.coreUp = false ∧ t.d.aonUp = true ∧ t.d.bt Reg.SYS_RST_CAUSE 1 = true ∧
    t.d.tick = s.d.tick ∧ t.d.tb = s.d.tb ∧ t.d.ringTime = s.d.ringTime ∧
    (∀ a, a ≠ Reg.SYS_RST_CAUSE → indexOf (Reg.AV_BANK 0) 4 96 a = none → indexOf (Reg.MEM_BANK_CTRL 0) 4 96 a = none →
      keptReg a = true → t.d.rg a = s.d.rg a) ∧
    (∀ b, b < 96 → t.d.bt (Reg.MEM_BANK_CTRL b) 0 = s.d.bt (Reg.MEM_BANK_CTRL b) 0) ∧
    (∀ a, a ≠ Reg.SYS_RST_CAUSE → indexOf (Reg.AV_BANK 0) 4 96 a = none → keptReg a = false → t.d.rg a = Reg.resetWord a) ∧
    (s.d.coreUp = false → t.mem = s.mem) ∧
    (∀ sp a, sp = .otp ∨ sp = .tcm ∨ (sp ≠ .flash ∧ s.d.noEngine = true) ∨
        (sp = .flash ∧ ∀ i p n, i < 64 → s.d.flashUnit i = some (p, n) → a < p ∨ p + n ≤ a) →
      t.mem.read sp a = s.mem.read sp a) ∧ t.pending = s.pending

/-- Transfers stop, then the core domain resets and CORE_RST_N is low. -/
theorem State.coreResets_of_halted (hf : ∀ e : Dev, e.power = s.d.power →
    ∃ p : Power, f e = { e.pinReset with power := p } ∧ p.por = false ∧ p.coreRst = true) :
    s.CoreResets (s.afterRun fun w => w.halted.dev f) := by
  have hstep : s.d.EngineStep s.ctx.halted.d := s.ctx.halted_dev
  obtain ⟨p, hfe, hpor, hrst⟩ := hf _ hstep.power
  obtain ⟨htick, htb, hrt, -, hpin, hkept, hret, hclear⟩ := Dev.pinReset_spec hstep
  refine ⟨?_, ?_, ?_, ?_, ?_, ?_, ?_, ?_, ?_, State.afterRun_halted_mem, fun sp a h => State.afterRun_halted_read (not_haltWrites h), rfl⟩
  all_goals
    rw [State.afterRun_d]
    dsimp only [W.dev]
    rw [hfe]
  · rw [Dev.coreUp, hrst, Bool.not_true, Bool.and_false, Bool.false_and]
  · rw [Dev.aonUp, hpor]; rfl
  · exact hpin
  · exact htick
  · exact htb
  · exact hrt
  · exact hkept
  · exact hret
  · exact hclear

/-- Settles O8: the registers marked POR_N and those of the pads, retention and repair are none that transfers move. -/
theorem coreResetKeepsAlwaysOn : Obligations.CoreResetKeepsAlwaysOn := by
  refine ⟨fun c s hpor hc => ?_, fun s hrst => ?_⟩
  · obtain rfl | ⟨rfl, hrst⟩ := hc
    · refine ⟨_, rfl, State.coreResets_of_halted (f := _) fun e he => ?_⟩
      refine ⟨{ e.pinReset.power with coreRst := true }, ?_, ?_, rfl⟩
      · dsimp only
        rw [he, hpor]
        rfl
      · exact (congrArg Power.por (Dev.pinReset_spec (.refl e)).2.2.2.1).trans ((congrArg Power.por he).trans hpor)
    · refine ⟨_, rfl, State.coreResets_of_halted (f := _) fun e he => ?_⟩
      refine ⟨{ e.pinReset.power with coreRst := true, coreOff := true }, ?_, ?_, rfl⟩
      · dsimp only
        rw [he, hpor, hrst]
        rfl
      · exact (congrArg Power.por (Dev.pinReset_spec (.refl e)).2.2.2.1).trans ((congrArg Power.por he).trans hpor)
  · have hdown : s.d.coreUp = false := by rw [Dev.coreUp, hrst, Bool.not_true, Bool.and_false, Bool.false_and]
    refine congrArg Host.Outcome.next (State.afterRun_eq_afterDev _ _ _ ?_)
    have hh := W.halted_of_down (w := s.ctx) hdown
    unfold W.halted at hh
    unfold corePowerOff
    rw [hh]
    unfold W.dev
    dsimp only
    rw [State.ctx_d, hrst, Bool.or_true, if_pos rfl]

theorem toNat_fieldWord_bits {v : Word} {lo n x : Nat} (h : lo + n ≤ 32) : bits (fieldWord v lo n x).toNat lo n = x % 2 ^ n := by
  refine Nat.eq_of_testBit_eq fun i => ?_
  rw [bits, Nat.testBit_mod_two_pow, Nat.testBit_mod_two_pow, Nat.testBit_div_two_pow]
  by_cases hi : i < n
  case pos =>
    rw [BitVec.testBit_toNat, getLsbD_fieldWord _ _ _ _ _ (by omega), if_neg (by omega), if_pos (by omega), Nat.add_sub_cancel]
  case neg => simp [hi]

theorem Dev.fd_sf_self {d : Dev} {a lo n x : Nat} (h : lo + n ≤ 32) : (d.sf a lo n x).fd a lo n = x % 2 ^ n := by
  rw [Dev.fd, Dev.sf, Dev.rg_sg_self]
  exact toNat_fieldWord_bits h

theorem Dev.coreUp_of_coreRst {d : Dev} (h : d.power.coreRst = true) : d.coreUp = false := by
  rw [Dev.coreUp, h, Bool.not_true, Bool.and_false, Bool.false_and]

/-- Settles O9: with CORE_RST_N low the release of POR_N starts the always-on domain alone. -/
theorem releaseStartsBoot : Obligations.ReleaseStartsBoot := by
  refine ⟨fun s node hn hpor hrst => ?_, fun s hpor => ?_⟩
  · have hexec : exec (.porRelease node) s = .next (s.afterDev fun d =>
        ({ d with power := { d.power with por := false }, tb := 0 } : Dev).sf Reg.RING_NODE 0 6 node) := by
      refine (if_pos hn).trans (congrArg Host.Outcome.next (State.afterRun_eq_afterDev _ _ _ ?_))
      unfold porRelease
      rw [State.ctx_d, hpor, if_neg (by decide)]
      refine if_neg (Bool.eq_false_iff.mp ?_)
      exact Dev.coreUp_of_coreRst hrst
    refine ⟨_, hexec, ?_, rfl, ?_, fun a ha => Dev.rg_sg_of_ne _ _ _ _ ha.symm, rfl⟩
    · rfl
    · exact (Dev.fd_sf_self (by decide)).trans (Nat.mod_eq_of_lt hn)
  · refine State.next_afterRun_congr ?_
    have hup : (s.ctx.dev fun d => { d with power := { d.power with coreRst := false, coreOff := false } }).d.coreUp = true := by
      unfold Dev.coreUp W.dev
      rw [State.ctx_d, hpor]
      rfl
    unfold coreRstRelease
    dsimp only
    rw [hup, Bool.true_and]
    by_cases hphase : s.d.phase = 1
    · exact (if_pos (beq_iff_eq.mpr hphase)).trans (if_pos hphase).symm
    · exact (if_neg fun h => hphase (beq_iff_eq.mp h)).trans (if_neg hphase).symm

end

end Sys2Proof.Machine
end

section
/-!
PROOFS. The CTRL and expert-register writes of the blocks whose update point is a later event (O16, O17).
-/

namespace Sys2Proof.Machine

/-! ### The blocks and their registers -/

theorem late_ok : ∀ b ∈ lateBlocks, b.ok = true := by decide

theorem late_profileWidth : ∀ b ∈ lateBlocks, b.profileWidth = 4 := by decide

theorem late_experts : ∀ b ∈ lateBlocks, b.experts.Nodup ∧ b.ctrl ∉ b.experts := by decide

theorem late_profile {b : Block} (hb : b ∈ lateBlocks) (p ph : Nat) : b.profile p ph = b.profile p 0 := by
  simp only [lateBlocks, List.mem_cons, List.not_mem_nil, or_false] at hb
  obtain rfl | rfl | rfl | rfl | rfl | rfl | rfl | rfl | rfl := hb
  all_goals rfl

theorem Block.stat_ne_ctrl (b : Block) : b.stat ≠ b.ctrl := by unfold Block.stat; omega

/-- The row of an expert register: no field clears or sets by a written 1, and its block is the one whose PROFILE sets it. -/
theorem late_expert_row : ∀ b ∈ lateBlocks, ∀ off ∈ b.experts,
    (RegTable.find off).map (fun r => (r.w1c, r.w1s, r.block off)) = some (0, 0, some b) := by decide +kernel

section
variable (w : W) (d : Dev) (ag : Agent) (v : Word) {b : Block}

theorem W.busWrite_tp {a : Nat} (mask : Word) (hlo : 0x300000 ≤ a) (hhi : a < 0x400000) :
    w.busWrite ag a v mask = w.dev (fun d => d.tpWrite a v mask) := by
  rw [W.busWrite_low _ _ _ _ (by omega) (by omega) (routeAt_eq_none (by omega))]
  exact congrArg w.dev (funext fun d => Dev.contentWrite_tp _ _ _ hlo hhi)

/-- The CTRL register of such a block takes the rules of every block (R12 to R16). -/
theorem W.busWrite_late_ctrl (hb : b ∈ lateBlocks) : w.busWrite ag b.ctrl v 0xFFFFFFFF = w.dev (Dev.blockCtrl b 0xF1 v) := by
  have hmerge : ∀ (a : Nat) (d : Dev), mergeWord (d.rg a) v 0xFFFFFFFF = v := fun a d => mergeWord_ones _ _
  simp only [lateBlocks, List.mem_cons, List.not_mem_nil, or_false] at hb
  obtain rfl | rfl | rfl | rfl | rfl | rfl | rfl | rfl | rfl := hb
  · refine (W.busWrite_obj _ _ _ _ (by decide) (by decide)).trans (congrArg w.dev (funext fun d => ?_))
    rw [Dev.objWrite, hmerge]
    exact if_pos rfl
  · refine (W.busWrite_tp _ _ _ _ (by decide) (by decide)).trans (congrArg w.dev (funext fun d => ?_))
    rw [Dev.tpWrite, hmerge]
    exact if_pos rfl
  · refine (W.busWrite_hop _ _ _ _ (by decide) (by decide)).trans (congrArg w.dev (funext fun d => ?_))
    exact (if_pos rfl).trans (congrArg (d.ctrlWrite .hop) (hmerge _ d))
  · refine (W.busWrite_aud _ _ _ _ (by decide) (by decide)).trans (congrArg w.dev (funext fun d => ?_))
    rw [Dev.audWrite, if_neg (by decide), if_neg (by decide), if_neg (by decide), if_neg (by decide)]
    exact (if_pos rfl).trans (congrArg (d.ctrlWrite .aud) (hmerge _ d))
  · refine (W.busWrite_dma _ _ _ _ (by decide) (by decide)).trans ?_
    refine (if_neg (by decide)).trans ((if_pos rfl).trans (congrArg w.dev (funext fun d => ?_)))
    exact congrArg (d.ctrlWrite .dma) (hmerge _ d)
  · refine (W.busWrite_blt _ _ _ _ (by decide) (by decide)).trans ?_
    refine (if_neg (by decide)).trans ((if_pos rfl).trans (congrArg w.dev (funext fun d => ?_)))
    exact congrArg (d.ctrlWrite .blt) (hmerge _ d)
  · refine (W.busWrite_sys _ _ _ _ (by decide)).trans ?_
    unfold W.sysWrite
    refine (if_pos rfl).trans (congrArg w.dev (funext fun d => ?_))
    exact congrArg (Dev.blockCtrl .sys 0xF1 · d) (hmerge _ d)
  · refine (W.busWrite_upd _ _ _ _ (by decide) (by decide)).trans ?_
    unfold W.updWrite
    refine (if_pos rfl).trans (congrArg w.dev (funext fun d => ?_))
    exact congrArg (Dev.blockCtrl .upd 0xF1 · d) (hmerge _ d)
  · refine (W.busWrite_av _ _ _ _ (by decide) (by decide)).trans (congrArg w.dev (funext fun d => ?_))
    exact (if_pos rfl).trans (congrArg (Dev.blockCtrl .av 0xF1 · d) (hmerge _ d))

/-- An expert register of such a block has no rule but its access codes. -/
theorem W.busWrite_late_expert (hb : b ∈ lateBlocks) {off : Nat} (hoff : off ∈ b.experts) :
    w.busWrite ag off v 0xFFFFFFFF = w.dev (fun d => d.plainWrite off v 0xFFFFFFFF) := by
  simp only [lateBlocks, List.mem_cons, List.not_mem_nil, or_false] at hb
  obtain rfl | rfl | rfl | rfl | rfl | rfl | rfl | rfl | rfl := hb
  · obtain rfl : off = Reg.OBJ_BOL_CFG := List.mem_singleton.mp hoff
    refine (W.busWrite_obj _ _ _ _ (by decide) (by decide)).trans (congrArg w.dev (funext fun d => ?_))
    rw [Dev.objWrite, if_neg (by decide), if_neg (by decide), if_neg (by decide)]
  · obtain rfl : off = Reg.TP_MISS_CFG := List.mem_singleton.mp hoff
    refine (W.busWrite_tp _ _ _ _ (by decide) (by decide)).trans (congrArg w.dev (funext fun d => ?_))
    have hframe : frameOutput Reg.TP_MISS_CFG = none := by decide
    rw [Dev.tpWrite, if_neg (by decide), if_neg (by decide), hframe]
  · obtain rfl : off = Reg.HOP_CFG := List.mem_singleton.mp hoff
    refine (W.busWrite_hop _ _ _ _ (by decide) (by decide)).trans (congrArg w.dev (funext fun d => ?_))
    have htrk : indexOf (Reg.HOP_TRK_DONE 0) 8 64 Reg.HOP_CFG = none := by decide
    rw [Dev.hopWrite, if_neg (by decide), htrk]
  · have hplain : ∀ a, 0x1200000 ≤ a → a < 0x1203000 → a ≠ Reg.AUD_CTRL → a ≠ Reg.AUD_SAFE_CTRL → tdmPort a = false →
        w.busWrite ag a v 0xFFFFFFFF = w.dev (fun d => d.plainWrite a v 0xFFFFFFFF) := by
      intro a hlo hhi hctrl hsafe htdm
      refine (W.busWrite_aud _ _ _ _ hlo (by omega)).trans (congrArg w.dev (funext fun d => ?_))
      rw [Dev.audWrite, if_neg (by omega), if_neg (by omega), if_neg (by omega), if_neg (by omega), if_neg hctrl, if_neg hsafe,
        if_neg (by rw [htdm]; decide)]
    obtain rfl | rfl | rfl : off = Reg.AUD_CFG ∨ off = Reg.AUD_SIL_CFG ∨ off = Reg.AUD_SIL_HOLD := by
      obtain _ | ⟨_, _ | ⟨_, _ | ⟨_, h⟩⟩⟩ := hoff
      · exact .inl rfl
      · exact .inr (.inl rfl)
      · exact .inr (.inr rfl)
      · exact absurd h List.not_mem_nil
    all_goals exact hplain _ (by decide) (by decide) (by decide) (by decide) (by decide)
  · obtain rfl : off = Reg.DMA_CFG := List.mem_singleton.mp hoff
    refine (W.busWrite_dma _ _ _ _ (by decide) (by decide)).trans ?_
    rw [W.dmaWrite, if_neg (by decide), if_neg (by decide), if_neg (by decide)]
  · obtain rfl : off = Reg.BLT_CFG := List.mem_singleton.mp hoff
    refine (W.busWrite_blt _ _ _ _ (by decide) (by decide)).trans ?_
    rw [W.bltWrite, if_neg (by decide), if_neg (by decide), if_neg (by decide)]
  · obtain rfl : off = Reg.SYS_LOP_CFG := List.mem_singleton.mp hoff
    refine (W.busWrite_sys _ _ _ _ (by decide)).trans ?_
    rw [W.sysWrite, if_neg (by decide), if_neg (by decide), if_neg (by decide), if_neg (by decide), if_neg (by decide),
      if_neg (by decide), if_neg (by decide), if_neg (by decide)]
  · obtain rfl : off = Reg.UPD_CFG := List.mem_singleton.mp hoff
    refine (W.busWrite_upd _ _ _ _ (by decide) (by decide)).trans ?_
    rw [W.updWrite, if_neg (by decide), if_neg (by decide), if_neg (by decide), if_neg (by decide)]
  · obtain rfl : off = Reg.AV_CFG := List.mem_singleton.mp hoff
    refine (W.busWrite_av _ _ _ _ (by decide) (by decide)).trans (congrArg w.dev (funext fun d => ?_))
    have hout : indexOf (Reg.AV_OUT_CMD 0) 0x20 48 Reg.AV_CFG = none := by decide
    rw [Dev.avWrite, if_neg (by decide), if_neg (by decide), if_neg (by decide), if_neg (by decide), if_neg (by decide), hout]

theorem Dev.plainWrite_late_expert (hb : b ∈ lateBlocks) {off : Nat} (hoff : off ∈ b.experts) :
    d.plainWrite off v 0xFFFFFFFF = d.expertWrite b off (mergeWord (d.rg off) v (rwMask off)) := by
  have hrow := late_expert_row b hb off hoff
  cases hf : RegTable.find off
  case none => rw [hf] at hrow; exact absurd hrow (by simp)
  case some r =>
    rw [hf] at hrow
    simp only [Option.map_some, Option.some.injEq, Prod.mk.injEq] at hrow
    obtain ⟨hc, hs, hblock⟩ := hrow
    have hrw : rwMask off = BitVec.ofNat 32 r.rw := by rw [rwMask, hf]; rfl
    rw [Dev.plainWrite, hf]
    simp only [hblock, ones_and, hc, hs, BitVec.and_zero, BitVec.or_zero, BitVec.not_zero, BitVec.and_allOnes, mergeWord, hrw]

/-! ### Scheduled changes -/

/-- A change of the setting of such a block waits. -/
theorem Dev.schedule_late (hb : b ∈ lateBlocks) : ∃ u, d.schedule b = { d with upds := u } ∧ (Tab.at none u b.ctrl).isSome = true := by
  have hlater : d.updatePoint b = .later := by
    simp only [lateBlocks, List.mem_cons, List.not_mem_nil, or_false] at hb
    obtain rfl | rfl | rfl | rfl | rfl | rfl | rfl | rfl | rfl := hb
    all_goals rfl
  refine ⟨_, by rw [Dev.schedule, hlater], ?_⟩
  rw [Tab.at, Tab.upd, Tab.get_modify, if_pos rfl]
  rfl

end

/-- Settles O17: the row of an expert register names its block, whose LEVEL decides. -/
theorem expertWriteResults : Obligations.ExpertWriteResults := by
  intro s ag b off v hup hag hb hoff
  have hb : b ∈ lateBlocks := hb
  have hexpert : isExpert off = true := by
    have hrow := late_expert_row b hb off hoff
    unfold isExpert
    cases hf : RegTable.find off
    case none => rw [hf] at hrow; exact absurd hrow (by simp)
    case some r =>
      rw [hf] at hrow
      simp only [Option.map_some, Option.some.injEq, Prod.mk.injEq] at hrow
      obtain ⟨-, -, hblock⟩ := hrow
      unfold RegDesc.block at hblock
      split at hblock
      case isTrue he => exact he
      case isFalse => exact absurd hblock (by simp)
  have hexec : exec (.expertRegisterWrite ag off v) s =
      .next (s.afterDev fun d => d.expertWrite b off (mergeWord (d.rg off) v (rwMask off))) := by
    refine need_busSet hup ⟨hag, hexpert⟩ ((W.busWrite_late_expert _ _ _ hb hoff).trans ?_)
    exact congrArg (W.dev _) (funext fun d => Dev.plainWrite_late_expert d v hb hoff)
  refine ⟨fun hl => ?_, fun hl => ?_⟩
  · exact hexec.trans (State.next_afterDev_congr (if_neg (by rw [hl]; decide)))
  · obtain ⟨u, hu, hsome⟩ := (s.d.sg off (mergeWord (s.d.rg off) v (rwMask off))).schedule_late hb
    have hd : s.d.expertWrite b off (mergeWord (s.d.rg off) v (rwMask off)) = _ := (if_pos hl).trans hu
    refine ⟨_, hexec, ?_⟩
    rw [State.afterDev_d, hd]
    exact ⟨Dev.rg_sg_self _ _ _, fun _ => rfl, fun a ha => Dev.rg_sg_of_ne _ _ _ _ ha.symm, hsome⟩

/-! ### CTRL words -/

theorem bits_profile_and_mask (x : Word) : bits (x &&& 0xF1).toNat 4 4 = bits x.toNat 4 4 := by
  refine Nat.eq_of_testBit_eq fun i => ?_
  have hmask : (0xF1 : Word).toNat = 0xF1 := rfl
  rw [bits, bits, Nat.testBit_mod_two_pow, Nat.testBit_mod_two_pow, Nat.testBit_div_two_pow, Nat.testBit_div_two_pow, BitVec.toNat_and,
    Nat.testBit_and, hmask]
  by_cases hi : i < 4
  case pos =>
    have hbit : ∀ i < 4, Nat.testBit 0xF1 (i + 4) = true := by decide
    rw [hbit i hi, Bool.and_true]
  case neg => simp [hi]

theorem level_and_mask (x : Word) : (x &&& 0xF1).getLsbD 0 = x.getLsbD 0 := by
  rw [BitVec.getLsbD_and]
  exact Bool.and_true _

section
variable (d : Dev) {b : Block}

theorem Dev.ctrlWord_level (l : Bool) (p : Nat) : (d.ctrlWord b l p).getLsbD 0 = l := by
  unfold Dev.ctrlWord
  rw [getLsbD_fieldWord _ _ _ _ _ (by decide), if_pos (by decide), getLsbD_fieldWord _ _ _ _ _ (by decide), if_neg (by decide),
    if_pos (by decide)]
  cases l
  case false => rfl
  case true => rfl

theorem Dev.ctrlWord_profile (hb : b ∈ lateBlocks) (l : Bool) {p : Nat} (hp : p < 16) :
    b.profileOf (d.ctrlWord b l p &&& 0xF1).toNat = p := by
  rw [Block.profileOf, Dev.ctrlWord, late_profileWidth b hb, bits_profile_and_mask, toNat_fieldWord_bits (by decide)]
  exact Nat.mod_eq_of_lt hp

/-- A CTRL word that carries a profile of its block is stored as it is. -/
theorem Dev.storeCtrl_of_profile {w : Word} {l : List (Nat × Word)} (h : b.profile (b.profileOf w.toNat) 0 = some l) :
    d.storeCtrl b w = (d.sg b.ctrl w, false) := by
  rw [Dev.storeCtrl, h]
  rfl

/-! ### Words set in a row -/

theorem Dev.RegsOnly.sgAll {d e : Dev} (h : d.RegsOnly e) (l : List (Nat × Word)) : d.RegsOnly (e.sgAll l) := by
  induction l generalizing e with
  | nil => exact h
  | cons q l ih => exact ih (h.sg _)

theorem Dev.rg_sgAll_of_not_mem {a : Nat} (l : List (Nat × Word)) (h : a ∉ l.map (·.1)) : (d.sgAll l).rg a = d.rg a := by
  induction l generalizing d with
  | nil => rfl
  | cons q l ih =>
    simp only [List.map_cons, List.mem_cons, not_or] at h
    obtain ⟨hq, hl⟩ := h
    exact (ih _ hl).trans (Dev.rg_sg_of_ne _ _ _ _ (Ne.symm hq))

theorem Dev.rg_sgAll {q : Nat × Word} (l : List (Nat × Word)) (hn : (l.map (·.1)).Nodup) (h : q ∈ l) : (d.sgAll l).rg q.1 = q.2 := by
  induction l generalizing d with
  | nil => exact absurd h List.not_mem_nil
  | cons r l ih =>
    rw [List.map_cons, List.nodup_cons] at hn
    obtain ⟨hr, hn⟩ := hn
    obtain rfl | h := List.mem_cons.mp h
    · exact (Dev.rg_sgAll_of_not_mem _ l hr).trans (Dev.rg_sg_self _ _ _)
    · exact ih _ hn h

/-- Registers that take the words in force. -/
theorem Dev.rg_foldl_fr {a : Nat} (l : List Nat) :
    (l.foldl (fun d a => d.sg a (d.fr a)) d).rg a = if a ∈ l then d.fr a else d.rg a := by
  induction l generalizing d with
  | nil => rfl
  | cons k l ih =>
    rw [List.foldl_cons, ih]
    by_cases hl : a ∈ l
    case pos => rw [if_pos hl, if_pos (List.mem_cons_of_mem _ hl)]; rfl
    case neg =>
      rw [if_neg hl, Dev.rg_sg]
      by_cases hk : k = a
      case pos => rw [if_pos hk, if_pos (by rw [hk]; exact List.mem_cons_self), hk]
      case neg => rw [if_neg hk, if_neg (by rw [List.mem_cons]; exact not_or.mpr ⟨Ne.symm hk, hl⟩)]

theorem Dev.RegsOnly.foldl_fr {d e : Dev} (h : d.RegsOnly e) (l : List Nat) : d.RegsOnly (l.foldl (fun d a => d.sg a (d.fr a)) e) := by
  induction l generalizing e with
  | nil => exact h
  | cons k l ih => exact ih (h.sg _)

theorem Dev.RegsOnly.fr {d e : Dev} (h : d.RegsOnly e) (a : Nat) : e.fr a = d.fr a :=
  show e.fr a = (d.withRegs e.regs).fr a from congrArg (Dev.fr · a) h

end

/-! ### The four kinds of CTRL write -/

section
variable {d : Dev} {b : Block} {w : Word} {l : List (Nat × Word)}

/-- From basic to expert level (R13): the words of the PROFILE carried. -/
theorem Dev.blockCtrl_toExpert (hb : b ∈ lateBlocks) (hf : d.fixedRefuse b w = false) (hl : d.level b = false) (hw : w.getLsbD 0 = true)
    (hp : b.profile (b.profileOf (w &&& 0xF1).toNat) 0 = some l) :
    d.blockCtrl b 0xF1 w = ((d.sg b.ctrl (w &&& 0xF1)).sgAll l).schedule b := by
  have hder : (d.sg b.ctrl (w &&& 0xF1)).derived b = l := by
    rw [Dev.derived_late hb, Dev.rg_sg_self, late_profile hb, hp]
    rfl
  rw [← hder]
  unfold Dev.blockCtrl
  simp only [hf, hl, hw, d.storeCtrl_of_profile hp]
  simp only [lateBlocks, List.mem_cons, List.not_mem_nil, or_false] at hb
  obtain rfl | rfl | rfl | rfl | rfl | rfl | rfl | rfl | rfl := hb
  all_goals rfl

/-- From expert to basic level (R14): the words in force until the update point. -/
theorem Dev.blockCtrl_toBasic (hf : d.fixedRefuse b w = false) (hl : d.level b = true) (hw : w.getLsbD 0 = false)
    (hp : b.profile (b.profileOf (w &&& 0xF1).toNat) 0 = some l) :
    d.blockCtrl b 0xF1 w = ((d.sg b.ctrl (w &&& 0xF1)).discardExpert b).schedule b := by
  unfold Dev.blockCtrl
  simp only [hf, hl, hw, d.storeCtrl_of_profile hp]
  rfl

/-- Another PROFILE at the basic level (R15). -/
theorem Dev.blockCtrl_profile (hf : d.fixedRefuse b w = false) (hl : d.level b = false) (hw : w.getLsbD 0 = false)
    (hp : b.profile (b.profileOf (w &&& 0xF1).toNat) 0 = some l)
    (hne : b.profileOf (d.rg b.ctrl).toNat ≠ b.profileOf (w &&& 0xF1).toNat) :
    d.blockCtrl b 0xF1 w = (d.sg b.ctrl (w &&& 0xF1)).schedule b := by
  unfold Dev.blockCtrl
  simp only [hf, hl, hw, d.storeCtrl_of_profile hp]
  refine (if_neg (by decide)).trans (if_neg fun h => hne (h.trans ?_))
  exact congrArg (fun v : Word => b.profileOf v.toNat) (Dev.rg_sg_self _ _ _)

/-- Another PROFILE at the expert level is stored (R617). -/
theorem Dev.blockCtrl_store (hf : d.fixedRefuse b w = false) (hl : d.level b = true) (hw : w.getLsbD 0 = true)
    (hp : b.profile (b.profileOf (w &&& 0xF1).toNat) 0 = some l) : d.blockCtrl b 0xF1 w = d.sg b.ctrl (w &&& 0xF1) := by
  unfold Dev.blockCtrl
  simp only [hf, hl, hw, d.storeCtrl_of_profile hp]
  rfl

/-- The CTRL word with which a reserved PROFILE is stored: the PROFILE held stays. -/
def Dev.keptProfileWord (d : Dev) (b : Block) (w : Word) : Word := fieldWord w 4 b.profileWidth (b.profileOf (d.rg b.ctrl).toNat)

theorem Dev.keptProfileWord_profile (hb : b ∈ lateBlocks) :
    b.profileOf (d.keptProfileWord b w).toNat = b.profileOf (d.rg b.ctrl).toNat := by
  rw [Dev.keptProfileWord, Block.profileOf, late_profileWidth b hb, toNat_fieldWord_bits (by decide), Block.profileOf,
    late_profileWidth b hb]
  exact Nat.mod_eq_of_lt (Nat.mod_lt _ (by decide))

/-- A reserved PROFILE at the basic level (R615). -/
theorem Dev.blockCtrl_reserved (hb : b ∈ lateBlocks) (hf : d.fixedRefuse b w = false) (hl : d.level b = false) (hw : w.getLsbD 0 = false)
    (hp : b.profile (b.profileOf (w &&& 0xF1).toNat) 0 = none) :
    d.blockCtrl b 0xF1 w = (d.sg b.ctrl (d.keptProfileWord b (w &&& 0xF1))).sb b.stat 0 := by
  have hstore : d.storeCtrl b (w &&& 0xF1) = (d.sg b.ctrl (d.keptProfileWord b (w &&& 0xF1)), true) := by
    rw [Dev.storeCtrl, hp]
    rfl
  have hflag : ∀ d : Dev, d.flagReserved b true = d.sb b.stat 0 := by
    intro d
    simp only [lateBlocks, List.mem_cons, List.not_mem_nil, or_false] at hb
    obtain rfl | rfl | rfl | rfl | rfl | rfl | rfl | rfl | rfl := hb
    all_goals rfl
  have hkept : ((d.sg b.ctrl (d.keptProfileWord b (w &&& 0xF1))).sb b.stat 0).rg b.ctrl = d.keptProfileWord b (w &&& 0xF1) :=
    (Dev.rg_sg_of_ne _ _ _ _ b.stat_ne_ctrl).trans (Dev.rg_sg_self _ _ _)
  unfold Dev.blockCtrl
  simp only [hf, hl, hw, hstore, hflag]
  refine (if_neg (by decide)).trans (if_pos ?_)
  exact (Dev.keptProfileWord_profile hb).symm.trans (congrArg (fun v : Word => b.profileOf v.toNat) hkept.symm)

/-- The return to the basic level changes the scheduled changes and the expert registers. -/
theorem Dev.discardExpert_late (hb : b ∈ lateBlocks) (d : Dev) :
    ∃ u, d.discardExpert b = b.experts.foldl (fun d a => d.sg a (d.fr a)) { d with upds := u } := by
  simp only [lateBlocks, List.mem_cons, List.not_mem_nil, or_false] at hb
  obtain rfl | rfl | rfl | rfl | rfl | rfl | rfl | rfl | rfl := hb
  all_goals exact ⟨_, rfl⟩

end

section
variable {s : State} {ag : Agent} {b : Block} {p : Nat}

theorem State.busSet_late_ctrl (hup : s.d.coreUp = true) (hag : ag.ok = true) (hb : b ∈ lateBlocks) (l : Bool) :
    need (ag.ok = true ∧ b.ok = true) (s.busSet ag b.ctrl (fun d => d.ctrlWord b l p)) =
      .next (s.afterDev (Dev.blockCtrl b 0xF1 (s.d.ctrlWord b l p))) :=
  need_busSet hup ⟨hag, late_ok b hb⟩ (W.busWrite_late_ctrl _ _ _ hb)

end

/-- Settles O16: one lemma per kind of CTRL write gives the registers that it leaves. -/
theorem controlWriteResults : Obligations.ControlWriteResults := by
  intro s ag b p hup hag hp hb
  have hb : b ∈ lateBlocks := hb
  obtain ⟨hnodup, hctrl⟩ := late_experts b hb
  have hlevel := fun l => s.d.ctrlWord_level (b := b) l p
  have hprofile := fun l => s.d.ctrlWord_profile hb l hp
  have hprof : ∀ l, b.profile (b.profileOf (s.d.ctrlWord b l p &&& 0xF1).toNat) 0 = b.profile p 0 := fun l => by rw [hprofile]
  have hlowBit : ∀ l, (s.d.ctrlWord b l p &&& 0xF1).getLsbD 0 = l := fun l => (level_and_mask _).trans (hlevel l)
  have hbasicFree : s.d.fixedRefuse b (s.d.ctrlWord b false p) = false := by rw [Dev.fixedRefuse, hlevel, Bool.and_false]
  refine ⟨fun hfix hl => ?_, fun hfix l hl => ⟨fun hlev => ?_, fun hlev => ?_, fun hlev hne => ?_, fun hlev => ?_⟩, fun hres hlev => ?_⟩
  · refine (State.busSet_late_ctrl hup hag hb true).trans (State.next_afterDev_congr (if_pos ?_))
    rw [Dev.fixedRefuse, hfix, hlevel]
    rfl
  · have hfree : s.d.fixedRefuse b (s.d.ctrlWord b true p) = false := by rw [Dev.fixedRefuse, hfix, Bool.false_and]
    have hkeys : l.map (·.1) = b.experts := Block.profile_keys hb hl
    have hd := Dev.blockCtrl_toExpert hb hfree hlev (hlevel true) ((hprof true).trans hl)
    obtain ⟨u, hu, hsome⟩ := ((s.d.sg b.ctrl (s.d.ctrlWord b true p &&& 0xF1)).sgAll l).schedule_late hb
    have honly := ((Dev.RegsOnly.refl s.d).sg (a := b.ctrl) (s.d.ctrlWord b true p &&& 0xF1)).sgAll l
    have hword : ((s.d.sg b.ctrl (s.d.ctrlWord b true p &&& 0xF1)).sgAll l).rg b.ctrl = s.d.ctrlWord b true p &&& 0xF1 :=
      (Dev.rg_sgAll_of_not_mem _ l (by rw [hkeys]; exact hctrl)).trans (Dev.rg_sg_self _ _ _)
    refine ⟨_, State.busSet_late_ctrl hup hag hb true, ?_⟩
    rw [State.afterDev_d, hd, hu]
    refine ⟨(congrArg (·.getLsbD 0) hword).trans (hlowBit true), ?_, fun q hq => ?_, hsome, honly.fr, fun a ha hexp => ?_⟩
    · exact (congrArg (fun v : Word => b.profileOf v.toNat) hword).trans (hprofile true)
    · exact Dev.rg_sgAll _ l (by rw [hkeys]; exact hnodup) hq
    · exact (Dev.rg_sgAll_of_not_mem _ l (by rw [hkeys]; exact hexp)).trans (Dev.rg_sg_of_ne _ _ _ _ ha.symm)
  · have hd := Dev.blockCtrl_toBasic hbasicFree hlev (hlevel false) ((hprof false).trans hl)
    obtain ⟨u0, hu0⟩ := Dev.discardExpert_late hb (s.d.sg b.ctrl (s.d.ctrlWord b false p &&& 0xF1))
    obtain ⟨u, hu, hsome⟩ := ((s.d.sg b.ctrl (s.d.ctrlWord b false p &&& 0xF1)).discardExpert b).schedule_late hb
    have hrg : ∀ a, ((s.d.sg b.ctrl (s.d.ctrlWord b false p &&& 0xF1)).discardExpert b).rg a =
        if a ∈ b.experts then s.d.fr a else (s.d.sg b.ctrl (s.d.ctrlWord b false p &&& 0xF1)).rg a := by
      intro a
      rw [hu0]
      exact Dev.rg_foldl_fr _ _
    have hfr : ∀ a, ((s.d.sg b.ctrl (s.d.ctrlWord b false p &&& 0xF1)).discardExpert b).fr a = s.d.fr a := by
      intro a
      rw [hu0]
      exact ((Dev.RegsOnly.refl _).foldl_fr b.experts).fr a
    have hword := (hrg b.ctrl).trans ((if_neg hctrl).trans (Dev.rg_sg_self _ _ _))
    refine ⟨_, State.busSet_late_ctrl hup hag hb false, ?_⟩
    rw [State.afterDev_d, hd, hu]
    refine ⟨(congrArg (·.getLsbD 0) hword).trans (hlowBit false), ?_, fun a ha => ?_, hsome, hfr, fun a ha hexp => ?_⟩
    · exact (congrArg (fun v : Word => b.profileOf v.toNat) hword).trans (hprofile false)
    · exact (hrg a).trans (if_pos ha)
    · exact (hrg a).trans ((if_neg hexp).trans (Dev.rg_sg_of_ne _ _ _ _ ha.symm))
  · have hd := Dev.blockCtrl_profile hbasicFree hlev (hlevel false) ((hprof false).trans hl) (by rw [hprofile]; exact hne)
    obtain ⟨u, hu, hsome⟩ := (s.d.sg b.ctrl (s.d.ctrlWord b false p &&& 0xF1)).schedule_late hb
    have hword : (s.d.sg b.ctrl (s.d.ctrlWord b false p &&& 0xF1)).rg b.ctrl = _ := Dev.rg_sg_self _ _ _
    refine ⟨_, State.busSet_late_ctrl hup hag hb false, ?_⟩
    rw [State.afterDev_d, hd, hu]
    refine ⟨(congrArg (·.getLsbD 0) hword).trans (hlowBit false), ?_, hsome, fun _ => rfl, fun a ha => Dev.rg_sg_of_ne _ _ _ _ ha.symm⟩
    exact (congrArg (fun v : Word => b.profileOf v.toNat) hword).trans (hprofile false)
  · have hfree : s.d.fixedRefuse b (s.d.ctrlWord b true p) = false := by rw [Dev.fixedRefuse, hfix, Bool.false_and]
    have hd := Dev.blockCtrl_store hfree hlev (hlevel true) ((hprof true).trans hl)
    have hword : (s.d.sg b.ctrl (s.d.ctrlWord b true p &&& 0xF1)).rg b.ctrl = _ := Dev.rg_sg_self _ _ _
    refine ⟨_, State.busSet_late_ctrl hup hag hb true, ?_⟩
    rw [State.afterDev_d, hd]
    refine ⟨(congrArg (·.getLsbD 0) hword).trans (hlowBit true), ?_, rfl, fun _ => rfl, fun a ha => Dev.rg_sg_of_ne _ _ _ _ ha.symm⟩
    exact (congrArg (fun v : Word => b.profileOf v.toNat) hword).trans (hprofile true)
  · have hd := Dev.blockCtrl_reserved hb hbasicFree hlev (hlevel false) ((hprof false).trans hres)
    refine ⟨_, State.busSet_late_ctrl hup hag hb false, ?_⟩
    rw [State.afterDev_d, hd]
    refine ⟨?_, Dev.bt_sb_self _ _ (by decide), fun _ => rfl, fun a ha hstat => ?_⟩
    · refine (congrArg (fun v : Word => b.profileOf v.toNat) ?_).trans (Dev.keptProfileWord_profile (w := s.d.ctrlWord b false p &&& 0xF1) hb)
      exact (Dev.rg_sg_of_ne _ _ _ _ b.stat_ne_ctrl).trans (Dev.rg_sg_self _ _ _)
    · exact (Dev.rg_sg_of_ne _ _ _ _ hstat.symm).trans (Dev.rg_sg_of_ne _ _ _ _ ha.symm)

end Sys2Proof.Machine
end

section
/-!
PROOFS. The Krytesh cores, first part: what the end of an instruction leaves, and the operations on registers, products and immediates
(O18, O19, O20), with the branches (O23).
-/

namespace Sys2Proof.Machine

/-! ### A core, changed -/

section
variable {d e : Dev} {c c' rd r n pc : Nat} {v : Word} {k : Core} {slot : Option (Nat × Word)}

@[simp] theorem Dev.coreAt_onCore_self (d : Dev) (c : Nat) (f : Core → Core) : (d.onCore c f).coreAt c = f (d.coreAt c) :=
  (Dev.coreAt_onCore ..).trans (if_pos rfl)

theorem Dev.coreAt_onCore_of_ne (d : Dev) (f : Core → Core) (h : c' ≠ c) : (d.onCore c f).coreAt c' = d.coreAt c' :=
  (Dev.coreAt_onCore ..).trans (if_neg h.symm)

theorem Core.reg_setReg (k : Core) (rd r : Nat) (v : Word) : (k.setReg rd v).reg r = if r = rd ∧ r ≠ 0 then v else k.reg r := by
  unfold Core.setReg Core.reg
  by_cases hr : r = 0
  case pos => rw [if_pos hr, if_pos hr, if_neg (fun h => h.2 hr)]
  case neg =>
    rw [if_neg hr, if_neg hr]
    by_cases hrd : rd = 0
    case pos => rw [if_pos hrd, if_neg (fun h => hr (h.1.trans hrd))]
    case neg =>
      rw [if_neg hrd]
      refine Tab.get_put 0 |>.trans ?_
      by_cases h : r = rd
      case pos => rw [if_pos h.symm, if_pos ⟨h, hr⟩]
      case neg => rw [if_neg (Ne.symm h), if_neg fun h' => h h'.1]

/-- Register writes change the registers alone. -/
theorem Core.setReg_eq (k : Core) (rd : Nat) (v : Word) : ∃ g, k.setReg rd v = { k with g := g } := by
  unfold Core.setReg
  split
  · exact ⟨k.g, rfl⟩
  · exact ⟨_, rfl⟩

/-! ### The boundary after an instruction -/

/-- `k'` is `k` but for what run control notes of a halt. -/
def Core.Halts (k k' : Core) : Prop :=
  ∃ r h st sb wp, k' = { k with reason := r, haltReq := h, stepping := st, skipBp := sb, wdtPaused := wp }

theorem Core.Halts.refl (k : Core) : k.Halts k := ⟨k.reason, k.haltReq, k.stepping, k.skipBp, k.wdtPaused, rfl⟩

/-- From `d` to `e` core `c` has changed to `k'`, and of the registers KC_STAT at most. -/
structure Dev.OneCore (d e : Dev) (c : Nat) (k' : Core) : Prop where
  self : e.coreAt c = k'
  other : ∀ c', c' ≠ c → e.coreAt c' = d.coreAt c'
  rg : ∀ a, a ≠ Reg.KC_STAT c → e.rg a = d.rg a

theorem Dev.OneCore.refl (d : Dev) (c : Nat) : d.OneCore d c (d.coreAt c) := ⟨rfl, fun _ _ => rfl, fun _ _ => rfl⟩

theorem Dev.OneCore.onCore (d : Dev) (c : Nat) (f : Core → Core) : d.OneCore (d.onCore c f) c (f (d.coreAt c)) :=
  ⟨Dev.coreAt_onCore_self d c f, fun _ h => Dev.coreAt_onCore_of_ne d f h, fun _ _ => rfl⟩

theorem Dev.OneCore.trans {f : Dev} {k' k'' : Core} (h : d.OneCore e c k') (h' : e.OneCore f c k'') : d.OneCore f c k'' :=
  ⟨h'.self, fun c' hc => (h'.other c' hc).trans (h.other c' hc), fun a ha => (h'.rg a ha).trans (h.rg a ha)⟩

theorem Dev.haltCore_oneCore (d : Dev) (c reason : Nat) : ∃ k', (d.coreAt c).Halts k' ∧ d.OneCore (d.haltCore c reason) c k' := by
  have hset : d.OneCore (d.kSet c .halted) c (d.coreAt c) := ⟨rfl, fun _ _ => rfl, fun a ha => Dev.rg_sg_of_ne _ _ _ _ ha.symm⟩
  exact ⟨_, ⟨_, _, _, _, _, rfl⟩, hset.trans (.onCore _ _ _)⟩

/-- A boundary halts the core at most. -/
theorem Dev.boundary_oneCore (d : Dev) (c : Nat) : ∃ k', (d.coreAt c).Halts k' ∧ d.OneCore (d.boundary c) c k' := by
  unfold Dev.boundary
  dsimp only
  split
  · exact ⟨_, .refl _, .refl d c⟩
  · split
    · exact d.haltCore_oneCore c 1
    · split
      · exact d.haltCore_oneCore c 4
      · exact ⟨_, .refl _, .refl d c⟩

/-- Core `k` with one more instruction done, the next at `pc`. -/
def Core.stepped (k : Core) (pc : Nat) (slot : Option (Nat × Word)) : Core :=
  { k with pc := pc, slot := slot, wait := .none, ienHold := false, skipBp := false, instret := k.instret + 1 }

theorem Dev.completeAt_oneCore (d : Dev) (c pc : Nat) (slot : Option (Nat × Word)) :
    ∃ k', ((d.coreAt c).stepped pc slot).Halts k' ∧ d.OneCore (d.completeAt c pc slot) c k' := by
  obtain ⟨k', hk, h⟩ := (d.onCore c fun k => k.stepped pc slot).boundary_oneCore c
  rw [Dev.coreAt_onCore_self] at hk
  exact ⟨k', hk, (Dev.OneCore.onCore d c _).trans h⟩

/-- The end of an instruction leaves every core status register but the count of instructions. -/
theorem Core.csr_of_stepped {k k' : Core} {g : Tab Word} (h : ({ k with g := g }.stepped pc slot).Halts k') (hn : n ≠ 11) :
    k'.csr c n = k.csr c n := by
  obtain ⟨r, hr, st, sb, wp, rfl⟩ := h
  exact match n, hn with
  | 0, _ => rfl
  | 1, _ => rfl
  | 2, _ => rfl
  | 3, _ => rfl
  | 4, _ => rfl
  | 5, _ => rfl
  | 6, _ => rfl
  | 7, _ => rfl
  | 8, _ => rfl
  | 9, _ => rfl
  | 10, _ => rfl
  | 12, _ => rfl
  | 13, _ => rfl
  | 14, _ => rfl
  | 15, _ => rfl
  | _ + 16, _ => rfl

end

/-! ### One instruction done -/

/-- Between `d` and `e` core `c` has completed one instruction, RD taking `v`: the device's part of `State.retires`. -/
def Dev.Retires (d e : Dev) (c pc : Nat) (slot : Option (Nat × Word)) (rd : Nat) (v : Word) : Prop :=
  (e.coreAt c).pc = pc ∧ (e.coreAt c).slot = slot ∧ (e.coreAt c).wait = .none ∧ (e.coreAt c).instret = (d.coreAt c).instret + 1 ∧
    (∀ r, (e.coreAt c).reg r = if r = rd ∧ r ≠ 0 then v else (d.coreAt c).reg r) ∧
    (∀ n, n ≠ 11 → (e.coreAt c).csr c n = (d.coreAt c).csr c n) ∧ (e.coreAt c).posted = (d.coreAt c).posted ∧
    (e.coreAt c).user = (d.coreAt c).user ∧ (∀ c', c' ≠ c → e.coreAt c' = d.coreAt c') ∧
    (∀ a, a ≠ Reg.KC_STAT c → e.rg a = d.rg a)

section
variable {d e : Dev} {c pc rd : Nat} {slot : Option (Nat × Word)} {v : Word}

/-- The instruction ends on a device on which only RD of the core has moved. -/
theorem Dev.retires_completeAt (h : d.OneCore e c ((d.coreAt c).setReg rd v)) : d.Retires (e.completeAt c pc slot) c pc slot rd v := by
  obtain ⟨k', hk, hdone⟩ := e.completeAt_oneCore c pc slot
  rw [h.self] at hk
  have hreg : ∀ r, k'.reg r = if r = rd ∧ r ≠ 0 then v else (d.coreAt c).reg r := by
    intro r
    rw [← Core.reg_setReg]
    obtain ⟨_, _, _, _, _, rfl⟩ := hk
    rfl
  obtain ⟨g, hg⟩ := (d.coreAt c).setReg_eq rd v
  rw [hg] at hk
  have hcsr : ∀ n, n ≠ 11 → k'.csr c n = (d.coreAt c).csr c n := fun n hn => Core.csr_of_stepped hk hn
  obtain ⟨_, _, _, _, _, rfl⟩ := hk
  obtain ⟨hself, hother, hrg⟩ := h.trans hdone
  unfold Dev.Retires
  rw [hself]
  exact ⟨rfl, rfl, rfl, rfl, hreg, hcsr, rfl, rfl, hother, hrg⟩

theorem Dev.retires_complete (h : d.OneCore e c ((d.coreAt c).setReg rd v)) :
    d.Retires (e.complete c) c (nextPc (d.coreAt c).pc) none rd v := by
  have hpc : (e.coreAt c).pc = (d.coreAt c).pc := by
    obtain ⟨g, hg⟩ := (d.coreAt c).setReg_eq rd v
    rw [h.self, hg]
  rw [Dev.complete, hpc]
  exact Dev.retires_completeAt h

theorem Dev.OneCore.setReg (d : Dev) (c rd : Nat) (v : Word) : d.OneCore (d.onCore c fun k => k.setReg rd v) c ((d.coreAt c).setReg rd v) :=
  .onCore d c _

theorem State.retires_afterDev {s : State} {f : Dev → Dev} (h : s.d.Retires (f s.d) c pc slot rd v) : s.retires (s.afterDev f) c pc slot rd v :=
  ⟨rfl, h⟩

theorem State.retires_afterRun {s : State} {g : W → W} (h : s.d.Retires (g s.ctx).d c pc slot rd v) : s.retires (s.afterRun g) c pc slot rd v :=
  ⟨rfl, h⟩

end

/-! ### The instruction at PC -/

section
variable {s : State} {c : Nat} {i : Word} {is : Word → Bool} {f : Nat → Word → W → W}

theorem State.atInstr.issues (h : s.atInstr c i) :
    s.d.coreUp = true ∧ c < 4 ∧ s.d.kIs c .running = true ∧ (s.d.coreAt c).wait = .none ∧
      ((s.d.coreAt c).haltReq && (s.d.coreAt c).slot.isNone) = false := by
  have hi := h.1
  simp only [Dev.issues, Bool.and_eq_true, decide_eq_true_eq, beq_iff_eq, Bool.not_eq_true'] at hi
  obtain ⟨⟨⟨⟨⟨⟨hup, hc⟩, hrun⟩, hwait⟩, -⟩, -⟩, hhalt⟩ := hi
  exact ⟨hup, hc, hrun, hwait, hhalt⟩

/-- The command of the instruction at PC has that instruction's effect. -/
theorem State.atInstr.exec (h : s.atInstr c i) (his : is i = true) : need (c < 4) (s.coreRun (kRow is f c)) = .next (s.afterRun (f c i)) := by
  obtain ⟨hup, hc, -⟩ := h.issues
  obtain ⟨hissues, hpc, hbad, hword⟩ := h
  refine (need_coreRun hup hc).trans (State.next_afterRun_congr ?_)
  unfold kRow
  dsimp only
  rw [State.ctx_d, hissues, hbad, hword]
  exact (if_neg (by decide)).trans ((if_neg (Nat.not_le.mpr hpc)).trans ((if_neg (by decide)).trans (if_pos his)))

/-- The same for an instruction that writes no memory. -/
theorem State.atInstr.exec_dev (h : s.atInstr c i) (his : is i = true) {g : Dev → Dev} (hf : f c i s.ctx = s.ctx.dev g) :
    need (c < 4) (s.coreRun (kRow is f c)) = .next (s.afterDev g) :=
  (h.exec his).trans (congrArg Host.Outcome.next (State.afterRun_eq_afterDev _ _ _ hf))

theorem isOpFn_of {op fn : Nat} (hop : kOp i = op) (hfn : kFn i = fn) : isOpFn op fn i = true := by
  rw [isOpFn, hop, hfn, beq_self_eq_true, beq_self_eq_true]
  rfl

theorem isOp_of {op : Nat} (hop : kOp i = op) : isOp op i = true := beq_iff_eq.mpr hop

theorem isBit_of {sub : Nat} (hop : kOp i = 0x1B) (hsub : kRs1 i = sub) : isBit sub i = true := by
  rw [isBit, hop, hsub, beq_self_eq_true, beq_self_eq_true]
  rfl

/-- An instruction whose effect is a result in RD. -/
theorem State.atInstr.result (h : s.atInstr c i) (his : is i = true) {rd : Nat} {v : Word} (hf : f c i s.ctx = s.ctx.kResult c rd v) :
    ∃ t, need (c < 4) (s.coreRun (kRow is f c)) = .next t ∧ t.mem = s.mem ∧ s.retires t c (nextPc (s.d.coreAt c).pc) none rd v :=
  ⟨_, h.exec_dev his hf, rfl, State.retires_afterDev (Dev.retires_complete (.setReg s.d c rd v))⟩

/-- An instruction that goes to `pc` and changes nothing else. -/
theorem State.atInstr.goes (h : s.atInstr c i) (his : is i = true) {pc : Nat} (hf : f c i s.ctx = s.ctx.kGo c pc) :
    ∃ t, need (c < 4) (s.coreRun (kRow is f c)) = .next t ∧ t.mem = s.mem ∧ s.retires t c pc none 0 0 :=
  ⟨_, h.exec_dev his hf, rfl, State.retires_afterDev (Dev.retires_completeAt (.refl s.d c))⟩

end

/-- Settles O18: each operation is one result in RD. -/
theorem coreRegisterOperations : Obligations.CoreRegisterOperations := by
  intro s c i h k x y does hop
  have alu : ∀ {fn : Nat} (f : Word → Word → Word), kFn i = fn →
      ∃ t, need (c < 4) (s.coreRun (kRow (isOpFn 0 fn) (kAlu f) c)) = .next t ∧ t.mem = s.mem ∧
        s.retires t c (nextPc k.pc) none (kRd i) (f x y) := fun f hfn => h.result (isOpFn_of hop hfn) rfl
  have shift : ∀ {fn : Nat} (f : Word → Nat → Word), kFn i = fn →
      ∃ t, need (c < 4) (s.coreRun (kRow (isOpFn 0 fn) (kShiftImm f) c)) = .next t ∧ t.mem = s.mem ∧
        s.retires t c (nextPc k.pc) none (kRd i) (f x (kRs2 i)) := fun f hfn => h.result (isOpFn_of hop hfn) rfl
  exact ⟨alu _, alu _, alu _, alu _, alu _, alu _, alu _, alu _, alu _, alu _, alu _, shift _, shift _, shift _, alu _, alu _, alu _, alu _⟩

/-- Settles O19: each operation is one result in RD. -/
theorem coreMultiplyAndDivide : Obligations.CoreMultiplyAndDivide := by
  intro s c i h k x y does hop
  have alu : ∀ {fn : Nat} (f : Word → Word → Word), kFn i = fn →
      ∃ t, need (c < 4) (s.coreRun (kRow (isOpFn 0x20 fn) (kAlu f) c)) = .next t ∧ t.mem = s.mem ∧
        s.retires t c (nextPc k.pc) none (kRd i) (f x y) := fun f hfn => h.result (isOpFn_of hop hfn) rfl
  exact ⟨alu _, alu _, alu _, alu _, alu _, alu _, alu _⟩

/-- Settles O20: each operation is one result in RD. -/
theorem coreImmediateOperations : Obligations.CoreImmediateOperations := by
  intro s c i h k x does
  have imm : ∀ {op : Nat} (f : Word → Word → Word) (g : Word → Word), kOp i = op →
      ∃ t, need (c < 4) (s.coreRun (kRow (isOp op) (kAluImm f g) c)) = .next t ∧ t.mem = s.mem ∧
        s.retires t c (nextPc k.pc) none (kRd i) (f x (g i)) := fun f g hop => h.result (isOp_of hop) rfl
  exact ⟨imm _ _, imm _ _, imm _ _, imm _ _, imm _ _, imm _ _, imm _ _⟩

/-- Settles O23: each branch goes to one place. -/
theorem coreBranches : Obligations.CoreBranches := by
  intro s c i h k x y goes
  have branch : ∀ {op pc pc' : Nat} {f : Nat → Word → W → W}, kOp i = op → f c i s.ctx = s.ctx.kGo c pc → pc = pc' →
      ∃ t, need (c < 4) (s.coreRun (kRow (isOp op) f c)) = .next t ∧ t.mem = s.mem ∧ s.retires t c pc' none 0 0 := by
    intro op pc pc' f hop hf hpc
    exact hpc ▸ h.goes (isOp_of hop) hf
  have hnot : ∀ b : Bool, (if (!b) = true then jumpPc k.pc (kSimm i) else nextPc k.pc) =
      if b = false then jumpPc k.pc (kSimm i) else nextPc k.pc := by
    intro b
    cases b
    case false => rfl
    case true => rfl
  refine ⟨fun hop => branch hop rfl ?_, fun hop => branch hop rfl ?_, fun hop => branch hop rfl rfl, fun hop => branch hop rfl (hnot _),
    fun hop => branch hop rfl rfl, fun hop => branch hop rfl (hnot _), fun hop => branch hop rfl rfl, fun hop hal => ?_, fun hop hal => ?_,
    fun hop => branch hop rfl ?_, fun hop => branch hop rfl ?_, fun hop => branch hop rfl ?_⟩
  · simp only [beq_iff_eq]
    rfl
  · simp only [bne_iff_ne]
    rfl
  · exact branch hop (if_neg (Classical.not_not.mpr hal)) rfl
  · exact (h.exec (isOp_of hop)).trans (State.next_afterRun_congr (if_pos hal))
  · simp only [beq_iff_eq]
    rfl
  · simp only [beq_iff_eq]
    rfl
  · rfl

end Sys2Proof.Machine
end

section
/-!
PROOFS. The Krytesh cores, second part: what the memories hold after writes of several bytes, and the loads, stores, calls, returns and bit
operations (O21, O22, O24, O25).
-/

namespace Sys2Proof.Machine

/-! ### The memories after a run -/

/-- The byte that the newest of the writes `ws` to `a` of space `sp` stores. -/
def lastWrite (ws : List MWr) (sp : MemSp) (a : Nat) : Option Byte := (ws.find? (fun x => x.sp == sp && x.addr == a)).map (·.val)

section
variable {sp sp' : MemSp} {a x n v : Nat}

theorem lastWrite_cons (y : MWr) (ws : List MWr) :
    lastWrite (y :: ws) sp a = if y.sp = sp ∧ y.addr = a then some y.val else lastWrite ws sp a := by
  unfold lastWrite
  rw [List.find?_cons]
  by_cases h : y.sp = sp ∧ y.addr = a
  case pos =>
    obtain ⟨h1, h2⟩ := h
    rw [if_pos ⟨h1, h2⟩, h1, h2, beq_self_eq_true, beq_self_eq_true]
    rfl
  case neg =>
    have hb : (y.sp == sp && y.addr == a) = false := by
      rw [Bool.eq_false_iff]
      simpa using h
    rw [if_neg h, hb]

theorem Mem.read_apply_reverse (m : Mem) (ws : List MWr) : (m.apply ws.reverse).read sp a = (lastWrite ws sp a).getD (m.read sp a) := by
  induction ws with
  | nil => rfl
  | cons y ws ih =>
    have happ : m.apply (y :: ws).reverse = (m.apply ws.reverse).write y := by
      rw [List.reverse_cons, Mem.apply, List.foldl_append]
      rfl
    rw [happ, Mem.read_write, lastWrite_cons]
    split
    · rfl
    · exact ih

theorem State.afterRun_read {s : State} {g : W → W} (hz : (g s.ctx).zero = []) :
    (s.afterRun g).mem.read sp a = (lastWrite (g s.ctx).ws sp a).getD (s.mem.read sp a) := by
  rw [State.afterRun_mem, hz, Mem.zeroBanks_nil, Mem.read_apply_reverse]

theorem lastWrite_wrBytes (w : W) (l : List Byte) : lastWrite (w.wrBytes sp a l).ws sp' x =
    if sp' = sp ∧ a ≤ x ∧ x < a + l.length then l[x - a]? else lastWrite w.ws sp' x := by
  have key : ∀ (l : List Byte) (k : Nat) (w : W),
      lastWrite ((l.zip (List.range' k l.length)).foldl (fun w p => w.wr sp (a + p.2) p.1) w).ws sp' x =
        if sp' = sp ∧ a + k ≤ x ∧ x < a + k + l.length then l[x - (a + k)]? else lastWrite w.ws sp' x := by
    intro l
    induction l with
    | nil => exact fun k w => (if_neg (by rw [List.length_nil]; omega)).symm
    | cons b l ih =>
      intro k w
      rw [List.length_cons, List.range'_succ, List.zip_cons_cons, List.foldl_cons, ih]
      by_cases hin : sp' = sp ∧ a + (k + 1) ≤ x ∧ x < a + (k + 1) + l.length
      case pos =>
        have hsub : x - (a + k) = x - (a + (k + 1)) + 1 := by omega
        rw [if_pos hin, if_pos ⟨hin.1, by omega, by omega⟩, hsub, List.getElem?_cons_succ]
      case neg =>
        rw [if_neg hin, W.wr, lastWrite_cons]
        by_cases hx : sp' = sp ∧ x = a + k
        case pos =>
          obtain ⟨rfl, rfl⟩ := hx
          rw [if_pos ⟨rfl, rfl⟩, if_pos ⟨rfl, by omega, by omega⟩, Nat.sub_self]
          rfl
        case neg =>
          rw [if_neg (fun h => hx ⟨h.1.symm, h.2.symm⟩), if_neg]
          rintro ⟨hsp, hlo, hhi⟩
          have hne : x ≠ a + k := fun h => hx ⟨hsp, h⟩
          exact hin ⟨hsp, by omega, by omega⟩
  have h := key l 0 w
  rw [← List.range_eq_range', Nat.add_zero] at h
  exact h

theorem length_leBytes (n v : Nat) : (leBytes n v).length = n := by
  induction n generalizing v with
  | zero => rfl
  | succ n ih => exact congrArg Nat.succ (ih _)

theorem getElem?_leBytes {j : Nat} (h : j < n) : (leBytes n v)[j]? = some (BitVec.ofNat 8 (v / 256 ^ j)) := by
  induction n generalizing j v with
  | zero => exact absurd h (Nat.not_lt_zero j)
  | succ n ih =>
    cases j with
    | zero => simp [leBytes]
    | succ j => rw [leBytes, List.getElem?_cons_succ, ih (by omega), Nat.div_div_eq_div_mul, Nat.pow_succ']

theorem lastWrite_wrN (w : W) : lastWrite (w.wrN sp a n v).ws sp' x =
    if sp' = sp ∧ a ≤ x ∧ x < a + n then some (BitVec.ofNat 8 (v / 256 ^ (x - a))) else lastWrite w.ws sp' x := by
  rw [W.wrN, lastWrite_wrBytes, length_leBytes]
  split
  case isTrue h => exact getElem?_leBytes (by omega)
  case isFalse => rfl

theorem W.wrN_frame (w : W) (sp : MemSp) (a n v : Nat) :
    (w.wrN sp a n v).d = w.d ∧ (w.wrN sp a n v).zero = w.zero ∧ (w.wrN sp a n v).m = w.m := by
  obtain ⟨l, hl, -⟩ := w.wrBytes_ws sp a (leBytes n v)
  rw [W.wrN, hl]
  exact ⟨rfl, rfl, rfl⟩

/-- After a run whose one write is `n` bytes from `a`. -/
theorem State.afterRun_wrN {s : State} {g : W → W} {f : Dev → Dev} (hg : g s.ctx = (s.ctx.wrN sp a n v).dev f) :
    (∀ j, j < n → (s.afterRun g).mem.read sp (a + j) = BitVec.ofNat 8 (v / 256 ^ j)) ∧
    (∀ p x, ¬(p = sp ∧ a ≤ x ∧ x < a + n) → (s.afterRun g).mem.read p x = s.mem.read p x) := by
  obtain ⟨-, hzero, -⟩ := s.ctx.wrN_frame sp a n v
  have hz : (g s.ctx).zero = [] := by rw [hg]; exact hzero
  have hws : (g s.ctx).ws = (s.ctx.wrN sp a n v).ws := by rw [hg]; rfl
  refine ⟨fun j hj => ?_, fun p x hx => ?_⟩
  · rw [State.afterRun_read hz, hws, lastWrite_wrN, if_pos ⟨rfl, by omega, by omega⟩, Nat.add_sub_cancel_left]
    rfl
  · rw [State.afterRun_read hz, hws, lastWrite_wrN, if_neg hx]
    rfl

/-! ### Reads -/

theorem State.ctx_rd (s : State) (h : sp ≠ .host) (a : Nat) : s.ctx.rd sp a = s.mem.read sp a := by
  unfold W.rd
  rw [if_neg h]
  exact if_neg fun h' => absurd h'.2 (by simp)

theorem State.ctx_rdN (s : State) (h : sp ≠ .host) (a n : Nat) :
    s.ctx.rdN sp a n = leNat ((List.range n).map fun j => s.mem.read sp (a + j)) := by
  have hmap : s.ctx.rdBytes sp a n = (List.range n).map fun j => s.mem.read sp (a + j) :=
    List.map_congr_left fun j _ => s.ctx_rd h (a + j)
  rw [W.rdN, hmap]

end

/-! ### Loads -/

section
variable {s : State} {c : Nat} {i : Word} {is : Word → Bool} {kind : LoadKind}

theorem Dev.winWaits_of_tcm {d : Dev} {a n b : Nat} (h : d.coreTarget c a n = .tcm b) : d.winWaits c a = false := by
  have ha : a < 0x40000 := by
    unfold Dev.coreTarget at h
    split at h
    · assumption
    · split at h
      · split at h <;> simp at h
      · split at h
        · dsimp only at h
          split at h <;> simp at h
        · split at h
          · dsimp only at h
            split at h <;> simp at h
          · simp at h
  unfold Dev.winWaits
  have hlow : decide (0x80000000 ≤ a) = false := decide_eq_false (by omega)
  rw [hlow, Bool.false_and, Bool.false_and]

/-- The address of a load or store. -/
def Dev.dataAddr (d : Dev) (c : Nat) (i : Word) : Nat := ((d.coreAt c).src (kRs1 i) + sImm i).toNat

theorem kLoad_eq (w : W) : kLoad kind c i w =
    if w.d.dataAddr c i % kind.size ≠ 0 then w.kRaise c .align (w.d.dataAddr c i)
    else if w.d.winWaits c (w.d.dataAddr c i) = true then w.dev (fun d => d.beginWait c (.load (kRd i) (w.d.dataAddr c i) kind))
    else match w.d.coreTarget c (w.d.dataAddr c i) kind.size with
      | .bad => w.kRaise c .load (w.d.dataAddr c i)
      | .tcm b => if w.d.badWords.contains (tcmKey c b) then w.kRaise c .memerr b
          else w.dev (fun d => d.loadDone c (kRd i) (kind.extend (w.rdN .tcm (tcmAddr c b) kind.size)))
      | _ => w.dev (fun d => d.beginWait c (.load (kRd i) (w.d.dataAddr c i) kind)) := rfl

theorem Dev.retires_loadDone (d : Dev) (c rd : Nat) (v : Word) :
    d.Retires (d.loadDone c rd v) c (nextPc (d.coreAt c).pc) (some (rd, (d.coreAt c).reg rd)) rd v :=
  Dev.retires_completeAt (.setReg d c rd v)

/-- What a load does, by its address (R371, R373, R377). -/
theorem State.atInstr.loads (h : s.atInstr c i) (his : is i = true) (kind : LoadKind) {a : Nat} (ha : s.d.dataAddr c i = a)
    {o : Host.Outcome State Fault Refusal} (ho : o = need (c < 4) (s.coreRun (kRow is (kLoad kind) c))) :
    (a % kind.size ≠ 0 → o = .next (s.afterRun (fun w => w.kRaise c .align a))) ∧
    (a % kind.size = 0 → s.d.winWaits c a = true → o = .next (s.afterDev (fun d => d.beginWait c (.load (kRd i) a kind)))) ∧
    (a % kind.size = 0 → s.d.winWaits c a = false → s.d.coreTarget c a kind.size = .bad →
      o = .next (s.afterRun (fun w => w.kRaise c .load a))) ∧
    (∀ b, a % kind.size = 0 → s.d.coreTarget c a kind.size = .tcm b → s.d.badWords.contains (tcmKey c b) = true →
      o = .next (s.afterRun (fun w => w.kRaise c .memerr b))) ∧
    (∀ b, a % kind.size = 0 → s.d.coreTarget c a kind.size = .tcm b → s.d.badWords.contains (tcmKey c b) = false →
      ∃ t, o = .next t ∧ t.mem = s.mem ∧ s.retires t c (nextPc (s.d.coreAt c).pc) (some (kRd i, (s.d.coreAt c).reg (kRd i))) (kRd i)
        (kind.extend (leNat ((List.range kind.size).map (fun j => s.mem.read .tcm (tcmAddr c b + j)))))) ∧
    (a % kind.size = 0 → (∀ b, s.d.coreTarget c a kind.size ≠ .tcm b) → s.d.coreTarget c a kind.size ≠ .bad →
      o = .next (s.afterDev (fun d => d.beginWait c (.load (kRd i) a kind)))) := by
  subst ha ho
  have hrun := h.exec (f := kLoad kind) his
  have hdev : ∀ {g : Dev → Dev}, kLoad kind c i s.ctx = s.ctx.dev g → _ := fun hf => h.exec_dev (f := kLoad kind) his hf
  refine ⟨fun hal => ?_, fun hal hwin => ?_, fun hal hwin ht => ?_, fun b hal ht hbad => ?_, fun b hal ht hbad => ?_, fun hal hnot hbad => ?_⟩
  · exact hrun.trans (State.next_afterRun_congr (if_pos hal))
  · refine hdev ?_
    rw [kLoad_eq]
    exact (if_neg (Classical.not_not.mpr hal)).trans (if_pos hwin)
  · refine hrun.trans (State.next_afterRun_congr ?_)
    rw [kLoad_eq, State.ctx_d, if_neg (Classical.not_not.mpr hal), hwin, if_neg (by decide), ht]
  · refine hrun.trans (State.next_afterRun_congr ?_)
    rw [kLoad_eq, State.ctx_d, if_neg (Classical.not_not.mpr hal), Dev.winWaits_of_tcm ht, if_neg (by decide), ht]
    exact if_pos hbad
  · refine ⟨_, hdev (g := fun d => d.loadDone c (kRd i) (kind.extend (s.ctx.rdN .tcm (tcmAddr c b) kind.size))) ?_, rfl, ?_⟩
    · rw [kLoad_eq, State.ctx_d, if_neg (Classical.not_not.mpr hal), Dev.winWaits_of_tcm ht, if_neg (by decide), ht]
      exact if_neg (by rw [hbad]; decide)
    · rw [s.ctx_rdN (by decide)]
      exact State.retires_afterDev (Dev.retires_loadDone s.d c (kRd i) _)
  · refine hdev ?_
    rw [kLoad_eq, State.ctx_d, if_neg (Classical.not_not.mpr hal)]
    split
    · rfl
    · split
      case h_1 ht => exact absurd ht hbad
      case h_2 b ht => exact absurd ht (hnot b)
      case h_3 => rfl

end

/-- Settles O21: the five loads differ in their size and sign alone. -/
theorem coreLoads : Obligations.CoreLoads := by
  intro s c i h k a loads
  exact ⟨fun hop => h.loads (isOp_of hop) _ rfl rfl, fun hop => h.loads (isOp_of hop) _ rfl rfl, fun hop => h.loads (isOp_of hop) _ rfl rfl,
    fun hop => h.loads (isOp_of hop) _ rfl rfl, fun hop => h.loads (isOp_of hop) _ rfl rfl⟩

/-! ### Stores -/

section
variable {s : State} {c : Nat} {i : Word} {is : Word → Bool} {size : Nat}

theorem kStore_eq (w : W) : kStore size c i w =
    if w.d.dataAddr c i % size ≠ 0 then w.kRaise c .align (w.d.dataAddr c i)
    else match w.d.coreTarget c (w.d.dataAddr c i) size with
      | .tcm _ => (w.storeNow c { addr := w.d.dataAddr c i, size := size, v := (w.d.coreAt c).src (kRd i) }).dev (fun d => d.complete c)
      | .reg _ => if privateStore (w.d.dataAddr c i) = true then
            (w.storeNow c { addr := w.d.dataAddr c i, size := size, v := (w.d.coreAt c).src (kRd i) }).dev (fun d => d.complete c)
          else w.postStore c (w.d.dataAddr c i) size ((w.d.coreAt c).src (kRd i))
      | _ => w.postStore c (w.d.dataAddr c i) size ((w.d.coreAt c).src (kRd i)) := rfl

/-- The LPDDR5X address that a target names. -/
def CoreTgt.lpAddr (t : CoreTgt) : Option Nat :=
  match t with
  | .lp b => some b
  | _ => none

/-- Addresses of the private port are those of registers. -/
theorem Dev.privateStore_of_mem {d : Dev} {a n : Nat} (h : (∃ b, d.coreTarget c a n = .sram b) ∨ ∃ b, d.coreTarget c a n = .lp b) :
    privateStore a = false := by
  refine Bool.eq_false_iff.mpr fun hp => ?_
  simp only [privateStore, Bool.and_eq_true, decide_eq_true_eq] at hp
  obtain ⟨hlo, hhi⟩ := hp
  have hsram : ¬ a < 0x20000000 + sramBytes := by
    have : sramBytes = 0xC000000 := by decide
    omega
  have htcm : ¬ a < tcmSize := by
    have : tcmSize = 0x40000 := rfl
    omega
  have hreg : d.coreTarget c a n = .bad ∨ ∃ o, d.coreTarget c a n = .reg o := by
    unfold Dev.coreTarget
    rw [if_neg htcm, if_neg (by omega), if_pos ⟨by omega, by omega⟩]
    dsimp only
    split
    · exact .inl rfl
    · exact .inr ⟨_, rfl⟩
  obtain ⟨b, hb⟩ | ⟨b, hb⟩ := h
  all_goals
    obtain hreg | ⟨o, hreg⟩ := hreg
    all_goals exact absurd (hb.symm.trans hreg) (by simp)

/-- A store that can wait becomes the newest of the posted ones, or stalls (R373, R374). -/
theorem W.postStore_eq (w : W) {a : Nat} {v : Word} (hbad : w.d.coreTarget c a size ≠ .bad) : w.postStore c a size v = w.dev (fun d =>
    if 8 ≤ (w.d.coreAt c).posted.length ∨ w.d.winWaits c a = true then d.beginWait c (.store a size v)
    else (d.onCore c (fun k => { k with posted := k.posted ++
      [{ addr := a, size := size, v := v, lp := (w.d.coreTarget c a size).lpAddr }] })).complete c) := by
  have hfull : (decide (8 ≤ (w.d.coreAt c).posted.length) || w.d.winWaits c a) = true ↔
      (8 ≤ (w.d.coreAt c).posted.length ∨ w.d.winWaits c a = true) := by
    rw [Bool.or_eq_true, decide_eq_true_eq]
  unfold W.postStore
  dsimp only
  by_cases hf : 8 ≤ (w.d.coreAt c).posted.length ∨ w.d.winWaits c a = true
  case pos =>
    simp only [if_pos hf, if_pos (hfull.mpr hf)]
  case neg =>
    simp only [if_neg hf, if_neg (mt hfull.mp hf)]
    cases ht : w.d.coreTarget c a size
    case bad => exact absurd ht hbad
    all_goals rfl

theorem W.storeNow_tcm (w : W) {p : Posted} {b : Nat} (hlp : p.lp = none) (h : w.d.coreTarget c p.addr p.size = .tcm b) :
    w.storeNow c p = w.wrN .tcm (tcmAddr c b) p.size p.v.toNat := by
  unfold W.storeNow
  rw [hlp, h]
  rfl

/-- A run that writes `n` bytes to a TCM and then ends the instruction. -/
theorem State.retires_wrN {g : W → W} {f : Dev → Dev} {a n x pc rd : Nat} {v : Word} (hg : g s.ctx = (s.ctx.wrN .tcm a n x).dev f)
    (hf : s.d.Retires (f s.d) c pc none rd v) : s.retires (s.afterRun g) c pc none rd v := by
  obtain ⟨hd, -, -⟩ := s.ctx.wrN_frame .tcm a n x
  refine State.retires_afterRun ?_
  rw [hg, W.dev, hd]
  exact hf

/-- What a store does, by its address (R371 to R375). -/
theorem State.atInstr.stores (h : s.atInstr c i) (his : is i = true) (size : Nat) {a : Nat} (ha : s.d.dataAddr c i = a) {v : Word}
    (hv : (s.d.coreAt c).src (kRd i) = v) {o : Host.Outcome State Fault Refusal}
    (ho : o = need (c < 4) (s.coreRun (kRow is (kStore size) c))) :
    (a % size ≠ 0 → o = .next (s.afterRun (fun w => w.kRaise c .align a))) ∧
    (a % size = 0 → s.d.coreTarget c a size = .bad → o = .next (s.afterRun (fun w =>
      if s.d.winWaits c a = true then w.dev (fun d => d.beginWait c (.store a size v)) else w.kRaise c .store a))) ∧
    (∀ b, a % size = 0 → s.d.coreTarget c a size = .tcm b →
      ∃ t, o = .next t ∧ s.retires t c (nextPc (s.d.coreAt c).pc) none 0 0 ∧
        (∀ j, j < size → t.mem.read .tcm (tcmAddr c b + j) = BitVec.ofNat 8 (v.toNat / 256 ^ j)) ∧
        (∀ sp x, ¬(sp = .tcm ∧ tcmAddr c b ≤ x ∧ x < tcmAddr c b + size) → t.mem.read sp x = s.mem.read sp x)) ∧
    (a % size = 0 → (∀ b, s.d.coreTarget c a size ≠ .tcm b) → s.d.coreTarget c a size ≠ .bad →
      o = .next (s.afterRun (fun w =>
        if privateStore a = true then (w.storeNow c { addr := a, size := size, v := v }).dev (fun d => d.complete c)
        else w.dev (fun d => if 8 ≤ (s.d.coreAt c).posted.length ∨ s.d.winWaits c a = true then d.beginWait c (.store a size v)
          else (d.onCore c (fun k => { k with posted := k.posted ++
            [{ addr := a, size := size, v := v, lp := (s.d.coreTarget c a size).lpAddr }] })).complete c)))) := by
  subst ha hv ho
  have hrun := h.exec (f := kStore size) his
  refine ⟨fun hal => ?_, fun hal ht => ?_, fun b hal ht => ?_, fun hal hnot hbad => ?_⟩
  · exact hrun.trans (State.next_afterRun_congr (if_pos hal))
  · refine hrun.trans (State.next_afterRun_congr ?_)
    rw [kStore_eq, State.ctx_d, if_neg (Classical.not_not.mpr hal), ht]
    unfold W.postStore
    rw [State.ctx_d, ht]
  · have hg : kStore size c i s.ctx =
        (s.ctx.wrN .tcm (tcmAddr c b) size ((s.d.coreAt c).src (kRd i)).toNat).dev (fun d => d.complete c) := by
      rw [kStore_eq, State.ctx_d, if_neg (Classical.not_not.mpr hal), ht]
      exact congrArg (W.dev · _) (W.storeNow_tcm _ rfl ht)
    exact ⟨_, hrun, State.retires_wrN hg (Dev.retires_complete (.refl s.d c)), State.afterRun_wrN hg⟩
  · refine hrun.trans (State.next_afterRun_congr ?_)
    rw [kStore_eq, State.ctx_d, if_neg (Classical.not_not.mpr hal), W.postStore_eq s.ctx hbad, State.ctx_d]
    cases ht : s.d.coreTarget c (s.d.dataAddr c i) size
    case tcm b => exact absurd ht (hnot b)
    case bad => exact absurd ht hbad
    case reg o => rfl
    case sram b => rw [Dev.privateStore_of_mem (.inl ⟨b, ht⟩)]; rfl
    case lp b => rw [Dev.privateStore_of_mem (.inr ⟨b, ht⟩)]; rfl

end

/-- Settles O22: the three stores differ in their size alone. -/
theorem coreStores : Obligations.CoreStores := by
  intro s c i h k a v stores
  exact ⟨fun hop => h.stores (isOp_of hop) _ rfl rfl rfl, fun hop => h.stores (isOp_of hop) _ rfl rfl rfl,
    fun hop => h.stores (isOp_of hop) _ rfl rfl rfl⟩

/-! ### Calls and returns -/

section
variable {s : State} {c : Nat} {i : Word} {is : Word → Bool}

theorem W.dev_dev (w : W) (f g : Dev → Dev) : (w.dev f).dev g = w.dev (fun d => g (f d)) := rfl

/-- The definition is opened as a function, before its arguments stand: the kernel would else evaluate the stack check at `below x 4`. -/
theorem W.kCall_of_refused (w : W) {a : Nat} {e : Cause} (ha : below ((w.d.coreAt c).src 30).toNat 4 = a)
    (h : (w.d.coreAt c).stackCheck a = some e) (pc : Nat) : w.kCall c pc = w.kRaise c e a := by
  have key : ∀ f, f = @W.kCall → f w c pc = w.kRaise c e a := by
    delta W.kCall
    rintro _ rfl
    simp only [ha, h]
  exact key _ rfl

/-- As for a call that is refused. -/
theorem W.kCall_of_room (w : W) {a : Nat} (ha : below ((w.d.coreAt c).src 30).toNat 4 = a) (h : (w.d.coreAt c).stackCheck a = none)
    (pc : Nat) : w.kCall c pc = ((w.wr32 .tcm (tcmAddr c a) (BitVec.ofNat 32 (nextPc (w.d.coreAt c).pc))).dev
      (fun d => d.onCore c fun k => k.setReg 30 (BitVec.ofNat 32 a))).kGo c pc := by
  have key : ∀ f, f = @W.kCall → f w c pc = ((w.wr32 .tcm (tcmAddr c a) (BitVec.ofNat 32 (nextPc (w.d.coreAt c).pc))).dev
      (fun d => d.onCore c fun k => k.setReg 30 (BitVec.ofNat 32 a))).kGo c pc := by
    delta W.kCall
    rintro _ rfl
    simp only [ha, h]
  exact key _ rfl

/-- What a call to `target` does, by the slot below g30 (R382). -/
theorem State.atInstr.calls (h : s.atInstr c i) (his : is i = true) {f : Nat → Word → W → W} {target : Nat}
    (hf : f c i s.ctx = s.ctx.kCall c target) {down : Nat} (hdown : below ((s.d.coreAt c).src 30).toNat 4 = down)
    {o : Host.Outcome State Fault Refusal} (ho : o = need (c < 4) (s.coreRun (kRow is f c))) :
    (∀ e, (s.d.coreAt c).stackCheck down = some e → o = .next (s.afterRun (fun w => w.kRaise c e down))) ∧
    ((s.d.coreAt c).stackCheck down = none → ∃ t, o = .next t ∧ s.retires t c target none 30 (BitVec.ofNat 32 down) ∧
      (∀ j, j < 4 → t.mem.read .tcm (tcmAddr c down + j) = BitVec.ofNat 8 (nextPc (s.d.coreAt c).pc / 256 ^ j)) ∧
      (∀ sp x, ¬(sp = .tcm ∧ tcmAddr c down ≤ x ∧ x < tcmAddr c down + 4) → t.mem.read sp x = s.mem.read sp x)) := by
  subst ho
  have hrun := h.exec (f := f) his
  refine ⟨fun e hchk => ?_, fun hchk => ?_⟩
  · refine hrun.trans (State.next_afterRun_congr ?_)
    exact hf.trans (W.kCall_of_refused s.ctx hdown hchk target)
  · have hpc : (BitVec.ofNat 32 (nextPc (s.d.coreAt c).pc)).toNat = nextPc (s.d.coreAt c).pc := by
      rw [BitVec.toNat_ofNat]
      exact Nat.mod_eq_of_lt (Nat.mod_lt _ (by decide))
    have hg : f c i s.ctx = (s.ctx.wrN .tcm (tcmAddr c down) 4 (nextPc (s.d.coreAt c).pc)).dev
        (fun d => (d.onCore c fun k => k.setReg 30 (BitVec.ofNat 32 down)).completeAt c target none) := by
      rw [hf, W.kCall_of_room s.ctx hdown hchk target, W.wr32, State.ctx_d, hpc]
      exact W.dev_dev _ _ _
    exact ⟨_, hrun, State.retires_wrN hg (Dev.retires_completeAt (.setReg s.d c 30 _)), State.afterRun_wrN hg⟩

end

/-- Settles O24: calls push the return address before they go on, returns pop it. -/
theorem coreCallsAndReturns : Obligations.CoreCallsAndReturns := by
  intro s c i h k down at_ calls
  have hret := fun hop => h.exec (is := isOp 0x1A) (f := kRet) (isOp_of hop)
  refine ⟨fun hop => h.calls (f := kCall) (isOp_of hop) rfl rfl rfl,
    fun hop hal => h.calls (f := kCallr) (isOp_of hop) (if_neg (Classical.not_not.mpr hal)) rfl rfl,
    fun hop hal => ?_, fun hop e hchk => ?_, fun hop hchk hbad => ?_, fun hop hchk hbad => ?_⟩
  · exact (h.exec (isOp_of hop)).trans (State.next_afterRun_congr (if_pos hal))
  · have hpop : s.ctx.kPop c at_ = .error e := by
      unfold W.kPop
      rw [State.ctx_d, hchk]
    refine (hret hop).trans (State.next_afterRun_congr ?_)
    unfold kRet
    dsimp only
    rw [State.ctx_d, hpop]
  · have hpop : s.ctx.kPop c at_ = .error .memerr := by
      unfold W.kPop
      rw [State.ctx_d, hchk]
      exact if_pos hbad
    refine (hret hop).trans (State.next_afterRun_congr ?_)
    unfold kRet
    dsimp only
    rw [State.ctx_d, hpop]
  · have hpop : s.ctx.kPop c at_ = .ok (s.ctx.tcmWord c at_) := by
      unfold W.kPop
      rw [State.ctx_d, hchk]
      exact if_neg (by rw [hbad]; decide)
    have hg : kRet c i s.ctx = s.ctx.dev fun d =>
        (d.onCore c fun k => k.setReg 30 (BitVec.ofNat 32 (at_ + 4))).completeAt c ((s.ctx.tcmWord c at_).toNat / 4 * 4) none := by
      unfold kRet
      dsimp only
      rw [State.ctx_d, hpop]
      rfl
    exact ⟨_, h.exec_dev (isOp_of hop) hg, rfl, State.retires_afterDev (Dev.retires_completeAt (.setReg s.d c 30 _))⟩

/-! ### Bit operations -/

section
variable {s : State} {c : Nat} {i : Word} {n : Nat}

/-- The bit that a BIT instruction names. -/
def Dev.bitAddr (d : Dev) (c : Nat) (i : Word) : Nat := (((d.coreAt c).src (kRd i)).toNat + kImm i) % 65536

theorem Dev.readBit_user (d : Dev) (h : 0x8000 ≤ n) : d.readBit c n = Tab.at false (d.coreAt c).user (n - 0x8000) := by
  unfold Dev.readBit
  rw [if_neg (by omega), if_neg (by omega), if_neg (by omega), if_neg (by omega), if_neg (by omega), if_neg (by omega),
    if_neg (by omega), if_neg (by omega), if_pos h]

theorem Dev.writeBit_user (d : Dev) (h : 0x8000 ≤ n) (v : Bool) :
    d.writeBit c n v = d.onCore c (fun k => { k with user := Tab.put false k.user (n - 0x8000) v }) := by
  unfold Dev.writeBit
  rw [if_neg (by omega), if_neg (by omega), if_neg (by omega), if_neg (by omega), if_neg (by omega), if_pos h]

/-- The accumulator's change of a bit operation, then its write if there is one (R384). -/
def Dev.bitStores (d : Dev) (c n : Nat) (ba : Bool) (out : Option Bool) : Dev :=
  let d1 := d.onCore c (fun k => { k with ba := ba })
  match out with
  | some v => d1.writeBit c n v
  | none => d1

/-- The device after a bit operation. -/
def Dev.bitActs (d : Dev) (c n : Nat) (ba : Bool) (out : Option Bool) : Dev := (d.bitStores c n ba out).complete c

/-- On a user bit a bit operation's stores change the accumulator and the user bits. -/
theorem Dev.bitStores_user (d : Dev) (h : 0x8000 ≤ n) (ba : Bool) (out : Option Bool) :
    ∃ u, d.OneCore (d.bitStores c n ba out) c { d.coreAt c with ba := ba, user := u } ∧
      ∀ m, 0x8000 ≤ m → Tab.at false u (m - 0x8000) = if m = n then out.getD (d.readBit c n) else d.readBit c m := by
  cases out with
  | none =>
    refine ⟨(d.coreAt c).user, .onCore d c _, fun m hm => ?_⟩
    rw [Dev.readBit_user d hm]
    split
    case isTrue heq => rw [heq, Option.getD_none, Dev.readBit_user d h]
    case isFalse => rfl
  | some v =>
    have hone : d.OneCore ((d.onCore c (fun k => { k with ba := ba })).writeBit c n v) c
        { d.coreAt c with ba := ba, user := Tab.put false (d.coreAt c).user (n - 0x8000) v } := by
      rw [Dev.writeBit_user _ h]
      have h2 := Dev.OneCore.onCore (d.onCore c (fun k => { k with ba := ba })) c
        (fun k => { k with user := Tab.put false k.user (n - 0x8000) v })
      rw [Dev.coreAt_onCore_self] at h2
      exact (Dev.OneCore.onCore d c _).trans h2
    refine ⟨_, hone, fun m hm => ?_⟩
    rw [Tab.get_put, Dev.readBit_user d hm]
    by_cases heq : m = n
    case pos => rw [if_pos heq, heq, if_pos rfl]; rfl
    case neg => rw [if_neg heq, if_neg (by omega)]

/-- On a user bit only the accumulator and that bit move. -/
theorem Dev.bitActs_user (d : Dev) (h : 0x8000 ≤ n) (ba : Bool) (out : Option Bool) :
    ((d.bitActs c n ba out).coreAt c).ba = ba ∧ (d.bitActs c n ba out).readBit c n = out.getD (d.readBit c n) ∧
    (∀ m, 0x8000 ≤ m → m ≠ n → (d.bitActs c n ba out).readBit c m = d.readBit c m) ∧
    ((d.bitActs c n ba out).coreAt c).pc = nextPc (d.coreAt c).pc ∧
    (∀ r, ((d.bitActs c n ba out).coreAt c).reg r = (d.coreAt c).reg r) ∧
    (∀ a, a ≠ Reg.KC_STAT c → (d.bitActs c n ba out).rg a = d.rg a) := by
  obtain ⟨u, hone, hu⟩ := d.bitStores_user (c := c) h ba out
  obtain ⟨k', hk, hdone⟩ := (d.bitStores c n ba out).completeAt_oneCore c (nextPc ((d.bitStores c n ba out).coreAt c).pc) none
  obtain ⟨hself, -, hrg⟩ := hone.trans hdone
  have hself : (d.bitActs c n ba out).coreAt c = k' := hself
  rw [hone.self] at hk
  have hbit : ∀ m, 0x8000 ≤ m → (d.bitActs c n ba out).readBit c m = if m = n then out.getD (d.readBit c n) else d.readBit c m := by
    intro m hm
    rw [Dev.readBit_user _ hm, hself, ← hu m hm]
    obtain ⟨_, _, _, _, _, rfl⟩ := hk
    rfl
  refine ⟨?_, (hbit n h).trans (if_pos rfl), fun m hm hne => (hbit m hm).trans (if_neg hne), ?_, fun r => ?_, hrg⟩
  all_goals
    rw [hself]
    obtain ⟨_, _, _, _, _, rfl⟩ := hk
    rfl

/-- What a BIT sub-operation does (R384, R385). -/
theorem State.atInstr.acts (h : s.atInstr c i) (hop : kOp i = 0x1B) {sub : Nat} (hsub : kRs1 i = sub)
    (f : Bool → Bool → Bool × Option Bool) {ba : Bool} {out : Option Bool} (hn : s.d.bitAddr c i = n)
    (hf : f (s.d.coreAt c).ba (s.d.readBit c n) = (ba, out)) {o : Host.Outcome State Fault Refusal}
    (ho : o = need (c < 4) (s.coreRun (kRow (isBit sub) (kBit f) c))) :
    o = .next (s.afterDev fun d => d.bitActs c n ba out) ∧
    (0x8000 ≤ n → ∃ t, o = .next t ∧ t.mem = s.mem ∧ (t.d.coreAt c).ba = ba ∧ t.d.readBit c n = out.getD (s.d.readBit c n) ∧
      (∀ m, 0x8000 ≤ m → m ≠ n → t.d.readBit c m = s.d.readBit c m) ∧ (t.d.coreAt c).pc = nextPc (s.d.coreAt c).pc ∧
      (∀ r, (t.d.coreAt c).reg r = (s.d.coreAt c).reg r) ∧ (∀ a, a ≠ Reg.KC_STAT c → t.d.rg a = s.d.rg a)) := by
  subst ho hn
  have hexec := (h.exec_dev (f := kBit f) (isBit_of hop hsub) rfl).trans
    (State.next_afterDev_congr (g := fun d => d.bitActs c (s.d.bitAddr c i) ba out) (by
      dsimp only
      rw [show f (s.d.coreAt c).ba (s.d.readBit c ((((s.d.coreAt c).src (kRd i)).toNat + kImm i) % 65536)) = (ba, out) from hf]
      rfl))
  exact ⟨hexec, fun hlt => ⟨_, hexec, rfl, Dev.bitActs_user s.d hlt ba out⟩⟩

end

/-- Settles O25: a BIT sub-operation is given by what it makes of the accumulator and the bit. -/
theorem coreBitOperations : Obligations.CoreBitOperations := by
  intro s c i h k n b acts hop
  have key : ∀ {cmd : Instr} {sub : Nat} {f : Bool → Bool → Bool × Option Bool} {ba : Bool} {out : Option Bool}, 
      exec cmd s = need (c < 4) (s.coreRun (kRow (isBit sub) (kBit f) c)) → f k.ba b = (ba, out) → kRs1 i = sub → acts cmd ba out :=
    fun ho hf hs => h.acts hop hs _ rfl hf ho
  clear_value acts
  exact ⟨key rfl rfl, key rfl rfl, key rfl rfl, key rfl rfl, key rfl rfl, key rfl rfl, key rfl rfl, key rfl rfl, key rfl rfl, key rfl rfl,
    key rfl rfl, key rfl rfl, key rfl rfl, key rfl rfl⟩

end Sys2Proof.Machine
end

section
/-!
PROOFS. The Krytesh cores, third part: exception entry, the other system instructions and table look-up (O26, O27, O28).
-/

namespace Sys2Proof.Machine

/-! ### Reads past writes -/

section
variable {sp : MemSp} {a : Nat}

theorem W.rd_eq (w : W) (h : sp ≠ .host) (a : Nat) : w.rd sp a =
    (lastWrite w.ws sp a).getD (if sp = .sram ∧ w.zero.contains (a / 2 ^ 21) = true then 0 else w.m.read sp a) := by
  unfold W.rd lastWrite
  rw [if_neg h]
  cases w.ws.find? (fun x => x.sp == sp && x.addr == a)
  case none => rfl
  case some x => rfl

theorem W.rd_wrN_of_ne (w : W) (hh : sp ≠ .host) {p : MemSp} {b n v : Nat} (h : ¬(sp = p ∧ b ≤ a ∧ a < b + n)) :
    (w.wrN p b n v).rd sp a = w.rd sp a := by
  obtain ⟨-, hz, hm⟩ := w.wrN_frame p b n v
  rw [W.rd_eq _ hh, W.rd_eq _ hh, lastWrite_wrN, if_neg h, hz, hm]

theorem W.rd32_congr {w w' : W} (h : ∀ j, j < 4 → w.rd sp (a + j) = w'.rd sp (a + j)) : w.rd32 sp a = w'.rd32 sp a := by
  have hmap : w.rdBytes sp a 4 = w'.rdBytes sp a 4 := List.map_congr_left fun j hj => h j (List.mem_range.mp hj)
  rw [W.rd32, W.rd32, W.rdN, W.rdN, hmap]

end

/-! ### The entry of an exception (R387) -/

section
variable {w : W} {c ret code a1 a2 : Nat} {cause : Cause}

/-- Inside a handler an exception is a double fault. As for a call, the definition is opened as a function. -/
theorem W.enter_of_hnd (hc : cause.hasAddr = false) (h : (w.d.coreAt c).hnd = true) (addr : Nat) :
    w.enter c cause ret code addr = w.dev (fun d => d.doubleFault c cause) := by
  have key : ∀ f, f = @W.enter → f w c cause ret code addr = w.dev (fun d => d.doubleFault c cause) := by
    delta W.enter
    rintro _ rfl
    simp only [hc, h, Bool.false_eq_true, if_false, if_true]
  exact key _ rfl

/-- What the entry makes of the core. -/
structure Core.Entered (k k' : Core) (cause : Cause) (code a2 pc : Nat) : Prop where
  hnd : k'.hnd = true
  ien : k'.ien = false
  slot : k'.slot = none
  ecause : k'.ecause = packFields [(0, cause.code), (16, code % 2 ^ 15)]
  pc : k'.pc = pc
  reg : ∀ r, k'.reg r = if r = 30 then BitVec.ofNat 32 a2 else k.reg r

/-- The two words of an entry. -/
def W.pushed (w : W) (c : Nat) (cause : Cause) (ret a1 a2 : Nat) : W :=
  (w.wr32 .tcm (tcmAddr c a1) ((w.d.coreAt c).statusWord cause)).wr32 .tcm (tcmAddr c a2) (BitVec.ofNat 32 ret)

/-- Outside a handler, with room on the stack: both words are pushed, and the core goes to its handler. -/
theorem W.enter_of_room (hc : cause.hasAddr = false) (h : (w.d.coreAt c).hnd = false)
    (ha1 : below ((w.d.coreAt c).reg 30).toNat 4 = a1) (ha2 : below ((w.d.coreAt c).reg 30).toNat 8 = a2)
    (h1 : (w.d.coreAt c).stackCheck a1 = none) (h2 : (w.d.coreAt c).stackCheck a2 = none)
    (hx : (w.d.coreAt c).xbase.toNat + 4 * cause.code < 0x20000) (addr : Nat) :
    ∃ f : Core → Core, w.enter c cause ret code addr = (w.pushed c cause ret a1 a2).dev (fun d => d.onCore c f) ∧
      ∀ k : Core, k.Entered (f k) cause code a2 ((w.pushed c cause ret a1 a2).handler c cause) := by
  have key : ∀ g, g = @W.enter → ∃ f : Core → Core,
      g w c cause ret code addr = (w.pushed c cause ret a1 a2).dev (fun d => d.onCore c f) ∧
        ∀ k : Core, k.Entered (f k) cause code a2 ((w.pushed c cause ret a1 a2).handler c cause) := by
    delta W.enter
    rintro _ rfl
    simp only [hc, h, ha1, ha2, h1, h2, hx, Bool.false_eq_true, if_false, if_true]
    refine ⟨_, rfl, fun k => ⟨rfl, rfl, rfl, rfl, rfl, fun r => ?_⟩⟩
    refine (Core.reg_setReg k 30 r (BitVec.ofNat 32 a2)).trans ?_
    by_cases hr : r = 30
    case pos => rw [if_pos hr, if_pos ⟨hr, by omega⟩]
    case neg => rw [if_neg hr, if_neg fun h => hr h.1]
  exact key _ rfl

theorem W.pushed_eq (w : W) (c : Nat) (cause : Cause) (ret a1 a2 : Nat) : w.pushed c cause ret a1 a2 =
    (w.wrN .tcm (tcmAddr c a1) 4 ((w.d.coreAt c).statusWord cause).toNat).wrN .tcm (tcmAddr c a2) 4 (BitVec.ofNat 32 ret).toNat := rfl

theorem W.pushed_frame (w : W) (c : Nat) (cause : Cause) (ret a1 a2 : Nat) :
    (w.pushed c cause ret a1 a2).d = w.d ∧ (w.pushed c cause ret a1 a2).zero = w.zero := by
  obtain ⟨hd, hz, -⟩ := w.wrN_frame .tcm (tcmAddr c a1) 4 ((w.d.coreAt c).statusWord cause).toNat
  obtain ⟨hd', hz', -⟩ := (w.wrN .tcm (tcmAddr c a1) 4 ((w.d.coreAt c).statusWord cause).toNat).wrN_frame .tcm (tcmAddr c a2) 4
    (BitVec.ofNat 32 ret).toNat
  rw [W.pushed_eq]
  exact ⟨hd'.trans hd, hz'.trans hz⟩

/-- The handler's word lies in the ITCM, below both words pushed. -/
theorem W.handler_pushed (hlo1 : 0x20000 ≤ a1) (hlo2 : 0x20000 ≤ a2) (hx : (w.d.coreAt c).xbase.toNat + 4 * cause.code + 4 ≤ 0x20000) :
    (w.pushed c cause ret a1 a2).handler c cause = (w.tcmWord c ((w.d.coreAt c).xbase.toNat + 4 * cause.code)).toNat / 4 * 4 := by
  obtain ⟨hd, -⟩ := w.pushed_frame c cause ret a1 a2
  have hword : (w.pushed c cause ret a1 a2).tcmWord c ((w.d.coreAt c).xbase.toNat + 4 * cause.code) =
      w.tcmWord c ((w.d.coreAt c).xbase.toNat + 4 * cause.code) := by
    refine W.rd32_congr fun j hj => ?_
    rw [W.pushed_eq, W.rd_wrN_of_ne _ (by decide), W.rd_wrN_of_ne _ (by decide)]
    · unfold tcmAddr
      omega
    · unfold tcmAddr
      omega
  unfold W.handler
  dsimp only
  rw [hd, if_pos (by omega), hword]

end

section
variable {s : State} {c : Nat} {i : Word} {is : Word → Bool} {f : Nat → Word → W → W} {cause : Cause} {ret code addr a1 a2 : Nat}

theorem Core.stackCheck_room {k : Core} {a : Nat} (h : k.stackCheck a = none) : a % 4 = 0 ∧ 0x20000 ≤ a ∧ a < 0x40000 := by
  unfold Core.stackCheck at h
  split at h
  case isTrue => exact absurd h (by simp)
  case isFalse hal =>
    split at h
    case isTrue hr =>
      simp only [Bool.and_eq_true, decide_eq_true_eq] at hr
      omega
    case isFalse => exact absurd h (by simp)

/-- The two words of a push lie side by side. -/
theorem below_four_of_room {x : Nat} (hx : x < 2 ^ 32) (h : below x 8 = a2) (h' : below x 4 = a1) (ha : 0x20000 ≤ a2) (ha' : a2 < 0x40000)
    (hb : a1 < 0x40000) : a1 = a2 + 4 := by
  unfold below at h h'
  omega

/-- What the entry of an exception without an address does (R387). -/
theorem State.atInstr.enters (h : s.atInstr c i) (his : is i = true)
    (hf : f c i s.ctx = (s.ctx.enter c cause ret code addr).dev (fun d => d.boundary c)) (hc : cause.hasAddr = false) (hret : ret < 2 ^ 32)
    {code' : Nat} (hcode : code % 2 ^ 15 = code') (ha1 : below ((s.d.coreAt c).reg 30).toNat 4 = a1)
    (ha2 : below ((s.d.coreAt c).reg 30).toNat 8 = a2) {o : Host.Outcome State Fault Refusal}
    (ho : o = need (c < 4) (s.coreRun (kRow is f c))) :
    ((s.d.coreAt c).hnd = true → o = .next (s.afterDev (fun d => (d.doubleFault c cause).boundary c))) ∧
    ((s.d.coreAt c).hnd = false → (s.d.coreAt c).stackCheck a1 = none → (s.d.coreAt c).stackCheck a2 = none →
      (s.d.coreAt c).xbase.toNat + 4 * cause.code + 4 ≤ 0x20000 →
      ∃ t, o = .next t ∧ (t.d.coreAt c).hnd = true ∧ (t.d.coreAt c).ien = false ∧ (t.d.coreAt c).slot = none ∧
        (t.d.coreAt c).ecause = packFields [(0, cause.code), (16, code')] ∧
        (t.d.coreAt c).pc = (s.ctx.tcmWord c ((s.d.coreAt c).xbase.toNat + 4 * cause.code)).toNat / 4 * 4 ∧
        (∀ r, (t.d.coreAt c).reg r = if r = 30 then BitVec.ofNat 32 a2 else (s.d.coreAt c).reg r) ∧
        (∀ j, j < 4 → t.mem.read .tcm (tcmAddr c a1 + j) = BitVec.ofNat 8 (((s.d.coreAt c).statusWord cause).toNat / 256 ^ j)) ∧
        (∀ j, j < 4 → t.mem.read .tcm (tcmAddr c a2 + j) = BitVec.ofNat 8 (ret / 256 ^ j)) ∧
        (∀ p x, ¬(p = .tcm ∧ tcmAddr c a2 ≤ x ∧ x < tcmAddr c a2 + 8) → t.mem.read p x = s.mem.read p x) ∧
        (∀ c', c' ≠ c → t.d.coreAt c' = s.d.coreAt c') ∧ (∀ a, a ≠ Reg.KC_STAT c → t.d.rg a = s.d.rg a)) := by
  subst ho
  refine ⟨fun hhnd => ?_, fun hhnd h1 h2 hx => ?_⟩
  · refine h.exec_dev his (hf.trans ?_)
    rw [W.enter_of_hnd hc hhnd]
    exact W.dev_dev _ _ _
  · obtain ⟨-, hlo1, hhi1⟩ := Core.stackCheck_room h1
    obtain ⟨-, hlo2, hhi2⟩ := Core.stackCheck_room h2
    have ha : a1 = a2 + 4 := below_four_of_room ((s.d.coreAt c).reg 30).isLt ha2 ha1 hlo2 hhi2 hhi1
    obtain ⟨g, hg, hent⟩ := W.enter_of_room (w := s.ctx) (ret := ret) (code := code) hc hhnd ha1 ha2 h1 h2 (by rw [State.ctx_d]; omega) addr
    have hrun := (hf.trans (congrArg (W.dev · _) hg)).trans (W.dev_dev _ _ _)
    obtain ⟨hd, hz⟩ := s.ctx.pushed_frame c cause ret a1 a2
    have hread : ∀ p x, (s.afterRun (f c i)).mem.read p x = (lastWrite (s.ctx.pushed c cause ret a1 a2).ws p x).getD (s.mem.read p x) := by
      intro p x
      have hzero : (f c i s.ctx).zero = [] := (congrArg W.zero hrun).trans hz
      have hws : (f c i s.ctx).ws = (s.ctx.pushed c cause ret a1 a2).ws := by rw [hrun]; rfl
      rw [State.afterRun_read hzero, hws]
    obtain ⟨k', hk, hbound⟩ := (s.d.onCore c g).boundary_oneCore c
    obtain ⟨hself, hother, hrg⟩ := (Dev.OneCore.onCore s.d c g).trans hbound
    rw [Dev.coreAt_onCore_self] at hk
    obtain ⟨hhnd', hien, hslot, hecause, hpc, hreg⟩ := hent (s.d.coreAt c)
    rw [W.handler_pushed hlo1 hlo2 hx] at hpc
    have htd : (f c i s.ctx).d = (s.d.onCore c g).boundary c := by
      rw [hrun, W.dev, hd]
      rfl
    have hcore : ∀ c', (s.afterRun (f c i)).d.coreAt c' = ((s.d.onCore c g).boundary c).coreAt c' := fun c' =>
      show (f c i s.ctx).d.coreAt c' = _ by rw [htd]
    have hside : tcmAddr c a1 = tcmAddr c a2 + 4 := by rw [ha, tcmAddr, tcmAddr, Nat.add_assoc]
    have hword : (BitVec.ofNat 32 ret).toNat = ret := by rw [BitVec.toNat_ofNat, Nat.mod_eq_of_lt hret]
    refine ⟨_, h.exec his, ?_⟩
    rw [hcore c, hself, ← hcode]
    obtain ⟨_, _, _, _, _, rfl⟩ := hk
    refine ⟨hhnd', hien, hslot, hecause, hpc, hreg, fun j hj => ?_, fun j hj => ?_, fun p x hx => ?_, fun c' hc' => (hcore c').trans (hother c' hc'),
      fun a ha => ?_⟩
    · rw [hread, W.pushed_eq, lastWrite_wrN, if_neg (by unfold tcmAddr; omega), lastWrite_wrN,
        if_pos ⟨rfl, by omega, by omega⟩, Nat.add_sub_cancel_left]
      rfl
    · rw [hread, W.pushed_eq, lastWrite_wrN, if_pos ⟨rfl, by omega, by omega⟩, Nat.add_sub_cancel_left, hword]
      rfl
    · rw [hread, W.pushed_eq, lastWrite_wrN, if_neg, lastWrite_wrN, if_neg]
      · rfl
      · rintro ⟨rfl, hlo, hhi⟩
        rw [hside] at hlo hhi
        exact hx ⟨rfl, by omega, by omega⟩
      · rintro ⟨rfl, hlo, hhi⟩
        exact hx ⟨rfl, hlo, by omega⟩
    · show (f c i s.ctx).d.rg a = _
      rw [htd, hrg a ha]

end

theorem bits_lt (x lo n : Nat) : bits x lo n < 2 ^ n := Nat.mod_lt _ (Nat.two_pow_pos n)

theorem nextPc_lt (pc : Nat) : nextPc pc < 2 ^ 32 := Nat.mod_lt _ (by decide)

theorem Dev.not_loading {d : Dev} {c : Nat} (h : d.kIs c .running = true) : d.kIs c .loading = false := by
  unfold Dev.kIs at h ⊢
  rw [beq_iff_eq] at h
  rw [h]
  rfl

/-- Settles O26: the three entries differ in their cause, return address and code alone. -/
theorem coreExceptionEntry : Obligations.CoreExceptionEntry := by
  intro s c i h k sp enters
  obtain ⟨-, -, hrun, -⟩ := h.issues
  refine ⟨fun hop hfn => ?_, fun hop hfn harm => ?_, fun hill => ?_⟩
  · exact h.enters (isOpFn_of hop hfn) (f := kSyscall) rfl rfl (nextPc_lt _) (Nat.mod_eq_of_lt (bits_lt _ _ _)) rfl rfl rfl
  · exact h.enters (isOpFn_of hop hfn) (f := kBreak) (if_neg (by rw [State.ctx_d, harm]; decide)) rfl (nextPc_lt _)
      (Nat.mod_eq_of_lt (bits_lt _ _ _)) rfl rfl rfl
  · have hpc : (s.d.coreAt c).pc < 2 ^ 32 := Nat.lt_trans h.2.1 (by decide)
    refine h.enters hill (f := kIllegalStep) (addr := 0) (code := 0) (if_neg ?_) rfl hpc rfl rfl rfl rfl
    rw [State.ctx_d, Dev.not_loading hrun]
    decide

/-! ### System instructions (R386, R390) -/

section
variable {s : State} {c : Nat} {i : Word} {d : Dev}

theorem W.kPop_of_room {w : W} {a : Nat} (h : (w.d.coreAt c).stackCheck a = none) (hbad : w.d.badWords.contains (tcmKey c a) = false) :
    w.kPop c a = .ok (w.tcmWord c a) := by
  unfold W.kPop
  rw [h]
  exact if_neg (by rw [hbad]; decide)

/-- A write of a core status register leaves PC and the general registers. -/
theorem Core.setCsr_frame (k : Core) (n : Nat) (v : Word) : (k.setCsr n v).pc = k.pc ∧ (k.setCsr n v).g = k.g := by
  unfold Core.setCsr
  split <;> exact ⟨rfl, rfl⟩

/-- The core status registers that CSRW writes stand at the end of an instruction. -/
theorem Core.csr_of_written {k k' : Core} {pc n : Nat} {slot : Option (Nat × Word)} (h : (k.stepped pc slot).Halts k')
    (hn : n ≠ 11) : k'.csr c n = k.csr c n := Core.csr_of_stepped (g := k.g) h hn

theorem Core.reg_of_halts {k k' : Core} (h : k.Halts k') (r : Nat) : k'.reg r = k.reg r := by
  obtain ⟨_, _, _, _, _, rfl⟩ := h
  rfl

/-- IENHOLD moves no register. -/
theorem Dev.ienHold_oneCore {k : Core} (h : d.coreAt c = k) (p : Prop) [Decidable p] : ∃ b,
    d.OneCore (if p then d.onCore c (fun k => { k with ienHold := true }) else d) c { k with ienHold := b } := by
  subst h
  split
  · exact ⟨true, .onCore d c _⟩
  · exact ⟨(d.coreAt c).ienHold, .refl d c⟩

theorem Core.csr_ienHold (k : Core) (b : Bool) (n : Nat) : ({ k with ienHold := b } : Core).csr c n = k.csr c n := by
  unfold Core.csr
  split <;> rfl

/-- What CSRW leaves of the core and the registers. -/
theorem kCsrw_dev {v : Word} (h : (d.coreAt c).csr c (kImm i) = some v) (w : W) (hw : w.d = d) :
    ∃ e, kCsrw c i w = w.dev (fun _ => e) ∧ ∃ k', d.OneCore e c k' ∧ k'.pc = nextPc (d.coreAt c).pc ∧
      (∀ n, n ≠ 11 → k'.csr c n = ((d.coreAt c).setCsr (kImm i) ((d.coreAt c).src (kRs1 i))).csr c n) ∧
      ∀ r, k'.reg r = (d.coreAt c).reg r := by
  obtain ⟨hpc, hg⟩ := (d.coreAt c).setCsr_frame (kImm i) ((d.coreAt c).src (kRs1 i))
  have hone := Dev.OneCore.onCore d c (fun k => k.setCsr (kImm i) (k.src (kRs1 i)))
  obtain ⟨k1, hk1, hdone⟩ := (d.onCore c (fun k => k.setCsr (kImm i) (k.src (kRs1 i)))).completeAt_oneCore c
    (nextPc ((d.onCore c (fun k => k.setCsr (kImm i) (k.src (kRs1 i)))).coreAt c).pc) none
  rw [hone.self] at hk1
  have hself : ((d.onCore c (fun k => k.setCsr (kImm i) (k.src (kRs1 i)))).complete c).coreAt c = k1 := hdone.self
  obtain ⟨b, hhold⟩ := Dev.ienHold_oneCore hself (kImm i = 0 ∧ (d.coreAt c).ien = false ∧
    (((d.onCore c (fun k => k.setCsr (kImm i) (k.src (kRs1 i)))).complete c).coreAt c).ien = true)
  refine ⟨_, ?_, _, (hone.trans hdone).trans hhold, ?_, fun n hn => ?_, fun r => ?_⟩
  · subst hw
    unfold kCsrw
    dsimp only
    rw [h]
    rfl
  · obtain ⟨_, _, _, _, _, rfl⟩ := hk1
    exact congrArg nextPc hpc
  · exact (Core.csr_ienHold k1 b n).trans (Core.csr_of_written hk1 hn)
  · obtain ⟨_, _, _, _, _, rfl⟩ := hk1
    show (if r = 0 then 0 else Tab.at 0 ((d.coreAt c).setCsr (kImm i) ((d.coreAt c).src (kRs1 i))).g r) = _
    rw [hg]
    rfl

/-- RETX, once both words are popped and g30 is to hold `v`. -/
def Dev.retx (d : Dev) (c pc : Nat) (st v : Word) : Dev :=
  let d := d.onCore c (fun k => { k.setReg 30 v with ien := st.getLsbD 0, hnd := st.getLsbD 1 })
  d.completeAt c pc (if st.getLsbD 2 then some (bits st.toNat 3 5, (d.coreAt c).slotOld) else none)

theorem kRetx_of_pops {w : W} {a b : Nat} {ret st : Word} (ha : ((w.d.coreAt c).src 30).toNat = a) (hb : (a + 4) % 2 ^ 32 = b)
    (hret : w.kPop c a = .ok ret) (hst : w.kPop c b = .ok st) :
    kRetx c i w = w.dev (fun d => d.retx c (ret.toNat / 4 * 4) st (BitVec.ofNat 32 (b + 4))) := by
  unfold kRetx
  dsimp only
  rw [ha, hb, hret, hst]
  rfl

theorem Dev.retx_spec (d : Dev) (c pc : Nat) (st v : Word) : ∃ k', (d.retx c pc st v).coreAt c = k' ∧ k'.pc = pc ∧ k'.ien = st.getLsbD 0 ∧
    k'.hnd = st.getLsbD 1 ∧ ∀ r, k'.reg r = if r = 30 then v else (d.coreAt c).reg r := by
  obtain ⟨k', hk, hdone⟩ := (d.onCore c fun k => { k.setReg 30 v with ien := st.getLsbD 0, hnd := st.getLsbD 1 }).completeAt_oneCore c pc
    (if st.getLsbD 2 then some (bits st.toNat 3 5,
      ((d.onCore c fun k => { k.setReg 30 v with ien := st.getLsbD 0, hnd := st.getLsbD 1 }).coreAt c).slotOld) else none)
  rw [Dev.coreAt_onCore_self] at hk
  have hreg : ∀ r, k'.reg r = ((d.coreAt c).setReg 30 v).reg r := by
    obtain ⟨_, _, _, _, _, rfl⟩ := hk
    exact fun r => rfl
  refine ⟨k', hdone.self, ?_, ?_, ?_, fun r => ?_⟩
  · obtain ⟨_, _, _, _, _, rfl⟩ := hk
    rfl
  · obtain ⟨_, _, _, _, _, rfl⟩ := hk
    rfl
  · obtain ⟨_, _, _, _, _, rfl⟩ := hk
    rfl
  · rw [hreg, Core.reg_setReg]
    by_cases hr : r = 30
    case pos => rw [if_pos hr, if_pos ⟨hr, by omega⟩]
    case neg => rw [if_neg hr, if_neg fun h => hr h.1]

theorem Dev.kIs_kSet (d : Dev) (c : Nat) (k : KState) : (d.kSet c k).kIs c k = true := by
  rw [Dev.kIs, Dev.kSet, Dev.fd_sf_self (by decide), beq_iff_eq]
  cases k <;> rfl

/-- Releasing the groups held moves no core and no register of the core's block. -/
theorem Dev.releaseGroups_frame (d : Dev) {c a : Nat} (ha : a = Reg.KC_STAT c) :
    (d.releaseGroups c).rg a = d.rg a ∧ (d.releaseGroups c).core = d.core := by
  have key : ∀ (l : List Nat) (d : Dev),
      (l.foldl (fun d g => if (Tab.at {} (d.intcAt c).groups g).held then d.setGroup c g {} else d) d).rg a = d.rg a ∧
      (l.foldl (fun d g => if (Tab.at {} (d.intcAt c).groups g).held then d.setGroup c g {} else d) d).core = d.core := by
    intro l
    induction l with
    | nil => exact fun d => ⟨rfl, rfl⟩
    | cons g l ih =>
      intro d
      obtain ⟨hrg, hcore⟩ := ih (if (Tab.at {} (d.intcAt c).groups g).held then d.setGroup c g {} else d)
      have hstep : (if (Tab.at {} (d.intcAt c).groups g).held then d.setGroup c g {} else d).rg a = d.rg a ∧
          (if (Tab.at {} (d.intcAt c).groups g).held then d.setGroup c g {} else d).core = d.core := by
        split
        · refine ⟨(Dev.rg_pb_of_ne _ _ ?_).trans rfl, rfl⟩
          rw [ha]
          unfold Reg.INTC_MOD Reg.KC_STAT
          omega
        · exact ⟨rfl, rfl⟩
      exact ⟨hrg.trans hstep.1, hcore.trans hstep.2⟩
  exact key (List.range 32) d

/-- A core that sleeps is idle at its WFI. -/
theorem Dev.sleepCore_spec (d : Dev) (c : Nat) : (d.sleepCore c).kIs c .idle = true ∧ (d.sleepCore c).coreAt c = d.coreAt c := by
  obtain ⟨hrg, hcore⟩ := (d.kSet c .idle).releaseGroups_frame (c := c) rfl
  have hidle : ((d.kSet c .idle).releaseGroups c).kIs c .idle = true := by
    unfold Dev.kIs Dev.fd
    rw [hrg]
    exact d.kIs_kSet c .idle
  have hat : ((d.kSet c .idle).releaseGroups c).coreAt c = d.coreAt c := by
    rw [Dev.coreAt, hcore]
    rfl
  unfold Dev.sleepCore
  dsimp only
  generalize (d.kSet c .idle).releaseGroups c = x at hidle hat ⊢
  split
  · exact ⟨hidle, hat⟩
  · exact ⟨hidle, hat⟩

end

/-- Settles O27: each system instruction has one lemma above for what it leaves. -/
theorem coreSystemInstructions : Obligations.CoreSystemInstructions := by
  intro s c i h k sp up
  refine ⟨fun hop v hv => ?_, fun hop hv => ?_, fun hop v hv => ?_, fun hop hv => ?_, fun hop hfn h1 h2 hb1 hb2 => ?_, fun hop hfn hline => ?_,
    fun hop hfn hline hhalt => ?_, fun hop hfn => ?_, fun hop hfn harm => ?_⟩
  · refine h.exec_dev (f := kCsrr) (isOp_of hop) ?_
    unfold kCsrr
    rw [State.ctx_d, hv]
    exact W.dev_dev _ _ _
  · refine (h.exec (f := kCsrr) (isOp_of hop)).trans (State.next_afterRun_congr ?_)
    unfold kCsrr
    rw [State.ctx_d, hv]
  · obtain ⟨e, he, k', hone, hpc, hcsr, hreg⟩ := kCsrw_dev (i := i) hv s.ctx rfl
    refine ⟨_, h.exec_dev (f := kCsrw) (isOp_of hop) he, rfl, ?_⟩
    rw [State.afterDev_d, hone.self]
    refine ⟨hpc, fun hmem => hcsr _ ?_, hreg, hone.rg⟩
    rintro h11
    rw [h11] at hmem
    exact absurd hmem (by decide)
  · refine (h.exec (f := kCsrw) (isOp_of hop)).trans (State.next_afterRun_congr ?_)
    unfold kCsrw
    dsimp only
    rw [State.ctx_d, hv]
  · have hret := W.kPop_of_room (w := s.ctx) h1 hb1
    have hst := W.kPop_of_room (w := s.ctx) h2 hb2
    have hsp : ((s.ctx.d.coreAt c).src 30).toNat = sp := rfl
    have hup : (sp + 4) % 2 ^ 32 = up := rfl
    clear_value sp up
    obtain ⟨k', hself, hspec⟩ := s.d.retx_spec c ((s.ctx.tcmWord c sp).toNat / 4 * 4) (s.ctx.tcmWord c up) (BitVec.ofNat 32 (up + 4))
    refine ⟨_, h.exec_dev (f := kRetx) (isOpFn_of hop hfn) (kRetx_of_pops hsp hup hret hst), rfl, ?_⟩
    rw [State.afterDev_d, hself]
    exact hspec
  · exact h.exec_dev (f := kWfi) (isOpFn_of hop hfn) rfl |>.trans (State.next_afterDev_congr (if_pos hline))
  · obtain ⟨hidle, hat⟩ := s.d.sleepCore_spec c
    refine ⟨_, h.exec_dev (f := kWfi) (isOpFn_of hop hfn) rfl |>.trans (State.next_afterDev_congr (g := fun d => d.sleepCore c) ?_), rfl,
      hidle, congrArg Core.pc hat⟩
    dsimp only
    rw [hline, if_neg (by decide)]
    exact if_neg (by rw [hhalt]; decide)
  · refine (h.exec_dev (f := kFence) (isOpFn_of hop hfn) rfl).trans (State.next_afterDev_congr ?_)
    simp only [List.isEmpty_iff]
    rfl
  · obtain ⟨k', hk, hhalt⟩ := (s.d.onCore c (fun k => { k with pc := nextPc k.pc, slot := none, ienHold := false })).haltCore_oneCore c 3
    refine ⟨_, h.exec_dev (f := kBreak) (isOpFn_of hop hfn) (if_pos harm), rfl, Dev.kIs_kSet _ c .halted, ?_, ?_⟩
    · rw [State.afterDev_d, Dev.haltCore, Dev.coreAt_onCore_self]
    · rw [State.afterDev_d, hhalt.self]
      rw [Dev.coreAt_onCore_self] at hk
      obtain ⟨_, _, _, _, _, rfl⟩ := hk
      rfl

/-! ### Table look-up (R383) -/

section
variable {c : Nat}

theorem leNat_lt : ∀ l : List Byte, leNat l < 256 ^ l.length
  | [] => Nat.one_pos
  | b :: l => by
    have hb : b.toNat < 256 := b.isLt
    have hl := leNat_lt l
    rw [leNat, List.length_cons, Nat.pow_succ]
    omega

/-- An entry takes all of its bytes. -/
theorem tliEntry_leNat {f : Nat} {l : List Byte} (h : l.length = tliSize f) :
    tliEntry f (leNat l) = if f = 0 ∨ f = 2 then (leNat l : Int) else signed (8 * tliSize f) (leNat l) := by
  have hlt : leNat l < 2 ^ (8 * tliSize f) := by
    have := leNat_lt l
    rwa [h, show (256 : Nat) = 2 ^ 8 from rfl, ← Nat.pow_mul] at this
  rw [tliEntry, Nat.mod_eq_of_lt hlt]

/-- A word of the TCMs is read at once. -/
theorem Dev.tliNow_of_tcm {d : Dev} {a b f : Nat} (h : d.coreTarget c a (tliSize f) = .tcm b) : d.tliNow c a f = true := by
  rw [Dev.tliNow, Dev.winWaits_of_tcm h, h]
  rfl

theorem W.coreRead_tcm {w : W} {a b n : Nat} (h : w.d.coreTarget c a n = .tcm b) (hbad : w.d.badWords.contains (tcmKey c b) = false) :
    w.coreRead c a n = (w, .ok (w.rdN .tcm (tcmAddr c b) n)) := by
  unfold W.coreRead
  rw [h]
  dsimp only
  rw [hbad]
  rfl

theorem kTli_of_tcm {w : W} {i : Word} {f base index a0 a1 b0 b1 : Nat} (hf : bits i.toNat 0 3 = f) (hill : kIllegal i = false)
    (hbase : ((w.d.coreAt c).src (kRs1 i)).toNat = base) (hindex : ((w.d.coreAt c).src (kRs2 i)).toNat = index)
    (hal : base % tliSize f = 0) (ha0 : (tliAddrs base index f).1 = a0) (ha1 : (tliAddrs base index f).2 = a1)
    (h0 : w.d.coreTarget c a0 (tliSize f) = .tcm b0) (h1 : w.d.coreTarget c a1 (tliSize f) = .tcm b1)
    (hb0 : w.d.badWords.contains (tcmKey c b0) = false) (hb1 : w.d.badWords.contains (tcmKey c b1) = false) :
    kTli c i w = w.dev (fun d => d.loadDone c (kRd i) (tliValue (tliEntry f (w.rdN .tcm (tcmAddr c b0) (tliSize f)))
      (tliEntry f (w.rdN .tcm (tcmAddr c b1) (tliSize f))) (index % 65536))) := by
  unfold kTli
  dsimp only
  rw [hf, hbase, hindex, hill, ha0, Dev.tliNow_of_tcm h0, W.coreRead_tcm h0 hb0, if_neg (by decide), if_neg (Classical.not_not.mpr hal), if_pos rfl]
  dsimp only
  unfold W.tliSecond
  dsimp only
  rw [ha1, Dev.tliNow_of_tcm h1, W.coreRead_tcm h1 hb1, if_pos rfl]
  rfl

end

/-- Settles O28: a reserved format and a misaligned base are refused; entries in the TCMs are read and interpolated at once. -/
theorem coreTableLookUp : Obligations.CoreTableLookUp := by
  intro s c i h k fmt base y size a0 a1 entry hop
  have his : isOp 0x1F i = true := isOp_of hop
  have hill : kIllegal i = decide (5 ≤ fmt) := by
    unfold kIllegal
    rw [hop]
    rfl
  refine ⟨fun hf => ?_, fun hf hal => ?_, fun b0 b1 hf hal h0 h1 hb0 hb1 => ?_⟩
  · refine (h.exec (f := kTli) his).trans (State.next_afterRun_congr ?_)
    unfold kTli
    dsimp only
    rw [hill, if_pos (decide_eq_true hf)]
  · refine (h.exec (f := kTli) his).trans (State.next_afterRun_congr ?_)
    unfold kTli
    dsimp only
    rw [hill, if_neg (by simpa using hf)]
    exact if_pos hal
  · have hentry : ∀ b, tliEntry fmt (s.ctx.rdN .tcm (tcmAddr c b) size) = entry b := fun b => by
      rw [s.ctx_rdN (by decide)]
      exact tliEntry_leNat (by rw [List.length_map, List.length_range]; rfl)
    have heff := kTli_of_tcm (w := s.ctx) rfl (hill.trans (decide_eq_false (Nat.not_le.mpr hf))) rfl rfl hal rfl rfl h0 h1 hb0 hb1
    refine ⟨_, h.exec_dev (f := kTli) his heff, rfl, ?_⟩
    rw [← hentry b0, ← hentry b1]
    exact State.retires_afterDev (Dev.retires_loadDone s.d c (kRd i) _)

end Sys2Proof.Machine
end

section
/-!
PROOFS. Controllers, timers and virtual terminals (O30, O32, O34).
-/

namespace Sys2Proof.Machine

theorem State.afterDev_of_fixed {s : State} {f : Dev → Dev} (h : f s.d = s.d) : s.afterDev f = s :=
  State.afterDev_congr (g := fun d => d) h

/-! ### The end of a claim, and the clearing of counts (R397, R400) -/

section
variable {ag : Agent} {c j : Nat} {v : Word} {w : W}

theorem W.busWrite_INTC_COMPLETE (hc : c < 4) : w.busWrite ag (Reg.INTC_COMPLETE c) v 0xFFFFFFFF =
    w.dev (fun d => if c = 3 ∧ ag ≠ .core 3 then d else intcComplete ag c v d) := by
  rw [W.busWrite_intc _ _ _ _ hc (by unfold Reg.INTC_COMPLETE; omega) (by unfold Reg.INTC_COMPLETE; omega)]
  refine congrArg w.dev (funext fun d => ?_)
  rw [Dev.intcWrite, if_neg (c := Reg.INTC_COMPLETE c = _) (by unfold Reg.INTC_COMPLETE Reg.INTC_CTRL; omega), if_pos rfl, and_ones]

theorem W.busWrite_INTC_PEND (hc : c < 4) (hj : j < 16) : w.busWrite ag (Reg.INTC_PEND c j) v 0xFFFFFFFF =
    w.dev (fun d => if c = 3 ∧ ag ≠ .core 3 then d else intcPendClear c j v d) := by
  rw [W.busWrite_intc _ _ _ _ hc (by unfold Reg.INTC_PEND; omega) (by unfold Reg.INTC_PEND; omega)]
  refine congrArg w.dev (funext fun d => ?_)
  have hword : (Reg.INTC_PEND c j - Reg.INTC_PEND c 0) / 4 = j := by unfold Reg.INTC_PEND; omega
  rw [Dev.intcWrite, if_neg (c := Reg.INTC_PEND c j = _) (by unfold Reg.INTC_PEND Reg.INTC_CTRL; omega),
    if_neg (c := Reg.INTC_PEND c j = _) (by unfold Reg.INTC_PEND Reg.INTC_COMPLETE; omega),
    if_pos (c := Reg.INTC_PEND c 0 ≤ _ ∧ _) (by unfold Reg.INTC_PEND; omega), hword, and_ones]

theorem ownerIs_core_iff (ag : Agent) (c : Nat) : ownerIs ag (c + 1) = true ↔ ag = .core c ∨ ag = .dbg := by
  cases ag with
  | host => simp [ownerIs]
  | core n =>
    simp only [ownerIs, beq_iff_eq, Agent.core.injEq, reduceCtorEq, or_false, Nat.add_right_cancel_iff]
    exact eq_comm
  | dbg => simp [ownerIs]
  | device => simp [ownerIs]

/-- A table in which the keys of the set bits of a word have been put to 0. -/
theorem Tab.at_clearCounts (v : Word) (j y : Nat) (l : List Nat) (t : Tab Nat) :
    Tab.at 0 (l.foldl (fun t k => if v.getLsbD k then Tab.put 0 t (32 * j + k) 0 else t) t) y =
      if ∃ k ∈ l, v.getLsbD k = true ∧ 32 * j + k = y then 0 else Tab.at 0 t y := by
  induction l generalizing t with
  | nil => simp
  | cons k l ih =>
    rw [List.foldl_cons, ih]
    by_cases hv : v.getLsbD k = true
    · rw [if_pos hv, Tab.get_put]
      by_cases hk : 32 * j + k = y <;> simp [hv, hk]
    · rw [if_neg hv]
      simp [hv]

theorem intcPendClear_count (d : Dev) (y : Nat) : Tab.at 0 ((intcPendClear c j v d).intcAt c).count y =
    if y / 32 = j ∧ v.getLsbD (y % 32) = true then 0 else Tab.at 0 (d.intcAt c).count y := by
  rw [intcPendClear, Dev.intcAt_onIntc, if_pos rfl, Tab.at_clearCounts]
  refine ite_congr (propext ⟨?_, fun ⟨hy, hv⟩ => ?_⟩) (fun _ => rfl) fun _ => rfl
  · rintro ⟨k, hk, hv, rfl⟩
    have hk := List.mem_range.mp hk
    rw [Nat.mul_add_mod, Nat.mod_eq_of_lt hk]
    exact ⟨by omega, hv⟩
  · exact ⟨y % 32, List.mem_range.mpr (Nat.mod_lt _ (by decide)), hv, by omega⟩

end

/-- Settles O30: the gate of KC3's controller, then the owner and the number that the write names. -/
theorem interruptCompletion : Obligations.InterruptCompletion := by
  intro s ag c j v hup hag hc hj
  have hcomplete : exec (.intcComplete ag c v) s =
      .next (s.afterDev (fun d => if c = 3 ∧ ag ≠ .core 3 then d else intcComplete ag c v d)) :=
    need_busSet hup ⟨hag, hc⟩ (W.busWrite_INTC_COMPLETE hc)
  have hclear : exec (.intcPendClear ag c j v) s =
      .next (s.afterDev (fun d => if c = 3 ∧ ag ≠ .core 3 then d else intcPendClear c j v d)) :=
    need_busSet hup ⟨hag, hc, hj⟩ (W.busWrite_INTC_PEND hc hj)
  refine ⟨fun howner => ?_, fun hother => ?_, fun hgate => ?_, fun h3 hne => ?_⟩
  · have hgate : ¬(c = 3 ∧ ag ≠ .core 3) := by
      rintro ⟨rfl, hne⟩
      obtain h | ⟨-, h⟩ := howner
      · exact hne h
      · exact h rfl
    have hown : ownerIs ag (c + 1) = true := (ownerIs_core_iff ag c).mpr (howner.imp_right And.left)
    have hgoes : ∀ f : Dev → Dev, (if (s.d.intcAt c).active = some (v.toNat % 1024) then s.d.onIntc c (fun i => { i with active := none })
        else s.d.sb (Reg.INTC_STAT c) 2) = f s.d → exec (.intcComplete ag c v) s = .next (s.afterDev f) := fun f hf => by
      refine hcomplete.trans (State.next_afterDev_congr ?_)
      rw [if_neg hgate, intcComplete, hown]
      exact hf
    refine ⟨fun hact => ?_, fun hact => hgoes _ (if_neg hact)⟩
    refine ⟨_, hgoes (fun d => d.onIntc c (fun i => { i with active := none })) (if_pos hact), ⟨rfl, rfl, fun _ _ => rfl⟩, rfl, ?_, fun c' hne => ?_⟩
    · rw [State.afterDev_d, Dev.intcAt_onIntc, if_pos rfl]
    · rw [State.afterDev_d, Dev.intcAt_onIntc, if_neg hne.symm]
  · obtain ⟨hcore, hdbg⟩ := hother
    refine hcomplete.trans (congrArg _ (State.afterDev_of_fixed ?_))
    by_cases hgate : c = 3 ∧ ag ≠ .core 3
    case pos => exact if_pos hgate
    case neg =>
      have hown : ownerIs ag (c + 1) = false := by
        rw [Bool.eq_false_iff, ne_eq, ownerIs_core_iff]
        rintro (h | h)
        · exact hcore h
        · exact hgate ⟨hdbg.resolve_left (fun hn => hn h), fun h3 => by rw [h] at h3; cases h3⟩
      rw [if_neg hgate, intcComplete, hown]
      rfl
  · have hgate : ¬(c = 3 ∧ ag ≠ .core 3) := fun ⟨h3, hne⟩ => hgate.elim (fun h => h h3) hne
    refine ⟨_, hclear.trans (State.next_afterDev_congr (g := intcPendClear c j v) (if_neg hgate)), ⟨rfl, rfl, fun _ _ => rfl⟩, rfl, ?_,
      fun y => ?_, fun c' hne => ?_⟩
    · rw [State.afterDev_d, intcPendClear, Dev.intcAt_onIntc, if_pos rfl]
    · rw [State.afterDev_d, intcPendClear_count]
    · rw [State.afterDev_d, intcPendClear, Dev.intcAt_onIntc, if_neg hne.symm]
  · exact hclear.trans (congrArg _ (State.afterDev_of_fixed (if_pos ⟨h3, hne⟩)))

/-! ### Timer channels (R408, R412) -/

section
variable {ag : Agent} {c : Nat} {v : Word} {w : W}

theorem Dev.tmrAt_of_onTmr {d e : Dev} {f : TmrCh → TmrCh} (h : e.tmr = (d.onTmr c f).tmr) (c' : Nat) :
    e.tmrAt c' = if c = c' then f (d.tmrAt c) else d.tmrAt c' := by
  rw [Dev.tmrAt, h]
  exact Dev.tmrAt_onTmr _ _ _ _

theorem W.busWrite_TMR_CMP_HI (hc : c < 16) : w.busWrite ag (Reg.TMR_CMP_HI c) v 0xFFFFFFFF = w.dev (cmpArm c v) := by
  rw [W.busWrite_tmr _ _ _ _ (by unfold Reg.TMR_CMP_HI; omega) (by unfold Reg.TMR_CMP_HI; omega)]
  refine congrArg w.dev (funext fun d => ?_)
  have hch : (Reg.TMR_CMP_HI c - 0x1400100) / 0x40 = c := by unfold Reg.TMR_CMP_HI; omega
  rw [Dev.tmrWrite, if_neg (c := Reg.TMR_CMP_HI c = _) (by unfold Reg.TMR_CMP_HI Reg.TMR_CTRL; omega),
    if_pos (by unfold Reg.TMR_CMP_HI; omega), hch, mergeWord_ones]

theorem Dev.rg_cmpArm (d : Dev) (a : Nat) : (cmpArm c v d).rg a =
    if Reg.TMR_CH_CTRL c = a then d.rg (Reg.TMR_CH_CTRL c) ||| 1 else if Reg.TMR_CMP_HI c = a then v else d.rg a := by
  have hne : Reg.TMR_CMP_HI c ≠ Reg.TMR_CH_CTRL c := by unfold Reg.TMR_CMP_HI Reg.TMR_CH_CTRL; omega
  rw [cmpArm, Dev.rg_sb, Dev.rg_onTmr, Dev.rg_onTmr, Dev.rg_sg_of_ne _ _ _ _ hne, Dev.rg_sg]
  rfl

theorem Dev.tmrAt_cmpArm (d : Dev) (c' : Nat) : (cmpArm c v d).tmrAt c' =
    if c = c' then { d.tmrAt c with armed := true, cmp := (d.rg (Reg.TMR_CMP_LO c)).toNat + v.toNat * 2 ^ 32 } else d.tmrAt c' := by
  have hne : Reg.TMR_CMP_HI c ≠ Reg.TMR_CMP_LO c := by unfold Reg.TMR_CMP_HI Reg.TMR_CMP_LO; omega
  have hpair : (d.sg (Reg.TMR_CMP_HI c) v).pair (Reg.TMR_CMP_LO c) (Reg.TMR_CMP_HI c) =
      (d.rg (Reg.TMR_CMP_LO c)).toNat + v.toNat * 2 ^ 32 := by
    rw [Dev.pair, Dev.rg_sg_of_ne _ _ _ _ hne, Dev.rg_sg_self]
  unfold cmpArm
  dsimp only
  rw [hpair]
  refine Dev.tmrAt_of_onTmr (f := fun t => { t with armed := true, cmp := (d.rg (Reg.TMR_CMP_LO c)).toNat + v.toNat * 2 ^ 32 }) ?_ c'
  rfl

end

/-- Settles O32: the arm writes two registers and the channel, a read of the queue its head's high half. -/
theorem timerCompareAndCapture : Obligations.TimerCompareAndCapture := by
  intro s ag c v hup hag hc
  have harm : exec (.cmpArm ag c v) s = .next (s.afterDev (cmpArm c v)) := need_busSet hup ⟨hag, hc⟩ (W.busWrite_TMR_CMP_HI hc)
  have hread : exec (.tmrCapLoRead ag c) s = .next (s.afterDev (tmrCapRead c)) := need_busGet hup ⟨hag, hc⟩ (W.busRead_TMR_CAP_LO _ _ hc)
  have hne : Reg.TMR_CH_CTRL c ≠ Reg.TMR_CMP_HI c := by unfold Reg.TMR_CMP_HI Reg.TMR_CH_CTRL; omega
  refine ⟨⟨_, harm, ⟨rfl, rfl, fun a ha => ?_⟩, rfl, ?_, ?_, ?_, fun c' hc' => ?_⟩, fun x l hcaps => ?_, fun hcaps => ?_⟩
  · simp only [List.mem_cons, List.not_mem_nil, or_false, not_or] at ha
    rw [State.afterDev_d, Dev.rg_cmpArm, if_neg (Ne.symm ha.2), if_neg (Ne.symm ha.1)]
  · rw [State.afterDev_d, Dev.rg_cmpArm, if_neg hne, if_pos rfl]
  · rw [State.afterDev_d, Dev.rg_cmpArm, if_pos rfl]
  · rw [State.afterDev_d, Dev.tmrAt_cmpArm, if_pos rfl]
  · rw [State.afterDev_d, Dev.tmrAt_cmpArm, if_neg hc'.symm]
  · have hpop : tmrCapRead c s.d = { ((s.d.onTmr c (fun t => { t with caps := l })).sf (Reg.TMR_CH_STAT c) 2 3 l.length).sg (Reg.TMR_CAP_HI c)
        (BitVec.ofNat 32 (x / 2 ^ 32)) with rdata := BitVec.ofNat 32 x } := by
      unfold tmrCapRead
      rw [hcaps]
    have hch : ∀ c', (tmrCapRead c s.d).tmrAt c' = if c = c' then { s.d.tmrAt c with caps := l } else s.d.tmrAt c' := fun c' => by
      rw [hpop]
      refine Dev.tmrAt_of_onTmr (f := fun t => { t with caps := l }) ?_ c'
      rfl
    rw [hpop] at hch
    refine ⟨_, hread.trans (State.next_afterDev_congr (g := fun d => { ((d.onTmr c (fun t => { t with caps := l })).sf
      (Reg.TMR_CH_STAT c) 2 3 l.length).sg (Reg.TMR_CAP_HI c) (BitVec.ofNat 32 (x / 2 ^ 32)) with rdata := BitVec.ofNat 32 x }) hpop),
      ⟨rfl, rfl, fun a ha => ?_⟩, rfl, rfl, Dev.rg_sg_self .., ?_, fun c' hc' => ?_⟩
    · simp only [List.mem_cons, List.not_mem_nil, or_false, not_or] at ha
      exact (Dev.rg_sg_of_ne _ _ _ _ (Ne.symm ha.1)).trans (Dev.rg_sg_of_ne _ _ _ _ (Ne.symm ha.2))
    · exact (hch _).trans (if_pos rfl)
    · exact (hch _).trans (if_neg hc'.symm)
  · have hempty : tmrCapRead c s.d = { (s.d.sg (Reg.TMR_CAP_HI c) 0) with rdata := 0 } := by
      unfold tmrCapRead
      rw [hcaps]
    refine ⟨_, hread.trans (State.next_afterDev_congr (g := fun d => { (d.sg (Reg.TMR_CAP_HI c) 0) with rdata := 0 }) hempty),
      ⟨rfl, rfl, fun a ha => ?_⟩, rfl, Dev.rg_sg_self .., rfl⟩
    exact Dev.rg_sg_of_ne _ _ _ _ (List.ne_of_not_mem_cons ha).symm

/-! ### Virtual terminals (R587) -/

section
variable {d : Dev} {c : Nat}

theorem bits_fieldWord_of_disjoint {v : Word} {lo n lo' n' x : Nat} (h : lo + n ≤ lo' ∨ lo' + n' ≤ lo) (hlo : lo + n ≤ 32) :
    bits (fieldWord v lo' n' x).toNat lo n = bits v.toNat lo n := by
  refine Nat.eq_of_testBit_eq fun i => ?_
  rw [testBit_bits, testBit_bits]
  by_cases hi : i < n
  case pos =>
    rw [BitVec.testBit_toNat, BitVec.testBit_toNat, getLsbD_fieldWord _ _ _ _ _ (by omega)]
    split
    · rfl
    · rw [if_neg (by omega)]
  case neg => simp [hi]

theorem Dev.fd_sf_of_disjoint {a lo n lo' n' x : Nat} (h : lo + n ≤ lo' ∨ lo' + n' ≤ lo) (hlo : lo + n ≤ 32) :
    (d.sf a lo' n' x).fd a lo n = d.fd a lo n := by
  rw [Dev.fd, Dev.sf, Dev.rg_sg_self]
  exact bits_fieldWord_of_disjoint h hlo

/-- After a change of core `c`'s FIFOs, DBG_VT_STAT shows the two levels. -/
theorem State.vtShown {s : State} {f : Core → Core} {e : Dev} (he : ∀ a, e.rg a = s.d.rg a) (hcore : e.core = s.d.core)
    {g : Dev → Dev} (hg : g s.d = (e.onCore c f).vtShow c) :
    s.onlyRegs (s.afterDev g) [Reg.DBG_VT_STAT c] ∧ (s.afterDev g).d.coreAt c = f (s.d.coreAt c) ∧
      (s.afterDev g).d.fd (Reg.DBG_VT_STAT c) 0 5 = (f (s.d.coreAt c)).vtTx.length % 32 ∧
      (s.afterDev g).d.fd (Reg.DBG_VT_STAT c) 8 5 = (f (s.d.coreAt c)).vtRx.length % 32 ∧
      ∀ c', c' ≠ c → (s.afterDev g).d.coreAt c' = s.d.coreAt c' := by
  have hat : ∀ c, e.coreAt c = s.d.coreAt c := fun c => congrArg (fun t => Tab.at ({} : Core) t c) hcore
  have hshow : ∀ c', ((e.onCore c f).vtShow c).coreAt c' = (e.onCore c f).coreAt c' := fun _ => rfl
  refine ⟨⟨rfl, rfl, fun a ha => ?_⟩, ?_, ?_, ?_, fun c' hc' => ?_⟩
  · have ha := (List.ne_of_not_mem_cons ha).symm
    rw [State.afterDev_d, hg, Dev.vtShow, Dev.rg_sf, if_neg ha, Dev.rg_sf, if_neg ha, Dev.rg_onCore, he]
  · rw [State.afterDev_d, hg, hshow, Dev.coreAt_onCore_self, hat]
  · rw [State.afterDev_d, hg, Dev.vtShow, Dev.fd_sf_of_disjoint (by decide) (by decide), Dev.coreAt_onCore_self, hat]
    exact Dev.fd_sf_self (by decide)
  · rw [State.afterDev_d, hg, Dev.vtShow, Dev.coreAt_onCore_self, hat]
    exact Dev.fd_sf_self (by decide)
  · rw [State.afterDev_d, hg, hshow, Dev.coreAt_onCore_of_ne _ _ hc', hat]

end

/-- Settles O34: every write that has room and every read changes one FIFO and shows the levels. -/
theorem virtualTerminals : Obligations.VirtualTerminals := by
  intro s c v hup hc k goes
  have hgo : ∀ {cmd : Instr} {g : Dev → Dev} {f : Core → Core} {e : Dev}, exec cmd s = need (c < 4) (s.coreDev g) →
      (∀ a, e.rg a = s.d.rg a) → e.core = s.d.core → g s.d = (e.onCore c f).vtShow c → goes cmd (f k) := by
    intro cmd g f e hcmd he hcore hg
    exact ⟨_, hcmd.trans (need_coreDev hup hc), State.vtShown he hcore hg⟩
  refine ⟨fun hroom => ?_, fun hfull => ?_, fun hroom => ?_, fun hfull => ?_, ?_, ?_, ⟨_, need_coreDev hup hc, rfl⟩,
    ⟨_, need_coreDev hup hc, rfl⟩⟩
  · exact hgo (f := fun k => { k with vtTx := k.vtTx ++ [v] }) rfl (fun _ => rfl) rfl (if_neg (Nat.not_le.mpr hroom))
  · exact (need_coreDev hup hc).trans (State.next_afterDev_congr (if_pos hfull))
  · exact hgo (f := fun k => { k with vtRx := k.vtRx ++ [v] }) rfl (fun _ => rfl) rfl (if_neg (Nat.not_le.mpr hroom))
  · exact (need_coreDev hup hc).trans (State.next_afterDev_congr (if_pos hfull))
  · exact hgo (f := fun k => { k with vtTx := k.vtTx.drop 1 }) (e := { s.d with rdata := k.vtTx.headD 0 }) rfl (fun _ => rfl) rfl rfl
  · exact hgo (f := fun k => { k with vtRx := k.vtRx.drop 1 }) (e := { s.d with rdata := k.vtRx.headD 0 }) rfl (fun _ => rfl) rfl rfl

end Sys2Proof.Machine
end

section
/-!
PROOFS. DMA channels (O35, O36).
-/

namespace Sys2Proof.Machine

/-! ### The start of a channel (R414 to R416) -/

section
variable {d : Dev} {ag : Agent} {ch : Nat}

theorem W.dev_congr {w : W} {f g : Dev → Dev} (h : f w.d = g w.d) : w.dev f = w.dev g := by rw [W.dev, h, W.dev]

theorem W.busWrite_DMA_CH_CMD (w : W) (hch : ch < 32) : w.busWrite ag (Reg.DMA_CH_CMD ch) 1 0xFFFFFFFF =
    w.dev (fun d => if ownerIs ag (d.dmaOwner ch) then (if (d.dmaAt ch).busy then d.sb Reg.DMA_STAT 2 else d.dmaStart ch)
      else d.sb Reg.DMA_STAT 1) := by
  have hlo : 0x1410100 ≤ Reg.DMA_CH_CMD ch := by unfold Reg.DMA_CH_CMD; omega
  have hhi : Reg.DMA_CH_CMD ch < 0x1410900 := by unfold Reg.DMA_CH_CMD; omega
  have hdiv : (Reg.DMA_CH_CMD ch - 0x1410100) / 0x40 = ch := by unfold Reg.DMA_CH_CMD; omega
  rw [W.busWrite_dma _ _ _ _ (by omega) (by omega), W.dmaWrite, if_pos ⟨hlo, hhi⟩, hdiv, chWrite, and_ones]
  by_cases hmine : ownerIs ag (w.d.dmaOwner ch) = true
  case pos =>
    rw [hmine, if_neg (by decide)]
    dsimp only
    rw [if_pos rfl, if_neg (by decide), if_pos (by decide)]
    exact W.dev_congr (if_pos hmine).symm
  case neg =>
    rw [Bool.eq_false_iff.mpr hmine, if_pos (by decide)]
    exact W.dev_congr (if_neg hmine).symm

/-- The start of a channel whose checks pass, before its registers are shown. -/
def Dev.dmaBegun (d : Dev) (ch src dst n : Nat) : Dev :=
  (d.sf (Reg.DMA_CH_STAT ch) 4 3 0).onDma ch (fun _ => { busy := true, src := src, dst := dst, remain := n, startAt := d.cclks })

theorem Dev.dmaStart_of_refused {cause : Nat}
    (h : d.dmaCause ch (d.pair (Reg.DMA_SRC_LO ch) (Reg.DMA_SRC_HI ch)) (d.pair (Reg.DMA_DST_LO ch) (Reg.DMA_DST_HI ch))
      (d.rg (Reg.DMA_COUNT ch)).toNat = cause) (hc : cause ≠ 0) :
    d.dmaStart ch = ((d.sb (Reg.DMA_CH_STAT ch) 3).sf (Reg.DMA_CH_STAT ch) 4 3 cause).raiseIf (d.bt (Reg.DMA_CH_CFG ch) 6) (272 + ch) := by
  have hcfg : ((d.sb (Reg.DMA_CH_STAT ch) 3).sf (Reg.DMA_CH_STAT ch) 4 3 cause).bt (Reg.DMA_CH_CFG ch) 6 = d.bt (Reg.DMA_CH_CFG ch) 6 := by
    have hne : Reg.DMA_CH_STAT ch ≠ Reg.DMA_CH_CFG ch := by unfold Reg.DMA_CH_STAT Reg.DMA_CH_CFG; omega
    rw [Dev.bt_sf_of_ne _ _ _ _ _ hne, Dev.bt, Dev.rg_sb, if_neg hne, Dev.bt]
  unfold Dev.dmaStart
  dsimp only
  rw [h, if_pos hc, Dev.dmaRaise, hcfg]

theorem Dev.dmaStart_of_accepted {src dst n : Nat} (hsrc : d.pair (Reg.DMA_SRC_LO ch) (Reg.DMA_SRC_HI ch) = src)
    (hdst : d.pair (Reg.DMA_DST_LO ch) (Reg.DMA_DST_HI ch) = dst) (hn : (d.rg (Reg.DMA_COUNT ch)).toNat = n)
    (h : d.dmaCause ch src dst n = 0) (h0 : n ≠ 0) : d.dmaStart ch = (d.dmaBegun ch src dst n).dmaShow ch := by
  unfold Dev.dmaStart
  dsimp only
  rw [hsrc, hdst, hn, h, if_neg (Classical.not_not.mpr rfl), if_neg h0]
  rfl

/-- The halves of a 64-bit address, written back, are the registers that hold it. -/
theorem Dev.halves_pair (d : Dev) (lo hi : Nat) :
    BitVec.ofNat 32 (d.pair lo hi) = d.rg lo ∧ BitVec.ofNat 32 (d.pair lo hi / 2 ^ 32) = d.rg hi := by
  have hlo := (d.rg lo).isLt
  have hhi := (d.rg hi).isLt
  unfold Dev.pair
  constructor
  · refine BitVec.eq_of_toNat_eq ?_
    rw [BitVec.toNat_ofNat]
    omega
  · refine BitVec.eq_of_toNat_eq ?_
    rw [BitVec.toNat_ofNat]
    omega


theorem Dev.dmaShow_eq {c : DmaCh} (h : d.dmaAt ch = c) : d.dmaShow ch =
    (((((((d.pb (Reg.DMA_CH_STAT ch) 0 c.busy).pb Reg.DMA_BUSY ch c.busy).sg (Reg.DMA_SRC_LO ch) (BitVec.ofNat 32 (c.src + c.buf.length))).sg
      (Reg.DMA_SRC_HI ch) (BitVec.ofNat 32 ((c.src + c.buf.length) / 2 ^ 32))).sg (Reg.DMA_DST_LO ch) (BitVec.ofNat 32 c.dst)).sg
      (Reg.DMA_DST_HI ch) (BitVec.ofNat 32 (c.dst / 2 ^ 32))).sg (Reg.DMA_REMAIN ch) (BitVec.ofNat 32 c.remain)) := by
  subst h
  rfl

/-- The bits of a channel's status once it is shown. -/
theorem Dev.rg_dmaShow_stat {c : DmaCh} (h : d.dmaAt ch = c) :
    (d.dmaShow ch).rg (Reg.DMA_CH_STAT ch) = (d.pb (Reg.DMA_CH_STAT ch) 0 c.busy).rg (Reg.DMA_CH_STAT ch) := by
  rw [Dev.dmaShow_eq h, Dev.rg_sg_of_ne, Dev.rg_sg_of_ne, Dev.rg_sg_of_ne, Dev.rg_sg_of_ne, Dev.rg_sg_of_ne, Dev.rg_pb_of_ne]
  · unfold Reg.DMA_BUSY Reg.DMA_CH_STAT; omega
  · unfold Reg.DMA_SRC_LO Reg.DMA_CH_STAT; omega
  · unfold Reg.DMA_SRC_HI Reg.DMA_CH_STAT; omega
  · unfold Reg.DMA_DST_LO Reg.DMA_CH_STAT; omega
  · unfold Reg.DMA_DST_HI Reg.DMA_CH_STAT; omega
  · unfold Reg.DMA_REMAIN Reg.DMA_CH_STAT; omega

theorem Dev.bt_dmaShow_busy {c : DmaCh} (h : d.dmaAt ch = c) (hch : ch < 32) : (d.dmaShow ch).bt Reg.DMA_BUSY ch = c.busy := by
  rw [Dev.dmaShow_eq h, Dev.bt, Dev.rg_sg_of_ne, Dev.rg_sg_of_ne, Dev.rg_sg_of_ne, Dev.rg_sg_of_ne, Dev.rg_sg_of_ne]
  · exact Dev.bt_pb_self _ _ hch
  · unfold Reg.DMA_SRC_LO Reg.DMA_BUSY; omega
  · unfold Reg.DMA_SRC_HI Reg.DMA_BUSY; omega
  · unfold Reg.DMA_DST_LO Reg.DMA_BUSY; omega
  · unfold Reg.DMA_DST_HI Reg.DMA_BUSY; omega
  · unfold Reg.DMA_REMAIN Reg.DMA_BUSY; omega

/-- A channel whose addresses are those that its registers hold shows them as they are. -/
theorem Dev.rg_dmaShow_of_addresses {c : DmaCh} (h : d.dmaAt ch = c) (hsrc : c.src + c.buf.length = d.pair (Reg.DMA_SRC_LO ch) (Reg.DMA_SRC_HI ch))
    (hdst : c.dst = d.pair (Reg.DMA_DST_LO ch) (Reg.DMA_DST_HI ch)) {a : Nat} (hstat : Reg.DMA_CH_STAT ch ≠ a) (hbusy : Reg.DMA_BUSY ≠ a)
    (hrem : Reg.DMA_REMAIN ch ≠ a) : (d.dmaShow ch).rg a = d.rg a := by
  obtain ⟨hsl, hsh⟩ := d.halves_pair (Reg.DMA_SRC_LO ch) (Reg.DMA_SRC_HI ch)
  obtain ⟨hdl, hdh⟩ := d.halves_pair (Reg.DMA_DST_LO ch) (Reg.DMA_DST_HI ch)
  have hput : ∀ {e : Dev} {b : Nat} {v : Word}, v = d.rg b → e.rg a = d.rg a → (e.sg b v).rg a = d.rg a := by
    intro e b v hv he
    rw [Dev.rg_sg]
    split
    case isTrue hb => rw [hv, hb]
    case isFalse => exact he
  rw [Dev.dmaShow_eq h, Dev.rg_sg_of_ne _ _ _ _ hrem, hsrc, hdst]
  refine hput hdh (hput hdl (hput hsh (hput hsl ?_)))
  rw [Dev.rg_pb_of_ne _ _ hbusy, Dev.rg_pb_of_ne _ _ hstat]

theorem Dev.fd_pb_of_ne_bit {a lo n i : Nat} {x : Bool} (h : i < lo ∨ lo + n ≤ i) (hi : i < 32) : (d.pb a i x).fd a lo n = d.fd a lo n := by
  refine Nat.eq_of_testBit_eq fun j => ?_
  rw [Dev.fd, Dev.fd, testBit_bits, testBit_bits, BitVec.testBit_toNat, BitVec.testBit_toNat]
  by_cases hj : j < n
  case pos => rw [show ((d.pb a i x).rg a).getLsbD (lo + j) = (d.rg a).getLsbD (lo + j) from Dev.bt_pb_of_ne_bit _ _ hi (by omega)]
  case neg => simp [hj]

end

theorem Dev.dmaCause_eq (d : Dev) {ch cfg src dst n e : Nat} (hcfg : (d.rg (Reg.DMA_CH_CFG ch)).toNat = cfg)
    (he : e = if bits cfg 4 2 = 0 then 1 else if bits cfg 4 2 = 1 then 2 else 4) :
    d.dmaCause ch src dst n =
      if d.rangeOk (bits cfg 0 2) src n = true ∧ d.rangeOk (bits cfg 2 2) dst n = true then
        if src % e = 0 ∧ dst % e = 0 ∧ n % e = 0 then
          if bits cfg 0 2 = bits cfg 2 2 ∧ src < dst ∧ dst < src + n then 5 else 0
        else 1
      else 2 := by
  have hsize : swapSize (bits cfg 4 2) = e := by
    unfold swapSize
    split
    case h_1 h0 => rw [he, if_pos h0]
    case h_2 h1 => rw [he, if_neg (by omega), if_pos h1]
    case h_3 h0 h1 => rw [he, if_neg h0, if_neg h1]
  unfold Dev.dmaCause
  dsimp only
  rw [hcfg, hsize]
  by_cases hrange : d.rangeOk (bits cfg 0 2) src n = true ∧ d.rangeOk (bits cfg 2 2) dst n = true
  case neg =>
    rw [if_neg hrange, if_pos]
    simpa [Classical.or_iff_not_imp_left] using hrange
  case pos =>
    rw [if_pos hrange, if_neg (by simp [hrange.1, hrange.2])]
    by_cases halign : src % e = 0 ∧ dst % e = 0 ∧ n % e = 0
    case pos => rw [if_pos halign, if_neg (by simp [halign.1, halign.2.1, halign.2.2])]
    case neg =>
      rw [if_neg halign, if_pos]
      exact Classical.byContradiction fun hno => halign ⟨by omega, by omega, by omega⟩

section
variable {s : State} {ag : Agent} {ch : Nat} {f : Dev → Dev} (hup : s.d.coreUp = true) (hag : ag.ok = true) (hch : ch < 32)
include hup hag hch

theorem exec_dmaStart : exec (.dmaStart ag ch) s = .next (s.afterDev (fun d =>
    if ownerIs ag (d.dmaOwner ch) then (if (d.dmaAt ch).busy then d.sb Reg.DMA_STAT 2 else d.dmaStart ch) else d.sb Reg.DMA_STAT 1)) :=
  need_busSet hup ⟨hag, hch⟩ (W.busWrite_DMA_CH_CMD _ hch)

theorem exec_dmaStart_idle (hmine : ownerIs ag (s.d.dmaOwner ch) = true) (hbusy : (s.d.dmaAt ch).busy = false) (hf : s.d.dmaStart ch = f s.d) :
    exec (.dmaStart ag ch) s = .next (s.afterDev f) := by
  refine (exec_dmaStart hup hag hch).trans (State.next_afterDev_congr ?_)
  rw [if_pos hmine, hbusy, if_neg (by decide)]
  exact hf

end

/-- An accepted start of a channel (R414). -/
theorem Dev.dmaBegun_shown (d : Dev) {ch src dst n : Nat} (hch : ch < 32) (hsrc : d.pair (Reg.DMA_SRC_LO ch) (Reg.DMA_SRC_HI ch) = src)
    (hdst : d.pair (Reg.DMA_DST_LO ch) (Reg.DMA_DST_HI ch) = dst) {e : Dev} (he : e = (d.dmaBegun ch src dst n).dmaShow ch) :
    (∀ a, a ∉ [Reg.DMA_CH_STAT ch, Reg.DMA_BUSY, Reg.DMA_REMAIN ch] → e.rg a = d.rg a) ∧ e = { d with regs := e.regs, dma := e.dma } ∧
      e.dmaAt ch = { busy := true, src := src, dst := dst, remain := n, startAt := d.cclks } ∧ (∀ k, k ≠ ch → e.dmaAt k = d.dmaAt k) ∧
      e.bt (Reg.DMA_CH_STAT ch) 0 = true ∧ e.fd (Reg.DMA_CH_STAT ch) 4 3 = 0 ∧ e.bt Reg.DMA_BUSY ch = true ∧
      e.rg (Reg.DMA_REMAIN ch) = BitVec.ofNat 32 n := by
  have hat : (d.dmaBegun ch src dst n).dmaAt ch = { busy := true, src := src, dst := dst, remain := n, startAt := d.cclks } :=
    (Dev.dmaAt_onDma _ _ _ _).trans (if_pos rfl)
  have hrg : ∀ a, a ≠ Reg.DMA_CH_STAT ch → (d.dmaBegun ch src dst n).rg a = d.rg a := fun a ha =>
    Dev.rg_sg_of_ne _ _ _ _ (Ne.symm ha)
  have hshow := Dev.dmaShow_eq hat
  have hstat := Dev.rg_dmaShow_stat hat
  have hpair : ∀ lo hi, lo ≠ Reg.DMA_CH_STAT ch → hi ≠ Reg.DMA_CH_STAT ch → (d.dmaBegun ch src dst n).pair lo hi = d.pair lo hi :=
    fun lo hi h1 h2 => by rw [Dev.pair, Dev.pair, hrg lo h1, hrg hi h2]
  subst he
  refine ⟨fun a ha => ?_, ?_, ?_, fun k hk => ?_, ?_, ?_, Dev.bt_dmaShow_busy hat hch, ?_⟩
  · simp only [List.mem_cons, List.not_mem_nil, or_false, not_or] at ha
    obtain ⟨h1, h2, h3⟩ := ha
    rw [Dev.rg_dmaShow_of_addresses hat ?_ ?_ (Ne.symm h1) (Ne.symm h2) (Ne.symm h3), hrg a h1]
    · rw [hpair, hsrc]
      · rfl
      · unfold Reg.DMA_SRC_LO Reg.DMA_CH_STAT; omega
      · unfold Reg.DMA_SRC_HI Reg.DMA_CH_STAT; omega
    · rw [hpair, hdst]
      · unfold Reg.DMA_DST_LO Reg.DMA_CH_STAT; omega
      · unfold Reg.DMA_DST_HI Reg.DMA_CH_STAT; omega
  · rw [hshow]
    rfl
  · rw [hshow]
    exact hat
  · have hother : (d.dmaBegun ch src dst n).dmaAt k = d.dmaAt k := (Dev.dmaAt_onDma _ _ _ _).trans (if_neg (Ne.symm hk))
    rw [hshow]
    exact hother
  · rw [Dev.bt, hstat]
    exact Dev.bt_pb_self _ _ (by decide)
  · rw [Dev.fd, hstat]
    exact (Dev.fd_pb_of_ne_bit (.inl (by decide)) (by decide)).trans (Dev.fd_sf_self (by decide))
  · rw [hshow, Dev.rg_sg_self]

/-- Settles O35: the owner, the channel's state, then the checks in the order of R415. -/
theorem dmaStartChecks : Obligations.DmaStartChecks := by
  intro s ag ch hup hag hch cfg src dst n e range align overlap mine refuses
  have hcause := s.d.dmaCause_eq (ch := ch) (src := src) (dst := dst) (n := n) (cfg := cfg) (e := e) rfl rfl
  refine ⟨fun h => (exec_dmaStart hup hag hch).trans (State.next_afterDev_congr (if_neg h)),
    fun h hbusy => (exec_dmaStart hup hag hch).trans (State.next_afterDev_congr ((if_pos h).trans (if_pos hbusy))), fun h hbusy => ?_⟩
  have hrefuses : ∀ cause, s.d.dmaCause ch src dst n = cause → cause ≠ 0 → refuses cause := fun cause hc h0 =>
    exec_dmaStart_idle hup hag hch h hbusy (Dev.dmaStart_of_refused hc h0)
  refine ⟨fun hr => hrefuses 2 (hcause.trans (if_neg hr)) (by decide),
    fun hr ha => hrefuses 1 (hcause.trans ((if_pos hr).trans (if_neg ha))) (by decide),
    fun hr ha ho => hrefuses 5 (hcause.trans ((if_pos hr).trans ((if_pos ha).trans (if_pos ho)))) (by decide), fun hr ha ho hn => ?_⟩
  have hgo := Dev.dmaStart_of_accepted (d := s.d) (ch := ch) rfl rfl rfl
    (hcause.trans ((if_pos hr).trans ((if_pos ha).trans (if_neg ho)))) hn
  obtain ⟨hregs, hrest⟩ := s.d.dmaBegun_shown (ch := ch) (src := src) (dst := dst) (n := n) hch rfl rfl rfl
  exact ⟨_, exec_dmaStart_idle (f := fun d => (d.dmaBegun ch src dst n).dmaShow ch) hup hag hch h hbusy hgo, ⟨rfl, rfl, hregs⟩, hrest⟩

/-! ### The end of a transfer (R418) -/

/-- A byte to be moved by channel 31 while a write of a pin route is on its way: of a route that the part has not, and whose register would
stand where MEM_CH_STAT of LPDDR5X channel 0 stands. -/
def strayRoute : State :=
  { State.reset with
    d := { State.reset.d with
      regs := [(Reg.DMA_COUNT 31, 1)], dma := [(31, { busy := true, src := 0, dst := 16, remain := 1 })],
      later := [(0, .route 0 ((Reg.MEM_CH_STAT 0 - Reg.SL_LROUTE 0 0) / 4) 1 1)] },
    mem := { State.reset.mem with lpddr := [(0, 1)] } }

/-- The byte at the destination once the channel has ended. -/
theorem strayRoute_ends : (match exec (.dmaComplete 31 []) strayRoute with
    | .next t => t.mem.read .lpddr 16
    | _ => 1) = 0 := by decide +kernel

/-- Refutes O36: the wait for the last beat lets the write arrive, which fences the channel of the destination, and the byte is discarded.
No write of a route that the part has does so; the statement does not ask that the writes on their way be such. -/
theorem not_dmaMovesBytes : ¬ Obligations.DmaMovesBytes := by
  intro h
  have hunfenced : ∀ c, c < 8 → strayRoute.d.bt (Reg.MEM_CH_STAT c) 0 = false := by decide +kernel
  obtain ⟨t, ht, -, -, hmem⟩ := h strayRoute 31 [] (by decide) (by decide) (by decide) (by decide) (by decide)
    (fun a => hunfenced _ (Nat.mod_lt _ (by decide))) rfl (by decide) rfl (by decide)
  have hend := strayRoute_ends
  rw [ht] at hend
  exact absurd ((hmem .lpddr 16).symm.trans hend) (by decide)

end Sys2Proof.Machine
end

section
/-!
PROOFS. The output latch and BAR2 (O37, O40).
-/

namespace Sys2Proof.Machine

/-! ### A word of 32 flags -/

/-- The number whose bits below `n` are `f`. -/
def flagSum (f : Nat → Bool) (n : Nat) : Nat := ((List.range n).map fun i => (i, (f i).toNat)).foldl (fun acc p => acc + p.2 * 2 ^ p.1) 0

theorem flagSum_succ (f : Nat → Bool) (n : Nat) : flagSum f (n + 1) = 2 ^ n * (f n).toNat + flagSum f n := by
  unfold flagSum
  rw [List.range_succ, List.map_append, List.foldl_append, Nat.add_comm, Nat.mul_comm]
  rfl

theorem flagSum_lt (f : Nat → Bool) (n : Nat) : flagSum f n < 2 ^ n := by
  induction n with
  | zero => exact Nat.one_pos
  | succ n ih =>
    rw [flagSum_succ, Nat.pow_succ]
    cases f n <;> simp <;> omega

theorem testBit_flagSum (f : Nat → Bool) (n i : Nat) : (flagSum f n).testBit i = (decide (i < n) && f i) := by
  induction n with
  | zero => simp [flagSum]
  | succ n ih =>
    rw [flagSum_succ, Nat.testBit_two_pow_mul_add _ (flagSum_lt f n)]
    split
    case isTrue h => rw [ih, decide_eq_true h, decide_eq_true (Nat.lt_succ_of_lt h)]
    case isFalse h =>
      obtain rfl | h' := Nat.eq_or_lt_of_le (Nat.le_of_not_lt h)
      · rw [Nat.sub_self, decide_eq_true (Nat.lt_succ_self n)]
        cases f n <;> rfl
      · have hbig : (f n).toNat < 2 ^ (i - n) := by
          have hone : 2 ^ 1 ≤ 2 ^ (i - n) := Nat.pow_le_pow_right (by decide) (by omega)
          have := Bool.toNat_le (f n)
          omega
        rw [Nat.testBit_lt_two_pow hbig, decide_eq_false (by omega), Bool.false_and]

theorem getLsbD_packFlags (f : Nat → Bool) {i : Nat} (hi : i < 32) :
    (packFields ((List.range 32).map fun i => (i, (f i).toNat))).getLsbD i = f i := by
  have hpack : packFields ((List.range 32).map fun i => (i, (f i).toNat)) = BitVec.ofNat 32 (flagSum f 32) := rfl
  rw [hpack, BitVec.getLsbD_ofNat, testBit_flagSum]
  simp [hi]

/-! ### Writes of the output latch (R442, R446) -/

/-- The latch word that a write leads to if its writer owns every pin. -/
def latchNew (op : Nat) (old v : Word) : Word := if op = 0 then v else if op = 1 then old ||| v else old &&& ~~~v

section
variable {ag : Agent} {j op : Nat} {v new : Word} {d : Dev}

theorem W.busWrite_latch (w : W) (hj : j < 4) (hop : op < 3) : w.busWrite ag (Reg.GP_OUT 0 + 0x10 * op + 4 * j) v 0xFFFFFFFF =
    w.dev (fun d => gpOutWrite ag j (latchNew op (d.rg (Reg.GP_OUT j)) v) d) := by
  have hout : Reg.GP_OUT 0 + 0x10 * op + 4 * j = 0x1500030 + 0x10 * op + 4 * j := rfl
  rw [W.busWrite_gp _ _ _ _ (by omega) (by omega)]
  refine congrArg w.dev (funext fun d => ?_)
  have hctrl : Reg.GP_OUT 0 + 0x10 * op + 4 * j ≠ Reg.GP_CTRL := by unfold Reg.GP_OUT Reg.GP_CTRL; omega
  rw [Dev.gpWrite, if_neg hctrl, and_ones]
  obtain rfl | rfl | rfl : op = 0 ∨ op = 1 ∨ op = 2 := by omega
  · have hix : (Reg.GP_OUT 0 + 0x10 * 0 + 4 * j - Reg.GP_OUT 0) / 4 = j := by omega
    rw [if_pos (by unfold Reg.GP_OUT; omega), hix, mergeWord_ones]
    rfl
  · have hix : (Reg.GP_OUT 0 + 0x10 * 1 + 4 * j - Reg.GP_OUT_SET 0) / 4 = j := by unfold Reg.GP_OUT Reg.GP_OUT_SET; omega
    rw [if_neg (by unfold Reg.GP_OUT; omega), if_pos (by unfold Reg.GP_OUT Reg.GP_OUT_SET; omega), hix]
    rfl
  · have hix : (Reg.GP_OUT 0 + 0x10 * 2 + 4 * j - Reg.GP_OUT_CLR 0) / 4 = j := by unfold Reg.GP_OUT Reg.GP_OUT_CLR; omega
    rw [if_neg (by unfold Reg.GP_OUT; omega), if_neg (by unfold Reg.GP_OUT Reg.GP_OUT_SET; omega),
      if_pos (by unfold Reg.GP_OUT Reg.GP_OUT_CLR; omega), hix]
    rfl

/-- The bits of latch word `j` that `ag` owns. -/
def Dev.ownedMask (d : Dev) (ag : Agent) (j : Nat) : Word := packFields ((List.range 32).map fun i => (i, (d.ownsPin ag (32 * j + i)).toNat))

theorem gpOutWrite_eq : gpOutWrite ag j new d =
    if (d.rg (Reg.GP_OUT j) ^^^ new) &&& ~~~d.ownedMask ag j = 0 then
      d.sg (Reg.GP_OUT j) (mergeWord (d.rg (Reg.GP_OUT j)) new (d.ownedMask ag j))
    else (d.sg (Reg.GP_OUT j) (mergeWord (d.rg (Reg.GP_OUT j)) new (d.ownedMask ag j))).sb Reg.GP_STAT 1 := rfl

/-- Would no bit change that its writer does not own? -/
theorem foreign_eq_zero_iff {old own : Word} :
    (old ^^^ new) &&& ~~~own = 0 ↔ ∀ i, i < 32 → own.getLsbD i = false → new.getLsbD i = old.getLsbD i := by
  constructor
  · intro h i hi hown
    have hbit := congrArg (BitVec.getLsbD · i) h
    simp only [BitVec.getLsbD_and, BitVec.getLsbD_xor, BitVec.getLsbD_not, hi, hown] at hbit
    revert hbit
    cases old.getLsbD i <;> cases new.getLsbD i <;> simp
  · intro h
    refine BitVec.eq_of_getLsbD_eq fun i hi => ?_
    rw [BitVec.getLsbD_and, BitVec.getLsbD_xor, BitVec.getLsbD_not]
    cases hown : own.getLsbD i
    case true => simp
    case false => simp [h i hi hown]

theorem Dev.getLsbD_ownedMask (d : Dev) (ag : Agent) (j : Nat) {i : Nat} (hi : i < 32) :
    (d.ownedMask ag j).getLsbD i = ownerIs ag (d.fd (Reg.GP_PIN_OWN (32 * j + i)) 0 3) := getLsbD_packFlags _ hi

theorem getLsbD_mergeWord {old own : Word} {i : Nat} (hi : i < 32) :
    (mergeWord old new own).getLsbD i = if own.getLsbD i = true then new.getLsbD i else old.getLsbD i := by
  rw [mergeWord, BitVec.getLsbD_or, BitVec.getLsbD_and, BitVec.getLsbD_and, BitVec.getLsbD_not]
  cases own.getLsbD i <;> simp [hi]

end

/-- Settles O37: a merge under the mask of the owned bits, with OWN_ERR when a bit beyond the mask would have changed. -/
theorem outputLatch : Obligations.OutputLatch := by
  intro s ag j op v hup hag hj hop old new
  have hexec : exec (.gpOutWrite ag j op v) s = .next (s.afterDev (gpOutWrite ag j new)) :=
    (need_busSet hup ⟨hag, hj, hop⟩ (W.busWrite_latch _ hj hop)).trans (State.next_afterDev_congr rfl)
  have hne : Reg.GP_OUT j ≠ Reg.GP_STAT := by unfold Reg.GP_OUT Reg.GP_STAT; omega
  have hforeign : ((old ^^^ new) &&& ~~~s.d.ownedMask ag j = 0) ↔
      ∀ i, i < 32 → ownerIs ag (s.d.fd (Reg.GP_PIN_OWN (32 * j + i)) 0 3) = false → new.getLsbD i = old.getLsbD i :=
    foreign_eq_zero_iff.trans (forall₂_congr fun i hi => by rw [s.d.getLsbD_ownedMask ag j hi])
  have hrg : ∀ a, (gpOutWrite ag j new s.d).rg a = if Reg.GP_OUT j = a then mergeWord old new (s.d.ownedMask ag j) else
      if Reg.GP_STAT = a ∧ ¬(old ^^^ new) &&& ~~~s.d.ownedMask ag j = 0 then s.d.rg Reg.GP_STAT ||| 2 else s.d.rg a := fun a => by
    by_cases hz : (old ^^^ new) &&& ~~~s.d.ownedMask ag j = 0
    case pos => rw [gpOutWrite_eq, if_pos hz, Dev.rg_sg, if_neg (mt And.right (Classical.not_not.mpr hz))]
    case neg =>
      rw [gpOutWrite_eq, if_neg hz, Dev.rg_sb, Dev.rg_sg_of_ne _ _ _ _ hne, Dev.rg_sg]
      by_cases hstat : Reg.GP_STAT = a
      case pos => rw [if_pos hstat, if_neg (fun h : Reg.GP_OUT j = a => hne (h.trans hstat.symm)), if_pos ⟨hstat, hz⟩]; rfl
      case neg => rw [if_neg hstat, if_neg (c := Reg.GP_STAT = a ∧ _) (fun h => hstat h.1)]
  have hregs : s.d.RegsOnly (gpOutWrite ag j new s.d) := by
    rw [gpOutWrite_eq]
    split
    · exact (Dev.RegsOnly.refl s.d).sg _
    · exact ((Dev.RegsOnly.refl s.d).sg _).sg _
  refine ⟨_, hexec, ⟨rfl, rfl, fun a ha => ?_⟩, hregs, fun i hi => ?_, fun ⟨i, hi, hown, hbit⟩ => ?_, fun hsame => ?_⟩
  · simp only [List.mem_cons, List.not_mem_nil, or_false, not_or] at ha
    rw [State.afterDev_d, hrg, if_neg (Ne.symm ha.1), if_neg (fun h : Reg.GP_STAT = a ∧ _ => ha.2 h.1.symm)]
  · rw [State.afterDev_d, Dev.bt, hrg, if_pos rfl, getLsbD_mergeWord hi, s.d.getLsbD_ownedMask ag j hi]
  · rw [State.afterDev_d, hrg, if_neg hne, if_pos ⟨rfl, fun hz => hbit (hforeign.mp hz i hi hown)⟩]
  · rw [State.afterDev_d, hrg, if_neg hne, if_neg (mt And.right (Classical.not_not.mpr (hforeign.mpr hsame)))]

/-! ### BAR2 (R481, R566) -/

/-- One byte that a write to LPDDR5X stores, or not. -/
def W.lpPut (a : Nat) (w : W) (p : Byte × Nat) : W := if w.d.fenced (a + p.2) then w else w.wr .lpddr (a + p.2) p.1

section
variable {sp : MemSp} {x : Nat}

theorem W.lpPut_frame (w : W) (a : Nat) (p : Byte × Nat) : (w.lpPut a p).d = w.d ∧ (w.lpPut a p).zero = w.zero := by
  unfold W.lpPut
  split
  · exact ⟨rfl, rfl⟩
  · exact ⟨rfl, rfl⟩

theorem lastWrite_lpPut (w : W) (a k : Nat) (b : Byte) : lastWrite (w.lpPut a (b, k)).ws sp x =
    if sp = .lpddr ∧ x = a + k ∧ w.d.fenced x = false then some b else lastWrite w.ws sp x := by
  unfold W.lpPut
  by_cases hf : w.d.fenced (a + k) = true
  case pos =>
    rw [if_pos hf, if_neg]
    rintro ⟨-, rfl, h⟩
    exact absurd (hf.symm.trans h) (by decide)
  case neg =>
    rw [if_neg hf, W.wr, lastWrite_cons]
    refine ite_congr (propext ⟨?_, ?_⟩) (fun _ => rfl) fun _ => rfl
    · rintro ⟨rfl, rfl⟩
      exact ⟨rfl, rfl, Bool.eq_false_iff.mpr hf⟩
    · rintro ⟨rfl, rfl, -⟩
      exact ⟨rfl, rfl⟩

theorem W.lpPut_run (a : Nat) (l : List Byte) (k : Nat) (w : W) :
    let w' := (l.zip (List.range' k l.length)).foldl (W.lpPut a) w
    w'.d = w.d ∧ w'.zero = w.zero ∧ lastWrite w'.ws sp x =
      if sp = .lpddr ∧ a + k ≤ x ∧ x < a + k + l.length ∧ w.d.fenced x = false then l[x - (a + k)]? else lastWrite w.ws sp x := by
  induction l generalizing k w with
  | nil => exact ⟨rfl, rfl, (if_neg (fun h => absurd h.2.2.1 (by rw [List.length_nil]; omega))).symm⟩
  | cons b l ih =>
    obtain ⟨hd, hz, hlast⟩ := ih (k + 1) (w.lpPut a (b, k))
    obtain ⟨hd0, hz0⟩ := w.lpPut_frame a (b, k)
    rw [List.length_cons, List.range'_succ, List.zip_cons_cons, List.foldl_cons]
    refine ⟨hd.trans hd0, hz.trans hz0, hlast.trans ?_⟩
    rw [hd0, lastWrite_lpPut]
    by_cases hin : sp = .lpddr ∧ a + (k + 1) ≤ x ∧ x < a + (k + 1) + l.length ∧ w.d.fenced x = false
    case pos =>
      obtain ⟨hsp, hlo, hhi, hf⟩ := hin
      have hsub : x - (a + k) = x - (a + (k + 1)) + 1 := by omega
      rw [if_pos ⟨hsp, hlo, hhi, hf⟩, if_pos ⟨hsp, by omega, by omega, hf⟩, hsub, List.getElem?_cons_succ]
    case neg =>
      rw [if_neg hin]
      by_cases hx : sp = .lpddr ∧ x = a + k ∧ w.d.fenced x = false
      case pos =>
        obtain ⟨hsp, hxk, hf⟩ := hx
        rw [if_pos ⟨hsp, hxk, hf⟩, if_pos ⟨hsp, by omega, by omega, hf⟩, hxk, Nat.sub_self]
        rfl
      case neg =>
        rw [if_neg hx, if_neg]
        rintro ⟨hsp, hlo, hhi, hf⟩
        have hne : x ≠ a + k := fun h => hx ⟨hsp, h, hf⟩
        exact hin ⟨hsp, by omega, by omega, hf⟩

/-- A write to LPDDR5X stores its bytes but those of a fenced channel. -/
theorem W.lpWrite_spec (w : W) (a : Nat) (l : List Byte) : (∀ b, (w.lpWrite a l).d.rg b = w.d.rg b) ∧ (w.lpWrite a l).zero = w.zero ∧
    lastWrite (w.lpWrite a l).ws sp x =
      if sp = .lpddr ∧ a ≤ x ∧ x < a + l.length ∧ w.d.fenced x = false then l[x - a]? else lastWrite w.ws sp x := by
  obtain ⟨hd, hz, hlast⟩ := W.lpPut_run (sp := sp) (x := x) a l 0 (w.noteFills a l.length)
  rw [← List.range_eq_range'] at hd hz hlast
  refine ⟨fun b => ?_, hz, hlast⟩
  have hrg := congrArg (fun d : Dev => d.rg b) hd
  exact hrg.trans rfl

end

theorem Dev.bar2Range_eq (d : Dev) : d.bar2Range = (d.sb Reg.MEM_STAT 4).raiseIf (d.bt Reg.MEM_INT_EN 15) 379 := by
  rw [Dev.bar2Range, Dev.memRaise, Dev.bt_sb_of_ne _ _ _ (by decide)]

theorem leNat_replicate_zero (n : Nat) : leNat (List.replicate n 0) = 0 := by
  induction n with
  | zero => rfl
  | succ n ih => rw [List.replicate_succ, leNat, ih]; rfl

/-- What a read of BAR2 answers with the bytes `l`. -/
def Dev.bar2Out (d : Dev) (l : List Byte) : Dev := { d with rdata := BitVec.ofNat 32 (leNat (l.take 4)), rbytes := l }

theorem Dev.bar2Out_zeros (d : Dev) (n : Nat) : d.bar2Out (List.replicate n 0) = { d with rdata := 0, rbytes := List.replicate n 0 } := by
  rw [Dev.bar2Out, List.take_replicate, leNat_replicate_zero]
  rfl

section
variable {o n a : Nat} {l : List Byte} {w : W} (ha : w.d.bar2Addr o = a)
include ha

theorem bar2Write_of_beyond (h : w.d.lpSize < a + l.length) : bar2Write o l w = w.dev Dev.bar2Range := by
  unfold bar2Write
  dsimp only
  rw [ha, if_pos h]

theorem bar2Write_of_within (h : a + l.length ≤ w.d.lpSize) : bar2Write o l w = w.lpWrite a l := by
  unfold bar2Write
  dsimp only
  rw [ha, if_neg (Nat.not_lt.mpr h)]

theorem bar2Read_of_beyond (h : w.d.lpSize < a + n) : bar2Read o n w = w.dev (fun d => d.bar2Range.bar2Out (List.replicate n 0)) := by
  unfold bar2Read
  dsimp only
  rw [ha, if_pos h]
  rfl

theorem bar2Read_of_within (h : a + n ≤ w.d.lpSize) (hok : w.d.meetsBad 0 a n = false) :
    bar2Read o n w = w.dev (fun d => d.bar2Out (w.lpRead a n)) := by
  have hlen : (w.lpRead a n).length = n := by rw [W.lpRead, List.length_map, List.length_range]
  have hdeliver : w.deliver 0 a (w.lpRead a n) = (w, w.lpRead a n) := by
    rw [W.deliver, hlen, hok]
    rfl
  unfold bar2Read
  dsimp only
  rw [ha, if_neg (Nat.not_lt.mpr h), hdeliver]
  rfl

end

theorem need_coreRun_dev {s : State} {p : Prop} [Decidable p] {g : W → W} {f : Dev → Dev} (hup : s.d.coreUp = true) (hp : p)
    (h : g s.ctx = s.ctx.dev f) : need p (s.coreRun g) = .next (s.afterDev f) :=
  (need_coreRun hup hp).trans (congrArg _ (State.afterRun_eq_afterDev _ _ _ h))

/-- Settles O40: within the installed size a write stores the bytes of the channels that no fence closes, and beyond it none. -/
theorem bar2Accesses : Obligations.Bar2Accesses := by
  intro s off n data hup hdata hn base beyond
  have ha : s.ctx.d.bar2Addr off = base := rfl
  clear_value base
  refine ⟨fun h => ?_, fun h => ?_, fun h hok => ?_, fun h => ?_⟩
  · have hwrite := bar2Write_of_within ha h
    refine ⟨_, need_coreRun hup hdata, State.afterRun_pending _ _, fun sp a => ?_, fun a => ?_⟩
    · obtain ⟨-, hz, hlast⟩ := s.ctx.lpWrite_spec (sp := sp) (x := a) base data
      rw [State.afterRun_read (by rw [hwrite, hz]; rfl), hwrite, hlast, State.ctx_d]
      by_cases hin : sp = .lpddr ∧ base ≤ a ∧ a < base + data.length ∧ s.d.fenced a = false
      case pos =>
        rw [if_pos hin, if_pos hin, List.getD_eq_getElem?_getD, List.getElem?_eq_getElem (by omega), Option.getD_some, Option.getD_some]
      case neg => rw [if_neg hin, if_neg hin]; rfl
    · obtain ⟨hrg, -⟩ := s.ctx.lpWrite_spec (sp := .lpddr) (x := 0) base data
      have hkeep : ∀ (d : Dev) (l : List Nat), ({ d with badWords := l } : Dev).rg a = d.rg a := fun _ _ => rfl
      rw [State.afterRun_d, hkeep, hwrite]
      exact hrg a
  · exact need_coreRun_dev hup hdata ((bar2Write_of_beyond ha h).trans (W.dev_congr s.d.bar2Range_eq))
  · refine ⟨_, need_coreRun_dev hup hn (bar2Read_of_within ha h hok), ⟨rfl, rfl, fun _ _ => rfl⟩, ?_⟩
    exact List.map_congr_left fun i _ => ite_congr rfl (fun _ => rfl) fun _ => s.ctx_rd (by decide) _
  · refine (need_coreRun_dev hup hn (bar2Read_of_beyond ha h)).trans (State.next_afterDev_congr ?_)
    dsimp only
    rw [Dev.bar2Range_eq]
    exact Dev.bar2Out_zeros _ n

end Sys2Proof.Machine
end

section
/-!
PROOFS. The mill tick (O42): what its work leaves of the tick generator.
-/

namespace Sys2Proof.Machine

/-! ### What leaves the tick generator as it is -/

section
variable {d e : Dev} {α : Type}

@[simp] theorem Dev.ite_tick {p : Prop} [Decidable p] : (if p then d else e).tick = if p then d.tick else e.tick := apply_ite Dev.tick p d e

theorem Dev.foldl_tick {g : Dev → α → Dev} (h : ∀ d x, (g d x).tick = d.tick) (l : List α) : (l.foldl g d).tick = d.tick := by
  induction l generalizing d with
  | nil => rfl
  | cons x l ih => exact (ih (d := g d x)).trans (h d x)

end

section
variable (d : Dev)

@[simp] theorem Dev.pb_tick (a i : Nat) (b : Bool) : (d.pb a i b).tick = d.tick := (d.sameTime_pb a i b).1
@[simp] theorem Dev.raise_tick (s : Nat) : (d.raise s).tick = d.tick := (d.sameTime_raise s).1
@[simp] theorem Dev.raiseIf_tick (b : Bool) (s : Nat) : (d.raiseIf b s).tick = d.tick := by simp [Dev.raiseIf]
@[simp] theorem Dev.sgAll_tick (l : List (Nat × Word)) : (d.sgAll l).tick = d.tick := Dev.foldl_tick (fun _ _ => Dev.sg_tick ..) l
@[simp] theorem Dev.sfrAll_tick (l : List (Nat × Word)) : (d.sfrAll l).tick = d.tick := Dev.foldl_tick (fun _ _ => Dev.sfr_tick ..) l
@[simp] theorem Dev.frameLines_tick (n : Nat) : (d.frameLines n).tick = d.tick := rfl

@[simp] theorem Dev.applyMx_tick (n : Nat) : (d.applyMx n).tick = d.tick := by
  unfold Dev.applyMx
  dsimp only
  rw [Dev.frameLines_tick]
  split
  · exact (Dev.onMx_tick ..).trans (Dev.foldl_tick (fun _ _ => Dev.sfr_tick ..) _)
  · split <;> simp

@[simp] theorem Dev.applySetting_tick (b : Block) : (d.applySetting b).tick = d.tick := by
  have hsfr : ∀ l : List Nat, (l.foldl (fun d a => d.sfr a (takenWord a (d.rg a))) d).tick = d.tick := Dev.foldl_tick (fun _ _ => rfl)
  unfold Dev.applySetting
  split <;> simp [hsfr]

@[simp] theorem Dev.reachUpdate_tick (b : Block) : (d.reachUpdate b).tick = d.tick := by
  unfold Dev.reachUpdate
  split <;> simp

/-! ### The ports and the generators -/

@[simp] theorem Dev.flLeave_tick (n : Nat) : (d.flLeave n).tick = d.tick := rfl
@[simp] theorem Dev.flCut_tick (n : Nat) : (d.flCut n).tick = d.tick := rfl
@[simp] theorem Dev.flOff_tick (n : Nat) : (d.flOff n).tick = d.tick := rfl
@[simp] theorem Dev.trainStart_tick (n : Nat) : (d.trainStart n).tick = d.tick := by simp [Dev.trainStart]
@[simp] theorem Dev.flFollow_tick (n : Nat) : (d.flFollow n).tick = d.tick := by simp [Dev.flFollow]
@[simp] theorem Dev.flApply_tick (n : Nat) : (d.flApply n).tick = d.tick := by
  have hoff : ∀ (d : Dev) (l : List Nat), (l.foldl Dev.flOff d).tick = d.tick := fun d => Dev.foldl_tick Dev.flOff_tick
  have htrain : ∀ (d : Dev) (l : List Nat), (l.foldl Dev.trainStart d).tick = d.tick := fun d => Dev.foldl_tick Dev.trainStart_tick
  simp [Dev.flApply, hoff, htrain]

@[simp] theorem Dev.tgState_tick (n : Nat) (st : TgState) : (d.tgState n st).tick = d.tick := by simp [Dev.tgState, Dev.dmStopped]
@[simp] theorem Dev.cutFrame_tick (n : Nat) : (d.cutFrame n).tick = d.tick := by
  refine (Dev.flCut_tick _ n).trans (Dev.foldl_tick (fun x s => ?_) _)
  split
  · rfl
  · exact (Dev.foldl_tick (fun _ _ => Dev.onVid_tick ..) _).trans (Dev.onSlice_tick ..)
@[simp] theorem Dev.tgOff_tick (n : Nat) : (d.tgOff n).tick = d.tick := Dev.foldl_tick (fun d m => by simp) _
@[simp] theorem Dev.acquireOne_tick (n : Nat) : (d.acquireOne n).tick = d.tick := by simp [Dev.acquireOne]
@[simp] theorem Dev.tgAcquire_tick (n : Nat) : (d.tgAcquire n).tick = d.tick := Dev.foldl_tick (fun d m => by simp) _

@[simp] theorem Dev.takeTiming_tick (t : Timing) (n : Nat) : (d.takeTiming t n).tick = d.tick := by
  unfold Dev.takeTiming
  dsimp only
  split
  · simp
  · split
    · simp
    · split <;> simp

@[simp] theorem Dev.applyTiming_tick (n : Nat) : (d.applyTiming n).tick = d.tick := by
  have hset : ∀ (d : Dev) (t : Timing) (l : List Nat), (l.foldl (fun d m => d.onTg m (fun g => { g with tm := t, k := 0 })) d).tick = d.tick :=
    fun d _ => Dev.foldl_tick (fun _ _ => rfl)
  have htake : ∀ (d : Dev) (t : Timing) (l : List Nat), (l.foldl (fun d m => d.takeTiming t m) d).tick = d.tick :=
    fun d _ => Dev.foldl_tick (fun d m => d.takeTiming_tick _ m)
  unfold Dev.applyTiming
  dsimp only
  split
  · simp
  · split
    · rw [Dev.ite_tick, Dev.tgOff_tick, ite_self, hset, Dev.applySetting_tick]
    · rw [Dev.ite_tick, Dev.tgAcquire_tick, htake, Dev.applySetting_tick, Dev.sb_tick, ite_self]

@[simp] theorem Dev.idleOutputTick_tick (n : Nat) : (d.idleOutputTick n).tick = d.tick := by
  have hsl : ∀ (d : Dev) (l : List Nat), (l.foldl (fun d s => d.reachUpdate (.sl s)) d).tick = d.tick :=
    fun d => Dev.foldl_tick (fun d s => d.reachUpdate_tick _)
  simp [Dev.idleOutputTick, hsl]

@[simp] theorem Dev.replan_tick : d.replan.tick = d.tick := by
  refine Dev.foldl_tick (fun d p => ?_) _
  split <;> simp

/-! ### The hopper and the log -/

@[simp] theorem trackerLatch_tick : (trackerLatch d).tick = d.tick := by
  unfold trackerLatch
  split
  · rfl
  · exact (Dev.onHop_tick ..).trans (Dev.foldl_tick (fun _ _ => Dev.sg_tick ..) _)
@[simp] theorem Dev.applyHorizon_tick (ns : Nat) : (d.applyHorizon ns).tick = d.tick := by simp [Dev.applyHorizon, Dev.judgeHorizon]
@[simp] theorem Dev.showTickRt_tick (rt : Nat) : (d.showTickRt rt).tick = d.tick := rfl

@[simp] theorem Dev.hopTick_tick : d.hopTick.tick = d.tick := by
  unfold Dev.hopTick
  dsimp only
  split
  · split <;> simp
  · simp

@[simp] theorem Dev.logPush_tick (l : List Word) : (d.logPush l).tick = d.tick := by simp [Dev.logPush]
@[simp] theorem Dev.inject_tick (k : Nat) (l : List (BitVec 64)) : (d.inject k l).tick = d.tick := rfl

@[simp] theorem Dev.logEntry_tick (kind detail info : Nat) : (d.logEntry kind detail info).tick = d.tick := by
  unfold Dev.logEntry
  dsimp only
  split <;> simp

@[simp] theorem Dev.tickUpdates_tick : d.tickUpdates.tick = d.tick := rfl
@[simp] theorem Dev.flushCe_tick : d.flushCe.tick = d.tick := Dev.foldl_tick (fun d p => by simp) _

/-! ### The availability unit, captures and events -/

@[simp] theorem Dev.startRepair_tick (b r : Nat) (cmd : Bool) : (d.startRepair b r cmd).tick = d.tick := by simp [Dev.startRepair]

@[simp] theorem Dev.autoRepair_tick (b : Nat) : (d.autoRepair b).tick = d.tick := by
  unfold Dev.autoRepair
  split
  · rfl
  · split <;> simp

@[simp] theorem Dev.avTick_tick : d.avTick.tick = d.tick := by
  refine (Dev.foldl_tick (fun d b => d.autoRepair_tick b) _).trans ?_
  simp [Dev.scrubFrom]
@[simp] theorem Dev.setHealth_tick (s h : Nat) : (d.setHealth s h).tick = d.tick := by simp [Dev.setHealth]

@[simp] theorem Dev.verdict_tick (s : Nat) (f : Option Nat) : (d.verdict s f).tick = d.tick := by
  cases f <;> simp [Dev.verdict]

@[simp] theorem Dev.takeVerdicts_tick : d.takeVerdicts.tick = d.tick := Dev.foldl_tick (fun d p => by simp) _
@[simp] theorem Dev.startTests_tick : d.startTests.tick = d.tick := Dev.foldl_tick (fun d s => by simp) _
@[simp] theorem Dev.captureTick_tick : d.captureTick.tick = d.tick := Dev.foldl_tick (fun d n => by simp) _
@[simp] theorem Dev.trialTick_tick : d.trialTick.tick = d.tick := by simp [Dev.trialTick]
@[simp] theorem Dev.countEvent_tick (a i b j : Nat) : (d.countEvent a i b j).tick = d.tick := (d.sameTime_countEvent a i b j).1
@[simp] theorem Dev.capture_tick (c v : Nat) : (d.capture c v).tick = d.tick := by simp [Dev.capture]
@[simp] theorem Dev.captureEvent_tick (x : Ev) (v : Nat) : (d.captureEvent x v).tick = d.tick := Dev.foldl_tick (fun d c => by simp) _
@[simp] theorem Dev.pioEvent_tick (x : Ev) : (d.pioEvent x).tick = d.tick :=
  Dev.foldl_tick (fun d _ => Dev.foldl_tick (fun d i => by simp) _) _
@[simp] theorem Dev.eventNow_tick (x : Ev) (v : Nat) : (d.eventNow x v).tick = d.tick := by simp [Dev.eventNow, Dev.sendLater]

/-! ### The flywheel -/

/-- The tick in force stands: its number and its time (R38). -/
def Dev.SameTick (d e : Dev) : Prop := e.tick.num = d.tick.num ∧ e.tick.ts = d.tick.ts

theorem Dev.SameTick.of_tick {d e : Dev} (h : e.tick = d.tick) : d.SameTick e := by
  unfold Dev.SameTick
  rw [h]
  exact ⟨rfl, rfl⟩

theorem Dev.SameTick.trans {d e f : Dev} (h : d.SameTick e) (h' : e.SameTick f) : d.SameTick f := ⟨h'.1.trans h.1, h'.2.trans h.2⟩

theorem Dev.SameTick.ite {d e f : Dev} {p : Prop} [Decidable p] (he : d.SameTick e) (hf : d.SameTick f) : d.SameTick (if p then e else f) := by
  split
  · exact he
  · exact hf

theorem Dev.SameTick.onTick {f : Tick → Tick} (hnum : (f d.tick).num = d.tick.num) (hts : (f d.tick).ts = d.tick.ts) : d.SameTick (d.onTick f) :=
  ⟨hnum, hts⟩

theorem Dev.sameTick_holdoverRun : d.SameTick d.holdoverRun := ⟨rfl, rfl⟩

theorem Dev.sameTick_internalRun : d.SameTick d.internalRun := .ite ⟨rfl, rfl⟩ ⟨rfl, rfl⟩

@[simp] theorem Dev.formSource_tick : d.formSource.tick = d.tick := rfl
@[simp] theorem Dev.ringRaise_tick (s : Nat) : (d.ringRaise s).tick = d.tick := by simp [Dev.ringRaise]
@[simp] theorem Dev.enterSegment_tick : d.enterSegment.tick = d.tick := by simp [Dev.enterSegment]
@[simp] theorem Dev.sendState_tick (m : Nat) : (d.sendState m).tick = d.tick := rfl
@[simp] theorem Dev.stateIfChanged_tick : d.stateIfChanged.tick = d.tick := by simp [Dev.stateIfChanged]
@[simp] theorem Dev.sendProbe_tick : d.sendProbe.tick = d.tick := by simp [Dev.sendProbe]
@[simp] theorem Dev.updateMembers_tick : d.updateMembers.tick = d.tick := d.sameTime_updateMembers.1
@[simp] theorem Dev.alignCheck_tick : d.alignCheck.tick = d.tick := by simp [Dev.alignCheck]

theorem Dev.sameTick_headSourceOn : d.SameTick d.headSourceOn := by
  have hrun : ∀ {d e : Dev} {p : Prop} [Decidable p], d.SameTick e → d.SameTick (if p then e else e.holdoverRun) :=
    fun h => .ite h (h.trans (Dev.sameTick_holdoverRun _))
  unfold Dev.headSourceOn
  dsimp only
  refine .ite (.of_tick rfl) (hrun (.ite ?_ ?_))
  · exact .of_tick (Dev.onRing_tick ..)
  · exact .of_tick ((Dev.onRing_tick ..).trans ((Dev.formSource_tick _).trans (Dev.onRing_tick ..)))

theorem Dev.sameTick_becomeSource : d.SameTick d.becomeSource := .trans (.of_tick d.formSource_tick) (Dev.sameTick_internalRun _)

theorem Dev.sameTick_leaveSegment : d.SameTick d.leaveSegment := by
  have hsource : ∀ {d e : Dev} {p : Prop} [Decidable p], d.SameTick e → d.SameTick (if p then e.becomeSource else e) :=
    fun h => .ite (h.trans (Dev.sameTick_becomeSource _)) h
  have hlast : ∀ {d e : Dev}, d.SameTick e → d.SameTick ((e.onRing fun r => { r with wasSource := false }).ringRaise 225) :=
    fun h => h.trans (.trans (.of_tick rfl) (.of_tick (Dev.ringRaise_tick _ 225)))
  unfold Dev.leaveSegment
  dsimp only
  refine hlast (hsource (.ite (.of_tick rfl) (.ite ?_ (.of_tick rfl))))
  exact .trans (.of_tick rfl) (Dev.sameTick_internalRun _)

theorem Dev.sameTick_segEval : d.SameTick d.segEval := by
  unfold Dev.segEval
  dsimp only
  refine .ite (.of_tick rfl) (.trans (.trans (.ite (.of_tick ?_) (.ite (Dev.sameTick_leaveSegment d) (.of_tick rfl)))
    (Dev.sameTick_headSourceOn _)) (.of_tick (Dev.stateIfChanged_tick _)))
  simp

theorem Dev.sameTick_ringTick : d.SameTick d.ringTick := by
  have hsend : ∀ {d e : Dev} {p q : Prop} [Decidable p] [Decidable q], d.SameTick e →
      d.SameTick (if q then (if p then e.sendState else e).sendProbe else (if p then e.sendState else e)) := by
    intro d e p q _ _ h
    have hstate : d.SameTick (if p then e.sendState else e) := .ite (h.trans (.of_tick rfl)) h
    exact .ite (hstate.trans (.of_tick (Dev.sendProbe_tick _))) hstate
  have hseg : ∀ {d e : Dev}, d.SameTick e → d.SameTick e.updateMembers.segEval :=
    fun h => (h.trans (.of_tick (Dev.updateMembers_tick _))).trans (Dev.sameTick_segEval _)
  have hreach := Dev.SameTick.of_tick (d.reachUpdate_tick .ring)
  have halign : d.SameTick (d.reachUpdate .ring).alignCheck := hreach.trans (.of_tick (Dev.alignCheck_tick _))
  unfold Dev.ringTick
  dsimp only
  refine .ite hreach (hsend (hseg (.trans (.ite ?_ halign) (.of_tick rfl))))
  exact halign.trans (.of_tick (Dev.onRing_tick ..))

theorem Dev.sameTick_tickAlwaysOn : d.SameTick d.tickAlwaysOn := by
  refine .trans (.of_tick ?_) (Dev.sameTick_ringTick _)
  simp

/-- The work of a tick leaves its number and its time. -/
theorem Dev.sameTick_tickWork : d.SameTick d.tickWork := by
  have houts : ∀ (d : Dev) (l : List Nat), (l.foldl (fun d n => (d.idleOutputTick n).tickedOutput n) d).tick = d.tick :=
    fun d => Dev.foldl_tick (fun d n => (d.idleOutputTick_tick n))
  unfold Dev.tickWork
  dsimp only
  refine .ite (Dev.sameTick_tickAlwaysOn d) ?_
  have hfl : ∀ (d : Dev) (l : Tab Fl), ({ d with fl := l } : Dev).tick = d.tick := fun _ _ => rfl
  refine .trans (e := d.hopTick.audTick.missCfgTick.ringTick) (.trans (.of_tick ?_) (Dev.sameTick_ringTick _)) (.of_tick ?_)
  · simp [Dev.missCfgTick, Dev.audTick]
  · rw [Dev.eventNow_tick, Dev.trialTick_tick, Dev.captureTick_tick, Dev.startTests_tick, Dev.takeVerdicts_tick, hfl, houts,
      Dev.tickUpdates_tick, Dev.avTick_tick]

/-! ### The issue of a tick (R38, R48, R66) -/

@[simp] theorem Dev.showCadence_tick : d.showCadence.tick = d.tick := rfl

@[simp] theorem Dev.recheck_tick (num den n : Nat) : (Dev.recheck num den d n).tick = d.tick := by
  unfold Dev.recheck
  split
  · rfl
  · split <;> simp

theorem Dev.sameTick_applyRate : d.SameTick d.applyRate := by
  have hcheck : ∀ (num den : Nat) {e : Dev} (l : List Nat), d.SameTick e → d.SameTick (l.foldl (Dev.recheck num den) e) :=
    fun num den _ _ h => h.trans (.of_tick (Dev.foldl_tick (fun d n => d.recheck_tick num den n) _))
  have hregs : ∀ {e : Dev} {p : Prop} [Decidable p] {v w : Word}, d.SameTick e →
      d.SameTick (if p then e else (e.sg Reg.TG_TICK_RATE_NUM v).sg Reg.TG_TICK_RATE_DEN w) :=
    fun h => .ite h (h.trans (.of_tick rfl))
  have hprof : ∀ {e : Dev} {p q : Prop} [Decidable p] [Decidable q] {l l' : List (Nat × Word)}, d.SameTick e →
      d.SameTick (if p then (if q then l.foldl (fun d p => d.sfr p.1 (d.rg p.1)) e else (e.sgAll l).sfrAll l') else e) :=
    fun h => .ite (.ite (h.trans (.of_tick (Dev.foldl_tick (fun _ _ => Dev.sfr_tick ..) _)))
      (h.trans (.of_tick ((Dev.sfrAll_tick _ _).trans (Dev.sgAll_tick _ _))))) h
  unfold Dev.applyRate
  split
  · exact .of_tick rfl
  · refine .ite (.trans (hprof (hregs (hcheck _ _ _ ⟨?_, ?_⟩))) (.of_tick (Dev.showCadence_tick _))) (.of_tick rfl)
    · dsimp only [Dev.onTick]
      split <;> rfl
    · dsimp only [Dev.onTick]
      split <;> rfl

theorem Dev.sameTick_applyFs : d.SameTick d.applyFs := .ite ⟨rfl, rfl⟩ (.of_tick rfl)

/-- The tick whose time is `at0`. -/
theorem Dev.issueTick_tick (at0 : Nat) : (d.issueTick at0).tick.num = d.tick.num + 1 ∧ (d.issueTick at0).tick.ts = at0 := by
  have hlatch : ∀ {e f : Dev} {l : Tab Tg}, e.SameTick f → e.SameTick (l.foldl (fun d p =>
      (d.sg (Reg.TG_FRAME_LATCH p.1) (d.rg (Reg.TG_FRAME_CNT p.1))).onTg p.1 (fun g => { g with frameJ := 0 })) f) :=
    fun h => h.trans (.of_tick (Dev.foldl_tick (fun _ _ => (Dev.onTg_tick ..).trans (Dev.sg_tick ..)) _))
  have hout : ∀ {e f : Dev} {p : Prop} [Decidable p] {u : Tick → Nat}, e.SameTick f →
      e.SameTick (if p then f.onTick (fun t => { t with outUntil := u t }) else f) :=
    fun h => .ite (h.trans ⟨rfl, rfl⟩) h
  have hfix : ∀ {e f : Dev}, e.SameTick f → e.SameTick ((f.onTick (fun t => t.fixNext at0)).onTick Tick.startSamples) :=
    fun h => h.trans ⟨rfl, rfl⟩
  exact hlatch (e := d.onTick fun t => { t with num := t.num + 1, ts := at0, seen := t.seenNext, seenNext := false, closed := false, jump := false })
    (hout (hfix ((Dev.sameTick_applyRate _).trans (Dev.sameTick_applyFs _))))

@[simp] theorem Dev.dropJump_num : d.dropJump.tick.num = d.tick.num := by
  unfold Dev.dropJump
  split <;> rfl

theorem Dev.idle_tick (n : Nat) : (d.idle n).tick = d.tick := by
  by_cases hn : n = 0
  case pos => exact congrArg Dev.tick (if_pos (.inl hn))
  case neg =>
    by_cases hp : d.power.por = true
    case pos => exact congrArg Dev.tick (d.idle_of_por n hp)
    case neg =>
      rw [d.idle_of_running hn (Bool.eq_false_iff.mpr hp), Dev.ite_tick, Dev.updateMembers_tick, (Dev.sameTime_linkFlush _ _).1, ite_self,
        (d.counted_time n).1]

end

theorem Dev.tickIssueEvent_tick (d : Dev) :
    (tickIssueEvent d).tick.num = d.tick.num + 1 ∧ (tickIssueEvent d).tick.ts = d.dropJump.tick.next := by
  have hwait : (d.dropJump.waitTo d.dropJump.tick.next).tick = d.dropJump.tick := Dev.idle_tick _ _
  have hissue : ∀ x : Dev, (tickIssue x).tick.num = x.tick.num + 1 ∧ (tickIssue x).tick.ts = x.tick.next := fun x => by
    obtain ⟨hnum, hts⟩ := Dev.issueTick_tick x.flushCe x.tick.next
    have hwork := Dev.sameTick_tickWork (x.flushCe.issueTick x.tick.next).replan
    rw [Dev.flushCe_tick] at hnum
    unfold Dev.SameTick at hwork
    rw [Dev.replan_tick, hnum, hts] at hwork
    exact hwork
  obtain ⟨hnum, hts⟩ := hissue (d.dropJump.waitTo d.dropJump.tick.next)
  rw [hwait] at hnum hts
  exact ⟨hnum.trans (congrArg (· + 1) d.dropJump_num), hts⟩

/-- Settles O42: the wait and the logging leave the tick as it is, its issue counts and dates it, and the work that follows keeps both. -/
theorem tickNumberRisesByOne : Obligations.TickNumberRisesByOne := by
  intro s hup
  obtain ⟨hnum, hts⟩ := s.d.tickIssueEvent_tick
  refine ⟨_, aonDev_up hup, hnum, fun hj => ?_, rfl, rfl⟩
  rw [State.afterDev_d, hts, Dev.dropJump, hj]
  rfl

end Sys2Proof.Machine
end

section
/-!
PROOFS. The sluice units (O44, O60).
-/

namespace Sys2Proof.Machine

/-! ### The registers of a sluice unit -/

section
variable {w : W} {ag : Agent} {n : Nat} {v : Word}

/-- A write to a sluice unit of an output, but to a route. -/
theorem W.busWrite_sluice {o : Nat} (mask : Word) (hn : n < 48) (ho : o < 0x820) : w.busWrite ag (0x500000 + n * 0x1000 + o) v mask =
    w.dev (fun d => d.slBlockWrite (0x500000 + n * 0x1000 + o) v mask) := by
  have hroute : routeAt (0x500000 + n * 0x1000 + o) = none := by
    unfold routeAt
    dsimp only
    rw [if_neg]
    omega
  rw [W.busWrite_low _ _ _ _ (by omega) (by omega) hroute]
  exact congrArg w.dev (funext fun d => Dev.contentWrite_sl _ _ _ (by omega) (by omega))

theorem W.busWrite_SL_STAGED {ix : Nat} (hn : n < 48) (hix : ix < 256) : w.busWrite ag (Reg.SL_STAGED n ix) v 0xFFFFFFFF =
    w.dev (fun d => d.slStage n ix v 0xFFFFFFFF) := by
  have ha : Reg.SL_STAGED n ix = 0x500000 + n * 0x1000 + (0x400 + 4 * ix) := by unfold Reg.SL_STAGED; omega
  have hdiv : (0x500000 + n * 0x1000 + (0x400 + 4 * ix) - 0x500000) / 0x1000 = n := by omega
  have hmod : (0x500000 + n * 0x1000 + (0x400 + 4 * ix) - 0x500000) % 0x1000 = 0x400 + 4 * ix := by omega
  have hword : (0x400 + 4 * ix - 0x400) / 4 = ix := by rw [Nat.add_sub_cancel_left, Nat.mul_div_cancel_left _ (by decide)]
  have hlt : 0x400 + 4 * ix < 0x820 := by omega
  rw [ha, W.busWrite_sluice _ hn hlt]
  refine congrArg w.dev (funext fun d => ?_)
  unfold Dev.slBlockWrite
  dsimp only
  rw [hdiv, hmod, hword, if_neg (by omega), if_neg (by omega), if_pos (by omega), if_neg (by omega), if_neg (by omega), if_pos (by omega)]

/-- A write to a command of a sluice unit. -/
theorem Dev.slBlockWrite_command {o : Nat} (d : Dev) (hn : n < 48) (hlo : 0x800 ≤ o) (hhi : o < 0x820) :
    d.slBlockWrite (0x500000 + n * 0x1000 + o) v 0xFFFFFFFF =
      if o = 0x800 then d.slCommit n v
      else if o = 0x80C then d.slLen n 0 v true
      else if o = 0x810 then d.slLen n 1 v true
      else if o = 0x814 then d.slLen n 0 v false
      else if o = 0x818 then d.slLen n 1 v false
      else d.plainWrite (0x500000 + n * 0x1000 + o) v 0xFFFFFFFF := by
  have hdiv : (0x500000 + n * 0x1000 + o - 0x500000) / 0x1000 = n := by omega
  have hmod : (0x500000 + n * 0x1000 + o - 0x500000) % 0x1000 = o := by omega
  unfold Dev.slBlockWrite
  dsimp only
  rw [hdiv, hmod, if_neg (by omega), if_neg (by omega), if_pos (by omega), if_neg (by omega), if_neg (by omega), if_neg (by omega), and_ones]
  split
  case h_6 h1 h2 h3 h4 h5 =>
    refine (if_neg (by omega)).trans ?_
    exact ((if_neg h1).trans ((if_neg h2).trans ((if_neg h3).trans ((if_neg h4).trans (if_neg h5))))).symm
  all_goals rfl

theorem W.busWrite_SL_LCOMMIT (hn : n < 48) : w.busWrite ag (Reg.SL_LCOMMIT n) v 0xFFFFFFFF = w.dev (fun d => d.slCommit n v) := by
  have ha : Reg.SL_LCOMMIT n = 0x500000 + n * 0x1000 + 0x800 := by unfold Reg.SL_LCOMMIT; omega
  rw [ha, W.busWrite_sluice _ hn (by decide)]
  exact congrArg w.dev (funext fun d => d.slBlockWrite_command hn (by decide) (by decide))

/-- SL_LEN_SET and SL_LEN_CLR of either half. -/
theorem W.busWrite_SL_LEN (hn : n < 48) (hi b : Bool) {a : Nat} (ha : a = 0x500000 + n * 0x1000 + (if b then (if hi then 0x810 else 0x80C)
    else (if hi then 0x818 else 0x814))) : w.busWrite ag a v 0xFFFFFFFF = w.dev (fun d => d.slLen n hi.toNat v b) := by
  subst ha
  cases b <;> cases hi
  all_goals
    refine (W.busWrite_sluice _ hn (by decide)).trans ?_
    exact congrArg w.dev (funext fun d => d.slBlockWrite_command hn (by decide) (by decide))

end

/-! ### A change on the present CCLK edge (R167 to R170) -/

/-- The instant of the present CCLK edge. -/
def Dev.edgeNow (d : Dev) : Nat := d.edgeTime d.cclks

section
variable {d e : Dev} {c : SlChange} {a : Nat}

theorem Dev.edgeNow_congr (htb : e.tb = d.tb) (hcclk : e.cclk = d.cclk) (hclk : e.rg Reg.SYS_CLK_STAT = d.rg Reg.SYS_CLK_STAT) :
    e.edgeNow = d.edgeNow := by
  have hmhz : e.cclkMHz = d.cclkMHz := by unfold Dev.cclkMHz Dev.bt Dev.fd; rw [hclk]
  unfold Dev.edgeNow Dev.edgeTime Dev.cclks
  rw [htb, hcclk, hmhz]

/-- Does the change touch a register of a sluice unit? -/
def SlChange.inUnit (c : SlChange) : Prop := 0x500000 ≤ c.off ∧ c.off < 0x600000

theorem Dev.edgeNow_slAdd (h : c.inUnit) : (d.slAdd c).edgeNow = d.edgeNow := by
  obtain ⟨hframe, hrg⟩ := d.slAdd_frame c
  obtain ⟨hlo, -⟩ := h
  have hclk := hrg Reg.SYS_CLK_STAT (by unfold Reg.SYS_CLK_STAT; omega) (by unfold Reg.SYS_CLK_STAT; omega)
  exact Dev.edgeNow_congr (by rw [hframe]) (by rw [hframe]) hclk

/-- Every noted change has its place before a change of rank `r` that comes now. -/
def Dev.Quiet (d : Dev) (r : Nat) : Prop := ∀ x ∈ d.slLog, x.arrives < d.edgeNow ∨ x.arrives = d.edgeNow ∧ x.rank ≤ r

/-- What a change makes of the words as they stand. -/
def Dev.slValue (d : Dev) (c : SlChange) : Word :=
  match c.act with
  | .put => mergeWord (d.rg c.off) c.val c.mask
  | .flip => d.rg c.off ^^^ c.mask
  | .copy src => mergeWord (d.rg c.off) (d.rg src) c.mask

/-- The word that a copy takes is a register of a sluice unit. -/
def SlChange.copiesUnit (c : SlChange) : Prop := ∀ src, c.act = .copy src → src < 0x600000

theorem SlChange.after_eq_false_iff {c x : SlChange} :
    c.after x = false ↔ x.arrives < c.arrives ∨ x.arrives = c.arrives ∧ x.rank ≤ c.rank := by
  simp only [SlChange.after, Bool.or_eq_false_iff, Bool.and_eq_false_iff, decide_eq_false_iff_not, beq_eq_false_iff_ne]
  omega

/-- The change as it comes on the present CCLK edge, with the word that it finds. -/
def Dev.slNow (d : Dev) (c : SlChange) : SlChange := { c with arrives := d.edgeNow, old := d.rg c.off }

theorem Dev.slApply_now {r : Nat} (hq : d.Quiet r) (hr : c.rank = r) (hcopy : c.copiesUnit) :
    d.slPruned.slApply (d.slNow c) (d.rg c.off) = d.slValue c := by
  have hlast : ∀ x ∈ d.slPruned.slLog, (d.slNow c).after x = false := fun x hx =>
    SlChange.after_eq_false_iff.mpr (hr ▸ hq x (List.mem_filter.mp hx).1)
  cases hc : c.act with
  | put => rw [Dev.slValue, Dev.slApply, show (d.slNow c).act = .put from hc, hc]; rfl
  | flip => rw [Dev.slValue, Dev.slApply, show (d.slNow c).act = .flip from hc, hc]; rfl
  | copy src =>
    rw [Dev.slValue, Dev.slApply, show (d.slNow c).act = .copy src from hc, hc]
    dsimp only
    rw [Dev.slAsOf_of_last _ _ _ hlast, Dev.slWord, if_pos (hcopy src hc)]
    rfl

/-- A change that no noted one comes after: its word takes it, and it is noted last. -/
theorem Dev.slChange_eq {r : Nat} (hq : d.Quiet r) (hr : c.rank = r) (hunit : c.inUnit) (hcopy : c.copiesUnit) :
    d.slChange c = { d.sg c.off (d.slValue c) with slLog := d.slPruned.slLog ++ [d.slNow c] } := by
  have hlast : ∀ x ∈ d.slLog, ({ c with arrives := d.edgeNow } : SlChange).after x = false := fun x hx =>
    SlChange.after_eq_false_iff.mpr (hr ▸ hq x hx)
  have hold : d.slWord c.off = d.rg c.off := if_pos hunit.2
  have hset : ∀ v, d.slPruned.slSet c.off v = d.slPruned.sg c.off v := fun v => if_pos hunit.2
  have hadd := Dev.slAdd_of_last d { c with arrives := d.edgeNow } hlast
  refine Eq.trans hadd ?_
  dsimp only
  rw [hold, hset]
  exact congrArg (fun v => { d.sg c.off v with slLog := d.slPruned.slLog ++ [d.slNow c] }) (Dev.slApply_now hq hr hcopy)

/-- The next change of the same place finds every noted change before it too. -/
theorem Dev.quiet_slChange {r : Nat} (hq : d.Quiet r) (hr : c.rank = r) (hunit : c.inUnit) (hcopy : c.copiesUnit) : (d.slChange c).Quiet r := by
  have hnow : (d.slChange c).edgeNow = d.edgeNow := Dev.edgeNow_slAdd (c := { c with arrives := d.edgeTime d.cclks }) hunit
  intro x hx
  rw [hnow]
  rw [Dev.slChange_eq hq hr hunit hcopy] at hx
  obtain hx | hx := List.mem_append.mp hx
  · exact hq x (List.mem_filter.mp hx).1
  · rw [List.mem_singleton.mp hx]
    exact .inr ⟨rfl, Nat.le_of_eq hr⟩

theorem Dev.rg_slChange {r : Nat} (hq : d.Quiet r) (hr : c.rank = r) (hunit : c.inUnit) (hcopy : c.copiesUnit) :
    (d.slChange c).rg a = if c.off = a then d.slValue c else d.rg a := by
  rw [Dev.slChange_eq hq hr hunit hcopy]
  exact Dev.rg_sg ..

end

/-! ### Changes of one place, one after another -/

/-- Changes of one rank at words of sluice units, each at a word of its own that no copy takes. -/
structure SlChanges (r : Nat) (cs : List SlChange) : Prop where
  rank : ∀ c ∈ cs, c.rank = r
  inUnit : ∀ c ∈ cs, c.inUnit
  copies : ∀ c ∈ cs, c.copiesUnit
  apart : cs.Pairwise (fun c x => c.off ≠ x.off)
  sources : ∀ c ∈ cs, ∀ x ∈ cs, x.act ≠ .copy c.off

theorem SlChanges.tail {r : Nat} {c : SlChange} {cs : List SlChange} (h : SlChanges r (c :: cs)) : SlChanges r cs where
  rank x hx := h.rank x (List.mem_cons_of_mem _ hx)
  inUnit x hx := h.inUnit x (List.mem_cons_of_mem _ hx)
  copies x hx := h.copies x (List.mem_cons_of_mem _ hx)
  apart := (List.pairwise_cons.mp h.apart).2
  sources x hx y hy := h.sources x (List.mem_cons_of_mem _ hx) y (List.mem_cons_of_mem _ hy)

/-- What a change makes of its word depends on that word and on the word that it copies. -/
theorem Dev.slValue_congr {d e : Dev} {c : SlChange} (hoff : e.rg c.off = d.rg c.off) (hsrc : ∀ src, c.act = .copy src → e.rg src = d.rg src) :
    e.slValue c = d.slValue c := by
  unfold Dev.slValue
  rw [hoff]
  split
  · rfl
  · rfl
  · next src h => rw [hsrc src h]

/-- Each word takes its change, and every other register stays. -/
theorem SlChanges.rg {r : Nat} {cs : List SlChange} (h : SlChanges r cs) {d : Dev} (hq : d.Quiet r) :
    (∀ c ∈ cs, (cs.foldl Dev.slChange d).rg c.off = d.slValue c) ∧
      ∀ a, (∀ c ∈ cs, a ≠ c.off) → (cs.foldl Dev.slChange d).rg a = d.rg a := by
  induction cs generalizing d with
  | nil => exact ⟨fun _ hc => absurd hc List.not_mem_nil, fun _ _ => rfl⟩
  | cons c cs ih =>
    have hc : c ∈ c :: cs := List.mem_cons_self
    have hstep : ∀ a, (d.slChange c).rg a = if c.off = a then d.slValue c else d.rg a := fun a =>
      Dev.rg_slChange hq (h.rank c hc) (h.inUnit c hc) (h.copies c hc)
    have hapart := (List.pairwise_cons.mp h.apart).1
    obtain ⟨hin, hout⟩ := ih h.tail (Dev.quiet_slChange hq (h.rank c hc) (h.inUnit c hc) (h.copies c hc))
    refine ⟨fun x hx => ?_, fun a ha => ?_⟩
    · obtain rfl | hx := List.mem_cons.mp hx
      · exact (hout _ hapart).trans ((hstep _).trans (if_pos rfl))
      · refine (hin x hx).trans (Dev.slValue_congr ((hstep _).trans (if_neg (hapart x hx))) fun src hsrc => ?_)
        refine (hstep _).trans (if_neg fun heq => h.sources c hc x (List.mem_cons_of_mem _ hx) ?_)
        rw [hsrc, heq]
    · exact (hout a fun x hx => ha x (List.mem_cons_of_mem _ hx)).trans ((hstep a).trans (if_neg (Ne.symm (ha c hc))))

/-- Changes that are made for distinct numbers of a list. -/
theorem SlChanges.of_map {r : Nat} {l : List Nat} {f : Nat → SlChange} (hl : l.Nodup) (hrank : ∀ i ∈ l, (f i).rank = r)
    (hunit : ∀ i ∈ l, (f i).inUnit)
    (hcopy : ∀ i ∈ l, (f i).copiesUnit) (hoff : ∀ i ∈ l, ∀ j ∈ l, (f i).off = (f j).off → i = j)
    (hsrc : ∀ i ∈ l, ∀ j ∈ l, (f j).act ≠ .copy (f i).off) : SlChanges r (l.map f) where
  rank := List.forall_mem_map.mpr hrank
  inUnit := List.forall_mem_map.mpr hunit
  copies := List.forall_mem_map.mpr hcopy
  apart := List.pairwise_map.mpr (hl.imp_of_mem fun hi hj hne heq => hne (hoff _ hi _ hj heq))
  sources := List.forall_mem_map.mpr fun i hi => List.forall_mem_map.mpr (hsrc i hi)

/-! ### The changes of SL_LCOMMIT, SL_LEN_SET and SL_LEN_CLR -/

/-- The write of a staged alias. -/
def slStageChange (n ix : Nat) (v : Word) : SlChange := { off := Reg.SL_STAGED n ix, val := v, mask := slMask (ix % 4) }

/-- The copy of one staged word. -/
def slCommitChange (n i : Nat) : SlChange :=
  { kind := 4, off := Reg.SL_LO_POS n 0 + 4 * i, mask := 0xFFFFFFFF, act := .copy (Reg.SL_STAGED n i) }

/-- The change of one EN bit by SL_LEN_SET or SL_LEN_CLR. -/
def slLenChange (n : Nat) (b : Bool) (k : Nat) : SlChange :=
  { kind := 5, src := 15, off := Reg.SL_LO_CTRL n k, mask := 1, val := if b then 1 else 0 }

/-- The objects whose EN bits a word of SL_LEN_SET or SL_LEN_CLR names. -/
def slLenNamed (h : Nat) (v : Word) : List Nat := ((List.range 32).filter (v.getLsbD ·)).map (32 * h + ·)

section
variable {d : Dev} {n h : Nat} {v : Word} {b : Bool}

theorem mem_slLenNamed {k : Nat} : k ∈ slLenNamed h v ↔ ∃ i, i < 32 ∧ v.getLsbD i = true ∧ k = 32 * h + i := by
  simp only [slLenNamed, List.mem_map, List.mem_filter, List.mem_range, and_assoc, eq_comm (a := k)]

theorem nodup_slLenNamed : (slLenNamed h v).Nodup := 
  List.pairwise_map.mpr ((List.Pairwise.filter _ List.nodup_range).imp fun hne heq => hne (Nat.add_left_cancel heq))

theorem Dev.slLen_eq : d.slLen n h v b = ((slLenNamed h v).map (slLenChange n b)).foldl Dev.slChange d := by
  rw [slLenNamed, List.map_map, List.foldl_map, List.foldl_filter]
  rfl

theorem slChanges_slLen (hn : n < 48) (hh : h < 2) : SlChanges 95 ((slLenNamed h v).map (slLenChange n b)) := by
  have hlt : ∀ k ∈ slLenNamed h v, k < 64 := fun k hk => by
    obtain ⟨i, hi, -, rfl⟩ := mem_slLenNamed.mp hk
    omega
  refine .of_map nodup_slLenNamed (fun _ _ => rfl) (fun k hk => ?_) (fun _ _ _ hsrc => nomatch hsrc)
    (fun i _ j _ hij => ?_) (fun _ _ _ _ hsrc => nomatch hsrc)
  · have := hlt k hk
    constructor <;> simp only [slLenChange, Reg.SL_LO_CTRL] <;> omega
  · simp only [slLenChange, Reg.SL_LO_CTRL] at hij
    omega

theorem mergeWord_zero (x m : Word) : mergeWord x 0 m = x &&& ~~~m := by simp [mergeWord]

theorem mergeWord_self (x m : Word) : mergeWord x m m = x ||| m := by
  ext i hi
  simp only [mergeWord, BitVec.getElem_or, BitVec.getElem_and, BitVec.getElem_not]
  cases x[i] <;> simp

theorem Dev.slValue_slLen {k : Nat} :
    d.slValue (slLenChange n b k) = if b then d.rg (Reg.SL_LO_CTRL n k) ||| 1 else d.rg (Reg.SL_LO_CTRL n k) &&& ~~~1 := by
  cases b
  · exact mergeWord_zero _ _
  · exact mergeWord_self _ _

/-- SL_LEN_SET and SL_LEN_CLR change the EN bits of the objects named, and no other register. -/
theorem Dev.slLen_spec (hq : d.Quiet 95) (hn : n < 48) (hh : h < 2) :
    (∀ i, i < 32 → (d.slLen n h v b).rg (Reg.SL_LO_CTRL n (32 * h + i)) = if v.getLsbD i = true then d.slValue (slLenChange n b (32 * h + i))
      else d.rg (Reg.SL_LO_CTRL n (32 * h + i))) ∧
    ∀ a, (∀ i, i < 32 → a ≠ Reg.SL_LO_CTRL n (32 * h + i)) → (d.slLen n h v b).rg a = d.rg a := by
  rw [Dev.slLen_eq]
  obtain ⟨hin, hout⟩ := (slChanges_slLen (v := v) (b := b) hn hh).rg hq
  refine ⟨fun i hi => ?_, fun a ha => hout a (List.forall_mem_map.mpr fun k hk => ?_)⟩
  · split
    · next hv => exact hin _ (List.mem_map_of_mem (mem_slLenNamed.mpr ⟨i, hi, hv, rfl⟩))
    · next hv =>
      refine hout _ (List.forall_mem_map.mpr fun k hk heq => hv ?_)
      obtain ⟨j, -, hj, rfl⟩ := mem_slLenNamed.mp hk
      have : i = j := by
        simp only [slLenChange, Reg.SL_LO_CTRL] at heq
        omega
      rwa [this]
  · obtain ⟨i, hi, -, rfl⟩ := mem_slLenNamed.mp hk
    exact ha i hi

/-- The words that SL_LCOMMIT copies. -/
def slCommitted (v : Word) : List Nat := (List.range (4 * (v.toNat / 256 % 64 + 1 - v.toNat % 64))).map (4 * (v.toNat % 64) + ·)

theorem mem_slCommitted {i : Nat} : i ∈ slCommitted v ↔ v.toNat % 64 ≤ i / 4 ∧ i / 4 ≤ v.toNat / 256 % 64 := by
  simp only [slCommitted, List.mem_map, List.mem_range]
  constructor
  · rintro ⟨j, hj, rfl⟩
    omega
  · exact fun _ => ⟨i - 4 * (v.toNat % 64), by omega, by omega⟩

theorem nodup_slCommitted : (slCommitted v).Nodup :=
  List.pairwise_map.mpr (List.nodup_range.imp fun hne heq => hne (Nat.add_left_cancel heq))

theorem Dev.slCommit_eq : d.slCommit n v = ((slCommitted v).map (slCommitChange n)).foldl Dev.slChange d := by
  have hfirst : bits v.toNat 0 6 = v.toNat % 64 := by simp [bits]
  have hlast : bits v.toNat 8 6 = v.toNat / 256 % 64 := rfl
  rw [slCommitted, List.map_map, List.foldl_map, Dev.slCommit, hfirst, hlast]
  rfl

theorem slChanges_slCommit (hn : n < 48) : SlChanges 79 ((slCommitted v).map (slCommitChange n)) := by
  have hlt : ∀ i ∈ slCommitted v, i < 256 := fun i hi => by
    have := mem_slCommitted.mp hi
    omega
  refine .of_map nodup_slCommitted (fun _ _ => rfl)
    (fun i hi => ?_) (fun i hi src hsrc => ?_) (fun i _ j _ hij => ?_) (fun i hi j hj hsrc => ?_)
  · have := hlt i hi
    constructor <;> simp only [slCommitChange, Reg.SL_LO_POS] <;> omega
  · have := hlt i hi
    simp only [slCommitChange, SlAct.copy.injEq, Reg.SL_STAGED] at hsrc
    omega
  · simp only [slCommitChange] at hij
    omega
  · have := hlt i hi
    simp only [slCommitChange, SlAct.copy.injEq, Reg.SL_STAGED, Reg.SL_LO_POS] at hsrc
    omega

theorem Dev.slValue_slCommit {i : Nat} : d.slValue (slCommitChange n i) = d.rg (Reg.SL_STAGED n i) := mergeWord_ones _ _

end

/-- Every change noted reached its unit on an earlier edge: a change that comes now is the last. -/
theorem Dev.quiet_of_earlier {d : Dev} (h : ∀ c ∈ d.slLog, c.arrives < d.edgeTime d.cclks) (r : Nat) : d.Quiet r := fun c hc => .inl (h c hc)

/-- Settles O44: the changes of a command find every change noted before them, touch words of their own, and copy none that they change. -/
theorem sluiceObjects : Obligations.SluiceObjects := by
  intro s ag n ix hi v hup hag hn hix hearlier live copied
  have hquiet := Dev.quiet_of_earlier hearlier
  refine ⟨⟨_, need_busSet hup ⟨hag, hn, hix⟩ (W.busWrite_SL_STAGED hn hix), ?_⟩,
    ⟨_, need_busSet hup ⟨hag, hn⟩ (W.busWrite_SL_LCOMMIT hn), rfl, rfl, ?_⟩,
    ⟨_, need_busSet hup ⟨hag, hn⟩ (W.busWrite_SL_LEN hn hi true ?_), rfl, rfl, ?_⟩,
    ⟨_, need_busSet hup ⟨hag, hn⟩ (W.busWrite_SL_LEN hn hi false ?_), rfl, rfl, ?_⟩⟩
  · have hunit : (slStageChange n ix v).inUnit := by
      constructor <;> simp only [slStageChange, Reg.SL_STAGED] <;> omega
    have hstage : s.d.slStage n ix v 0xFFFFFFFF = s.d.slChange (slStageChange n ix v) := by
      rw [Dev.slStage, ones_and]
      rfl
    have hrg : ∀ a, (s.d.slStage n ix v 0xFFFFFFFF).rg a = _ := fun a =>
      hstage ▸ Dev.rg_slChange (a := a) (hquiet 63) rfl hunit (fun _ h => nomatch h)
    refine ⟨⟨rfl, rfl, fun a ha => (hrg a).trans (if_neg (List.ne_of_not_mem_cons ha).symm)⟩, ?_, (hrg _).trans (if_pos rfl)⟩
    rw [State.afterDev_d, hstage, Dev.slChange_eq (hquiet 63) rfl hunit (fun _ h => nomatch h)]
    rfl
  · obtain ⟨hin, hout⟩ := (slChanges_slCommit (v := v) hn).rg (hquiet 79)
    rw [State.afterDev_d, Dev.slCommit_eq]
    have hlive : ∀ k j, live k j = (slCommitChange n (4 * k + j)).off := fun k j => by
      simp only [live, slCommitChange, Reg.SL_LO_POS]
      omega
    refine ⟨fun k j hk hj => ?_, fun a ha => hout a (List.forall_mem_map.mpr fun i hmem => ?_)⟩
    · rw [hlive]
      have hword : (4 * k + j) / 4 = k := by omega
      split
      · next hc => exact (hin _ (List.mem_map_of_mem (mem_slCommitted.mpr (hword.symm ▸ hc)))).trans Dev.slValue_slCommit
      · next hc =>
        refine hout _ (List.forall_mem_map.mpr fun i hmem heq => hc ?_)
        have hi : 4 * k + j = i := by
          simp only [slCommitChange] at heq
          omega
        have := mem_slCommitted.mp (hi ▸ hmem)
        rwa [hword] at this
    · have hi := mem_slCommitted.mp hmem
      have := ha (i / 4) (i % 4) (by omega) (by omega)
      rwa [hlive, Nat.div_add_mod] at this
  · cases hi <;> simp [Reg.SL_LEN_SET_HI, Reg.SL_LEN_SET_LO] <;> omega
  · obtain ⟨hin, hout⟩ := Dev.slLen_spec (v := v) (b := true) (hquiet 95) hn (Bool.toNat_lt hi)
    exact ⟨fun i hi => (hin i hi).trans (by rw [Dev.slValue_slLen]; rfl), hout⟩
  · cases hi <;> simp [Reg.SL_LEN_CLR_HI, Reg.SL_LEN_CLR_LO] <;> omega
  · obtain ⟨hin, hout⟩ := Dev.slLen_spec (v := v) (b := false) (hquiet 95) hn (Bool.toNat_lt hi)
    exact ⟨fun i hi => (hin i hi).trans (by rw [Dev.slValue_slLen]; rfl), hout⟩

end Sys2Proof.Machine
end

section
/-!
PROOFS. A pin route stands over the SL_LEN writes of its CCLK (O60).
-/

namespace Sys2Proof.Machine

/-! ### A change that one noted change comes after -/

section
variable {d : Dev} {c e : SlChange} {w : Word} {l es : List SlChange}

/-- Changes that are not applied after `c` are not replayed. -/
theorem Dev.slReplay_append (hl : ∀ x ∈ l, c.after x = false) :
    d.slReplay c w (l ++ es) = (l ++ (d.slReplay c w es).1, (d.slReplay c w es).2) := by
  induction l with
  | nil => rfl
  | cons x l ih =>
    rw [List.cons_append, Dev.slReplay, if_neg (by simp [hl x List.mem_cons_self]), ih fun y hy => hl y (List.mem_cons_of_mem _ hy)]
    rfl

theorem slInsert_append (hl : ∀ x ∈ l, c.after x = false) : slInsert c (l ++ es) = l ++ slInsert c es := by
  induction l with
  | nil => rfl
  | cons x l ih =>
    rw [List.cons_append, slInsert, if_neg (by simp [hl x List.mem_cons_self]), ih fun y hy => hl y (List.mem_cons_of_mem _ hy)]
    rfl

/-- One change alone is applied after `c`: its value, if it is of the same word, covers what `c` leaves. -/
theorem Dev.slSettle_before (hlog : d.slLog = l ++ [e]) (hl : ∀ x ∈ l, c.after x = false) (hafter : c.after e = true) (he : e.act = .put) :
    ∃ o u, d.slSettle c w = { d.slSet c.off u with slLog := l ++ [{ e with old := o }] } ∧ (e.off = c.off → u = mergeWord w e.val e.mask) := by
  have hset : ∀ log u, ({ d with slLog := log } : Dev).slSet c.off u = { d.slSet c.off u with slLog := log } := fun log u => by
    unfold Dev.slSet
    split <;> rfl
  unfold Dev.slSettle
  dsimp only
  rw [hlog, Dev.slReplay_append hl, hset, Dev.slReplay]
  by_cases hoff : e.off = c.off
  case pos =>
    rw [if_pos ⟨hoff, hafter⟩]
    refine ⟨w, _, rfl, fun _ => ?_⟩
    rw [Dev.slApply, he]
    rfl
  case neg =>
    rw [if_neg fun h => hoff h.1]
    exact ⟨e.old, _, rfl, fun h => absurd h hoff⟩

/-- No copy is noted: nothing settles after the change itself. -/
theorem Dev.slAdd_of_put {c1 : SlChange} {t : Dev} (hc : c1 = { c with old := d.slPruned.slAsOf c c.off })
    (ht : t = d.slPruned.slSettle c1 (d.slPruned.slApply c1 c1.old)) (hput : ∀ x ∈ slInsert c1 t.slLog, x.act = .put) :
    d.slAdd c = { t with slLog := slInsert c1 t.slLog } := by
  subst hc ht
  unfold Dev.slAdd
  dsimp only
  rw [List.filter_eq_nil_iff.mpr fun x hx => by simp [hput x hx], List.foldl_nil]

/-- A value noted for after `c` covers what `c` makes of its word. -/
theorem Dev.slAdd_before (hlog : d.slPruned.slLog = l ++ [e]) (hl : ∀ x ∈ l, c.after x = false ∧ x.act = .put) (hafter : c.after e = true)
    (he : e.act = .put) (hc : c.act = .put) :
    ∃ o o' u, d.slAdd c = { d.slPruned.slSet c.off u with slLog := l ++ [{ c with old := o }, { e with old := o' }] } ∧
      (e.off = c.off → ∃ v, u = mergeWord v e.val e.mask) := by
  obtain ⟨c1, hc1⟩ : ∃ c1 : SlChange, c1 = { c with old := d.slPruned.slAsOf c c.off } := ⟨_, rfl⟩
  have hl1 : ∀ x ∈ l, c1.after x = false := hc1 ▸ fun x hx => (hl x hx).1
  have hafter1 : ∀ o, c1.after { e with old := o } = true := fun _ => hc1 ▸ hafter
  have hoff : c1.off = c.off := hc1 ▸ rfl
  obtain ⟨o', u, hsettle, hu⟩ := Dev.slSettle_before (w := d.slPruned.slApply c1 c1.old) hlog hl1 (hafter1 e.old) he
  have hins : slInsert c1 (l ++ [{ e with old := o' }]) = l ++ [c1, { e with old := o' }] := by
    rw [slInsert_append hl1, slInsert, if_pos (hafter1 o')]
  refine ⟨d.slPruned.slAsOf c c.off, o', u, (Dev.slAdd_of_put hc1 hsettle.symm ?_).trans ?_, fun h => ⟨_, hu (h.trans hoff.symm)⟩⟩
  · rw [hins]
    intro x hx
    obtain hx | hx := List.mem_append.mp hx
    · exact (hl x hx).2
    · obtain rfl | hx := List.mem_cons.mp hx
      · exact hc1 ▸ hc
      · exact List.mem_singleton.mp hx ▸ he
  · rw [hins, hoff, hc1]

end

/-! ### A pin route of the present CCLK -/

/-- A pin route of the present CCLK put its value on the EN bit of its word, only writes of a lower rank are noted besides, and the bit holds
the value. -/
structure Dev.Routed (d : Dev) (e : SlChange) : Prop where
  act : e.act = .put
  mask : e.mask = 1
  rank : 95 < e.rank
  inUnit : e.inUnit
  now : e.arrives = d.edgeNow
  kept : 120 * d.tb ≤ e.arrives + 48000
  noted : ∃ l o, d.slLog = l ++ [{ e with old := o }] ∧ ∀ x ∈ l, x.act = .put ∧ x.arrives = e.arrives ∧ x.rank ≤ 95
  stands : d.bt e.off 0 = e.val.getLsbD 0

/-- The bit stands over a change of an EN bit by SL_LEN_SET or SL_LEN_CLR. -/
theorem Dev.Routed.slLen {d : Dev} {e : SlChange} {n k : Nat} {b : Bool} (h : d.Routed e) (hn : n < 48) (hk : k < 64) :
    (d.slChange (slLenChange n b k)).Routed e := by
  obtain ⟨hact, hmask, hrank, hunit, hnow, hkept, ⟨l, o, hlog, hl⟩, hstands⟩ := h
  let c : SlChange := { slLenChange n b k with arrives := d.edgeNow }
  have hc : c.inUnit := by
    constructor <;> simp only [c, slLenChange, Reg.SL_LO_CTRL] <;> omega
  have hpruned : d.slPruned.slLog = l ++ [{ e with old := o }] := by
    change d.slLog.filter _ = _
    rw [hlog, List.filter_eq_self.mpr]
    intro x hx
    obtain hx | hx := List.mem_append.mp hx
    · exact decide_eq_true ((hl x hx).2.1 ▸ hkept)
    · exact decide_eq_true (List.mem_singleton.mp hx ▸ hkept)
  have hafter : c.after { e with old := o } = true := by
    have : c.rank < SlChange.rank { e with old := o } := hrank
    simp only [SlChange.after, Bool.or_eq_true, Bool.and_eq_true, decide_eq_true_eq, beq_iff_eq]
    exact .inr ⟨hnow.symm, this⟩
  have hbefore : ∀ x ∈ l, c.after x = false ∧ x.act = .put := fun x hx =>
    ⟨SlChange.after_eq_false_iff.mpr (.inr ⟨(hl x hx).2.1.trans hnow, (hl x hx).2.2⟩), (hl x hx).1⟩
  obtain ⟨o1, o2, u, hadd, hu⟩ := Dev.slAdd_before (c := c) hpruned hbefore hafter hact rfl
  have hedge : (d.slAdd c).edgeNow = d.edgeNow := Dev.edgeNow_slAdd hc
  have htb : (d.slAdd c).tb = d.tb := (congrArg Dev.tb (d.slAdd_frame c).1).trans rfl
  change (d.slAdd c).Routed e
  refine ⟨hact, hmask, hrank, hunit, hnow.trans hedge.symm, htb ▸ hkept, ⟨l ++ [{ c with old := o1 }], o2, ?_, fun x hx => ?_⟩, ?_⟩
  · rw [hadd]
    exact List.append_cons _ _ _
  · obtain hx | hx := List.mem_append.mp hx
    · exact hl x hx
    · rw [List.mem_singleton.mp hx]
      exact ⟨rfl, hnow.symm, Nat.le_refl 95⟩
  · have hrg : (d.slAdd c).rg e.off = if c.off = e.off then u else d.rg e.off := by
      rw [hadd, Dev.slSet, if_pos hc.2]
      exact Dev.rg_sg ..
    rw [Dev.bt, hrg]
    by_cases hoff : e.off = c.off
    case pos =>
      obtain ⟨v, rfl⟩ := hu hoff
      rw [if_pos hoff.symm, getLsbD_mergeWord (by decide)]
      exact if_pos (hmask ▸ rfl)
    case neg =>
      rw [if_neg (Ne.symm hoff)]
      exact hstands

/-- The bit stands over an SL_LEN_SET or SL_LEN_CLR. -/
theorem Dev.Routed.slLens {d : Dev} {e : SlChange} {n hi : Nat} {v : Word} {b : Bool} (h : d.Routed e) (hn : n < 48) (hhi : hi < 2) :
    (d.slLen n hi v b).Routed e := by
  have hlt : ∀ k ∈ slLenNamed hi v, k < 64 := fun k hk => by
    obtain ⟨i, hi, -, rfl⟩ := mem_slLenNamed.mp hk
    omega
  rw [Dev.slLen_eq, List.foldl_map]
  generalize slLenNamed hi v = l at hlt
  induction l generalizing d with
  | nil => exact h
  | cons k l ih => exact ih (h.slLen hn (hlt k List.mem_cons_self)) fun j hj => hlt j (List.mem_cons_of_mem _ hj)

/-- Settles O60: the change of each EN bit takes its place before the route's, whose value covers it. -/
theorem sluiceRouteStands : Obligations.SluiceRouteStands := by
  intro s ag n k v e hup hag hn hk hlog hkind hact hmask hoff hnow hkept hstands
  have hrouted : s.d.Routed e := {
    act := hact
    mask := hmask
    rank := by
      rw [SlChange.rank, if_neg (by omega), hkind]
      omega
    inUnit := by
      constructor <;> rw [hoff, Reg.SL_LO_CTRL] <;> omega
    now := hnow
    kept := hkept
    noted := ⟨[], e.old, hlog, fun _ hx => absurd hx List.not_mem_nil⟩
    stands := hoff.symm ▸ hstands }
  have hlen : ∀ b, (s.d.slLen n (decide (32 ≤ k)).toNat v b).bt (Reg.SL_LO_CTRL n k) 0 = e.val.getLsbD 0 := fun b =>
    hoff ▸ (hrouted.slLens hn (Bool.toNat_lt _)).stands
  refine ⟨⟨_, need_busSet hup ⟨hag, hn⟩ (W.busWrite_SL_LEN hn _ true ?_), hlen true⟩,
    ⟨_, need_busSet hup ⟨hag, hn⟩ (W.busWrite_SL_LEN hn _ false ?_), hlen false⟩⟩
  · cases decide (32 ≤ k) <;> simp [Reg.SL_LEN_SET_HI, Reg.SL_LEN_SET_LO] <;> omega
  · cases decide (32 ≤ k) <;> simp [Reg.SL_LEN_CLR_HI, Reg.SL_LEN_CLR_LO] <;> omega

end Sys2Proof.Machine
end

section
/-!
PROOFS. The event counts and the program memory of a Damsel engine (O46).
-/

namespace Sys2Proof.Machine

/-! ### One event of a 4-bit count (R226) -/

section
variable {d : Dev} {reg ov i j : Nat}

theorem Dev.rg_countEvent_of_ne {a k : Nat} (hreg : reg ≠ a) (hov : ov ≠ a) : (d.countEvent reg i ov k).rg a = d.rg a := by
  unfold Dev.countEvent
  split
  · exact Dev.rg_sg_of_ne _ _ _ _ hov
  · exact Dev.rg_sg_of_ne _ _ _ _ hreg

theorem Dev.fd_congr {e : Dev} {a lo n : Nat} (h : e.rg a = d.rg a) : e.fd a lo n = d.fd a lo n := by
  rw [Dev.fd, Dev.fd, h]

theorem Dev.bt_congr {e : Dev} {a : Nat} (h : e.rg a = d.rg a) : e.bt a i = d.bt a i := by
  rw [Dev.bt, Dev.bt, h]

/-- The count rises to 15 and no further. -/
theorem Dev.fd_countEvent_self {k : Nat} (hne : ov ≠ reg) (hi : i < 8) :
    (d.countEvent reg i ov k).fd reg (4 * i) 4 = if d.fd reg (4 * i) 4 < 15 then d.fd reg (4 * i) 4 + 1 else d.fd reg (4 * i) 4 := by
  have hlt : d.fd reg (4 * i) 4 < 16 := bits_lt _ _ _
  unfold Dev.countEvent
  by_cases h : d.fd reg (4 * i) 4 = 15
  case pos =>
    rw [if_pos h, if_neg (by omega)]
    exact Dev.fd_congr (Dev.rg_sg_of_ne _ _ _ _ hne)
  case neg => rw [if_neg h, if_pos (by omega), Dev.fd_sf_self (by omega), Nat.mod_eq_of_lt (by omega)]

theorem Dev.fd_countEvent_of_ne {k : Nat} (hne : ov ≠ reg) (hj : j < 8) (hij : i ≠ j) :
    (d.countEvent reg i ov k).fd reg (4 * j) 4 = d.fd reg (4 * j) 4 := by
  unfold Dev.countEvent
  split
  · exact Dev.fd_congr (Dev.rg_sg_of_ne _ _ _ _ hne)
  · exact Dev.fd_sf_of_disjoint (by omega) (by omega)

/-- The event that the count cannot take sets its overflow bit. -/
theorem Dev.bt_countEvent_self (hne : ov ≠ reg) (hi : i < 32) :
    (d.countEvent reg i ov i).bt ov i = (d.bt ov i || d.fd reg (4 * i) 4 == 15) := by
  unfold Dev.countEvent
  split
  · next h => rw [Dev.bt_sb_self _ _ hi, h, beq_self_eq_true, Bool.or_true]
  · next h => rw [Dev.bt_sf_of_ne _ _ _ _ _ hne.symm, beq_eq_false_iff_ne.mpr h, Bool.or_false]

theorem Dev.bt_countEvent_of_ne (hne : ov ≠ reg) (hi : i < 32) (hij : i ≠ j) : (d.countEvent reg i ov i).bt ov j = d.bt ov j := by
  unfold Dev.countEvent
  split
  · exact Dev.bt_pb_of_ne_bit _ true hi hij
  · exact Dev.bt_sf_of_ne _ _ _ _ _ hne.symm

end

/-! ### DM_EV_TRIG -/

/-- An event of input `i` of engine `n`, if the word names it. -/
def Dev.evTrig (n : Nat) (v : Word) (d : Dev) (i : Nat) : Dev :=
  if v.getLsbD i then d.countEvent (Reg.DM_EV_CNT n) i (Reg.DM_EV_OVF n) i else d

theorem dmEvTrig_eq (n : Nat) (v : Word) (d : Dev) : dmEvTrig n v d = (List.range 8).foldl (Dev.evTrig n v) d := rfl

section
variable {n i : Nat} {v : Word}

theorem Reg.DM_EV_OVF_ne_CNT : Reg.DM_EV_OVF n ≠ Reg.DM_EV_CNT n := by
  unfold Reg.DM_EV_OVF Reg.DM_EV_CNT
  omega

theorem Dev.rg_evTrig {d : Dev} {a j : Nat} (ha : a ∉ [Reg.DM_EV_CNT n, Reg.DM_EV_OVF n]) : (d.evTrig n v j).rg a = d.rg a := by
  obtain ⟨hcnt, hovf⟩ : a ≠ Reg.DM_EV_CNT n ∧ a ≠ Reg.DM_EV_OVF n := by simpa using ha
  unfold Dev.evTrig
  split
  · exact Dev.rg_countEvent_of_ne hcnt.symm hovf.symm
  · rfl

/-- The events of other inputs leave the count and the overflow bit of input `i`. -/
theorem Dev.evTrigs_of_not_mem {l : List Nat} (hlt : ∀ j ∈ l, j < 8) (hi : i < 8) (hl : i ∉ l) (d : Dev) :
    (l.foldl (Dev.evTrig n v) d).fd (Reg.DM_EV_CNT n) (4 * i) 4 = d.fd (Reg.DM_EV_CNT n) (4 * i) 4 ∧
      (l.foldl (Dev.evTrig n v) d).bt (Reg.DM_EV_OVF n) i = d.bt (Reg.DM_EV_OVF n) i := by
  induction l generalizing d with
  | nil => exact ⟨rfl, rfl⟩
  | cons j l ih =>
    obtain ⟨hij, hil⟩ := List.ne_and_not_mem_of_not_mem_cons hl
    obtain ⟨hcnt, hovf⟩ := ih (fun k hk => hlt k (List.mem_cons_of_mem _ hk)) hil (d.evTrig n v j)
    have hj : j < 32 := Nat.lt_trans (hlt j List.mem_cons_self) (by decide)
    have hstep : (d.evTrig n v j).fd (Reg.DM_EV_CNT n) (4 * i) 4 = d.fd (Reg.DM_EV_CNT n) (4 * i) 4 ∧
        (d.evTrig n v j).bt (Reg.DM_EV_OVF n) i = d.bt (Reg.DM_EV_OVF n) i := by
      unfold Dev.evTrig
      split
      · exact ⟨Dev.fd_countEvent_of_ne Reg.DM_EV_OVF_ne_CNT hi hij.symm, Dev.bt_countEvent_of_ne Reg.DM_EV_OVF_ne_CNT hj hij.symm⟩
      · exact ⟨rfl, rfl⟩
    exact ⟨hcnt.trans hstep.1, hovf.trans hstep.2⟩

/-- An input has its one event. -/
theorem Dev.evTrigs_of_mem {l : List Nat} (hlt : ∀ j ∈ l, j < 8) (hi : i < 8) (hl : l.Nodup) (hmem : i ∈ l) (d : Dev) :
    (l.foldl (Dev.evTrig n v) d).fd (Reg.DM_EV_CNT n) (4 * i) 4 = (d.evTrig n v i).fd (Reg.DM_EV_CNT n) (4 * i) 4 ∧
      (l.foldl (Dev.evTrig n v) d).bt (Reg.DM_EV_OVF n) i = (d.evTrig n v i).bt (Reg.DM_EV_OVF n) i := by
  obtain ⟨l1, l2, rfl⟩ := List.append_of_mem hmem
  obtain ⟨-, htail, hcross⟩ := List.pairwise_append.mp hl
  have hnot1 : i ∉ l1 := fun h => hcross i h i List.mem_cons_self rfl
  have hnot2 : i ∉ l2 := (List.nodup_cons.mp htail).1
  have hlt1 : ∀ j ∈ l1, j < 8 := fun j h => hlt j (List.mem_append_left _ h)
  have hlt2 : ∀ j ∈ l2, j < 8 := fun j h => hlt j (List.mem_append_right _ (List.mem_cons_of_mem _ h))
  rw [List.foldl_append, List.foldl_cons]
  obtain ⟨hcnt1, hovf1⟩ := Dev.evTrigs_of_not_mem (n := n) (v := v) hlt1 hi hnot1 d
  obtain ⟨hcnt2, hovf2⟩ := Dev.evTrigs_of_not_mem (n := n) (v := v) hlt2 hi hnot2 ((l1.foldl (Dev.evTrig n v) d).evTrig n v i)
  rw [hcnt2, hovf2]
  unfold Dev.evTrig at hcnt1 hovf1 ⊢
  split
  · rw [Dev.fd_countEvent_self Reg.DM_EV_OVF_ne_CNT hi, Dev.fd_countEvent_self Reg.DM_EV_OVF_ne_CNT hi,
      Dev.bt_countEvent_self Reg.DM_EV_OVF_ne_CNT (by omega), Dev.bt_countEvent_self Reg.DM_EV_OVF_ne_CNT (by omega), hcnt1, hovf1]
    exact ⟨rfl, rfl⟩
  · exact ⟨hcnt1, hovf1⟩

end

/-! ### The Damsel engines' registers and program memories -/

section
variable {w : W} {ag : Agent} {n i a : Nat} {v : Word}

theorem W.busWrite_DM_EV_TRIG (hn : n < 48) : w.busWrite ag (Reg.DM_EV_TRIG n) v 0xFFFFFFFF = w.dev (dmEvTrig n v) := by
  have ha : Reg.DM_EV_TRIG n = 0xA00000 + (0x100 * n + 0x3C) := by unfold Reg.DM_EV_TRIG; omega
  rw [W.busWrite_dm _ _ _ _ (by omega) (by omega)]
  refine congrArg w.dev (funext fun d => ?_)
  rw [Dev.dmBlockWrite_low _ _ _ hn (by omega) (by omega), if_neg (by unfold Reg.DM_CTRL; omega), if_pos rfl, and_ones]

theorem W.busWrite_DM_EV_SEL (hn : n < 48) (hi : i < 8) : w.busWrite ag (Reg.DM_EV_SEL n i) v 0xFFFFFFFF = w.dev (dmEvSelWrite n i v) := by
  have ha : Reg.DM_EV_SEL n i = 0xA00000 + (0x100 * n + (0x48 + 4 * i)) := by unfold Reg.DM_EV_SEL; omega
  have hfind : (List.range 8).find? (fun k => Reg.DM_EV_SEL n i == Reg.DM_EV_SEL n k) = some i := by
    refine List.find?_range_eq_some.mpr ⟨beq_self_eq_true _, List.mem_range.mpr hi, fun j hj => ?_⟩
    simp only [Reg.DM_EV_SEL, Bool.not_eq_eq_eq_not, Bool.not_true, beq_eq_false_iff_ne]
    omega
  rw [W.busWrite_dm _ _ _ _ (by omega) (by omega)]
  refine congrArg w.dev (funext fun d => ?_)
  rw [Dev.dmBlockWrite_low _ _ _ hn (by omega) (by omega), if_neg (by unfold Reg.DM_CTRL; omega), if_neg (by unfold Reg.DM_EV_TRIG; omega),
    if_neg (by unfold Reg.DM_FLAGS_SET; omega), if_neg (by unfold Reg.DM_FLAGS_CLR; omega), hfind, mergeWord_ones]

theorem W.busWrite_dmWord (hn : n < 48) (ha : a < 4096) : w.busWrite ag (dmWord n a) v 0xFFFFFFFF = w.dev (dmPmWrite n a v 0xFFFFFFFF) := by
  have hoff : dmWord n a = 0xA10000 + (0x4000 * n + 4 * a) := by unfold dmWord; omega
  have hdiv : (0x4000 * n + 4 * a) / 0x4000 = n := by omega
  have hword : (0x4000 * n + 4 * a) % 0x4000 / 4 = a := by omega
  rw [W.busWrite_dm _ _ _ _ (by omega) (by omega)]
  refine congrArg w.dev (funext fun d => ?_)
  rw [Dev.dmBlockWrite, hoff, if_pos (by omega), if_pos (by omega), Nat.add_sub_cancel_left, hdiv, hword]

/-- A word stored in a program memory is free of error; every other word keeps what it was. -/
theorem dmFetch_dmPmWrite (d : Dev) {k b : Nat} (hrun : d.fbt (Reg.DM_CFG n) 0 = false) (hb : b < 4096) :
    (dmPmWrite n a v 0xFFFFFFFF d).dmFetch k b = if dmWord n a = dmWord k b then .ok v.toNat else d.dmFetch k b := by
  have hstore : dmPmWrite n a v 0xFFFFFFFF d =
      { d with aux := Tab.put 0 d.aux (dmWord n a) v, badWords := d.badWords.filter (fun x => x != dmWord n a) } := by
    rw [dmPmWrite, hrun]
    exact congrArg (fun u => { d with aux := Tab.put 0 d.aux (dmWord n a) u, badWords := d.badWords.filter (fun x => x != dmWord n a) })
      (mergeWord_ones _ _)
  rw [hstore]
  unfold Dev.dmFetch
  rw [if_neg (Nat.not_lt.mpr (Nat.le_of_lt_succ hb))]
  dsimp only
  rw [Tab.get_put]
  by_cases heq : dmWord n a = dmWord k b
  case pos => simp [heq]
  case neg => simp [heq, Ne.symm heq, Nat.not_lt.mpr (Nat.le_of_lt_succ hb)]

end

/-- Settles O46: the events of the other inputs leave the count of one, and the words of a program memory lie apart. -/
theorem damselEventsAndProgram : Obligations.DamselEventsAndProgram := by
  intro s ag n i a v hup hag hn hi ha
  have hne : Reg.DM_EV_SEL n i ≠ Reg.DM_EV_CNT n := by
    unfold Reg.DM_EV_SEL Reg.DM_EV_CNT
    omega
  refine ⟨⟨_, need_busSet hup ⟨hag, hn⟩ (W.busWrite_DM_EV_TRIG hn), ⟨rfl, rfl, fun a ha => ?_⟩, ?_, ?_⟩,
    ⟨_, need_busSet hup ⟨hag, hn, hi⟩ (W.busWrite_DM_EV_SEL hn hi), ⟨rfl, rfl, fun a ha => ?_⟩, ?_, fun j hj => ?_⟩,
    fun hrun => ⟨_, need_busSet hup ⟨hag, hn, ha⟩ (W.busWrite_dmWord hn ha), ⟨rfl, rfl, fun a _ => ?_⟩, ?_, fun k b hkb hk hb => ?_⟩,
    fun hrun => ?_⟩
  · exact Dev.rg_foldl _ (fun _ _ => Dev.rg_evTrig ha) _
  · refine ((Dev.evTrigs_of_mem (fun _ => List.mem_range.mp) hi List.nodup_range (List.mem_range.mpr hi) s.d).1).trans ?_
    unfold Dev.evTrig
    by_cases hv : v.getLsbD i = true
    case pos => rw [if_pos hv, Dev.fd_countEvent_self Reg.DM_EV_OVF_ne_CNT hi]; simp only [hv, true_and]
    case neg => rw [if_neg hv, if_neg fun h => hv h.1]
  · refine ((Dev.evTrigs_of_mem (fun _ => List.mem_range.mp) hi List.nodup_range (List.mem_range.mpr hi) s.d).2).trans ?_
    unfold Dev.evTrig
    by_cases hv : v.getLsbD i = true
    case pos => rw [if_pos hv, Dev.bt_countEvent_self Reg.DM_EV_OVF_ne_CNT (by omega), hv, Bool.true_and]
    case neg => rw [if_neg hv, Bool.eq_false_iff.mpr hv, Bool.false_and, Bool.or_false]
  · obtain ⟨hsel, hcnt⟩ : a ≠ Reg.DM_EV_SEL n i ∧ a ≠ Reg.DM_EV_CNT n := by simpa using ha
    exact (Dev.rg_sg_of_ne _ _ _ _ hcnt.symm).trans (Dev.rg_sg_of_ne _ _ _ _ hsel.symm)
  · exact (Dev.rg_sg_of_ne _ _ _ _ hne.symm).trans (Dev.rg_sg_self _ _ _)
  · rw [State.afterDev_d, dmEvSelWrite]
    by_cases hji : j = i
    case pos =>
      rw [if_pos hji, hji]
      exact Dev.fd_sf_self (by omega)
    case neg =>
      rw [if_neg hji, Dev.fd_sf_of_disjoint (by omega) (by omega)]
      exact Dev.fd_congr (Dev.rg_sg_of_ne _ _ _ _ hne)
  · rw [State.afterDev_d, dmPmWrite, hrun]
    rfl
  · exact (dmFetch_dmPmWrite s.d hrun ha).trans (if_pos rfl)
  · refine (dmFetch_dmPmWrite s.d hrun hb).trans (if_neg fun heq => hkb ?_)
    simp only [dmWord] at heq
    rw [Prod.mk.injEq]
    omega
  · refine (need_busSet hup ⟨hag, hn, ha⟩ (W.busWrite_dmWord hn ha)).trans (State.next_afterDev_congr ?_)
    rw [dmPmWrite, hrun]
    rfl

end Sys2Proof.Machine
end

section
/-!
PROOFS. The secure block and the wipe (O48, O49).
-/

namespace Sys2Proof.Machine

/-! ### The commands of KC3 (R539 to R544) -/

section
variable {s : State} {ag : Agent} {v : Word}

/-- A write to the secure block by another agent than KC3 does nothing. -/
theorem need_busSet_sec_of_ne {p : Prop} [Decidable p] {a : Nat} {u : Dev → Word} (hup : s.d.coreUp = true) (hp : p) (hne : ag ≠ .core 3)
    (hlo : 0x1701000 ≤ a) (hhi : a < 0x1702000) : need p (s.busSet ag a u) = .next s :=
  need_busSet (f := id) hup hp (W.busWrite_sec_of_ne _ _ _ _ hlo hhi hne)

theorem sec_denied {slot : Nat} (hup : s.d.coreUp = true) (hag : ag.ok = true) (hslot : slot < 4) (hne : ag ≠ .core 3) :
    ∀ c ∈ [Instr.lifecycleChange ag v, .keyProgram ag slot, .keySetDev ag slot, .keyRevoke ag slot, .imageKeyProgram ag v, .wipe ag v,
      .tamperLock ag, .verifyGo ag v, .rngRequest ag v, .rngRestart ag v], exec c s = .next s := by
  have hdeny : ∀ {p : Prop} [Decidable p] {a : Nat} {u : Dev → Word}, p → 0x1701000 ≤ a → a < 0x1702000 →
      need p (s.busSet ag a u) = .next s := fun hp hlo hhi => need_busSet_sec_of_ne hup hp hne hlo hhi
  simp only [List.forall_mem_cons, List.not_mem_nil, false_implies, implies_true, and_true]
  exact ⟨hdeny hag (by decide) (by decide), hdeny ⟨hag, hslot⟩ (by decide) (by decide), hdeny ⟨hag, hslot⟩ (by decide) (by decide),
    hdeny ⟨hag, hslot⟩ (by decide) (by decide), hdeny hag (by decide) (by decide), hdeny hag (by decide) (by decide),
    hdeny hag (by decide) (by decide), hdeny hag (by decide) (by decide), hdeny hag (by decide) (by decide), hdeny hag (by decide) (by decide)⟩

/-- The word that SEC_TAMPER_CFG holds after it has been locked. -/
theorem tamperCfgWrite_lock (w : W) (h : w.d.bt Reg.SEC_TAMPER_CFG 8 = false) :
    ∃ new : Word, tamperCfgWrite (fieldWord (w.d.rg Reg.SEC_TAMPER_CFG) 8 1 1) 0xFFFFFFFF w = w.dev (fun d => d.sg Reg.SEC_TAMPER_CFG new) ∧
      new.getLsbD 8 = true ∧ ∀ i, i < 6 → new.getLsbD i = (w.d.rg Reg.SEC_TAMPER_CFG).getLsbD i := by
  let old := w.d.rg Reg.SEC_TAMPER_CFG
  let lock := fieldWord old 8 1 1
  let new := mergeWord old lock (0xFFFFFFFF &&& 0xFF) ||| (lock &&& 0xFFFFFFFF &&& 0x100)
  have hlock : lock.getLsbD 8 = true := getLsbD_fieldWord old 8 1 1 8 (by decide)
  have hlow : ∀ i, i < 6 → lock.getLsbD i = old.getLsbD i := fun i hi =>
    (getLsbD_fieldWord old 8 1 1 i (by omega)).trans (if_pos (by omega))
  have hnew8 : new.getLsbD 8 = true := by simp [new, hlock]
  have hnew : ∀ i, i < 6 → new.getLsbD i = old.getLsbD i := fun i hi => by
    have hbit : (0x100 : Word).getLsbD i = false := by
      have : ∀ i, i < 6 → (0x100 : Word).getLsbD i = false := by decide
      exact this i hi
    rw [BitVec.getLsbD_or, BitVec.getLsbD_and, hbit, Bool.and_false, Bool.or_false, getLsbD_mergeWord (by omega), hlow i hi, ite_self]
  refine ⟨if w.lifecycle ≤ 1 then new else new ||| (old &&& 0x3F), if_neg (Bool.eq_false_iff.mp h), ?_, fun i hi => ?_⟩
  · split
    · exact hnew8
    · rw [BitVec.getLsbD_or, hnew8, Bool.true_or]
  · split
    · exact hnew i hi
    · rw [BitVec.getLsbD_or, BitVec.getLsbD_and, hnew i hi]
      cases old.getLsbD i <;> rfl

end

theorem lifecycleChange_refused {v : Word} {w : W} (h : v.toNat / 2 ^ 16 ≠ 0x4C43 ∨ v.toNat % 8 ≤ w.lifecycle ∨ 4 < v.toNat % 8) :
    lifecycleChange v w = w.dev (fun d => d.sb Reg.SEC_STAT 3) := by
  have hkey : bits v.toNat 16 16 = v.toNat / 2 ^ 16 := Nat.mod_eq_of_lt (by omega)
  have hto : bits v.toNat 0 3 = v.toNat % 8 := by simp [bits]
  unfold lifecycleChange
  dsimp only
  rw [hkey, hto, if_pos h]

/-- A write by KC3.  (The agent stays a variable, for the command's guard would else be evaluated.) -/
theorem W.busWrite_of_kc3 {w : W} {ag : Agent} {a : Nat} {v : Word} {f : Dev → Dev} (hag : ag = .core 3)
    (h : w.busWrite (.core 3) a v 0xFFFFFFFF = w.dev f) : w.busWrite ag a v 0xFFFFFFFF = w.dev f := by
  rw [hag, h]

/-- A wipe that starts sets WIPING and is counted. -/
theorem Dev.rg_startWipe (d : Dev) (a : Nat) : d.startWipe.rg a = ((d.sb Reg.SEC_STAT 1).inc Reg.SEC_WIPE_CNT).rg a := rfl

/-- Settles O48: the block takes its writes from KC3 alone, and each refusal is the first branch of its command. -/
theorem secureBlock : Obligations.SecureBlock := by
  intro s ag slot v hup hag hslot
  refine ⟨fun hne => sec_denied hup hag hslot hne, fun hkc3 => ?_⟩
  refine ⟨fun hgo => ?_, fun hfull => ?_, fun hbad => ?_, fun hlock => ?_, fun hopen => ?_⟩
  · have hwipe : wipeCmd v s.d = s.d.startWipe := if_pos hgo
    refine ⟨_, need_busSet hup hag (W.busWrite_of_kc3 hkc3 (W.busWrite_SEC_WIPE_CMD _ _)), ?_⟩
    rw [State.afterDev_congr (g := Dev.startWipe) hwipe]
    refine ⟨⟨rfl, rfl, fun a ha => ?_⟩, ?_, ?_, rfl⟩
    · obtain ⟨hstat, hcnt⟩ : a ≠ Reg.SEC_STAT ∧ a ≠ Reg.SEC_WIPE_CNT := by simpa using ha
      rw [State.afterDev_d, Dev.rg_startWipe, Dev.rg_inc, if_neg hcnt.symm, Dev.rg_sb, if_neg hstat.symm]
    · rw [State.afterDev_d, Dev.bt, Dev.rg_startWipe, Dev.rg_inc, if_neg (by decide)]
      exact Dev.bt_sb_self _ _ (by decide)
    · rw [State.afterDev_d, Dev.rg_startWipe, Dev.rg_inc, if_pos rfl, Dev.rg_sb, if_neg (by decide)]
  · exact (need_busSet hup hag (W.busWrite_of_kc3 hkc3 (W.busWrite_SEC_RNG_REQ _ _))).trans (State.next_afterDev_congr (if_pos hfull))
  · exact need_busSet hup hag (W.busWrite_of_kc3 hkc3 ((W.busWrite_SEC_LC_CMD _ _).trans (lifecycleChange_refused hbad)))
  · exact need_busSet (f := id) hup hag (W.busWrite_of_kc3 hkc3 ((W.busWrite_SEC_TAMPER_CFG _ _ _).trans (if_pos hlock)))
  · obtain ⟨new, hwrite, hnew8, hnew⟩ := tamperCfgWrite_lock s.ctx hopen
    have hbt : ∀ i, (s.d.sg Reg.SEC_TAMPER_CFG new).bt Reg.SEC_TAMPER_CFG i = new.getLsbD i := fun i => by rw [Dev.bt, Dev.rg_sg_self]
    refine ⟨_, need_busSet hup hag (W.busWrite_of_kc3 hkc3 ((W.busWrite_SEC_TAMPER_CFG _ _ _).trans hwrite)), ⟨rfl, rfl, fun a ha => ?_⟩,
      (hbt 8).trans hnew8, fun i hi => (hbt i).trans (hnew i hi)⟩
    exact Dev.rg_sg_of_ne _ _ _ _ (List.ne_of_not_mem_cons ha).symm

/-! ### The end of a wipe (R540) -/

section
variable {d : Dev}

theorem Dev.por_of_coreUp (h : d.coreUp = true) : d.power.por = false := by
  simpa [Dev.aonUp] using Dev.aonUp_of_coreUp h

/-- Time that passes leaves the secure block. -/
theorem Dev.idle_sec (n : Nat) : (d.idle n).sec = d.sec := by
  by_cases hn : n = 0
  case pos => exact congrArg Dev.sec (if_pos (.inl hn))
  case neg =>
    by_cases hp : d.power.por = true
    case pos => exact congrArg Dev.sec (d.idle_of_por n hp)
    case neg =>
      obtain ⟨-, -, hlinks⟩ := d.sameTime_links hn (Bool.eq_false_iff.mpr hp)
      obtain ⟨-, -, hcounted⟩ := d.counted_time n
      exact hlinks.trans hcounted

theorem Dev.idle_tb (n : Nat) (hp : d.power.por = false) : (d.idle n).tb = d.tb + n := by
  by_cases hn : n = 0
  case pos => rw [hn, show d.idle 0 = d from if_pos (.inl rfl), Nat.add_zero]
  case neg =>
    obtain ⟨-, hlinks, -⟩ := d.sameTime_links hn hp
    obtain ⟨-, hcounted, -⟩ := d.counted_time n
    exact hlinks.trans hcounted

theorem Dev.le_waitTo_tb (t : Nat) (hp : d.power.por = false) : t ≤ (d.waitTo t).tb := by
  rw [Dev.waitTo, Dev.idle_tb _ hp]
  omega

/-- A wipe whose time has passed, with nothing that waits for its end, zeroes bank 95 and is over. -/
theorem wipeDone_of_alone {w : W} {t : Nat} (hwipe : w.d.sec.wipeAt = some t) (htime : t + 131072 ≤ w.d.tb) (hlc : w.d.sec.lc = none)
    (hrng : w.d.sec.rngWait = 0) :
    wipeDone w = (w.zeroBanks [95]).dev (fun d => (d.cb Reg.SEC_STAT 1).onSec (fun s => { s with wipeAt := none, rngWait := 0 })) := by
  have hlc' : ((w.zeroBanks [95]).dev (fun d => (d.cb Reg.SEC_STAT 1).onSec (fun s => { s with wipeAt := none, rngWait := 0 }))).d.sec.lc = none :=
    hlc
  rw [wipeDone, hwipe]
  dsimp only
  rw [if_neg (Nat.not_lt.mpr htime), hrng, hlc']
  rfl

end

/-- A byte of a zeroed bank reads 0, and no other byte changes. -/
theorem Mem.read_zeroBanks (m : Mem) (l : List Nat) (sp : MemSp) (a : Nat) :
    (m.zeroBanks l).read sp a = if sp = .sram ∧ a / 2 ^ 21 ∈ l then 0 else m.read sp a := by
  cases sp
  case sram =>
    refine (Tab.get_filter_key (fun k => !l.contains (k / 2 ^ 21)) _ _ _).trans ?_
    by_cases hmem : a / 2 ^ 21 ∈ l
    case pos =>
      rw [if_neg (by rw [List.contains_iff_mem.mpr hmem]; decide), if_pos ⟨rfl, hmem⟩]
      rfl
    case neg =>
      rw [if_pos (by rw [Bool.eq_false_iff.mpr (mt List.contains_iff_mem.mp hmem)]; rfl), if_neg fun h => hmem h.2]
      rfl
  all_goals exact (if_neg (fun h => nomatch h.1)).symm

/-- Settles O49: the wait leaves the secure block, and then bank 95 alone is zeroed. -/
theorem wipeZeroesBank95 : Obligations.WipeZeroesBank95 := by
  intro s t0 hup hwipe hlc hrng
  have hpor := Dev.por_of_coreUp hup
  have hsec : (s.d.waitTo (t0 + 131072)).sec = s.d.sec := Dev.idle_sec _
  have hevent : wipeDoneEvent s.ctx = wipeDone (s.ctx.dev (fun d => d.waitTo (t0 + 131072))) := by
    rw [wipeDoneEvent, show s.ctx.d.sec.wipeAt = some t0 from hwipe]
  have hdone := hevent.trans (wipeDone_of_alone (t := t0) ((congrArg Sec.wipeAt hsec).trans hwipe) (Dev.le_waitTo_tb _ hpor)
    ((congrArg Sec.lc hsec).trans hlc) ((congrArg Sec.rngWait hsec).trans hrng))
  refine ⟨_, coreRun_up hup, ?_, ?_, fun sp a => ?_⟩
  · rw [State.afterRun_d, hdone]
    exact Dev.bt_pb_self _ false (by decide)
  · rw [State.afterRun_d, hdone]
    rfl
  · rw [State.afterRun_mem, hdone]
    exact (Mem.read_zeroBanks s.mem [95] sp a).trans (by simp only [List.mem_singleton])

end Sys2Proof.Machine
end

section
/-!
PROOFS. A PIO engine as its owner and others reach it (O50).
-/

namespace Sys2Proof.Machine

/-! ### A context takes a state (R456) -/

section
variable (d : Dev) (e c : Nat) (x : PioCtx)

theorem Dev.pioAt_onPio (f : PioEng → PioEng) (e' : Nat) : (d.onPio e f).pioAt e' = if e = e' then f (d.pioAt e) else d.pioAt e' :=
  Tab.get_modify

theorem Dev.ctxAt_setCtx (e' c' : Nat) : (d.setCtx e c x).ctxAt e' c' = if e = e' ∧ c = c' then x else d.ctxAt e' c' := by
  have hctx : (d.setCtx e c x).pioAt e' = _ := d.pioAt_onPio e (fun g => { g with ctx := Tab.put {} g.ctx c x }) e'
  rw [Dev.ctxAt, hctx]
  by_cases he : e = e'
  case neg => rw [if_neg he, if_neg fun h => he h.1]; rfl
  case pos =>
    subst he
    rw [if_pos rfl]
    refine (Tab.get_put _).trans ?_
    simp only [true_and]
    rfl

theorem Dev.rg_setCtx {a : Nat} (ha : a ∉ [Reg.PIO_C_FSTAT e c, Reg.PIO_C_STATE e c]) : (d.setCtx e c x).rg a = d.rg a := by
  obtain ⟨hfstat, hstate⟩ : a ≠ Reg.PIO_C_FSTAT e c ∧ a ≠ Reg.PIO_C_STATE e c := by simpa using ha
  exact (Dev.rg_sg_of_ne _ _ _ _ hstate.symm).trans ((Dev.rg_sg_of_ne _ _ _ _ hfstat.symm).trans (Dev.rg_sg_of_ne _ _ _ _ hfstat.symm))

/-- PIO_C_FSTAT shows the two levels. -/
theorem Dev.fd_setCtx : (d.setCtx e c x).fd (Reg.PIO_C_FSTAT e c) 0 3 = x.tx.length % 8 ∧
    (d.setCtx e c x).fd (Reg.PIO_C_FSTAT e c) 4 3 = x.rx.length % 8 := by
  have hne : Reg.PIO_C_STATE e c ≠ Reg.PIO_C_FSTAT e c := by
    unfold Reg.PIO_C_STATE Reg.PIO_C_FSTAT
    omega
  have hshow : ∀ lo, (d.setCtx e c x).fd (Reg.PIO_C_FSTAT e c) lo 3 = (((d.onPio e (fun g => { g with ctx := Tab.put {} g.ctx c x })).sf
      (Reg.PIO_C_FSTAT e c) 0 3 x.tx.length).sf (Reg.PIO_C_FSTAT e c) 4 3 x.rx.length).fd (Reg.PIO_C_FSTAT e c) lo 3 := fun lo =>
    Dev.fd_congr (Dev.rg_sg_of_ne _ _ _ _ hne)
  constructor
  · rw [hshow, Dev.fd_sf_of_disjoint (by omega) (by omega)]
    exact Dev.fd_sf_self (by omega)
  · rw [hshow]
    exact Dev.fd_sf_self (by omega)

end

/-- A word stored in an instruction memory changes no other. -/
theorem pioImWrite_of_stopped {d : Dev} {ag : Agent} {e a : Nat} {v : Word} (hmine : d.ownsEng ag e = true)
    (hstop : d.bt (Reg.PIO_E_CFG e) 0 = false) : pioImWrite ag e a v 0xFFFFFFFF d =
      { d with aux := Tab.put 0 d.aux (pioWord e a) v, badWords := d.badWords.filter (fun x => x != pioWord e a) } := by
  rw [pioImWrite, hmine, hstop]
  exact congrArg (fun u => { d with aux := Tab.put 0 d.aux (pioWord e a) u, badWords := d.badWords.filter (fun x => x != pioWord e a) })
    (mergeWord_ones _ _)

/-- Settles O50: a word enters or leaves a FIFO by the rule of `setCtx`, and each refusal is a branch of its own. -/
theorem pioAccesses : Obligations.PioAccesses := by
  intro s ag e c a v hup hag he hc ha mine x goes
  have hgoes : ∀ {cmd : Instr} {t : State} {x' : PioCtx} {data : Word}, exec cmd s = .next t →
      t = s.afterDev (fun d => { d.setCtx e c x' with rdata := data }) ∨ t = s.afterDev (fun d => d.setCtx e c x') → goes cmd x' := by
    intro cmd t x' data hexec ht
    have hctx : t.d.pio = (s.d.setCtx e c x').pio ∧ (∀ a, t.d.rg a = (s.d.setCtx e c x').rg a) ∧ t.mem = s.mem ∧ t.pending = s.pending := by
      obtain rfl | rfl := ht
      all_goals exact ⟨rfl, fun _ => rfl, rfl, rfl⟩
    obtain ⟨hpio, hrg, hmem, hpending⟩ := hctx
    have hat : ∀ e' c', t.d.ctxAt e' c' = if e = e' ∧ c = c' then x' else s.d.ctxAt e' c' := fun e' c' =>
      (congrArg (fun p => Tab.at ({} : PioCtx) (Tab.at ({} : PioEng) p e').ctx c') hpio).trans (s.d.ctxAt_setCtx e c x' e' c')
    obtain ⟨htx, hrx⟩ := s.d.fd_setCtx e c x'
    refine ⟨t, hexec, ⟨hmem, hpending, fun a ha => (hrg a).trans (s.d.rg_setCtx e c x' ha)⟩, (hat e c).trans (if_pos ⟨rfl, rfl⟩),
      (Dev.fd_congr (hrg _)).trans htx, (Dev.fd_congr (hrg _)).trans hrx, fun e' c' hne => (hat e' c').trans (if_neg fun h => hne ?_)⟩
    rw [h.1, h.2]
  have htxf : exec (.pioTxfWrite ag e c v) s = .next (s.afterDev (fun d => if d.ownsEng ag e = true then txfWrite e c v d else d.pioOwnErr)) :=
    need_busSet hup ⟨hag, he, hc⟩ (W.busWrite_PIO_C_TXF _ _ _ he hc)
  have hrxf : exec (.pioRxfRead ag e c) s = .next (s.afterDev (rxfRead e c)) := need_busGet hup ⟨hag, he, hc⟩ (W.busRead_PIO_C_RXF _ _ he hc)
  have him : exec (.pioImWrite ag e a v) s = .next (s.afterDev (pioImWrite ag e a v 0xFFFFFFFF)) :=
    need_busSet hup ⟨hag, he, ha⟩ (W.busWrite_pioWord _ _ _ _ he ha)
  refine ⟨fun hother => ?_, fun hmine hroom => ?_, fun hmine hfull => ?_, fun w l hrx => ?_, fun hrx => ?_,
    fun hmine hrun => ?_, fun hmine hstop => ?_⟩
  · simp only [List.forall_mem_cons, List.not_mem_nil, false_implies, implies_true, and_true]
    have hnot : s.d.ownsEng ag e = false := Bool.eq_false_iff.mpr hother
    refine ⟨htxf.trans (State.next_afterDev_congr (if_neg hother)), ?_, him.trans (State.next_afterDev_congr ?_)⟩
    · exact (need_busSet hup ⟨hag, he⟩ (W.busWrite_PIO_E_CTXEN _ _ _ he)).trans (State.next_afterDev_congr (if_neg hother))
    · rw [pioImWrite, hnot]
      rfl
  · have hput : txfWrite e c v s.d = s.d.setCtx e c { x with tx := x.tx ++ [v] } := if_neg (Nat.not_le.mpr hroom)
    exact hgoes (data := 0) (htxf.trans (State.next_afterDev_congr (g := fun d => d.setCtx e c { x with tx := x.tx ++ [v] })
      ((if_pos hmine).trans hput))) (.inr rfl)
  · exact htxf.trans (State.next_afterDev_congr ((if_pos hmine).trans (if_pos hfull)))
  · have hread : rxfRead e c s.d = { s.d.setCtx e c { x with rx := l } with rdata := w } := by
      rw [rxfRead, hrx]
    have hexec := hrxf.trans (State.next_afterDev_congr (g := fun d => { d.setCtx e c { x with rx := l } with rdata := w }) hread)
    exact ⟨hgoes hexec (.inl rfl), _, hexec, rfl⟩
  · refine hrxf.trans (State.next_afterDev_congr ?_)
    rw [rxfRead, hrx]
  · refine him.trans (State.next_afterDev_congr ?_)
    rw [pioImWrite, show s.d.ownsEng ag e = true from hmine, hrun]
    rfl
  · refine ⟨_, him, ⟨rfl, rfl, fun a _ => ?_⟩, ?_, fun k hk => ?_⟩
    all_goals rw [State.afterDev_d, pioImWrite_of_stopped hmine hstop]
    · rfl
    · exact (Tab.get_put _).trans (if_pos rfl)
    · exact (Tab.get_put _).trans (if_neg (Ne.symm hk))

end Sys2Proof.Machine
end

section
/-!
PROOFS. The commands of a long operation (O51).
-/

namespace Sys2Proof.Machine

/-! ### What leaves the registers of the system block (those below 0x100000) as they are -/

/-- The registers of the system block stand. -/
def Dev.SysKept (d e : Dev) : Prop := ∀ a, a < 0x100000 → e.rg a = d.rg a

section
variable {d e f : Dev}

theorem Dev.SysKept.refl (d : Dev) : d.SysKept d := fun _ _ => rfl

theorem Dev.SysKept.trans (h : d.SysKept e) (h' : e.SysKept f) : d.SysKept f := fun a ha => (h' a ha).trans (h a ha)

theorem Dev.SysKept.ite {p : Prop} [Decidable p] (he : d.SysKept e) (hf : d.SysKept f) : d.SysKept (if p then e else f) := by
  split
  · exact he
  · exact hf

theorem Dev.SysKept.foldl {α : Type} {g : Dev → α → Dev} (hg : ∀ (d : Dev) (x : α), d.SysKept (g d x)) (l : List α) (d : Dev) :
    d.SysKept (l.foldl g d) := by
  induction l generalizing d with
  | nil => exact .refl d
  | cons x l ih => exact (hg d x).trans (ih _)

theorem Dev.SysKept.sg {a : Nat} (ha : 0x100000 ≤ a) (v : Word) : d.SysKept (d.sg a v) := fun _ hb =>
  Dev.rg_sg_of_ne _ _ _ _ (Nat.ne_of_gt (Nat.lt_of_lt_of_le hb ha))

theorem Dev.SysKept.pb {a : Nat} (ha : 0x100000 ≤ a) (i : Nat) (b : Bool) : d.SysKept (d.pb a i b) := by
  rw [Dev.pb_eq_sg]
  exact .sg ha _

end

section
variable (d : Dev)

theorem Dev.sysKept_setGroup (c g : Nat) (m : ModGroup) : d.SysKept (d.setGroup c g m) := by
  have hmod : 0x100000 ≤ Reg.INTC_MOD c g := by
    unfold Reg.INTC_MOD
    omega
  exact .trans (e := d.onIntc c fun i => { i with groups := Tab.put {} i.groups g m }) (fun _ _ => rfl) (.pb hmod 31 _)

theorem Dev.sysKept_intcEvent (c s : Nat) : d.SysKept (d.intcEvent c s) := by
  have hstat : 0x100000 ≤ Reg.INTC_STAT c := by
    unfold Reg.INTC_STAT
    omega
  have hlast : 0x100000 ≤ Reg.INTC_LAST_OVF c := by
    unfold Reg.INTC_LAST_OVF
    omega
  have hovf : 0x100000 ≤ Reg.INTC_OVF_CNT c := by
    unfold Reg.INTC_OVF_CNT
    omega
  unfold Dev.intcEvent
  refine .ite ((Dev.SysKept.sg hstat _).trans ((Dev.SysKept.sg hlast _).trans (.sg hovf _))) ?_
  exact .trans (e := d.onIntc c fun i => { i with count := Tab.put 0 i.count s (Tab.at 0 (d.intcAt c).count s + 1) }) (fun _ _ => rfl)
    (Dev.sysKept_setGroup _ _ _ _)

theorem Dev.sysKept_hostEvent (s : Nat) : d.SysKept (d.hostEvent s) := by
  have haddr : 0x100000 ≤ Reg.INT_HOST_PEND (s / 32) := by
    unfold Reg.INT_HOST_PEND
    omega
  exact .ite (.trans (.sg haddr _) fun _ _ => rfl) (.refl d)

theorem Dev.sysKept_raise (s : Nat) : d.SysKept (d.raise s) :=
  (Dev.SysKept.foldl (fun d c => d.sysKept_intcEvent c s) _ _).trans (Dev.sysKept_hostEvent _ s)

theorem Dev.sysKept_raiseIf (b : Bool) (s : Nat) : d.SysKept (d.raiseIf b s) := .ite (d.sysKept_raise s) (.refl d)

theorem Dev.sysKept_logEntry (kind detail info : Nat) : d.SysKept (d.logEntry kind detail info) := by
  have hpush : ∀ e, d.SysKept (d.logPush e) := fun e => by
    unfold Dev.logPush
    exact .ite (.sg (by decide) _) fun _ _ => rfl
  have hnote : ∀ (e : Dev) (b : Bool) (l : List (BitVec 64)), e.SysKept (if b then e.inject 6 l else e) := fun e b l =>
    .ite (fun _ _ => rfl) (.refl e)
  unfold Dev.logEntry
  dsimp only
  split
  · exact ((hpush _).trans (hnote _ _ _)).trans (Dev.sysKept_raiseIf _ _ _)
  · exact (hpush _).trans (hnote _ _ _)

theorem Dev.sysKept_startRepair (b r : Nat) (cmd : Bool) : d.SysKept (d.startRepair b r cmd) := by
  have hbank : 0x100000 ≤ Reg.AV_BANK b := by
    unfold Reg.AV_BANK
    omega
  have hnamed : ∀ {d e : Dev}, d.SysKept e → d.SysKept (if cmd then e.sb Reg.AV_REP_CMD 21 else e) := fun h =>
    .ite (h.trans (.sg (by decide) _)) h
  unfold Dev.startRepair
  refine .ite (hnamed fun _ _ => rfl) (.ite (hnamed fun _ _ => rfl) (.ite ?_ (hnamed (.trans (.sg hbank _) fun _ _ => rfl))))
  have hunnamed : d.SysKept (if cmd then d.cb Reg.AV_REP_CMD 21 else d) := .ite (.sg (by decide) _) (.refl d)
  have hfull : ∀ e : Dev, e.SysKept ((e.sb Reg.AV_STAT 1).sb (Reg.AV_BANK b) 16) := fun e => .trans (.sg (by decide) _) (.sg hbank _)
  exact (hunnamed.trans (hfull _)).trans (Dev.sysKept_logEntry _ _ _ _)

theorem Dev.sysKept_autoRepairAll : d.SysKept d.autoRepairAll := by
  refine Dev.SysKept.foldl (fun d b => ?_) _ _
  unfold Dev.autoRepair
  refine .ite (.refl d) ?_
  split
  · exact d.sysKept_startRepair _ _ _
  · exact .refl d

end

/-! ### The state of a slot (R499) -/

section
variable (d : Dev) (s st : Nat)

theorem lopBit_eq : (lopBit Reg.SYS_LOP_BUSY_LO Reg.SYS_LOP_BUSY_HI s).1 = Reg.SYS_LOP_BUSY_LO ∨
    (lopBit Reg.SYS_LOP_BUSY_LO Reg.SYS_LOP_BUSY_HI s).1 = Reg.SYS_LOP_BUSY_HI := by
  unfold lopBit
  split
  · exact .inl rfl
  · exact .inr rfl

/-- A slot's state is shown in its status word and in SYS_LOP_BUSY. -/
theorem Dev.rg_setLop {a : Nat} (ha : a ∉ [Reg.SYS_LOP_BUSY_LO, Reg.SYS_LOP_BUSY_HI]) :
    (d.setLop s st).rg a = (d.sf (Reg.SYS_LOP_STAT s) 0 3 st).rg a := by
  have hbusy : (lopBit Reg.SYS_LOP_BUSY_LO Reg.SYS_LOP_BUSY_HI s).1 ≠ a := fun heq => ha (by
    rw [← heq]
    simpa using lopBit_eq s)
  unfold Dev.setLop
  dsimp only
  rw [Dev.rg_pb_of_ne _ _ hbusy]
  split <;> rfl

theorem SYS_LOP_STAT_not_mem : Reg.SYS_LOP_STAT s ∉ [Reg.SYS_LOP_BUSY_LO, Reg.SYS_LOP_BUSY_HI] := by
  refine List.not_mem_cons_of_ne_of_not_mem ?_ (List.not_mem_cons_of_ne_of_not_mem ?_ List.not_mem_nil)
  all_goals
    simp only [Reg.SYS_LOP_STAT, Reg.SYS_LOP_BUSY_LO, Reg.SYS_LOP_BUSY_HI]
    omega

theorem Dev.rg_setLop_of_ne {k : Nat} (hk : k ≠ s) : (d.setLop k st).rg (Reg.SYS_LOP_STAT s) = d.rg (Reg.SYS_LOP_STAT s) := by
  rw [Dev.rg_setLop _ _ _ (SYS_LOP_STAT_not_mem s)]
  refine Dev.rg_sg_of_ne _ _ _ _ ?_
  unfold Reg.SYS_LOP_STAT
  omega

theorem Dev.fd_setLop : (d.setLop s st).fd (Reg.SYS_LOP_STAT s) 0 3 = st % 8 := by
  rw [Dev.fd_congr (Dev.rg_setLop _ _ _ (SYS_LOP_STAT_not_mem s))]
  exact Dev.fd_sf_self (by decide)

theorem Dev.lopAt_onLop (f : Lop → Lop) (k : Nat) : (d.onLop s f).lopAt k = if s = k then f (d.lopAt s) else d.lopAt k := Tab.get_modify

/-- Beside the registers a slot that starts has its instant noted. -/
theorem Dev.setLop_frame : d.setLop s st = { d with regs := (d.setLop s st).regs, lop := (d.setLop s st).lop } ∧
    (st ≠ 2 ∨ d.lopState s = 3 → (d.setLop s st).lop = d.lop) ∧ ∀ k, k ≠ s → (d.setLop s st).lopAt k = d.lopAt k := by
  unfold Dev.setLop
  dsimp only
  rw [Dev.pb_eq_sg]
  split
  · next h =>
    refine ⟨rfl, fun hnot => ?_, fun k hk => ?_⟩
    · obtain ⟨hst, hrun⟩ := h
      exact absurd hnot (by simp [hst, hrun])
    · have honly : (d.onLop s fun l => { l with at_ := d.tb }).lopAt k = d.lopAt k := (d.lopAt_onLop s _ k).trans (if_neg (Ne.symm hk))
      exact honly
  · exact ⟨rfl, fun _ => rfl, fun _ _ => rfl⟩

end

/-! ### Operations that start and end beside a slot (R501, R505) -/

/-- From `w` to `e` no byte is written and the status word of slot `s` stands. -/
structure W.SlotKept (s : Nat) (w e : W) : Prop where
  ws : e.ws = w.ws
  zero : e.zero = w.zero
  stat : e.d.rg (Reg.SYS_LOP_STAT s) = w.d.rg (Reg.SYS_LOP_STAT s)

section
variable {s k : Nat} {w e f : W}

theorem W.SlotKept.refl (w : W) : w.SlotKept s w := ⟨rfl, rfl, rfl⟩

theorem W.SlotKept.trans (h : w.SlotKept s e) (h' : e.SlotKept s f) : w.SlotKept s f :=
  ⟨h'.ws.trans h.ws, h'.zero.trans h.zero, h'.stat.trans h.stat⟩

theorem Dev.SysKept.stat {d e : Dev} (h : d.SysKept e) (hs : s < 64) : e.rg (Reg.SYS_LOP_STAT s) = d.rg (Reg.SYS_LOP_STAT s) :=
  h _ (by unfold Reg.SYS_LOP_STAT; omega)

/-- An operation that starts: the verifier is asked, if the operation asks it, and the slot runs. -/
def Dev.lopStarts (asks : Bool) (s : Nat) (d : Dev) : Dev :=
  (if asks then d.useVerifier.onLop s (fun l => { l with sig := some d.useVerifier.sec.vfyEnd }) else d).setLop s 2

theorem W.lopRun_eq (w : W) (s : Nat) :
    w.lopRun s = w.dev (Dev.lopStarts (w.d.lopOp s == 5 && (w.d.lopAt s).sig.isNone && w.formatOk) s) := rfl

theorem W.slotKept_lopRun (hk : k ≠ s) : w.SlotKept s (w.lopRun k) := by
  rw [W.lopRun_eq]
  refine ⟨rfl, rfl, (Dev.rg_setLop_of_ne _ _ _ hk).trans ?_⟩
  split <;> rfl

/-- What starts because nothing holds it back leaves a slot that is not QUEUED. -/
theorem W.slotKept_startQueued (h : w.d.lopState s ≠ 1) : w.SlotKept s w.startQueued := by
  unfold W.startQueued
  generalize List.range 64 = l
  induction l generalizing w with
  | nil => exact .refl w
  | cons k l ih =>
    have hstep : w.SlotKept s (if w.d.lopState k = 1 ∧ !w.lopWaits k then w.lopRun k else w) := by
      split
      · next hrun => exact W.slotKept_lopRun fun heq => h (heq ▸ hrun.1)
      · exact .refl w
    exact hstep.trans (ih fun h1 => h ((Dev.fd_congr hstep.stat).symm.trans h1))

end

section
variable (w : W) {s : Nat} (hs : s < 64)
include hs

/-- A slot that is suspended at once. -/
theorem W.lopSuspended_spec : (w.lopSuspended s).ws = w.ws ∧ (w.lopSuspended s).zero = w.zero ∧
    (w.lopSuspended s).d.fd (Reg.SYS_LOP_STAT s) 0 3 = 4 := by
  let w1 : W := w.dev fun d => (d.setLop s 4).raiseIf ((d.setLop s 4).bt (Reg.SYS_LOP_STAT s) 19) 381
  have hstate : w1.d.fd (Reg.SYS_LOP_STAT s) 0 3 = 4 :=
    (Dev.fd_congr ((Dev.sysKept_raiseIf _ _ _).stat hs)).trans (Dev.fd_setLop _ _ _)
  have hkept : w1.SlotKept s w1.startQueued := W.slotKept_startQueued fun h => absurd (hstate.symm.trans h) (by decide)
  exact ⟨hkept.ws, hkept.zero, (Dev.fd_congr hkept.stat).trans hstate⟩

end

/-- The device as a slot enters DONE, before what is queued starts. -/
def Dev.lopDone (s result cause : Nat) (d : Dev) : Dev :=
  let d := ((d.setLop s 6).sf (Reg.SYS_LOP_STAT s) 4 3 result).sf (Reg.SYS_LOP_STAT s) 8 4 cause
  let b := lopBit Reg.SYS_LOP_DONE_LO Reg.SYS_LOP_DONE_HI s
  let d := if d.bt (Reg.SYS_LOP_STAT s) 19 then (d.sb b.1 b.2).raise 380 else d
  if d.lopOp s = 8 then d.autoRepairAll else d

theorem W.lopEnd_eq (w : W) (s result cause : Nat) : w.lopEnd s result cause = (w.dev (Dev.lopDone s result cause)).startQueued := by
  unfold W.lopEnd Dev.lopDone
  rfl

section
variable {s : Nat} (hs : s < 64) (result cause : Nat)
include hs

theorem Dev.rg_lopDone (d : Dev) : (d.lopDone s result cause).rg (Reg.SYS_LOP_STAT s) =
    (((d.setLop s 6).sf (Reg.SYS_LOP_STAT s) 4 3 result).sf (Reg.SYS_LOP_STAT s) 8 4 cause).rg (Reg.SYS_LOP_STAT s) := by
  have hdone : (lopBit Reg.SYS_LOP_DONE_LO Reg.SYS_LOP_DONE_HI s).1 ≠ Reg.SYS_LOP_STAT s := by
    unfold lopBit
    split
    all_goals
      simp only [Reg.SYS_LOP_DONE_LO, Reg.SYS_LOP_DONE_HI, Reg.SYS_LOP_STAT]
      omega
  have hshow : ∀ e : Dev, (if e.bt (Reg.SYS_LOP_STAT s) 19 then (e.sb (lopBit Reg.SYS_LOP_DONE_LO Reg.SYS_LOP_DONE_HI s).1
      (lopBit Reg.SYS_LOP_DONE_LO Reg.SYS_LOP_DONE_HI s).2).raise 380 else e).rg (Reg.SYS_LOP_STAT s) = e.rg (Reg.SYS_LOP_STAT s) := fun e => by
    split
    · exact ((Dev.sysKept_raise _ _).stat hs).trans (Dev.rg_sg_of_ne _ _ _ _ hdone)
    · rfl
  have hrepair : ∀ e : Dev, (if e.lopOp s = 8 then e.autoRepairAll else e).rg (Reg.SYS_LOP_STAT s) = e.rg (Reg.SYS_LOP_STAT s) := fun e =>
    (Dev.SysKept.ite e.sysKept_autoRepairAll (.refl e)).stat hs
  exact (hrepair _).trans (hshow _)

/-- A slot that ends shows DONE and the result. -/
theorem W.lopEnd_spec (w : W) (hr : result < 8) : (w.lopEnd s result cause).ws = w.ws ∧ (w.lopEnd s result cause).zero = w.zero ∧
    (w.lopEnd s result cause).d.fd (Reg.SYS_LOP_STAT s) 0 3 = 6 ∧ (w.lopEnd s result cause).d.fd (Reg.SYS_LOP_STAT s) 4 3 = result := by
  have hrg := Dev.rg_lopDone hs result cause w.d
  have hstate : (w.d.lopDone s result cause).fd (Reg.SYS_LOP_STAT s) 0 3 = 6 := by
    rw [Dev.fd_congr hrg, Dev.fd_sf_of_disjoint (by omega) (by omega), Dev.fd_sf_of_disjoint (by omega) (by omega), Dev.fd_setLop]
  have hresult : (w.d.lopDone s result cause).fd (Reg.SYS_LOP_STAT s) 4 3 = result := by
    rw [Dev.fd_congr hrg, Dev.fd_sf_of_disjoint (by omega) (by omega), Dev.fd_sf_self (by omega)]
    omega
  have hkept : (w.dev (Dev.lopDone s result cause)).SlotKept s (w.lopEnd s result cause) := by
    rw [W.lopEnd_eq]
    refine W.slotKept_startQueued fun h => ?_
    have hone : (w.d.lopDone s result cause).fd (Reg.SYS_LOP_STAT s) 0 3 = 1 := h
    omega
  exact ⟨hkept.ws, hkept.zero, (Dev.fd_congr hkept.stat).trans hstate, (Dev.fd_congr hkept.stat).trans hresult⟩

/-- A slot that is cancelled at once. -/
theorem W.lopCancelled_spec (w : W) : (w.lopCancelled s).ws = w.ws ∧ (w.lopCancelled s).zero = w.zero ∧
    (w.lopCancelled s).d.fd (Reg.SYS_LOP_STAT s) 0 3 = 6 ∧ (w.lopCancelled s).d.fd (Reg.SYS_LOP_STAT s) 4 3 = 3 := by
  unfold W.lopCancelled
  dsimp only
  obtain ⟨hws, hzero, hstate, hresult⟩ := W.lopEnd_spec hs 3 0 (if w.d.lopOp s = 3 then
    w.dev (fun d => d.onSlice (bits (d.lopP s 0) 0 6) (fun x => { x with lines := [], after := [], slowFrame := [] })) else w) (by decide)
  refine ⟨hws.trans ?_, hzero.trans ?_, hstate, hresult⟩
  all_goals split <;> rfl

end

/-! ### The commands by the slot's state (R500) -/

section
variable {ag : Agent} {s : Nat} {w : W}

theorem Dev.lopApplies_of_awaits {d : Dev} (h : d.lopAwaits s = true) : d.lopApplies s = false := by
  simp only [Dev.lopAwaits, Bool.and_eq_true, beq_iff_eq] at h
  simp [Dev.lopApplies, h]

theorem lopSuspend_eq (h : w.d.ownsSlot ag s = true) : lopSuspend ag s w =
    if w.d.lopState s = 1 then w.lopSuspended s
    else if w.d.lopState s = 2 then
      if w.d.lopApplies s then w.dev Dev.lopErr else if w.d.lopAwaits s then w.lopSuspended s else w.dev (fun d => d.setLop s 3)
    else w.dev Dev.lopErr := by
  unfold lopSuspend
  rw [h, Bool.not_true, if_neg Bool.false_ne_true]
  split <;> simp_all

theorem lopResume_eq (h : w.d.ownsSlot ag s = true) : lopResume ag s w =
    if w.d.lopState s = 3 then w.dev (fun d => d.setLop s 2)
    else if w.d.lopState s = 4 then if w.lopWaits s then w.dev (fun d => d.setLop s 1) else w.lopRun s
    else w.dev Dev.lopErr := by
  unfold lopResume
  rw [h, Bool.not_true, if_neg Bool.false_ne_true]
  split <;> simp_all

theorem lopCancel_eq (h : w.d.ownsSlot ag s = true) : lopCancel ag s w =
    if w.d.lopState s = 1 ∨ w.d.lopState s = 4 then w.lopCancelled s
    else if w.d.lopState s = 2 then
      if w.d.lopApplies s then w.dev Dev.lopErr else if w.d.lopAwaits s then w.lopCancelled s else w.dev (fun d => d.setLop s 5)
    else if w.d.lopState s = 3 then w.dev (fun d => d.setLop s 5)
    else w.dev Dev.lopErr := by
  unfold lopCancel
  rw [h, Bool.not_true, if_neg Bool.false_ne_true]
  split <;> simp_all

end

/-- A change of state that notes no instant moves the slot's status word and SYS_LOP_BUSY alone. -/
theorem State.afterDev_setLop (s : State) {sl n : Nat} (hn : n < 8) (hat : n ≠ 2 ∨ s.d.lopState sl = 3) :
    s.onlyRegs (s.afterDev fun d => d.setLop sl n) [Reg.SYS_LOP_STAT sl, Reg.SYS_LOP_BUSY_LO, Reg.SYS_LOP_BUSY_HI] ∧
      (s.afterDev fun d => d.setLop sl n).d = { s.d with regs := (s.afterDev fun d => d.setLop sl n).d.regs } ∧
      (s.afterDev fun d => d.setLop sl n).d.fd (Reg.SYS_LOP_STAT sl) 0 3 = n := by
  obtain ⟨hframe, hlop, -⟩ := s.d.setLop_frame sl n
  refine ⟨⟨rfl, rfl, fun a ha => ?_⟩, ?_, (Dev.fd_setLop _ _ _).trans (Nat.mod_eq_of_lt hn)⟩
  · obtain ⟨hstat, hbusy⟩ := List.ne_and_not_mem_of_not_mem_cons ha
    exact (Dev.rg_setLop _ _ _ hbusy).trans (Dev.rg_sg_of_ne _ _ _ _ hstat.symm)
  · rw [State.afterDev_d, hframe, hlop hat]

theorem Dev.setLop_frame_sec (d : Dev) (s st : Nat) : d.setLop s st =
    { d with regs := (d.setLop s st).regs, lop := (d.setLop s st).lop, sec := { d.sec with vfyEnd := (d.setLop s st).sec.vfyEnd } } := by
  obtain ⟨hframe, -, -⟩ := d.setLop_frame s st
  have hsec : (d.setLop s st).sec = d.sec := by rw [hframe]
  rw [hsec]
  exact hframe

/-- The verifier's end of work and the slot are all that an operation that starts moves beside its registers. -/
theorem Dev.lopStarts_frame (d : Dev) (asks : Bool) (s : Nat) :
    d.lopStarts asks s = { d with regs := (d.lopStarts asks s).regs, lop := (d.lopStarts asks s).lop,
                                  sec := { d.sec with vfyEnd := (d.lopStarts asks s).sec.vfyEnd } } ∧
      (∀ a, a ∉ [Reg.SYS_LOP_STAT s, Reg.SYS_LOP_BUSY_LO, Reg.SYS_LOP_BUSY_HI] → (d.lopStarts asks s).rg a = d.rg a) ∧
      ∀ k, k ≠ s → (d.lopStarts asks s).lopAt k = d.lopAt k := by
  cases asks
  case false =>
    obtain ⟨-, -, hat⟩ := d.setLop_frame s 2
    refine ⟨d.setLop_frame_sec s 2, fun a ha => ?_, hat⟩
    obtain ⟨hstat, hbusy⟩ := List.ne_and_not_mem_of_not_mem_cons ha
    exact (Dev.rg_setLop _ _ _ hbusy).trans (Dev.rg_sg_of_ne _ _ _ _ hstat.symm)
  case true =>
    let e := d.useVerifier.onLop s (fun l => { l with sig := some d.useVerifier.sec.vfyEnd })
    obtain ⟨-, -, hat⟩ := e.setLop_frame s 2
    refine ⟨e.setLop_frame_sec s 2, fun a ha => ?_, fun k hk => (hat k hk).trans ?_⟩
    · obtain ⟨hstat, hbusy⟩ := List.ne_and_not_mem_of_not_mem_cons ha
      exact (Dev.rg_setLop _ _ _ hbusy).trans (Dev.rg_sg_of_ne _ _ _ _ hstat.symm)
    · exact (Dev.lopAt_onLop _ _ _ _).trans (if_neg (Ne.symm hk))

theorem Dev.fd_lopStarts (d : Dev) (asks : Bool) (s : Nat) : (d.lopStarts asks s).fd (Reg.SYS_LOP_STAT s) 0 3 = 2 := Dev.fd_setLop _ _ _

/-- Settles O51: each command is looked up by the slot's state; what then starts or ends beside the slot leaves its status word. -/
theorem longOperationCommands : Obligations.LongOperationCommands := by
  intro s ag sl op int hup hag hsl hop reg st mine errs goes
  have hst : s.ctx.d.lopState sl = st := rfl
  have hstart : exec (.lopStart ag sl op int) s = .next (s.afterRun (lopStart ag sl op int)) := need_coreRun hup ⟨hag, hsl, hop⟩
  have hsuspend : exec (.lopSuspend ag sl) s = .next (s.afterRun (lopSuspend ag sl)) := need_coreRun hup ⟨hag, hsl⟩
  have hresume : exec (.lopResume ag sl) s = .next (s.afterRun (lopResume ag sl)) := need_coreRun hup ⟨hag, hsl⟩
  have hcancel : exec (.lopCancel ag sl) s = .next (s.afterRun (lopCancel ag sl)) := need_coreRun hup ⟨hag, hsl⟩
  have hdev : ∀ {cmd : Instr} {g : W → W} {f : Dev → Dev}, exec cmd s = .next (s.afterRun g) → g s.ctx = s.ctx.dev f →
      exec cmd s = .next (s.afterDev f) := fun hexec h => hexec.trans (congrArg _ (State.afterRun_eq_afterDev _ _ _ h))
  have hgoes : ∀ {cmd : Instr} {n : Nat}, n < 8 → (n ≠ 2 ∨ st = 3) →
      exec cmd s = .next (s.afterDev fun d => d.setLop sl n) → goes cmd n :=
    fun hn hat hexec => ⟨_, hexec, s.afterDev_setLop hn hat⟩
  have hsuspended : ∀ {cmd : Instr} {g : W → W}, exec cmd s = .next (s.afterRun g) → g s.ctx = s.ctx.lopSuspended sl →
      ∃ t, exec cmd s = .next t ∧ t.d.fd reg 0 3 = 4 ∧ t.mem = s.mem := by
    intro cmd g hexec h
    obtain ⟨hws, hzero, hstate⟩ := W.lopSuspended_spec s.ctx hsl
    rw [← h] at hws hzero hstate
    exact ⟨_, hexec, hstate, State.afterRun_mem_of_quiet _ _ hzero hws⟩
  have hcancelled : ∀ {cmd : Instr} {g : W → W}, exec cmd s = .next (s.afterRun g) → g s.ctx = s.ctx.lopCancelled sl →
      ∃ t, exec cmd s = .next t ∧ t.d.fd reg 0 3 = 6 ∧ t.d.fd reg 4 3 = 3 ∧ t.mem = s.mem := by
    intro cmd g hexec h
    obtain ⟨hws, hzero, hstate, hresult⟩ := W.lopCancelled_spec hsl s.ctx
    rw [← h] at hws hzero hstate hresult
    exact ⟨_, hexec, hstate, hresult, State.afterRun_mem_of_quiet _ _ hzero hws⟩
  refine ⟨fun hnot => ?_, fun hmine => ?_⟩
  · have hnot' : (!s.ctx.d.ownsSlot ag sl) = true := by
      rw [Bool.not_eq_true']
      exact Bool.eq_false_iff.mpr hnot
    exact ⟨hdev hstart (if_pos hnot'), hdev hsuspend (if_pos hnot'), hdev hresume (if_pos hnot'), hdev hcancel (if_pos hnot')⟩
  · have hsus := lopSuspend_eq (w := s.ctx) hmine
    have hres := lopResume_eq (w := s.ctx) hmine
    have hcan := lopCancel_eq (w := s.ctx) hmine
    rw [hst] at hsus hres hcan
    refine ⟨fun h1 h5 => ?_, fun h1 => ?_, fun h2 happ hawait => ?_, fun h2 hawait => ?_, fun h2 happ => ?_,
      fun h1 h2 => ?_, fun h3 => ?_, fun h4 => ?_, fun h3 h4 => ?_, fun h14 => ?_, fun h3 => ?_, fun h05 => ?_⟩
    · have hbusy : s.ctx.d.lopBusy sl = true := by
        rw [Dev.lopBusy, hst, decide_eq_true h1, decide_eq_true h5]
        rfl
      refine hdev hstart ?_
      rw [lopStart, show s.ctx.d.ownsSlot ag sl = true from hmine, hbusy]
      rfl
    · exact hsuspended hsuspend (hsus.trans (if_pos h1))
    · simp only [h2, State.ctx_d, happ, hawait] at hsus hcan
      exact ⟨hgoes (by decide) (.inl (by decide)) (hdev hsuspend hsus), hgoes (by decide) (.inl (by decide)) (hdev hcancel hcan)⟩
    · have happ := Dev.lopApplies_of_awaits hawait
      simp only [h2, State.ctx_d, happ, hawait] at hsus hcan
      exact ⟨hsuspended hsuspend hsus, hcancelled hcancel hcan⟩
    · simp only [h2, State.ctx_d, happ] at hsus hcan
      exact ⟨hdev hsuspend hsus, hdev hcancel hcan⟩
    · exact hdev hsuspend (hsus.trans ((if_neg h1).trans (if_neg h2)))
    · exact hgoes (by decide) (.inr h3) (hdev hresume (hres.trans (if_pos h3)))
    · simp only [h4] at hres
      by_cases hwaits : s.ctx.lopWaits sl = true
      case pos =>
        obtain ⟨honly, -, hstate⟩ := s.afterDev_setLop (sl := sl) (n := 1) (by decide) (.inl (by decide))
        obtain ⟨-, -, hat⟩ := s.d.setLop_frame sl 1
        exact ⟨_, hdev hresume (hres.trans (if_pos hwaits)), honly, s.d.setLop_frame_sec sl 1, hstate.trans (if_pos hwaits).symm, hat⟩
      case neg =>
        have hruns := hres.trans ((if_neg hwaits).trans (s.ctx.lopRun_eq sl))
        obtain ⟨hframe, honly, hat⟩ := s.d.lopStarts_frame (s.d.lopOp sl == 5 && (s.d.lopAt sl).sig.isNone && s.ctx.formatOk) sl
        exact ⟨_, hdev hresume hruns, ⟨rfl, rfl, honly⟩, hframe, (Dev.fd_lopStarts _ _ _).trans (if_neg hwaits).symm, hat⟩
    · exact hdev hresume (hres.trans ((if_neg h3).trans (if_neg h4)))
    · exact hcancelled hcancel (hcan.trans (if_pos h14))
    · simp only [h3] at hcan
      exact hgoes (by decide) (.inl (by decide)) (hdev hcancel hcan)
    · exact hdev hcancel (hcan.trans ((if_neg (by omega)).trans ((if_neg (by omega)).trans (if_neg (by omega)))))

end Sys2Proof.Machine
end

section
/-!
PROOFS. The update commands (O52).
-/

namespace Sys2Proof.Machine

section
variable {ag : Agent} {w : W}

/-- The agents that may write UPD_CMD (R529). -/
theorem updAgent_iff : updAgent ag = true ↔ ag = .host ∨ ag = .core 1 ∨ ag = .dbg := by
  simp [updAgent, or_assoc]

/-- A command of UPD_CMD that finds another agent or another state is refused. -/
theorem updGate_eq_false {st : Nat} (h : ¬(ag = .host ∨ ag = .core 1 ∨ ag = .dbg) ∨ w.d.fd Reg.UPD_STATE 0 3 ≠ st) :
    (updAgent ag && w.d.updIs st) = false := by
  rw [Bool.and_eq_false_iff]
  refine h.imp (fun hag => Bool.eq_false_iff.mpr (mt updAgent_iff.mp hag)) fun hst => ?_
  rw [Dev.updIs]
  exact beq_false_of_ne hst

theorem arm_refused (h : (updAgent ag && w.d.updIs 1) = false) : arm ag w = w.dev Dev.cmdErr := by
  unfold arm
  rw [h]
  split <;> rfl

theorem cold_refused (h : (updAgent ag && w.d.updIs 1) = false) : cold ag w = w.dev Dev.cmdErr := by
  unfold cold
  rw [h]
  rfl

theorem disarm_refused (h : (updAgent ag && w.d.updIs 3) = false) : disarm ag w = w.dev Dev.cmdErr := by
  unfold disarm
  rw [h]
  rfl

/-- A taken DISARM has the record of R530 programmed. -/
theorem disarm_taken (hag : updAgent ag = true) (hst : w.d.updIs 3 = true) (hrec : w.d.upd.rec_ = none) :
    disarm ag w = w.programRecord w.ctlRec.active 0 w.ctlRec.trialSet 0xFF 4 .disarm := by
  unfold disarm
  rw [hag, hst, hrec]
  rfl

theorem confirmToken_refused {hi : Word} (h : ¬(ag = .core 0 ∨ ag = .core 1 ∨ ag = .dbg) ∨ w.d.fd Reg.UPD_STATE 0 3 ≠ 4) :
    confirmToken ag hi w = w.dev (fun d => d.sb Reg.UPD_STAT 2) := by
  have hgate : ((ag == .core 0 || ag == .core 1 || ag == .dbg) && w.d.updIs 4) = false := by
    rw [Bool.and_eq_false_iff]
    refine h.imp (fun hag => ?_) fun hst => ?_
    · simpa [not_or, and_assoc] using hag
    · rw [Dev.updIs]
      exact beq_false_of_ne hst
  unfold confirmToken
  dsimp only
  rw [hgate]
  rfl

end

/-- Settles O52: each command's gate is its first branch. -/
theorem updateCommands : Obligations.UpdateCommands := by
  intro s ag hi hup hag st may errs
  refine ⟨fun h => ⟨need_busSet hup hag ((W.busWrite_arm _ _).trans (arm_refused (updGate_eq_false h))),
      need_busSet hup hag ((W.busWrite_cold _ _).trans (cold_refused (updGate_eq_false h)))⟩,
    fun h => need_busSet hup hag ((W.busWrite_disarm _ _).trans (disarm_refused (updGate_eq_false h))), fun hmay hst hrec => ?_,
    fun h => need_busSet hup hag ((W.busWrite_UPD_CONFIRM_HI _ _ _).trans (confirmToken_refused h))⟩
  exact ⟨_, need_busSet hup hag ((W.busWrite_disarm _ _).trans (disarm_taken (updAgent_iff.mpr hmay) (beq_iff_eq.mpr hst) hrec)),
    ⟨rfl, rfl, fun _ _ => rfl⟩, rfl, rfl⟩

end Sys2Proof.Machine
end
